-- ==== Sys2Proof/Word.lean ====
section
/-! DEFINITION. The word types of the FD-4160 and their plainest arithmetic (R6-R8): bytes, the machine words that
the manual numbers as bits, counts that saturate. -/
namespace Sys2Proof

/-- One byte (R8). -/
abbrev Byte := BitVec 8

/-- A 32-bit word: the mailbox indices (R120), command sequences (R117) and binary32 encodings (R283). -/
abbrev Word32 := BitVec 32

/-- A 64-bit register of BAR0 (R602). -/
abbrev Word64 := BitVec 64

/-- The value of a 20-bit coordinate field (R16). -/
abbrev Coord := Nat

/-- A quire ID (R521). -/
abbrev QuireId := Nat

/-- A TICK_NOW value (R50). -/
abbrev Tick := Nat

/-- An IPv4 address as the number its dotted form spells, first octet highest (R7). -/
abbrev Ip := Nat

/-- Add one to a counter that saturates at `top` (R118, R232, R612, R613). -/
def satSucc (top n : Nat) : Nat := if n < top then n + 1 else top

end Sys2Proof
end

