-- ==== Sys2Proof/Syntax.lean ====
section
/-! DEFINITION. The commands of the block: one constructor for each row of spec/opcode_table.json, with the operands
the row's event carries, and the data types of those operands. -/
namespace Sys2Proof

/-- The two transports of Synen packets (R113-R115). -/
inductive Transport where
  | mailbox
  | eth0
  deriving DecidableEq, Repr

/-- A Synen command packet as delivered (R117); the opcode is the row's own. `payloadLen` is the byte count the
transport delivered after the 16-byte header (R124, R125); `declLen` is the parameter-length field. -/
structure Pkt where
  transport : Transport
  /-- IPv4 source address of the datagram (ETH0), 0 on the mailbox -/
  srcIp     : Ip
  /-- UDP source port of the datagram (ETH0), 0 on the mailbox -/
  srcPort   : Nat
  /-- Ethernet source address of the frame (ETH0), 0 on the mailbox (R127) -/
  srcMac    : Nat
  /-- the channel of the ring the packet was read from, or the flags' channel on ETH0 -/
  ring      : Nat
  version   : Byte
  flags     : Byte
  seq       : Word32
  declLen   : Nat
  quire     : QuireId
  crc       : Word32
  params    : List Byte
  deriving DecidableEq, Repr

/-- Why a management Ethernet frame was discarded (R125, R583, R623); `secured`: a channel 0 message that fails the checks of its
session (R138). -/
inductive EthDiscard where
  | fcs | other | fragment | oversize | format | source | pause | secured
  deriving DecidableEq, Repr

/-- The two members of a mirrored pair: LEDGER-A and LEDGER-B, or ARCHIVE-A and ARCHIVE-B. -/
inductive Dev where
  | a | b
  deriving DecidableEq, Repr

/-- The straps sampled at the deassertion of RST_N (R143, R579). -/
structure Straps where
  vol  : Nat
  role : Nat
  lock : Bool
  pmb  : Bool
  deriving DecidableEq, Repr

/-- One lane's measured values (R111, lane entry). -/
structure LaneEntry where
  rxPower : Int
  txMon   : Int
  snr     : Nat
  ber     : Nat
  deriving DecidableEq, Repr

/-- A sample of every lane and laser input (R111). -/
structure LaneSample where
  els   : List Int
  lanes : List LaneEntry
  deriving DecidableEq, Repr

/-- What the drone phase samples from sensors (R442, R444): package power in 0.1 W and junction temperature in 0.1 °C. -/
structure SensorSample where
  power : Nat
  tj    : Int
  deriving DecidableEq, Repr

/-- One shelf unit's PMBus readings in a polling round (R439, R440); `answered` is false when the unit did not answer. -/
structure ShelfReading where
  unit      : Nat
  answered  : Bool
  vinUvWarn : Bool
  vinUvFault : Bool
  offLow    : Bool
  vinOv     : Bool
  vin       : Nat
  freq      : Nat
  deriving DecidableEq, Repr

/-- An element of the fabric that can be marked suspect (R366). -/
inductive Element where
  /-- a director port -/
  | port (d : Nat)
  /-- an accelerator uplink -/
  | uplink (c : Coord) (u : Nat)
  /-- an electrical link of a gathering, between two slots of it -/
  | elec (g s t : Nat)
  deriving DecidableEq, Repr

/-- The causes of a fatal fault (R369). -/
inductive FatalCause where
  | controlMemory | rootOfTrust | sealOverrun | houseBook | refclk | thermTrip | reservation
  deriving DecidableEq, Repr

/-- A power state or interrupt setting written in PCIe configuration space (R605, R619). -/
inductive CfgReq where
  | powerState (d3 : Bool)
  | msi (enable : Bool) (messages : Nat)
  | intx (enable : Bool)
  deriving DecidableEq, Repr

/-- The instructions of the TAP (R586). -/
inductive JtagInstr where
  | bypass | idcode | samplePreload | extest | clamp | highz
  deriving DecidableEq, Repr

/-- A direction of travel on a ring (R235, R236): ascending or descending stop order. -/
inductive RingDir where
  | asc | desc
  deriving DecidableEq, Repr

/-- An agent of the rings (R235, R236): a cluster by its logical number RC0 to RC159, the control complex, the HBM half-stack
group of a column, or a director port. -/
inductive RingPlace where
  | cluster (rc : Nat)
  | control
  | hbm (col : Nat)
  | port (d : Nat)
  deriving DecidableEq, Repr

/-- The name of a ring packet: its fabric packet, and the fragment index of its tag (R239). -/
structure RingId where
  fabric : Nat
  frag   : Nat
  deriving DecidableEq, Repr

/-- A fragment that waits at its agent's stop to enter the rings (R239, R243). A packet a port or the director's data endpoint
sends is known by its name alone; of one that an agent of the die begins, the rest says its quire, its two ends and its number
of fragments. -/
structure RingOffer where
  id    : RingId
  quire : QuireId
  src   : RingPlace
  dst   : RingPlace
  frags : Nat
  deriving DecidableEq, Repr

/-- A claim on a resource two directors share (R72, R331): body internal to directors, here as data; `vol` is the volume of the
director that makes it. -/
inductive Claim where
  /-- a role change of the shared library link: the acceptance tick, the sender's own port, and the role it takes there -/
  | linkRole (vol : Nat) (tick : Tick) (port : Nat) (library : Bool)
  /-- a library-wide launch (R330, R331): the matched fields -/
  | launch (vol : Nat) (tick : Tick) (quire : QuireId) (tag kind setMode func mode horizon : Nat)
      (descCrc weightCrc : Word32) (set : List Coord)
  /-- a coll.cancel or reset of a library-wide operation (R334, R335) -/
  | cancel (vol : Nat) (tick : Tick) (quire : QuireId) (tag : Nat)
  /-- a lasting fault ended a library-wide operation (R334) -/
  | failed (vol : Nat) (tick : Tick) (quire : QuireId) (tag : Nat)
  /-- a shaper of a library quire on the shared library link: the sender's own port, the quire, the rate or unshaped, the burst -/
  | bandwidth (vol : Nat) (tick : Tick) (port : Nat) (quire : QuireId) (rate : Option Nat) (burst : Nat)
  /-- the sender claims nothing on this link in this tick (R73) -/
  | quiet (vol : Nat) (tick : Tick)
  deriving DecidableEq, Repr

/-- A director's announcement of its part of a library quire (R184). -/
structure Announcement where
  volume   : Nat
  quire    : QuireId
  key      : Nat
  walled   : Bool
  seed     : Nat
  span     : Nat
  members  : List Coord
  /-- the part was released -/
  released : Bool
  deriving DecidableEq, Repr

/-- What a cluster reports at the end of a work item (R278, R279). -/
inductive ItemOutcome where
  | ok
  | tileStoreError
  | retired
  deriving DecidableEq, Repr

/-- One entry of the memory test's findings (R463): a failing row of a leaf, repaired with a spare or not. -/
structure MemFinding where
  leaf     : Nat
  repaired : Bool
  deriving DecidableEq, Repr

/-- The item a retry horizon names (R324, R325): a contribution chunk, or a result leg. -/
inductive RetryItem where
  | chunk (contributor chunk : Nat)
  | leg (dst : Coord) (chunk : Nat)
  deriving DecidableEq, Repr

/-- What a device on an xSPI bus does at CONTROL_START (R92, R100, R102, R456): it does not answer; it can be read but what is written to it
fails its verification twice; or it can be read and written. -/
inductive BusAnswer where
  | silent | unwritable | good
  deriving DecidableEq, Repr

/-- On which journal devices an anchor that the RoT core seals before CONTROL_START verifies (R92, R479). -/
structure AnchorWrite where
  a : Bool
  b : Bool
  deriving DecidableEq, Repr

/-- The commands: one constructor per row of the table, in the table's order. -/
inductive Instr where
  | identColophon (p : Pkt)
  | identAttest (p : Pkt)
  | identCaps (p : Pkt)
  | posAssign (p : Pkt)
  | posLock (p : Pkt)
  | discScan (p : Pkt)
  | discMap (p : Pkt)
  | discManifest (p : Pkt)
  | quireCarve (p : Pkt)
  | quireGrow (p : Pkt)
  | quireRelease (p : Pkt)
  | quireReset (p : Pkt)
  | quireStatus (p : Pkt)
  | routeSolve (p : Pkt)
  | routeInstall (p : Pkt)
  | boreOpen (p : Pkt)
  | boreClose (p : Pkt)
  | routeDrainHold (p : Pkt)
  | routeDrainResume (p : Pkt)
  | rebindPlan (p : Pkt)
  | rebindCommit (p : Pkt)
  | rebindStatus (p : Pkt)
  | portConfig (p : Pkt)
  | shaperSet (p : Pkt)
  | portCounters (p : Pkt)
  | tableLoad (p : Pkt)
  | tableRead (p : Pkt)
  | tableActivate (p : Pkt)
  | redDefine (p : Pkt)
  | collLaunch (p : Pkt)
  | collStatus (p : Pkt)
  | tileRead (p : Pkt)
  | tileWrite (p : Pkt)
  | collCancel (p : Pkt)
  | tenantOpen (p : Pkt)
  | installLinkKey (p : Pkt)
  | retirePrevious (p : Pkt)
  | addTrustRoot (p : Pkt)
  | removeTrustRoot (p : Pkt)
  | tenantEvict (p : Pkt)
  | memScrub (p : Pkt)
  | ledgerStatus (p : Pkt)
  | ledgerCheckpoint (p : Pkt)
  | ledgerRead (p : Pkt)
  | fwDownload (p : Pkt)
  | fwVerify (p : Pkt)
  | fwActivate (p : Pkt)
  | fwConfirm (p : Pkt)
  | fwReject (p : Pkt)
  | fwStatus (p : Pkt)
  | telemSubscribe (p : Pkt)
  | telemSnapshot (p : Pkt)
  | powerStatus (p : Pkt)
  | powerBudget (p : Pkt)
  | chanOpen (p : Pkt)
  | chanClose (p : Pkt)
  | chanNop (p : Pkt)
  | chanFence (p : Pkt)
  | diagLoop (p : Pkt)
  | diagLaneMeasure (p : Pkt)
  | diagLaneResetReference (p : Pkt)
  /-- the host writes `data` into the ring from CMD_TAIL on, then writes CMD_TAIL -/
  | cmdTailWrite (ch : Nat) (data : List Byte) (tail : Word32)
  | rplHeadWrite (ch : Nat) (head : Word32)
  | irqStatClear (w : Word64)
  | irqMaskWrite (w : Word64)
  | rimodeWrite (w : Byte)
  | mbxDoorbellWrite (w : Word64)
  | registerWriteIgnored (offset size : Nat) (w : Word64)
  | arpRequestRx (port : Nat) (target sender : Ip) (mac : Nat)
  | arpReplyRx (port : Nat) (sender : Ip) (mac : Nat)
  | ethFrameDiscard (port : Nat) (why : EthDiscard) (bytes : Nat)
  | ethLinkUp (port : Nat)
  | arpEntryExpiry (port : Nat) (addr : Ip)
  | identReqTimer
  | identRx (src : Ip) (msg : List Byte)
  | setAckRx (src : Ip) (msg : List Byte)
  | setDoneRx (src : Ip) (msg : List Byte)
  | mapRx (src : Ip) (msg : List Byte)
  | alarmRx (src : Ip) (msg : List Byte)
  | setDeadlineExpiry (unit : Nat)
  | dataPacketRx (port : Nat) (uncorrectable : Bool) (pkt : List Byte)
  | linkBeaconRx (port : Nat) (uncorrectable : Bool) (pkt : List Byte)
  | tickBeaconRx (port : Nat) (uncorrectable : Bool) (phaseError : Int) (pkt : List Byte)
  | peerReportRx (port : Nat) (uncorrectable : Bool) (pkt : List Byte)
  | coordinateConfirmationRx (port : Nat) (uncorrectable : Bool) (pkt : List Byte)
  | tableWriteAckRx (port : Nat) (uncorrectable : Bool) (pkt : List Byte)
  | legAckRx (port : Nat) (uncorrectable : Bool) (pkt : List Byte)
  | completionReportRx (port : Nat) (uncorrectable : Bool) (pkt : List Byte)
  | counterReportRx (port : Nat) (uncorrectable : Bool) (pkt : List Byte)
  | retrainRequestRx (port : Nat) (uncorrectable : Bool) (pkt : List Byte)
  | libraryClaimRx (port : Nat) (claim : Claim)
  | quireAnnouncementRx (port : Nat) (ann : Announcement)
  /-- an SPDM message of a house session; `done` says the RoT core's exchange is complete, `good` that it succeeded -/
  | spdmMessageRx (peer : Coord) (msg : List Byte) (done good : Bool)
  | keyMessageAnswerRx (peer : Coord) (msg : List Byte)
  | tickBoundary
  | workPhase
  /-- the step of the task with this identity is still running at the end of the work phase -/
  | stepOverrun (task : Nat)
  | dronePhase (sample : SensorSample)
  | sealPhase
  | drainTimeout (q : QuireId)
  | tickReservationRaise
  | reservationExhausted
  | creditRefill
  | journalWriteStart
  /-- the device transfer in progress ends; for a read-back, whether it matched -/
  | folioWriteDone (matched : Bool)
  | checkpointTimer
  | checkpointStart
  | checkpointCopyDone (dev : Dev) (verified : Bool)
  | laneMarginSample (sample : LaneSample)
  | rstNAssert (ns : Nat)
  | pwrGoodDeassert (ns : Nat)
  | perstNAssert (ns : Nat)
  | bringUpStart (straps : Straps)
  | rotRomDone (romOk fusesOk : Bool)
  /-- the RoT core ends the selection of R479; `anchorWritable` says where its anchor verified -/
  | fwVerifyStageDone (anchorWritable : AnchorWrite)
  /-- what the journal and archive devices do -/
  | controlStart (ledA ledB arcA arcB : BusAnswer)
  | clusterWaveStart (w : Nat)
  | clusterSelftestDone (rc : Nat) (passed : Bool)
  | restoreDone
  | hbmTrainDone (trained : List Bool) (ids : List (List Byte))
  | memTestDone (findings : List MemFinding)
  | leafZeroDone
  | laneTrainDone
  | discoveryComplete
  | entropyReady (ms : Nat)
  | entropyHealthFail
  | drbgReseed
  | scanRoundEnd (plane : Nat)
  | uplinkSilent (c : Coord) (uplink : Nat)
  | boardMissing (g : Nat)
  | houseBoreMove (g : Nat)
  | portLinkEvent (port event : Nat)
  | lstTimerExpiry (port : Nat)
  | elsAlarm (fau : Nat)
  | pathMaskClear (q : QuireId) (g h path : Nat)
  | scheduledDiagLane (e : Element)
  | diagLaneEnd (e : Element) (lanes : List LaneEntry) (uncorrectable reportsMissing : Bool)
  | joinStep (leader : Nat) (leaderIndex : Tick) (delta : Nat)
  | indexJump
  | periodSwitch
  | leaderTimeout
  | alignmentLost
  | fsyncEdge (error : Int)
  | claimTimeout (port : Nat)
  | shadowWriteRetry (c : Coord) (q : QuireId)
  | multicastHorizon (q : QuireId) (seq : Nat)
  | retryHorizon (q : QuireId) (tag : Nat) (item : RetryItem)
  | tagCloseEnd (q : QuireId) (tag : Nat)
  | launchMatchTimeout (q : QuireId) (tag : Nat)
  | workItemDone (q : QuireId) (tag item rc : Nat) (outcome : ItemOutcome)
  | tileZeroDone (q : QuireId)
  | rebindCopyDone (q : QuireId) (uncorrectable : Bool)
  | rebindVerifyTimeout (q : QuireId)
  | resetConfirmTimeout (q : QuireId)
  | evictBound (q : QuireId)
  | scrubDone (leaves : List Nat)
  | patrolScrub (corrected : Nat)
  | hbmEccError (leaf addr : Nat)
  | keyMessageTimeout (peer : Coord) (q : QuireId)
  | houseSessionStart (peer : Coord)
  | houseSessionRetry (peer : Coord)
  | pwrWarnRecognised
  | pwrWarnPulseIgnored
  | pwrWarnDeassert
  | resumption
  | pmbusPoll (readings : List ShelfReading)
  | pmbusReprobe (unit : Nat) (answered : Bool)
  | pmbAlert
  | clusterClockStep
  | budgetCeilingRise
  | thermalCeilingRise
  | thermalTrip
  | fatalFault (cause : FatalCause)
  | confirmWindowExpiry
  | fwReset
  | ringEntry (offer : RingOffer)
  | ringEjectArrival (fabric frag : Nat)
  | portSend (port : Nat)
  /-- a codeword judged uncorrectable; how many packets with a byte in it can be delimited -/
  | uncorrectableCodeword (port packets : Nat)
  | firstStartDisagreement (port : Nat)
  /-- an ECC error in the slot of a ring packet: `double` when uncorrectable -/
  | slotEccError (ring : Nat) (dir : RingDir) (stop : Nat) (pkt : RingId) (double : Bool)
  | degradedModeLeft
  | imageCheckDone
  | archiveWriteDone (dev : Dev) (verified : Bool)
  /-- one OTP fuse was programmed, or could not be -/
  | otpBurnDone (programmed : Bool)
  /-- the RoT core's answer to the ident.attest in progress, or none in 256 ticks -/
  | spdmResponse (rsp : Option (List Byte)) (failed sessionUp sessionDown : Bool) (peerCert : Option (List Byte))
  | perstNDeassert
  | configurationRequest (r : CfgReq)
  | jtagInstruction (i : JtagInstr)
  deriving DecidableEq, Repr

end Sys2Proof
end

