-- ==== Sys2Proof/Config.lean ====
section
/-! DEFINITION. What the implementation fixes and the manual does not state as a function (opaque constants), the free
values of the model, and the named constants of the part. -/
namespace Sys2Proof.Config

/-! ### Free values: the manual leaves the value open, and nothing here constrains it -/

/-- A free natural number, drawn with the model's own counter. -/
opaque freeNat : Nat → Nat

/-- A free truth value, drawn with the model's own counter. -/
opaque freeBool : Nat → Bool

/-- A free byte at an index of a free block. -/
opaque freeByte : Nat → Nat → Byte

/-- Bytes of padding and FCS counted with a frame of this UDP payload (R623 does not say which count). -/
opaque frameExtra : Nat → Nat

/-- The library links from the neighbour of a neighbour on to a volume, less one: from neighbour `n` to volume `v` there are this many and
one, in the tick of this count; none where `v`'s beacons do not reach it (R18, R191: no beacon carries it). -/
opaque libHops : Nat → Nat → Nat → Option Nat

/-! ### Functions the manual names without stating them: cryptography and internal images -/

/-- SHA-384 (R127, R394). -/
opaque sha384 : List Byte → List Byte

/-- AES-256-GCM sealing of a tunnel payload under a key, a nonce and associated data (R406). -/
opaque gcmSeal : List Byte → List Byte → List Byte → List Byte → List Byte

/-- AES-256-GCM opening: the plaintext, or none when the tag fails (R407). -/
opaque gcmOpen : List Byte → List Byte → List Byte → List Byte → Option (List Byte)

/-- The AES-256-GMAC tag of a control packet under the house key a number names, over its nonce and data (R212). -/
opaque gmac : Nat → List Byte → List Byte → List Byte

/-- What the RoT core derives from the device unique secret (R390): the DICE unique device secret and the wrapping key. -/
opaque diceSecret : List Byte → List Byte
opaque wrappingKey : List Byte → List Byte

/-- The house memory key of slot 0, from the device unique secret and the reservation H in force (R390). -/
opaque houseMemoryKey : List Byte → Nat → List Byte

/-- The device identity key pair, from the device unique secret (R392 layer 0): its private and public part. -/
opaque identityKey : List Byte → List Byte × List Byte

/-- The alias key pair, from the device unique secret and the digest of the verified image (R392 layer 1). -/
opaque layerKey : List Byte → List Byte → List Byte × List Byte

/-- The certificates made at manufacture (R392), X.509 in DER: Vioroc's root, its device CA, and the device identity certificate of a
public key. -/
opaque rootCert : List Byte
opaque deviceCaCert : List Byte
opaque identityCert : List Byte → List Byte

/-- The alias certificate of a public key, signed by the device identity key (R392). -/
opaque layerCert : List Byte → List Byte → List Byte

/-- The alias key's signature over the messages of an SPDM exchange that end with these bytes (R392, R394). -/
opaque spdmSign : List Byte → List Byte → List Byte

/-- The digest of the RoT ROM (R394 block 1). -/
opaque romDigest : List Byte

/-- The link key a house key number stands for (R397, R398). -/
opaque houseKey : Nat → List Byte

/-- The SPDM secured message that carries a plaintext under the keys of a session (R137). -/
opaque spdmSeal : Nat → List Byte → List Byte

/-- The plaintext of an SPDM secured message under the keys of a session, or none when its check fails (R137, R138). -/
opaque spdmOpen : Nat → List Byte → Option (List Byte)

/-- The bytes an SPDM secured message takes, from its first bytes (R137: its framing is SPDM's). -/
opaque spdmLength : List Byte → Nat

/-- The internal byte image of a state record's payload, by the sequence of the folio it was first written in (R84: internal to the
director; a copy has the payload of what it copies, R96). -/
opaque folioBytes : Nat → List Byte

/-- The bytes of an object's image in a state record (R84: internal to the director): its class and number (R564) and the folio
that holds it. -/
opaque objectBytes : Nat → Nat → Nat → Nat

/-- The bytes of a checkpoint image after its header, by the checkpoint's number (R107: internal to the director). -/
opaque ckptBytes : Nat → List Byte

/-- The table version field of Vioroc's default image of a kind in a firmware version (R163, R220, R298, R445): the manual
gives the entries of the defaults, and not this field. -/
opaque defaultVersion : Nat → Nat → Nat

/-- The segments of the default ACT curves 2 to 4 (R301): firmware version, curve, segment, and which of bound, slope and
intercept; the values stand in the firmware image. -/
opaque actSegment : Nat → Nat → Nat → Nat → Word32

/-- A state descriptor of the default LST that the manual does not list (R166): the retry states and the unused ones. -/
opaque lstDescriptor : Nat → Nat → List Byte

/-- A cell of the default LST that the manual does not list (R166): firmware version, state, event. -/
opaque lstCell : Nat → Nat → Nat → List Byte

/-- The timer bytes of default LST states 2 and 6 in the image: their 65,536 ticks do not fit the two-byte field (R163,
R166). -/
opaque lstTimerBytes : Nat → Nat → List Byte

/-- The body of a library claim or a quire announcement: its layout is internal to directors (R210, R494). -/
opaque claimBody : List Nat → List Byte

/-- The data bytes in which directors pass the far accumulators and outputs of a library-wide operation to each other: their layout is
internal to directors (R331). -/
opaque farBytes : List Nat → List Byte

/-- The fields such data bytes hold, or none where they are no such message (R331). -/
opaque farFields : List Byte → Option (List Nat)

/-- Whether the firmware image verifies against the colophon's keys (R472): a signature check. -/
opaque imageSigned : List Byte → Bool

/-- Whether the colophon's signature verifies under the device identity key (R469). -/
opaque colophonSigned : List Byte → Bool

/-! ### Constants -/

/-- The part code (R525, R607). -/
def partCode : Nat := 0x4160

/-- The reorder window of a flow (R194). -/
def window : Nat := 4096

/-- The most quires besides the house quire (R521). -/
def quireLimit : Nat := 512

/-- The default drain bound (R195). -/
def defaultDrain : Nat := 2048

/-- The most commands taken in on a channel, and in all, in one tick (R55). -/
def perChannel : Nat := 16
def perTick : Nat := 64

/-- The ring length of a mailbox command or reply ring (R120). -/
def ringBytes : Nat := 32768

/-- The reservation step of the tick index (R51). -/
def reserveStep : Nat := 2 ^ 24

/-- How far before H the director raises it (R99). -/
def reserveLead : Nat := 2 ^ 20

/-- The commit-credit maximum and the count after a restore (R95). -/
def creditMax : Nat := 448
def creditRestore : Nat := 64

/-- Reference cycles per second, REFCLK at 100 MHz (R67). -/
def hz : Nat := 100000000

end Sys2Proof.Config
end

