-- ==== Sys2Proof/Machine/Bytes.lean ====
section
/-! DEFINITION. Bytes and byte order (R7, R8), the CRC-32C of R85, sorted byte stores, and small list helpers. -/
namespace Sys2Proof.Machine

/-- `n` bytes of a number, least significant first (R7). -/
def le : Nat → Nat → List Byte
  | 0, _ => []
  | n + 1, x => BitVec.ofNat 8 x :: le n (x / 256)

/-- The number little-endian bytes spell (R7). -/
def fromLe : List Byte → Nat
  | [] => 0
  | b :: bs => b.toNat + 256 * fromLe bs

/-- Bytes `off` to `off + n - 1` of a list; bytes beyond its end read zero. -/
def slice (l : List Byte) (off n : Nat) : List Byte :=
  let t := (l.drop off).take n
  t ++ List.replicate (n - t.length) 0

/-- The field of `n` bytes at `off` (R7). -/
def field (l : List Byte) (off n : Nat) : Nat := fromLe (slice l off n)

/-- An IPv4 address at `off`, in network order (R7). -/
def fieldIp (l : List Byte) (off : Nat) : Ip := fromLe (slice l off 4).reverse

/-- An IPv4 address in network order (R7). -/
def leIp (ip : Ip) : List Byte := (le 4 ip).reverse

/-- A signed number of `n` bytes as its two's complement encoding. -/
def leInt (n : Nat) (x : Int) : List Byte := le n (x % (256 ^ n : Nat)).toNat

/-- The signed number `n` little-endian bytes at `off` spell. -/
def fieldInt (l : List Byte) (off n : Nat) : Int :=
  let u := field l off n
  if u < 256 ^ n / 2 then u else (u : Int) - (256 ^ n : Nat)

/-- Bit `i` of a number. -/
def bit (x i : Nat) : Bool := x / 2 ^ i % 2 = 1

/-- A truth value as 0 or 1. -/
def b2n (b : Bool) : Nat := if b then 1 else 0

/-- The mask with bit `i` set for each `i` of the list. -/
def mask (l : List Nat) : Nat := l.foldl (fun m i => if bit m i then m else m + 2 ^ i) 0

/-- The bits below `n` that are set, ascending. -/
def bitsOf (x n : Nat) : List Nat := (List.range n).filter (bit x ·)

/-- A number cut at `top` (a saturating field). -/
def sat (top x : Nat) : Nat := if x < top then x else top

/-- `x` rounded up to a multiple of `n`. -/
def roundUp (x n : Nat) : Nat := (x + n - 1) / n * n

/-- Eight steps of the reflected CRC register over one byte (R85). -/
def crcBits : Nat → Nat → Nat
  | 0, c => c
  | n + 1, c => crcBits n (if c % 2 = 1 then Nat.xor (c / 2) 0x82F63B78 else c / 2)

/-- The CRC register after a list of bytes. -/
def crcFold (c : Nat) : List Byte → Nat
  | [] => c
  | b :: bs => crcFold (crcBits 8 (Nat.xor c b.toNat)) bs

/-- CRC-32C (R85): polynomial 0x1EDC_6F41, reflected, initial value and final XOR 0xFFFF_FFFF. -/
def crc32c (l : List Byte) : Word32 := BitVec.ofNat 32 (Nat.xor (crcFold 0xFFFFFFFF l) 0xFFFFFFFF)

/-! ### Byte stores: sorted lists of the bytes that are not zero -/

/-- The byte at an address; an unlisted byte reads zero (R411, R413). -/
def Memory.read (m : List Host.Cell) (a : Nat) : Byte := ((m.find? (·.1 = a)).map (·.2)).getD 0

/-- Write one byte, keeping the list sorted and without zero bytes. -/
def Memory.write : List Host.Cell → Nat → Byte → List Host.Cell
  | [], a, b => if b = 0 then [] else [(a, b)]
  | (x, c) :: m, a, b =>
    if a < x then (if b = 0 then (x, c) :: m else (a, b) :: (x, c) :: m)
    else if a = x then (if b = 0 then m else (a, b) :: m)
    else (x, c) :: Memory.write m a b

/-- Read `n` bytes from `a`. -/
def Memory.readN (m : List Host.Cell) (a : Nat) : Nat → List Byte
  | 0 => []
  | n + 1 => Memory.read m a :: Memory.readN m (a + 1) n

/-- Write a list of bytes from `a`. -/
def Memory.writeN (m : List Host.Cell) (a : Nat) : List Byte → List Host.Cell
  | [] => m
  | b :: bs => Memory.writeN (Memory.write m a b) (a + 1) bs

/-- Zero every byte of `[a, a + n)`. -/
def Memory.clear (m : List Host.Cell) (a n : Nat) : List Host.Cell := m.filter fun c => c.1 < a || a + n ≤ c.1

/-- The canonical form: addresses strictly rising, and no byte that is zero. -/
def Memory.wf : List Host.Cell → Bool
  | [] => true
  | [(_, b)] => b != 0
  | (a, b) :: (x, c) :: m => b != 0 && a < x && Memory.wf ((x, c) :: m)

/-! ### Lists -/

/-- Change the element at index `i`. -/
def modAt {α : Type} (l : List α) (i : Nat) (f : α → α) : List α :=
  match l, i with
  | [], _ => []
  | x :: xs, 0 => f x :: xs
  | x :: xs, i + 1 => x :: modAt xs i f

/-- Change every element a test accepts. -/
def modWhere {α : Type} (l : List α) (p : α → Bool) (f : α → α) : List α := l.map fun x => if p x then f x else x

/-- Add an element to a set held as a list without repeats. -/
def insertNew {α : Type} [DecidableEq α] (x : α) (l : List α) : List α := if x ∈ l then l else l ++ [x]

/-- The sum of a list. -/
def total (l : List Nat) : Nat := l.foldl (· + ·) 0

/-- Whether a list of numbers rises strictly. -/
def rising : List Nat → Bool
  | a :: b :: l => a < b && rising (b :: l)
  | _ => true

/-- Insert into an ascending list. -/
def insertSorted (x : Nat) : List Nat → List Nat
  | [] => [x]
  | y :: l => if x < y then x :: y :: l else if x = y then y :: l else y :: insertSorted x l

end Sys2Proof.Machine
end

