-- ==== Sys2Proof/Machine/State.lean ====
section
/-! DEFINITION. The state of the block: every register, queue, buffer, table and mode the spec gives the director,
as plain data, and the queue of commands that wait. -/
namespace Sys2Proof.Machine

/-- Why the block stops. No command of this model stops with a fault: the type is closed and has one constructor. -/
inductive Fault where
  /-- raised by nothing; every meaning answers a next state. Safe. -/
  | none
  deriving DecidableEq, Repr

/-- Why the model has no meaning for a command. -/
inductive Refusal where
  /-- raised by a dispatch arm of a command that has no meaning yet. Safe. -/
  | notModelled (mnemonic : String)
  deriving DecidableEq, Repr

/-! ### The command channel (R113-R142) -/

/-- The status codes of replies (R141). -/
inductive Status where
  | ok | accepted | retriedOk | retryPending
  | badOpcode | badParam | badLength | badSequence | notPermitted | badCrc
  | busyTick | notReadyEntropy | notReadyBringup
  | drainTimeout | opTimeout | lastingFault | partialLegs | cancelled
  | keyRevoked | keySlotFull | attestFail
  | ledgerDegraded | ledgerFault | booksImbalance
  | fwVerifyFail | fwRollback | powerHoldup
  deriving DecidableEq, Repr

/-- The identity of a command as journaled (R132), and where its replies go: transport, source, and the life of the
channel it was taken in on, which a close or a move ends (R114, R116). -/
structure CmdIdent where
  chan      : Nat
  seq       : Word32
  opcode    : Nat
  crc       : Word32
  accTick   : Tick
  transport : Transport
  ip        : Ip
  port      : Nat
  mac       : Nat
  epoch     : Nat
  /-- the quire its packet named -/
  quire     : QuireId
  deriving DecidableEq, Repr

/-- A reply (R118) and where it is sent (R125). -/
structure Reply where
  chan      : Nat
  opcode    : Nat
  seq       : Word32
  status    : Status
  cached    : Bool
  recovered : Bool
  /-- it answers a command that was taken in, so it becomes that command's latest reply (R131) -/
  taken     : Bool
  accTick   : Tick
  retry     : Nat
  result    : List Byte
  transport : Transport
  ip        : Ip
  port      : Nat
  mac       : Nat
  /-- the quire of the command -/
  quire     : QuireId
  deriving DecidableEq, Repr

/-- One entry of a channel's reply cache (R131): the command, where its replies go, and its latest reply. -/
structure CacheEntry where
  seq       : Word32
  opcode    : Nat
  declLen   : Nat
  crc       : Word32
  accTick   : Tick
  transport : Transport
  ip        : Ip
  port      : Nat
  mac       : Nat
  last      : Option Reply
  /-- the final reply has been posted -/
  final     : Bool
  deriving DecidableEq, Repr

/-- A Synen channel: assignment, binding, mailbox ring, sequence baseline, reply cache, queues and descriptor
counters (R113-R135, R614). -/
structure Channel where
  assigned   : Transport
  isOpen     : Bool
  bound      : Option (Ip × Nat)
  cmdTail    : Word32
  cmdHead    : Word32
  rplTail    : Word32
  rplHead    : Word32
  /-- bytes of the command ring that are not zero, offset rising (R120) -/
  cmdRing    : List Host.Cell
  /-- bytes of the reply ring that are not zero, offset rising (R120) -/
  rplRing    : List Host.Cell
  cmdFault   : Bool
  rplFault   : Bool
  baseline   : Option Word32
  lookupOpen : Bool
  cache      : List CacheEntry
  /-- datagrams of ETH0 that came in and were not taken in yet, with their opcode (R54, R55, R129) -/
  waiting    : List (Nat × Pkt)
  /-- what the intake of the running tick has still to apply, in order (R55, R56) -/
  agenda     : List (Nat × Pkt)
  /-- replies to be posted in the seal phase (R135) -/
  sealQ      : List Reply
  /-- completions to be posted in the next intake phase (R135) -/
  intakeQ    : List Reply
  fence      : Bool
  /-- a chan.close was applied: 1 in its acceptance tick, 2 in the next tick, at the end of whose intake the
  channel closes (R572); 0 none -/
  closing    : Nat
  /-- raised by a reset, a close or a move: replies to commands of an earlier life are discarded (R114, R116) -/
  epoch      : Nat
  /-- replies whose posting phase has come and that could not be posted yet, in the order in which they arose (R129) -/
  dueQ       : List Reply
  /-- candidates left waiting at the last intake (R614) -/
  left       : Nat
  secDiscard : Nat
  refused    : Nat
  taken      : Nat
  armed      : Bool
  deriving DecidableEq, Repr

/-! ### Faults (R358-R384) -/

/-- A 32-byte fault entry (R363). -/
structure FaultEntry where
  tick   : Tick
  cls    : Nat
  fn     : Nat
  status : Nat
  object : Nat
  retry  : Nat
  chan   : Nat
  seq    : Nat
  tag    : Nat
  deriving DecidableEq, Repr

/-- A 24-byte power-event entry (R440). -/
structure PowerEvent where
  tick     : Tick
  kind     : Nat
  unit     : Nat
  vin      : Nat
  duration : Nat
  freq     : Nat
  deriving DecidableEq, Repr

/-- A history record (R82, R96). -/
inductive HistRec where
  | fault (e : FaultEntry)
  | power (e : PowerEvent)
  | lane (tick : Tick) (s : LaneSample)
  deriving DecidableEq, Repr

/-- Transient and lasting counts of a function, and whether it is degraded (R364, R367). -/
structure FnFaults where
  transient : Nat
  lasting   : Nat
  degraded  : Bool
  deriving DecidableEq, Repr

/-- The fault summary of the running life (R363, R364, R370). -/
structure Faults where
  /-- functions 0x01 to 0x10 in order -/
  fns      : List FnFaults
  /-- entries since reset, newest last (telem.snapshot section 3) -/
  entries  : List FaultEntry
  fatal    : Option Nat
  /-- opcode of the step kind that is scheduled alone, and ticks since its last overrun (R367) -/
  slowStep : Option (Nat × Nat)
  suspects : List Element
  /-- elements whose measurement runs, with the commanding task if any and the tick it started (R366, R576) -/
  measuring : List (Element × Option Nat × Tick)
  /-- elements a suspect mark scheduled for measurement (R366) -/
  scheduled : List Element
  deriving DecidableEq, Repr

/-! ### Position, manifest and the discovery map (R143-R167) -/

/-- A port reference (R150). -/
inductive PortRef where
  | dport (d : Nat)
  | uplink (g s p : Nat)
  deriving DecidableEq, Repr

/-- A listed gathering of the manifest (R150). -/
structure GatheringEntry where
  board : Nat
  cap   : Nat
  alt   : Option Nat
  deriving DecidableEq, Repr

/-- The installation manifest (R150). -/
structure Manifest where
  period     : Nat
  fsync      : Bool
  fsyncK     : Nat
  /-- channels 0-7: on ETH0 (R114) -/
  onEth      : List Bool
  ip0        : Ip
  len0       : Nat
  switched   : List Bool
  units      : List Nat
  ip1        : Ip
  len1       : Nat
  libMask    : Nat
  gatherings : List (Option GatheringEntry)
  ocs        : List (Ip × Nat)
  /-- landing of uplink p of g.s at 64g + 4s + p -/
  landing    : List (Option Nat)
  dLanding   : List (Option Nat)
  patches    : List (PortRef × PortRef)
  deriving DecidableEq, Repr

/-- What discovery knows of the board behind a gathering number (R153, R528 section 1). -/
structure Board where
  board    : Nat
  cap      : Nat
  /-- 0 not listed, 1 admitted, 2 missing, 3 not admitted, 4 unreachable -/
  state    : Nat
  house    : Option Nat
  /-- slots recorded live -/
  live     : List Nat
  /-- slots awaiting confirmation -/
  awaiting : List Nat
  deriving DecidableEq, Repr

/-- The recorded state of an uplink (R528 section 2, R159). -/
inductive UplinkState where
  | notListed | unconfirmed | verified | misLanded | silent
  deriving DecidableEq, Repr

/-- A standing mismatch (R162, R528 section 4). -/
structure Mismatch where
  code   : Nat
  plane  : Option Nat
  object : Nat
  found  : Option Nat
  second : Option Nat
  deriving DecidableEq, Repr

/-- The discovery map (ledgered, R82). -/
structure DiscMap where
  boards   : List Board
  uplinks  : List UplinkState
  /-- director ports recorded mis-landed (R159) -/
  dMis     : List Nat
  mismatch : List Mismatch
  /-- unit identifiers recorded per unit index (R182) -/
  unitIds  : List (Option Nat)
  /-- accelerators that declare an SPDM responder (R492) -/
  spdm     : List Coord
  /-- patch connections discovery has found to match (R160) -/
  patchOk  : List Nat
  /-- journal sequence of the map's last change -/
  changeSeq : Nat
  deriving DecidableEq, Repr

/-! ### Quires, bores and routes (R168-R203) -/

/-- A bore a quire holds: its name and its two ends (R168, R169). -/
structure Bore where
  name : Nat
  a    : PortRef
  b    : PortRef
  deriving DecidableEq, Repr

/-- One path of a path list (R187): near slot and uplink, and for a two-bore path the intermediate gathering, exit
slot and exit uplink; with the bores it uses. -/
structure Path where
  bore1    : Nat
  nearSlot : Nat
  nearUp   : Nat
  twoBore  : Bool
  mid      : Nat
  exitSlot : Nat
  exitUp   : Nat
  bore2    : Nat
  /-- slot at which the path enters the destination gathering; 0 for the director -/
  lastSlot : Nat
  deriving DecidableEq, Repr

/-- The path list of an ordered pair of gatherings; 32 stands for the director (R188, R497). -/
structure PairPaths where
  g     : Nat
  h     : Nat
  paths : List Path
  deriving DecidableEq, Repr

/-- A route solution (R188-R190). -/
structure Solution where
  tag     : Tick
  pairs   : List PairPaths
  /-- accelerators of other quires its paths transit -/
  transit : List Coord
  /-- members, bores and mode it was solved from -/
  members : List Coord
  bores   : List Bore
  walled  : Bool
  deriving DecidableEq, Repr

/-- The ledgered part of a quire (R82, R530, R378). -/
structure QuireRec where
  id          : QuireId
  key         : Nat
  walled      : Bool
  seed        : Nat
  span        : Nat
  members     : List Coord
  clusters    : List Nat
  leaves      : List Nat
  ports       : List Nat
  bores       : List Bore
  /-- the bores on which the last install folio rests, and the solution's tag (R197, R199) -/
  installed   : Option (Tick × List Bore)
  resetCount  : Nat
  quarantined : Bool
  evicted     : Bool
  deriving DecidableEq, Repr

/-- A tenant key slot (R400). -/
inductive SlotState where
  | free | opened | keyed | revoking
  deriving DecidableEq, Repr

/-- The ledgered contents of a tenant slot (R400, R401, R409). -/
structure KeySlot where
  state    : SlotState
  quire    : QuireId
  clear    : Bool
  quick    : Bool
  digest   : Option (List Byte)
  cur      : Nat
  prev     : Nat
  /-- wrapped handles by epoch (R401) -/
  handles  : List (Nat × List Byte)
  /-- nonce reservation by epoch (R409) -/
  reserve  : List (Nat × Nat)
  deriving DecidableEq, Repr

/-- A loadable table: the loaded copy, and the active copy (none: Vioroc's default, R544). -/
structure TableRec where
  active : Option (List Byte)
  loaded : Option (List Byte)
  deriving DecidableEq, Repr

/-- The settings a port.config applied (R541). -/
structure PortCfg where
  library : Bool
  enabled : Bool
  fec     : Nat
  snr     : Nat
  deriving DecidableEq, Repr

/-- A shaper setting: rate r (none: unshaped) and burst β (R228). -/
structure ShaperRec where
  quire : QuireId
  port  : Nat
  rate  : Option Nat
  burst : Nat
  deriving DecidableEq, Repr

/-- A rebind that has begun (R350): the payload of its begin group, and whether its commit folio is sealed. -/
structure RebindRec where
  quire     : QuireId
  planTag   : Tick
  accTick   : Tick
  /-- per new grant index: none for a new leaf's old index, some old index when kept -/
  keep      : List (Option Nat)
  newLeaves : List Nat
  close     : List Nat
  opens     : List Bore
  /-- the journal sequence of the begin group's first member, once the commit folio names it -/
  beginSeq  : Nat
  committed : Bool
  deriving DecidableEq, Repr

/-- The ledgered state of the director (R82). -/
structure Led where
  assigned   : Option Nat
  /-- volume the ledgered fabric belongs to (R147) -/
  volume     : Nat
  softLock   : Bool
  manifest   : Option Manifest
  map        : DiscMap
  quires     : List QuireRec
  /-- tenant slots 1 to 63 -/
  slots      : List KeySlot
  lst        : TableRec
  pft        : TableRec
  act        : TableRec
  ttc        : TableRec
  ports      : List (Option PortCfg)
  shapers    : List ShaperRec
  trust      : List (List Byte)
  cap        : Option Nat
  /-- firmware download high-water mark and image length (R474) -/
  fwMark     : Nat
  fwLen      : Nat
  rebinds    : List RebindRec
  retiredRc  : List Nat
  retiredLeaf : List Nat
  deepReq    : Bool
  /-- tick time in hours since the last completed deep test (R460) -/
  deepHours  : Nat
  /-- laser reference power per FAU (R112) -/
  laserRef   : List (Option Int)
  /-- FAU laser sources marked "retirement advised" (R112) -/
  advised    : List Nat
  deriving DecidableEq, Repr

/-- A ledgered object, as a state record holds it: the object's whole new value (R84, R91). -/
inductive Obj where
  | position (assigned : Option Nat) (volume : Nat) (softLock : Bool)
  | manifest (m : Option Manifest)
  | map (m : DiscMap)
  | quire (id : QuireId) (q : Option QuireRec)
  | slot (n : Nat) (k : KeySlot)
  | table (kind : Nat) (t : TableRec)
  | port (d : Nat) (c : PortCfg)
  | shaper (s : ShaperRec)
  | shapersGone (q : QuireId)
  | trust (t : List (List Byte))
  | cap (w : Nat)
  | fwProgress (mark len : Nat)
  | rebind (q : QuireId) (r : Option RebindRec)
  | retireRc (rc : Nat)
  | retireLeaf (leaf : Nat)
  | deepTest (req : Bool) (hours : Nat)
  | laser (ref : List (Option Int)) (advised : List Nat)
  deriving DecidableEq, Repr

/-! ### Volatile fabric state -/

/-- A reduction descriptor (R270). -/
structure Desc where
  kind     : Nat
  mode     : Nat
  rne      : Bool
  optSeed  : Bool
  optAccOut : Bool
  optBias  : Bool
  optAct   : Bool
  optPair  : Bool
  optStats : Bool
  optWeights : Bool
  fan      : Nat
  fmtA     : Nat
  fmtB     : Nat
  fmtY     : Nat
  curve    : Nat
  m        : Nat
  n        : Nat
  k        : Nat
  scaleA   : Word32
  scaleB   : Word32
  scaleY   : Word32
  addrA    : Nat
  addrB    : Nat
  addrSeed : Nat
  addrAcc  : Nat
  addrBias : Nat
  addrY    : Nat
  addrYlo  : Nat
  addrStats : Nat
  deriving DecidableEq, Repr

/-- A rebind plan as staged and solved (R337-R340). -/
structure Plan where
  tag    : Tick
  close  : List Nat
  opens  : List (PortRef × PortRef)
  /-- per new grant index: some old index kept in place, none a new leaf -/
  grant  : List (Option Nat)
  copies : List (Nat × Nat × Nat)
  routes : Solution
  /-- members, bores, leaves and mode at the tag tick (R341) -/
  members : List Coord
  bores  : List Bore
  leaves : List Nat
  walled : Bool
  deriving DecidableEq, Repr

/-- A chunked object being staged (R523): total length and the bytes so far. -/
structure Staging where
  total : Nat
  data  : List Byte
  deriving DecidableEq, Repr

/-- A quire summary last received from an endpoint (R510 kind 1). -/
structure Summary where
  coord      : Coord
  pending    : Bool
  originated : Nat
  accepted   : Nat
  givenUp    : Nat
  /-- the tick in which it arrived -/
  tick       : Tick
  deriving DecidableEq, Repr

/-- What rebind.status reports of the rebind running or last ended (R356, R540). -/
structure RebindStatus where
  state     : Nat
  last      : Option Status
  planTag   : Tick
  accTick   : Tick
  toSwitch  : Nat
  switched  : Nat
  verified  : Nat
  installed : Nat
  copied    : Nat
  toCopy    : Nat
  endTick   : Tick
  deriving DecidableEq, Repr

/-- Why a path is masked (R193, R202). -/
inductive MaskKind where
  | health | transit
  deriving DecidableEq, Repr

/-- A masked path of a quire. -/
structure Mask where
  g    : Nat
  h    : Nat
  path : Nat
  kind : MaskKind
  /-- boundaries since every link of the path was seen up and not suspect (R193) -/
  goodFor : Nat
  deriving DecidableEq, Repr

/-- The volatile part of a quire. -/
structure QuireVol where
  id         : QuireId
  descs      : List (Nat × Desc)
  staged     : Option Solution
  installed  : Option Solution
  planChunks : Option Staging
  plan       : Option Plan
  admitted   : Bool
  /-- a route.drain hold stands (R198) -/
  drainHold  : Bool
  /-- clusters held in reset (R379) -/
  inReset    : Bool
  stale      : Nat
  plainRefused : Nat
  xferRefused  : Nat
  masks      : List Mask
  rebind     : RebindStatus
  announced  : List Announcement
  /-- the router-table index of each endpoint that holds the quire's table (R495) -/
  tables     : List (Coord × Nat)
  /-- endpoints excluded from admission until they confirm a reset (R379) -/
  excluded   : List Coord
  summaries  : List Summary
  /-- packets the director originated, accepted and gave up (R511) -/
  originated : Nat
  accepted   : Nat
  givenUp    : Nat
  deriving DecidableEq, Repr

/-- A result or broadcast leg (R318-R320, R324). -/
structure Leg where
  dst     : Coord
  chunk   : Nat
  seq     : Nat
  acked   : Bool
  failed  : Bool
  /-- ticks outstanding, and whether it was resent -/
  age     : Nat
  retried : Bool
  deriving DecidableEq, Repr

/-- A contribution chunk that is outstanding (R324). -/
structure Missing where
  contributor : Nat
  chunk   : Nat
  age     : Nat
  retried : Bool
  deriving DecidableEq, Repr

/-- What a participant of a library-wide reduction passes for consecutive elements of one chunk (R332-R334): for each element the FP32 far
accumulator and the raw contributions of an unfinished block; or, in the last message of a chunk, the finished output y and the far
accumulator it came from. -/
structure FarChunk where
  vol   : Nat
  chunk : Nat
  /-- index in the chunk of the first element -/
  first : Nat
  last  : Bool
  vals  : List Nat
  raw   : List (List Nat)
  deriving DecidableEq, Repr

/-- The state coll.status reports (R555). -/
inductive OpState where
  | awaiting | live | ended
  deriving DecidableEq, Repr

/-- An operation (R306-R334, R555). -/
structure Op where
  quire    : QuireId
  tag      : Nat
  kind     : Nat
  libMode  : Nat
  setMode  : Nat
  func     : Nat
  descId   : Nat
  desc     : Option Desc
  horizon  : Nat
  set      : List Coord
  stBase   : Nat
  stLen    : Nat
  window   : Nat
  /-- BROADCAST: element format, source and count -/
  bFmt     : Nat
  bSrc     : Nat
  bCount   : Nat
  accTick  : Tick
  progress : Tick
  state    : OpState
  final    : Option Status
  /-- held chunks as (contributor, chunk) -/
  held     : List (Nat × Nat)
  received : Nat
  expected : Nat
  cLow     : Nat
  /-- chunks whose sending each contributor last reported (R510 kind 2) -/
  reported : List (Nat × Nat)
  missing  : List Missing
  /-- items of a RUN, or chunks of a reduction, not yet written -/
  items    : List Nat
  /-- items that failed once (R279) -/
  retriedItems : List Nat
  legs     : List Leg
  retries  : Nat
  retriedAny : Bool
  rejected : Nat
  dups     : Nat
  saturated : Nat
  nanFp4   : Nat
  /-- ticks until the closed tag may be reused (R307) -/
  closing  : Nat
  /-- matching launches received, by volume (R331) -/
  matched  : List Nat
  /-- the task that carries its command -/
  task     : Nat
  /-- its window, or its closing, is to be announced at the next boundary (R314, R328) -/
  tell     : Bool
  /-- contributors or volumes of other participants (R330) -/
  library  : Bool
  /-- what other participants passed (R332-R334) -/
  far      : List FarChunk
  /-- what this director passed, for a resend (R334) -/
  passed   : List FarChunk
  /-- chunks passed to the data endpoint of another director and not known to be taken there (R334) -/
  farLegs  : List Leg
  deriving DecidableEq, Repr

/-- A flow the director's data endpoint receives (R194). -/
structure Flow where
  quire : QuireId
  src   : Coord
  base  : Nat
  got   : List Nat
  /-- lowest unreceived sequence last reported (R506) -/
  reported : Nat
  deriving DecidableEq, Repr

/-- A transfer packet sent and not yet acknowledged (R508): its sequence, the tick of sending, whether it was sent again. -/
structure SentPkt where
  seq    : Nat
  tick   : Tick
  resent : Bool
  body   : List Byte
  deriving DecidableEq, Repr

/-- A flow the director sends (R192, R505, R506): bodies that wait for the window, and packets awaiting
acknowledgement. -/
structure SendFlow where
  quire : QuireId
  dst   : Coord
  next  : Nat
  acked : Nat
  queue : List (List Byte)
  out   : List SentPkt
  deriving DecidableEq, Repr

/-- A multicast in flight (R200, R201). -/
structure Multicast where
  quire  : QuireId
  seq    : Nat
  row    : Bool
  index  : Nat
  func   : Nat
  legs   : List Nat
  acked  : List Nat
  resent : Bool
  tag    : Nat
  chunk  : Nat
  /-- the tick of sending -/
  sent   : Tick
  deriving DecidableEq, Repr

/-- A bucket's level on a port (R228, R229). -/
structure Bucket where
  quire : QuireId
  port  : Nat
  level : Int
  /-- level before refill at cycle 0, and bytes started since (book 6) -/
  before : Int
  spent : Nat
  deriving DecidableEq, Repr

/-- The volatile fabric state: what is lost at reset (R82) but becomes visible only at boundaries (R63). -/
structure Vol where
  quires    : List QuireVol
  ops       : List Op
  /-- bytes of director HBM that are not zero, address rising: leaf × 2^30 + offset (R259, R411) -/
  hbm       : List Host.Cell
  /-- leaves awaiting a scrub (R412) -/
  dirty     : List Nat
  /-- bytes the scrubber may still have written at its rate since it had work (R414) -/
  scrubbed  : Nat
  /-- HBM addresses at which an uncorrectable error recurs (R367) -/
  bad       : List Nat
  /-- telemetry subscription: coordinate and link (R568) -/
  subs      : List (Coord × Nat)
  /-- functions an accelerator last declared in use, as a mask: declared anew they show at the next boundary (R155, R492) -/
  functions : List (Coord × Nat)
  /-- activations of an LST since reset (R166) -/
  lstActs   : Nat
  /-- other directors' latest announcements, of quires held here or not (R184) -/
  parts     : List Announcement
  deriving DecidableEq, Repr

/-- Fabric state: the visible copy and the staged copy have this type (R57, R63). -/
structure Fabric where
  led : Led
  vol : Vol
  deriving DecidableEq, Repr

/-! ### The ledger (R78-R112) -/

/-- A durable change of one command or event, staged for the journal (R90, R91). -/
structure DurRec where
  ident : Option CmdIdent
  /-- the folio kind: 1 state record, 3 rebind-begin, 4 rebind-commit (R86) -/
  kind  : Nat
  objs  : List Obj
  hist  : List HistRec
  /-- the task that waits for the seal -/
  task  : Option Nat
  /-- result of the final reply when the command completes with the seal -/
  result : Option (List Byte)
  /-- the quire a quarantine would withdraw it for (R375) -/
  quire : Option QuireId
  /-- the tick in which it was staged -/
  tick  : Tick
  /-- folios it occupies -/
  folios : Nat
  deriving DecidableEq, Repr

/-- A group: 1 to 16 folios of records placed in order of application (R88, R91). -/
structure Group where
  recs   : List DurRec
  folios : Nat
  /-- the first tick in which its write may start -/
  notBefore : Tick
  deriving DecidableEq, Repr

/-- A slot record of the firmware slot state (R473). -/
structure FwSlot where
  status : Nat
  boots  : Nat
  epoch  : Nat
  len    : Nat
  ver    : Nat
  floor  : Nat
  deriving DecidableEq, Repr

/-- The firmware slot state (R473). -/
structure FwState where
  boot      : Nat
  confirmed : Option Nat
  window    : Nat
  slotA     : FwSlot
  slotB     : FwSlot
  ident     : Option CmdIdent
  deriving DecidableEq, Repr

/-- The anchored values (R98). -/
structure Anchor where
  h        : Tick
  tip      : Nat
  ckNum    : Nat
  ckCovers : Nat
  ckPos    : Nat
  mirror   : Nat
  ckLen    : Nat
  digest   : List Byte
  floor    : Nat
  fw       : FwState
  written  : Nat
  erases   : List Nat
  dropped  : Nat
  deriving DecidableEq, Repr

/-- What a folio's payload holds. -/
inductive FolioBody where
  /-- a record, and the records of older folios whose current images the folio takes over (R97) -/
  | recs (r : List DurRec)
  /-- a further folio of a record that does not fit one -/
  | cont (r : DurRec)
  | anchor (a : Anchor)
  /-- a folio of a kind this firmware treats as reserved (R86) -/
  | unknown
  deriving DecidableEq, Repr

/-- A folio (R84). -/
structure Folio where
  seq     : Nat
  kind    : Nat
  more    : Bool
  carry   : Bool
  tick    : Tick
  prevCrc : Word32
  crc     : Word32
  /-- magic, length and CRC are as R87 requires -/
  good    : Bool
  body    : FolioBody
  /-- the model's own: the sequence of the folio it is a copy of, its own when it is none (R96) -/
  origin  : Nat
  deriving DecidableEq, Repr

/-- A journal device: whether it answers, whether it has failed, and its folios by position (R78). -/
structure JDev where
  answers : Bool
  failed  : Bool
  folios  : List (Nat × Folio)
  deriving DecidableEq, Repr

/-- What is being written to the journal devices (R92). -/
inductive WriteWhat where
  | group (g : Group)
  /-- carry-forward copies, as a group of their own (R96) -/
  | carry
  | anchor (a : Anchor)
  deriving DecidableEq, Repr

/-- A write in progress (R91, R92): the folios left, the device, whether this is its second try, and whether the
read-back runs. -/
structure Writing where
  what    : WriteWhat
  folios  : List Folio
  dev     : Dev
  second  : Bool
  reading : Bool
  deriving DecidableEq, Repr

/-- A checkpoint image in the archive, its header among it (R84, R107): what it covers, the ledgered state as of that sequence, the history
records up to it, the command identities the journal held, and the anchored values. -/
structure Checkpoint where
  number : Nat
  covers : Nat
  tick   : Tick
  h      : Tick
  /-- CRC of the header of the checkpoint with the number one lower -/
  prevCrc : Word32
  led    : Led
  hist   : List HistRec
  idents : List (CmdIdent × Nat)
  anchor : Anchor
  /-- the image is whole; its header stands from the start of its write on -/
  good   : Bool
  deriving DecidableEq, Repr

/-- An archive device (R79, R100, R471). -/
structure ADev where
  answers : Bool
  failed  : Bool
  fails   : Nat
  ckpts   : List (Nat × Checkpoint)
  slotA   : List Byte
  slotB   : List Byte
  /-- the history log by 64 KiB blocks, oldest first (R108) -/
  blocks  : List (List HistRec)
  /-- the reservation block: records of 64 bytes at ascending offsets (R100) -/
  reserve : List (List Byte)
  deriving DecidableEq, Repr

/-- A checkpoint being written (R107): the image and the devices that hold a verified copy. -/
structure CkptRun where
  image    : Checkpoint
  dev      : Dev
  doneA    : Bool
  doneB    : Bool
  sealing  : Bool
  deriving DecidableEq, Repr

/-- What an archive transfer in progress serves (R475, R100, R595). -/
inductive ArchiveJob where
  | chunk (task : Nat) (slot offset : Nat) (data : List Byte) (dev : Dev) (second : Bool) (okA okB : Bool)
  | reserve (h : Tick) (dev : Dev) (okA okB : Bool)
  | eraseCkpt (pos : Nat)
  deriving DecidableEq, Repr

/-- The stages of the power seal (R105, R432-R435). -/
inductive PowerSeal where
  | idle | group | anchor | held
  deriving DecidableEq, Repr

/-- The ledger engine (R78-R112). -/
structure Ledger where
  devA       : JDev
  devB       : JDev
  arcA       : ADev
  arcB       : ADev
  /-- the anchored values as changed, and as the last sealed anchor holds them -/
  anchor     : Anchor
  sealedA    : Anchor
  /-- the anchor image built in the drone phase that awaits its write, and the first tick in which that may start -/
  anchorBuilt : Option (Anchor × Tick)
  /-- reference cycles at which the anchors of the last 64 seconds were started (R98) -/
  anchorTimes : List Nat
  anchorSeq  : Nat
  anchorCrc  : Word32
  /-- an anchored value has changed and waits for its anchor (R98) -/
  anchorDue  : Bool
  tip        : Nat
  tipCrc     : Word32
  credits    : Nat
  unbuilt    : List DurRec
  groups     : List Group
  /-- records sealed during a seal phase, which join the staged state in the next tick (R90) -/
  late       : List DurRec
  writing    : Option Writing
  writeNoCredit : Bool
  /-- uncheckpointed history records with their folio sequence (R97) -/
  hist       : List (Nat × HistRec)
  ckWanted   : Bool
  ckTasks    : List Nat
  ckRun      : Option CkptRun
  /-- reference cycle count at which the last checkpoint started, before zero where an earlier run started it (R106, R109) -/
  ckStart    : Option Int
  ckFolios   : Nat
  /-- identities that a checkpoint gave back where the journal was lost (R103, R133) -/
  ckIdents   : List (CmdIdent × Nat)
  /-- reference cycle count up to which commit credits were refilled (R95) -/
  refillAt   : Nat
  /-- reference cycle count at which the lanes were last sampled, before zero where an earlier run did (R111) -/
  laneAt     : Option Int
  jobs       : List ArchiveJob
  pseal      : PowerSeal
  restoring  : Bool
  restored   : Bool
  factory    : Bool
  notGuaranteed : Bool
  deriving DecidableEq, Repr

/-! ### Multi-tick commands (R58) -/

/-- A route solve in progress (R189): what it solves from and the pairs left. -/
structure SolveJob where
  sol  : Solution
  todo : List (Nat × Nat)
  /-- the bore set and membership it solves over -/
  bores : List Bore
  transitOk : List Coord
  deriving DecidableEq, Repr

/-- A drain in progress (R195): bound, and ticks begun since admission stopped. -/
structure Drain where
  bound : Nat
  count : Nat
  /-- admission stops at the next boundary -/
  started : Bool
  /-- the tick at whose boundary admission stopped -/
  since : Tick
  deriving DecidableEq, Repr

/-- A shadow-table write not yet acknowledged (R535): its offset, the tick it was last sent, whether it was sent once more. -/
structure ShadowWrite where
  off    : Nat
  tick   : Tick
  resent : Bool
  deriving DecidableEq, Repr

/-- Shadow-table writes to one endpoint (R197, R496, R535). -/
structure ShadowJob where
  coord  : Coord
  table  : Nat
  index  : Nat
  image  : List Byte
  /-- offsets not yet acknowledged -/
  unacked : List ShadowWrite
  /-- offsets answered with status 3, to be written again after the switch (R496) -/
  again : List Nat
  deriving DecidableEq, Repr

/-- The steps of a table installation (R197, R343 step 6). -/
inductive InstallStep where
  | draining | writing | sealing | done
  deriving DecidableEq, Repr

/-- The steps of a quire reset or release (R379, R380). -/
inductive ResetStep where
  | transit | start | confirming | revoke | waiting | scrubbing | sealing
  deriving DecidableEq, Repr

/-- The steps of a tenant eviction (R417). -/
inductive EvictStep where
  | revoke | waiting | scrubbing | finishing
  deriving DecidableEq, Repr

/-- The steps of a rebind (R343). -/
inductive RebindStep where
  | draining | beginning | running | verifying | committing | rollingBack
  deriving DecidableEq, Repr

/-- An opened bore of a rebind that is not yet verified (R347): which ends are, the tick its bound counts from, and whether
the second bound runs. -/
structure Verify where
  bore  : Bore
  okA   : Bool
  okB   : Bool
  since : Option Tick
  again : Bool
  deriving DecidableEq, Repr

/-- A rebind in progress (R343): what it carries out, its step, the shadow-table writes, the planes still to switch, the
copying, the bores still to verify, and the status it failed with. -/
structure RebindRun where
  plan    : Plan
  record  : RebindRec
  step    : RebindStep
  drain   : Drain
  jobs    : List ShadowJob
  todo    : List Coord
  planes  : List Nat
  copied  : Bool
  rerun   : Bool
  wasHeld : Bool
  verify  : List Verify
  fail    : Option Status
  deriving DecidableEq, Repr

/-- What a multi-tick command is doing. -/
inductive TaskKind where
  | attest (req : List Byte)
  | scan (mask : Nat)
  | solve (job : SolveJob)
  | install (sol : Solution) (drain : Drain) (step : InstallStep) (jobs : List ShadowJob) (todo : List Coord)
      (parent : Option Nat)
  | boreOpen (a b : PortRef) (plane : Nat)
  | drainHold (drain : Drain)
  | planSolve (plan : Plan) (job : SolveJob)
  | rebind (r : RebindRun)
  | release (force : Bool) (bound : Nat) (step : ResetStep) (confirm : List Coord) (left : Nat)
  | reset (force : Bool) (step : ResetStep) (confirm : List Coord) (left : Nat)
  | activate (table : Nat) (drain : Drain) (quires : List QuireId) (sealing : Bool) (jobs : List ShadowJob)
      (todo : List Coord)
  | launch (tag : Nat)
  | tenantOpen (slot : Nat) (clear quick : Bool) (scrubbed sealed : Bool)
  /-- key messages for an epoch are out (R517) -/
  | keyInstall (slot epoch : Nat) (key : List Byte)
  | evict (slot bound : Nat) (step : EvictStep) (left : Nat)
  | scrub (start len : Nat) (left : Nat)
  | checkpoint
  | download (slot len offset : Nat) (data : List Byte)
  /-- `checked`: the outcome of the check, once it has ended -/
  | verify (slot : Nat) (checked : Option Status)
  | activateFw (slot window : Nat) (now : Bool)
  | confirmFw (burning : Bool)
  | rejectFw
  | fence (mask : Nat) (upTo : Tick) (waitFor : List (Nat × Word32))
  | loop (port : Nat) (left : Nat)
  | lane (e : Element)
  /-- the installed tables are written to endpoints that became live (R197, R199) -/
  | rewrite (sol : Solution) (jobs : List ShadowJob) (todo : List Coord)
  /-- a port.config that changes the role of a shared library link and awaits its claim (R72) -/
  | roleClaim (d : Nat) (cfg : PortCfg)
  /-- a shaper.set on shared library links that awaits its claims (R72) -/
  | shaperClaim (recs : List ShaperRec)
  deriving DecidableEq, Repr

/-- A multi-tick command in progress. -/
structure Task where
  id      : Nat
  ident   : Option CmdIdent
  quire   : QuireId
  kind    : TaskKind
  retries : Nat
  /-- its journal group has sealed (R90) -/
  sealed  : Bool
  /-- its step overran once (R60) -/
  overran : Bool
  /-- the step of the next work phase overruns: it is discarded (R60) -/
  skip    : Bool
  deriving DecidableEq, Repr

/-! ### OCS units (R175-R182) -/

/-- The identity a unit reported in its last IDENT (R177). -/
structure UnitIdent where
  ident    : Nat
  ports    : Nat
  switchUs : Nat
  boot     : Nat
  latching : Bool
  deriving DecidableEq, Repr

/-- An OCS unit as the director knows it (R181, R182). -/
structure OcsUnit where
  ident     : Option UnitIdent
  missed    : Nat
  /-- an IDENT_REQ is unanswered -/
  asked     : Bool
  unresponsive : Bool
  /-- consecutive IDENT_REQ answered since it became degraded (R367) -/
  answered  : Nat
  degraded  : Bool
  lastBoot  : Option Nat
  reconcile : Bool
  /-- peers of its ports as its MAP messages gave them during a reconciliation (R174) -/
  conn      : List (Nat × Nat)
  stray     : List Nat
  deriving DecidableEq, Repr

/-- What a change of connections on a plane serves (R170). -/
inductive ChangeKind where
  | boreOpen (task : Nat)
  | boreClose (name : Nat)
  | cleanup
  | scan (task : Option Nat) (round : Nat) (pairs : List (PortRef × PortRef))
  | reconcile (unit : Nat)
  | rebind (task : Nat)
  /-- the house bore of a gathering moves to a slot (R37) -/
  | houseMove (g slot : Nat)
  deriving DecidableEq, Repr

/-- One unit's part of a change (R171, R172). -/
structure UnitPart where
  unit    : Nat
  gen     : Nat
  entries : List (Nat × Nat)
  /-- entries of later SETs, when one SET cannot hold them (R181) -/
  rest    : List (Nat × Nat)
  done    : Bool
  failed  : Bool
  retried : Bool
  /-- its failure was silence -/
  silent  : Bool
  /-- the reference cycle of the seal phase in which its last SET was sent (R181) -/
  sentAt  : Nat
  deriving DecidableEq, Repr

/-- A change of connections in progress on a plane (R170). -/
structure PlaneChange where
  kind  : ChangeKind
  parts : List UnitPart
  /-- the SETs are sent in the seal phase -/
  sent  : Bool
  /-- the reference cycle at which they were last sent (R158) -/
  sentAt : Nat := 0
  deriving DecidableEq, Repr

/-- A message the director sent to a unit (R176, R177). -/
structure OcsMsg where
  unit : Nat
  type : Nat
  seq  : Nat
  body : List Byte
  deriving DecidableEq, Repr

/-- One round of a scan: its plane, the pairs it joined, and what each uplink then reported (R158, R159). -/
structure ScanRound where
  plane : Nat
  pairs : List (PortRef × PortRef)
  got   : List (PortRef × PortRef)
  deriving DecidableEq, Repr

/-- The OCS control engine. -/
structure Ocs where
  units   : List OcsUnit
  planes  : List (Option PlaneChange)
  /-- planes scanned since bring-up -/
  scanned : List Nat
  /-- planes waiting for a scan, with the task of a disc.scan (R161) -/
  scanDue : List (Nat × Option Nat)
  /-- the rounds of the scans that run -/
  seen    : List ScanRound
  setsNow : Nat
  nextSeq : Nat
  /-- the reference cycle at which the next IDENT_REQ is due (R181) -/
  identAt : Nat
  out     : List OcsMsg
  /-- messages that wait for their unit's address to be resolved (R127) -/
  hold    : List OcsMsg
  /-- bores whose two ends are told at the next boundary that switching is done (R171) -/
  doneNext : List Bore
  /-- landings to disconnect once the plane takes a change: plane and OCS port (R173, R174) -/
  disconnect : List (Nat × Nat)
  /-- gatherings whose house bore is to move (R37) -/
  houseMoves : List Nat
  deriving DecidableEq, Repr

/-! ### Ports, Ethernet, rings -/

/-- The far end a port's last good beacon named (R156, R213). -/
inductive Peer where
  | director (coord port : Nat)
  | accel (coord uplink slot cap board : Nat) (locked : Bool)
  deriving DecidableEq, Repr

/-- A data packet waiting in an egress buffer (R226). -/
structure EgressPkt where
  quire : QuireId
  bytes : List Byte
  deriving DecidableEq, Repr

/-- Link status, data admission, suspect flag as the LST gives them (R163, R165). -/
structure LinkView where
  status : Nat
  data   : Bool
  beacon : Bool
  suspect : Bool
  deriving DecidableEq, Repr

/-- A director optical port (R163-R166, R226-R233). -/
structure Port where
  lst      : Nat
  timer    : Nat
  latched  : List Nat
  /-- visible since the last boundary, and as staged -/
  vis      : LinkView
  stg      : LinkView
  /-- the port is in its degraded mode (R367) -/
  degraded : Bool
  egress   : List EgressPkt
  ctl      : List (List Byte)
  lastServed : QuireId
  peer     : Option Peer
  /-- the link is held down for carrying the director's own volume (R42) -/
  heldDown : Bool
  parsing  : Bool
  counters : List Nat
  /-- FEC_UNCORR_CW at the last sample (R233) -/
  uncorrMark : Nat
  /-- largest occupancy since the last sample, and the accumulated mean -/
  depthMax : Nat
  looping  : Bool
  lanes    : List LaneEntry
  /-- the 64 B slots of packets sent in this tick, and the slots sent before it (R205, R206) -/
  slots    : List (List Byte)
  slotCount : Nat
  /-- slots at the head of those that belong to a packet begun in an earlier tick -/
  carry    : Nat
  deriving DecidableEq, Repr

/-- A frame a management port sent (R125, R127). -/
inductive EthOut where
  | announce (ip : Ip)
  | arpAnswer (ip : Ip) (mac : Nat)
  | arpAsk (ip : Ip)
  /-- a reply; in a channel 0 session as an SPDM secured message (R137) -/
  | synen (r : Reply) (secured : Bool)
  deriving DecidableEq, Repr

/-- A management Ethernet port (R125-R127, R623). -/
structure EthPort where
  up       : Bool
  /-- resolved addresses: address, MAC, and the reference cycle of the answer (R127) -/
  arp      : List (Ip × Nat × Nat)
  /-- addresses an ARP request of the port's own asks for -/
  asks     : List Ip
  counters : List Nat
  sent     : List EthOut
  deriving DecidableEq, Repr

/-- The agents whose eject ports stand at ring stops (R244). -/
inductive Agent where
  | cluster (rc : Nat)
  | turn
  | crossing
  | hbm
  | port (d : Nat)
  deriving DecidableEq, Repr

/-- One ring of a packet's path (R242): the ring (0 to 9 the row rings, 10 to 25 the column rings), the stop it enters at, and the
stop and eject port it is bound for. -/
structure RingLeg where
  ring  : Nat
  src   : Nat
  dst   : Nat
  agent : Agent
  deriving DecidableEq, Repr

/-- A ring packet with its side-band tag (R239), the rings still ahead of it, and the agent it is bound for in the end. -/
structure RingPkt where
  id    : RingId
  quire : QuireId
  ring  : Nat
  dir   : RingDir
  src   : Nat
  dst   : Nat
  agent : Agent
  lap   : Nat
  path  : List RingLeg
  final : RingPlace
  deriving DecidableEq, Repr

/-- The slots of a port's ingress buffer that packets of a quire have taken and released (R371 book 2). -/
structure SlotBook where
  quire    : QuireId
  port     : Nat
  taken    : Nat
  released : Nat
  deriving DecidableEq, Repr

/-- What a ring stop counts for a quire since reset (R249). -/
structure RingBook where
  quire   : QuireId
  ring    : Nat
  stop    : Nat
  entered : Nat
  ejected : Nat
  retired : Nat
  deriving DecidableEq, Repr

/-- What a ring stop latched at the last seal for a quire: its counts, and the packets in its buffers and queues (R249). -/
structure RingLatch where
  quire   : QuireId
  entered : Nat
  ejected : Nat
  retired : Nat
  held    : Nat
  deriving DecidableEq, Repr

/-- A fabric packet that crosses the rings in fragments (R239): its two agents, its fragments in all, those that have entered and those
that have ended, whether a retirement lost one, and whether its discard was charged to SHAPER (R248). -/
structure FabricPkt where
  uid     : Nat
  quire   : QuireId
  bytes   : List Byte
  src     : RingPlace
  dst     : RingPlace
  frags   : Nat
  entered : List Nat
  ended   : List Nat
  dead    : Bool
  charged : Bool
  deriving DecidableEq, Repr

/-- The on-die rings (R235-R254): packets on rings with the stop whose transit buffer holds each, oldest first, eject and turn queues,
oldest first, counters, and the stops at which a packet has entered in the running ring cycle. -/
structure Rings where
  transit : List (RingPkt × Nat)
  ejectQ  : List RingPkt
  /-- fabric packets in ingress buffers and on the rings -/
  fabric  : List FabricPkt
  books   : List RingBook
  latch   : List RingLatch
  /-- the reorder-buffer books of the ports' ingress buffers (R371 book 2) -/
  slots   : List SlotBook
  /-- 52 entries of 16 counters, entry 2ρ + d (R254) -/
  counters : List (List Nat)
  /-- ring, direction and stop -/
  entries : List (Nat × RingDir × Nat)
  nextUid : Nat
  deriving DecidableEq, Repr

/-- A cluster's running state (R257, R457, R458). -/
structure Cluster where
  powered : Bool
  passed  : Bool
  tries   : Nat
  /-- its tile store is being zeroed: the reference cycle at which the tick of the zeroing began (R263) -/
  zeroing : Option Nat
  deriving DecidableEq, Repr

/-! ### Time, library, bring-up -/

/-- The four phases of a tick (R47). -/
inductive Phase where
  | intake | work | drone | seal
  deriving DecidableEq, Repr

/-- The frame tick (R46-R53). -/
structure Clock where
  running  : Bool
  now      : Tick
  period   : Nat
  phase    : Phase
  announced : Option (Nat × Tick)
  /-- reference cycles counted since T₀ -/
  cycles   : Nat
  /-- control packets sent in this tick (R211) -/
  ctlCount : Nat
  /-- change of the drone phase by slew in this tick (R66) -/
  slew     : Int
  sinceSlew : Nat
  fsyncAccepted : Nat
  fsyncIgnored  : Nat
  /-- boundaries crossed at the last edge of FSYNC that fell near a boundary (R71) -/
  fsyncAt  : Option Nat
  tickOut  : Nat
  /-- index and period the next boundary takes (R48, R68) -/
  nextIndex : Option Tick
  nextPeriod : Option Nat
  /-- indices that forward jumps skipped: the index taken, and how many (R53) -/
  skips    : List (Tick × Nat)
  deriving DecidableEq, Repr

/-- A tick beacon last received on a library link (R64, R214). -/
structure Beacon where
  port   : Nat
  volume : Nat
  tick   : Tick
  period : Nat
  leader : Nat
  hops   : Nat
  align  : Nat
  phase  : Int
  /-- ticks since it arrived -/
  age    : Nat
  deriving DecidableEq, Repr

/-- A claim of the director's own (R72, R73): the port of a shared link, or the volume of the participant it is for; the task
that waits for it, and whether it was sent. -/
structure OwnClaim where
  claim  : Claim
  port   : Option Nat
  dest   : Nat
  task   : Option Nat
  sent   : Bool
  deriving DecidableEq, Repr

/-- Library alignment (R64-R73). -/
structure Library where
  align    : Nat
  leader   : Nat
  hops     : Nat
  beacons  : List Beacon
  /-- announced forward jump: boundary and index (R68) -/
  jump     : Option (Tick × Tick)
  /-- consecutive ticks with an error above 64 cycles (R70) -/
  badFor   : Nat
  error    : Int
  own      : List OwnClaim
  heard    : List (Nat × Claim)
  lost     : Bool
  deriving DecidableEq, Repr

/-- The stages of bring-up (R453). -/
inductive Stage where
  | held | rotRom | fwVerify | controlStart | clusterWaves | hbmTrain | memTest | leafZero | laneTrain | discovery
  | inService | halted
  deriving DecidableEq, Repr

/-- Bring-up (R449-R467). -/
structure Boot where
  stage    : Stage
  error    : Nat
  depthSet : Bool
  deep     : Bool
  waves    : Nat
  rcRetired : Nat
  leafRetired : Nat
  straps   : Straps
  /-- the reference cycle at which LANE_TRAIN began (R465) -/
  laneAt   : Nat
  /-- stages ended, which R466 admits commands by -/
  controlEnded : Bool
  leafZeroEnded : Bool
  laneEnded : Bool
  discEnded : Bool
  deriving DecidableEq, Repr

/-- The fuses of the part (R103, R389, R390, R468, R485). -/
structure Fuses where
  /-- the device unique secret, 32 bytes (R390) -/
  dus      : List Byte
  colophon : List Byte
  otp      : Nat
  marker   : Bool
  deriving DecidableEq, Repr

/-! ### Root of trust, power, firmware, interrupts -/

/-- The channel 0 session (R137, R138, R404). -/
structure Session where
  transport : Transport
  ip        : Ip
  port      : Nat
  cert      : Option (List Byte)
  /-- names the session's keys (R137) -/
  key       : Nat
  deriving DecidableEq, Repr

/-- A key pair of the RoT core: its private and its public part. -/
structure KeyPair where
  secret : List Byte
  open_  : List Byte
  deriving DecidableEq, Repr

/-- What the RoT core derives from the device unique secret (R390, R392), empty until it is derived: the DICE unique device secret, the
wrapping key, the house memory key of slot 0, the device identity and alias key pairs, the digest of the image the alias key was derived
for, and the certificates of slot 0 in order. -/
structure Dice where
  uds    : List Byte
  wrap   : List Byte
  house  : List Byte
  device : KeyPair
  layer1 : KeyPair
  image  : List Byte
  chain  : List (List Byte)
  deriving DecidableEq, Repr

/-- A house session (R396). -/
structure HouseSession where
  peer    : Coord
  up      : Bool
  tries   : Nat
  /-- the tick in which its establishment began or failed -/
  since   : Tick
  /-- names the house key of this session (R397) -/
  key     : Nat
  deriving DecidableEq, Repr

/-- The entropy source (R423-R425, R611). -/
structure Entropy where
  state   : Nat
  drbg    : Bool
  /-- reference cycles at which continuous health tests failed, within 24 hours (R425) -/
  failAt  : List Nat
  readyMs : Nat
  /-- generate requests, and the reference cycle, since the DRBG was last seeded (R423) -/
  requests : Nat
  seededAt : Nat
  deriving DecidableEq, Repr

/-- A link key in the RoT core's slot store (R389, R405). -/
structure LinkKey where
  slot  : Nat
  epoch : Nat
  key   : List Byte
  /-- nonce counter (R409) -/
  nonce : Nat
  deriving DecidableEq, Repr

/-- A key message awaiting its answer (R517). -/
structure KeyMsg where
  peer  : Coord
  quire : QuireId
  op    : Nat
  epoch : Nat
  sent  : Tick
  deriving DecidableEq, Repr

/-- The root-of-trust core (R389-R425). -/
structure Rot where
  dice     : Dice
  session  : Option Session
  /-- a change of session state that takes effect at the next boundary (R524) -/
  sessionNext : Option (Option Session)
  house    : List HouseSession
  entropy  : Entropy
  keys     : List LinkKey
  /-- slots that hold a memory key -/
  memKeys  : List Nat
  /-- the accesses and packets in flight under a revoking slot (R402) -/
  refs     : List (Nat × Nat)
  /-- the counts of revoking slots at the last audit (R371 book 5) -/
  refsAt   : List (Nat × Nat)
  keyMsgs  : List KeyMsg
  /-- SPDM messages and key messages sent to peers -/
  sent     : List (Coord × List Byte)
  deriving DecidableEq, Repr

/-- A shelf unit (R438, R439). -/
structure Shelf where
  unit   : Nat
  missed : Nat
  lost   : Bool
  /-- the reference cycle of its last probe, once it is lost (R439) -/
  probeAt : Nat
  deriving DecidableEq, Repr

/-- Power and thermal state (R432-R447). -/
structure Power where
  warn      : Bool
  /-- admission and durable commands held until resumption -/
  holdup    : Bool
  /-- the resumption window runs, since this reference cycle -/
  window    : Option Nat
  warnAt    : Nat
  /-- µs from recognised assertion to recognised deassertion -/
  lastWarn  : Nat
  pulses    : Nat
  warnings  : Nat
  events    : List PowerEvent
  /-- events seen during a hold, journaled at resumption (R440) -/
  kept      : List PowerEvent
  /-- mains events that polling still sees (R440), and the units sent CLEAR_FAULTS (R439) -/
  open_     : List PowerEvent
  clears    : List Nat
  shelves   : List Shelf
  /-- nominal mains frequency in 0.01 Hz, once a frequency was read (R439) -/
  nominal   : Option Nat
  /-- the units were probed (R438) -/
  probed    : Bool
  /-- the reference cycle at which the next polling round is due (R439) -/
  pollAt    : Nat
  /-- PMB_ALERT_N asks for an extra polling round (R596) -/
  alert     : Bool
  clkN      : Nat
  /-- ticks since the clock last went up, and whether it moved in this tick (R441) -/
  sinceUp   : Nat
  stepped   : Bool
  budgetN   : Nat
  /-- the point of the TTC in effect (R444), and its n -/
  thermalPt : Option Nat
  thermalN  : Nat
  lowFor    : Nat
  coolFor   : Nat
  samples   : List Nat
  tj        : Int
  unattainable : Bool
  thermTrip : Bool
  deriving DecidableEq, Repr

/-- A reset that the RoT core is to start (R478): until the final reply is posted, then until admission is stopped and the
quires settle. -/
inductive ResetPlan where
  | awaitReply (task : Option CmdIdent)
  /-- the reply was posted at these reference cycles -/
  | posted (cycles : Nat)
  /-- admission is stopped, since this tick -/
  | stopped (cycles : Nat) (since : Tick)
  /-- the revert anchor cannot be sealed: at once (R482) -/
  | atOnce
  deriving DecidableEq, Repr

/-- Firmware running state (R471-R484). -/
structure Firmware where
  running  : Nat
  ver      : Nat
  /-- a trial boot's confirm window runs; the reference cycle count at which it ends -/
  windowEnd : Option Nat
  stopped  : Bool
  /-- the window ended while PWR_WARN_N held the ledger (R484) -/
  extend   : Bool
  /-- the RoT core is to start a reset (R478) -/
  reset    : Option ResetPlan
  /-- OTP increments are burnt up to this count (R479, R481) -/
  burning  : Option Nat
  reverting : Bool
  deriving DecidableEq, Repr

/-- PCIe function and interrupts (R605, R616-R619). -/
structure Irq where
  stat    : Word64
  mask    : Word64
  rimode  : Byte
  /-- sources that become pending at the next boundary -/
  next    : Word64
  msi     : Option Nat
  intx    : Bool
  d3      : Bool
  perst   : Bool
  /-- MSI messages sent -/
  sent    : List Nat
  inta    : Bool
  deriving DecidableEq, Repr

/-- The descriptor fields of a channel that a boundary fixes, CHAN_STAT and WAITING apart (R604, R614). -/
structure DescLatch where
  baseline : Nat
  discard  : Nat
  refused  : Nat
  taken    : Nat
  bound    : Option (Ip × Nat)
  deriving DecidableEq, Repr

/-- A descriptor before the first boundary: zero (R604). -/
def DescLatch.init : DescLatch := { baseline := 0, discard := 0, refused := 0, taken := 0, bound := none }

/-- The registers latched at a boundary (R604, R607-R613). -/
structure Regs where
  dirId    : Word64
  dirStat  : Word64
  tickNow  : Word64
  tickCfg  : Word64
  bootStat : Word64
  entStat  : Word64
  strapVal : Word64
  faultSum : Word64
  pwrStat  : Word64
  ledgStat : Word64
  /-- CHAN_STAT and WAITING of each descriptor, and MBX_CTL's RINGS and READY (R614, R616) -/
  chanStat : List Nat
  waiting  : List Nat
  /-- BASELINE, SEC_DISCARD, REFUSED, TAKEN and the binding of each descriptor (R614) -/
  descs    : List DescLatch
  mbxRings : Nat
  mbxReady : Bool
  deriving DecidableEq, Repr

/-- What reading commands report of the ledger engine, the power state and the firmware state: as fixed at the last boundary
(R57, R63). -/
structure Shown where
  ledger : Ledger
  power  : Power
  fw     : Firmware
  deriving DecidableEq, Repr

/-- The counter mirror (R621). -/
structure Mirror where
  tick     : Tick
  subs     : Nat
  stale    : Nat
  fsyncIgn : Nat
  fsyncAcc : Nat
  fns      : List FnFaults
  eth0     : List Nat
  eth1     : List Nat
  ports    : List (List Nat)
  rings    : List (List Nat)
  links    : List (List Nat)
  die      : List Nat
  tj       : Int
  lanes    : List (List LaneEntry)
  faults   : List FaultEntry
  power    : List PowerEvent
  deriving DecidableEq, Repr

/-- Endpoint link counters as reported (R234, R515). -/
structure LinkCounters where
  coord  : Coord
  link   : Nat
  vals   : List Nat
  /-- a report arrived in this tick -/
  fresh  : Bool
  /-- the values and the stale mark of the mirror, as of the last sample -/
  shown  : List Nat
  stale  : Bool
  deriving DecidableEq, Repr

/-- The contacts of an xSPI bus that the director drives (R451, R578, R580). -/
inductive Xspi where
  /-- every contact at high impedance, while RST_N is asserted or PWR_GOOD is deasserted -/
  | highZ
  /-- b_CS_N, b_SCK and b_RST_N are driven to these levels, after b_RST_N was driven low for `resetNs` nanoseconds -/
  | driven (csN sck rstN : Bool) (resetNs : Nat)
  deriving DecidableEq, Repr

/-- A bus as the director first accesses its device: deselected, the clock low, the device reset for 10 µs and released (R580). -/
def Xspi.ready : Xspi := .driven true false true 10000

/-- The board pins the director reads and drives (R578), and the TAP (R586). -/
structure Pins where
  rstN     : Bool
  pwrGood  : Bool
  faultN   : Bool
  /-- the buses of LEDGER-A, LEDGER-B, ARCHIVE-A and ARCHIVE-B (R451, R580) -/
  xspi     : List Xspi
  tap      : JtagInstr
  deriving DecidableEq, Repr

/-- Reports discovery works from (R157, R347). -/
structure Disc where
  /-- peer last reported per uplink, with ticks since -/
  peers    : List (Coord × Nat × Option PortRef × Nat)
  /-- boards seen behind house ports, with ticks without one -/
  noBoard  : List (Nat × Nat)
  /-- gatherings seen at their house port, or reported missing, since the last restore (R167) -/
  judged   : List Nat
  /-- electrical links up, as each accelerator last confirmed them (R494) -/
  elec     : List (Coord × Nat)
  complete : Bool
  /-- discovery completes at the next boundary (R465) -/
  due      : Bool
  /-- staged manifest and table images (R523) -/
  manifest : Option Staging
  tables   : List (Nat × Staging)
  deriving DecidableEq, Repr

/-- The state of the block. -/
structure State where
  /-- commands waiting, first in first out -/
  pending  : List Instr
  pins     : Pins
  fuses    : Fuses
  boot     : Boot
  clk      : Clock
  lib      : Library
  vis      : Fabric
  stg      : Fabric
  ledger   : Ledger
  tasks    : List Task
  nextTask : Nat
  chans    : List Channel
  eth0     : EthPort
  eth1     : EthPort
  ocs      : Ocs
  ports    : List Port
  rings    : Rings
  clusters : List Cluster
  flows    : List Flow
  sends    : List SendFlow
  casts    : List Multicast
  buckets  : List Bucket
  links    : List LinkCounters
  disc     : Disc
  faults   : Faults
  rot      : Rot
  power    : Power
  fw       : Firmware
  irq      : Irq
  regs     : Regs
  shown    : Shown
  /-- the counter mirror as it is readable -/
  mirror   : Mirror
  /-- the other buffer of the mirror: the sample of the last drone phase, readable from the next boundary on (R62) -/
  sampled  : Mirror
  /-- the model's own counter of free values drawn so far -/
  freeCtr  : Nat
  deriving DecidableEq, Repr

/-! ### The machine after reset -/

/-- A channel after a reset (R115): mailbox channels open, ETH0 channels closed; before any manifest channels 1 to 3 are
on the mailbox and 4 to 7 on ETH0 (R114). Channel 0 is open on both transports (R138). -/
def Channel.init (onEth : Bool) : Channel where
  assigned := if onEth then .eth0 else .mailbox
  isOpen := !onEth
  bound := none
  cmdTail := 0
  cmdHead := 0
  rplTail := 0
  rplHead := 0
  cmdRing := []
  rplRing := []
  cmdFault := false
  rplFault := false
  baseline := none
  lookupOpen := true
  cache := []
  waiting := []
  agenda := []
  sealQ := []
  intakeQ := []
  fence := false
  closing := 0
  epoch := 0
  dueQ := []
  left := 0
  secDiscard := 0
  refused := 0
  taken := 0
  armed := false

/-- The transports before any manifest (R114). -/
def defaultOnEth : List Bool := [false, false, false, false, true, true, true, true]

/-- The discovery map of a director that has seen nothing. -/
def DiscMap.empty : DiscMap where
  boards := List.replicate 32
    { board := 0, cap := 0, state := 0, house := none, live := [], awaiting := [] }
  uplinks := List.replicate 2048 .notListed
  dMis := []
  mismatch := []
  unitIds := List.replicate 32 none
  spdm := []
  patchOk := []
  changeSeq := 0

/-- A free tenant slot (R400). -/
def KeySlot.init : KeySlot where
  state := .free
  quire := 0
  clear := false
  quick := false
  digest := none
  cur := 0
  prev := 0
  handles := []
  reserve := []

/-- A table kind before its first activation: the active copy is Vioroc's default and no loaded copy exists (R544). -/
def TableRec.init : TableRec := { active := none, loaded := none }

/-- Factory state of the ledger (R103): nothing assigned, no manifest, no quires. -/
def Led.factory : Led where
  assigned := none
  volume := 0
  softLock := false
  manifest := none
  map := DiscMap.empty
  quires := []
  slots := List.replicate 63 KeySlot.init
  lst := TableRec.init
  pft := TableRec.init
  act := TableRec.init
  ttc := TableRec.init
  ports := List.replicate 64 none
  shapers := []
  trust := []
  cap := none
  fwMark := 0
  fwLen := 0
  rebinds := []
  retiredRc := []
  retiredLeaf := []
  deepReq := false
  deepHours := 0
  laserRef := List.replicate 8 none
  advised := []

/-- Volatile fabric state restarts empty (R82). -/
def Vol.init : Vol := { quires := [], ops := [], hbm := [], dirty := [], scrubbed := 0, bad := [], subs := [], functions := [], lstActs := 0, parts := [] }

/-- The fabric after reset. -/
def Fabric.init : Fabric := { led := Led.factory, vol := Vol.init }

/-- An empty firmware slot record (R473). -/
def FwSlot.init : FwSlot := { status := 0, boots := 0, epoch := 0, len := 0, ver := 0, floor := 0 }

/-- The firmware slot state before any anchor. -/
def FwState.init : FwState where
  boot := 0
  confirmed := none
  window := 0
  slotA := FwSlot.init
  slotB := FwSlot.init
  ident := none

/-- The anchored values before any anchor (R98). -/
def Anchor.init : Anchor where
  h := 0
  tip := 0
  ckNum := 0
  ckCovers := 0
  ckPos := 0
  mirror := 0
  ckLen := 0
  digest := List.replicate 48 0
  floor := 0
  fw := FwState.init
  written := 0
  erases := List.replicate 8 0
  dropped := 0

/-- A journal device that holds nothing. -/
def JDev.init : JDev := { answers := true, failed := false, folios := [] }

/-- An archive device that holds nothing. -/
def ADev.init : ADev where
  answers := true
  failed := false
  fails := 0
  ckpts := []
  slotA := []
  slotB := []
  blocks := []
  reserve := []

/-- The ledger engine after reset. -/
def Ledger.init : Ledger where
  devA := JDev.init
  devB := JDev.init
  arcA := ADev.init
  arcB := ADev.init
  anchor := Anchor.init
  sealedA := Anchor.init
  anchorBuilt := none
  anchorTimes := []
  anchorSeq := 0
  anchorCrc := 0
  anchorDue := false
  tip := 0
  tipCrc := 0
  credits := 0
  unbuilt := []
  groups := []
  late := []
  writing := none
  writeNoCredit := false
  hist := []
  ckWanted := false
  ckTasks := []
  ckRun := none
  ckStart := none
  ckFolios := 0
  ckIdents := []
  refillAt := 0
  laneAt := none
  jobs := []
  pseal := .idle
  restoring := false
  restored := false
  factory := false
  notGuaranteed := false

/-- A management Ethernet port whose link is down. -/
def EthPort.init : EthPort := { up := false, arp := [], asks := [], counters := List.replicate 16 0, sent := [] }

/-- A unit the director has not heard. -/
def OcsUnit.init : OcsUnit where
  ident := none
  missed := 0
  asked := false
  unresponsive := false
  answered := 0
  degraded := false
  lastBoot := none
  reconcile := false
  conn := []
  stray := []

/-- The OCS engine after reset. -/
def Ocs.init : Ocs where
  units := List.replicate 32 OcsUnit.init
  planes := List.replicate 4 none
  scanned := []
  scanDue := []
  seen := []
  setsNow := 0
  nextSeq := 0
  identAt := 0
  out := []
  hold := []
  doneNext := []
  disconnect := []
  houseMoves := []

/-- A link as the LST's state 0 gives it before bring-up: down. -/
def LinkView.init : LinkView := { status := 0, data := false, beacon := false, suspect := false }

/-- A director port after reset. -/
def Port.init : Port where
  lst := 0
  timer := 0
  latched := []
  vis := LinkView.init
  stg := LinkView.init
  degraded := false
  egress := []
  ctl := []
  lastServed := 0
  peer := none
  heldDown := false
  parsing := false
  counters := List.replicate 32 0
  uncorrMark := 0
  depthMax := 0
  looping := false
  lanes := []
  slots := []
  slotCount := 0
  carry := 0

/-- Empty rings. -/
def Rings.init : Rings where
  transit := []
  ejectQ := []
  fabric := []
  books := []
  latch := []
  slots := []
  counters := List.replicate 52 (List.replicate 16 0)
  entries := []
  nextUid := 0

/-- A cluster before its wave. -/
def Cluster.init : Cluster := { powered := false, passed := false, tries := 0, zeroing := none }

/-- The frame tick before CONTROL_START: it does not run; the period is 1,024 until a manifest sets it (R46). -/
def Clock.init : Clock where
  running := false
  now := 0
  period := 1024
  phase := .intake
  announced := none
  cycles := 0
  ctlCount := 0
  slew := 0
  sinceSlew := 0
  fsyncAccepted := 0
  fsyncIgnored := 0
  tickOut := 0
  nextIndex := none
  nextPeriod := none
  fsyncAt := none
  skips := []

/-- No library. -/
def Library.init : Library where
  align := 0
  leader := 0
  hops := 0
  beacons := []
  jump := none
  badFor := 0
  error := 0
  own := []
  heard := []
  lost := false

/-- Bring-up before RST_N deasserts. -/
def Boot.init : Boot where
  stage := .held
  error := 0
  depthSet := false
  deep := false
  waves := 0
  rcRetired := 0
  leafRetired := 0
  straps := { vol := 0, role := 0, lock := false, pmb := false }
  laneAt := 0
  controlEnded := false
  leafZeroEnded := false
  laneEnded := false
  discEnded := false

/-- Nothing derived yet. -/
def Dice.init : Dice where
  uds := []
  wrap := []
  house := []
  device := { secret := [], open_ := [] }
  layer1 := { secret := [], open_ := [] }
  image := []
  chain := []

/-- The root-of-trust core after reset. -/
def Rot.init : Rot where
  dice := Dice.init
  session := none
  sessionNext := none
  house := []
  entropy := { state := 0, drbg := false, failAt := [], readyMs := 0, requests := 0, seededAt := 0 }
  keys := []
  memKeys := []
  refs := []
  refsAt := []
  keyMsgs := []
  sent := []

/-- Power after reset: no cluster clock runs before CONTROL_START starts it at n = 4 (R457), and PWR_STAT reads zero (R606). -/
def Power.init : Power where
  warn := false
  holdup := false
  window := none
  warnAt := 0
  lastWarn := 0
  pulses := 0
  warnings := 0
  events := []
  kept := []
  open_ := []
  clears := []
  shelves := []
  nominal := none
  probed := false
  pollAt := 0
  alert := false
  clkN := 0
  sinceUp := 0
  stepped := false
  budgetN := 16
  thermalPt := none
  thermalN := 16
  lowFor := 0
  coolFor := 0
  samples := []
  tj := 0
  unattainable := false
  thermTrip := false

/-- Firmware before FW_VERIFY. -/
def Firmware.init : Firmware where
  running := 0
  ver := 0
  windowEnd := none
  stopped := false
  extend := false
  reset := none
  burning := none
  reverting := false

/-- The PCIe function after reset: every source masked (R606, R618). -/
def Irq.init : Irq where
  stat := 0
  mask := 0x3FFFF
  rimode := 0
  next := 0
  msi := none
  intx := false
  d3 := false
  perst := false
  sent := []
  inta := false

/-- The registers after reset (R606): DIR_ID with the grade field zero (R607), every other register zero. -/
def Regs.init : Regs where
  dirId := 0x1B1004160
  dirStat := 0
  tickNow := 0
  tickCfg := 0
  bootStat := 0
  entStat := 0
  strapVal := 0
  faultSum := 0
  pwrStat := 0
  ledgStat := 0
  chanStat := List.replicate 8 0
  waiting := List.replicate 8 0
  descs := List.replicate 8 DescLatch.init
  mbxRings := 0
  mbxReady := false

/-- The counter mirror reads zero after reset (R606). -/
def Mirror.init : Mirror where
  tick := 0
  subs := 0
  stale := 0
  fsyncIgn := 0
  fsyncAcc := 0
  fns := []
  eth0 := []
  eth1 := []
  ports := []
  rings := []
  links := []
  die := []
  tj := 0
  lanes := []
  faults := []
  power := []

/-- No faults. -/
def Faults.init : Faults where
  fns := List.replicate 16 { transient := 0, lasting := 0, degraded := false }
  entries := []
  fatal := none
  slowStep := none
  suspects := []
  measuring := []
  scheduled := []

/-- The colophon of the model's part: the fields R468 fixes, the lowest legal value of every other field, and zeros where any value is
legal. -/
def Fuses.colophon0 : List Byte :=
  [0x43, 0x4C, 1, 0] ++ List.replicate 7 0x30 ++ [1, 0, 0, 0, 0, 1, 0] ++ List.replicate 10 0xFF ++ List.replicate 292 0

/-- The machine right after reset: RST_N asserted, PWR_GOOD high, nothing started. -/
def State.reset : State where
  pending := []
  pins := { rstN := false, pwrGood := true, faultN := true, xspi := List.replicate 4 .highZ, tap := .idcode }
  fuses := { dus := List.replicate 32 0, colophon := Fuses.colophon0, otp := 0, marker := false }
  boot := Boot.init
  clk := Clock.init
  lib := Library.init
  vis := Fabric.init
  stg := Fabric.init
  ledger := Ledger.init
  tasks := []
  nextTask := 0
  chans := defaultOnEth.map Channel.init
  eth0 := EthPort.init
  eth1 := EthPort.init
  ocs := Ocs.init
  ports := List.replicate 64 Port.init
  rings := Rings.init
  clusters := List.replicate 160 Cluster.init
  flows := []
  sends := []
  casts := []
  buckets := []
  links := []
  disc := { peers := [], noBoard := [], judged := [], elec := [], complete := false, due := false, manifest := none, tables := [] }
  faults := Faults.init
  rot := Rot.init
  power := Power.init
  fw := Firmware.init
  irq := Irq.init
  regs := Regs.init
  shown := { ledger := Ledger.init, power := Power.init, fw := Firmware.init }
  mirror := Mirror.init
  sampled := Mirror.init
  freeCtr := 0

end Sys2Proof.Machine
end

