-- ==== Sys2Proof/Machine/Ops.lean ====
section
/-! DEFINITION. The named operations over the state: replies and channels (R113-R142), durable changes (R90, R91),
fault entries (R363), interrupts (R617-R619) and free values. -/
namespace Sys2Proof.Machine

/-! ### Accessors and updates -/

/-- The channel with this number. -/
def State.chan (s : State) (c : Nat) : Channel := s.chans.getD c (Channel.init true)

/-- Change one channel. -/
def State.updChan (s : State) (c : Nat) (f : Channel → Channel) : State := { s with chans := modAt s.chans c f }

/-- The director port with this number. -/
def State.port (s : State) (d : Nat) : Port := s.ports.getD d Port.init

/-- Change one port. -/
def State.updPort (s : State) (d : Nat) (f : Port → Port) : State := { s with ports := modAt s.ports d f }

/-- The index of the tick in progress (R50). -/
def State.now (s : State) : Tick := s.clk.now

/-- The boundaries crossed since tick t: a forward jump of the index counts as one (R53). -/
def State.since (s : State) (t : Tick) : Nat :=
  s.clk.now - t - ((s.clk.skips.filter fun x => t < x.1).map (·.2)).sum

/-- Change the staged ledgered state. -/
def State.updLed (s : State) (f : Led → Led) : State := { s with stg := { s.stg with led := f s.stg.led } }

/-- Change the staged volatile state. -/
def State.updVol (s : State) (f : Vol → Vol) : State := { s with stg := { s.stg with vol := f s.stg.vol } }

/-- Change the ledger engine. -/
def State.updLedger (s : State) (f : Ledger → Ledger) : State := { s with ledger := f s.ledger }

/-- Draw a free natural number. -/
def State.freeNat (s : State) : Nat × State := (Config.freeNat s.freeCtr, { s with freeCtr := s.freeCtr + 1 })

/-- Draw a free truth value. -/
def State.freeBool (s : State) : Bool × State := (Config.freeBool s.freeCtr, { s with freeCtr := s.freeCtr + 1 })

/-- Draw `n` free bytes. -/
def State.freeBytes (s : State) (n : Nat) : List Byte × State :=
  ((List.range n).map (Config.freeByte s.freeCtr), { s with freeCtr := s.freeCtr + 1 })

/-- Milliseconds and microseconds of reference time (R10). -/
def usCycles (us : Nat) : Nat := us * 100
def msCycles (ms : Nat) : Nat := ms * 100000

/-! ### Parts of the fabric state -/

/-- The record of a quire. -/
def Led.quire (l : Led) (q : QuireId) : Option QuireRec := l.quires.find? (·.id = q)

/-- The volatile part a quire starts with. -/
def QuireVol.init (q : QuireId) : QuireVol where
  id := q
  descs := []
  staged := none
  installed := none
  planChunks := none
  plan := none
  admitted := true
  drainHold := false
  inReset := false
  stale := 0
  plainRefused := 0
  xferRefused := 0
  masks := []
  rebind := { state := 0, last := none, planTag := 0, accTick := 0, toSwitch := 0, switched := 0, verified := 0,
              installed := 0, copied := 0, toCopy := 0, endTick := 0 }
  announced := []
  tables := []
  excluded := []
  summaries := []
  originated := 0
  accepted := 0
  givenUp := 0

/-- The volatile part of a quire. -/
def Vol.quire (v : Vol) (q : QuireId) : QuireVol := (v.quires.find? (·.id = q)).getD (QuireVol.init q)

/-- Change the volatile part of a quire, adding it when the quire had none. -/
def Vol.updQuire (v : Vol) (q : QuireId) (f : QuireVol → QuireVol) : Vol :=
  if v.quires.any (·.id = q) then { v with quires := modWhere v.quires (·.id = q) f }
  else { v with quires := v.quires ++ [f (QuireVol.init q)] }

/-- Change the staged volatile part of a quire. -/
def State.updQuireVol (s : State) (q : QuireId) (f : QuireVol → QuireVol) : State := s.updVol (·.updQuire q f)

/-- A tenant slot, 1 to 63 (R400); slot 0 is the house slot. -/
def Led.slot (l : Led) (n : Nat) : KeySlot := if n = 0 then KeySlot.init else l.slots.getD (n - 1) KeySlot.init

/-- The slot a quire holds, 0 when it holds none (R400). -/
def Led.slotOf (l : Led) (q : QuireId) : Nat :=
  ((List.range 63).find? fun i =>
    let k := l.slots.getD i KeySlot.init
    k.state ≠ .free && k.quire = q).elim 0 (· + 1)

/-- The effective volume (R145): the straps' under STRAP_LOCK or when none is assigned, else the assigned one. -/
def effVolume (b : Boot) (l : Led) : Nat := if b.straps.lock then b.straps.vol else l.assigned.getD b.straps.vol

/-! ### Objects: what a durable change replaces (R84, R90, R91) -/

/-- What object an image replaces. -/
inductive ObjKey where
  | position | manifest | map | quire (q : QuireId) | slot (n : Nat) | table (k : Nat) | port (d : Nat)
  | shaper (q : QuireId) (d : Nat) | trust | cap | fw | rebind (q : QuireId) | none
  deriving DecidableEq, Repr

/-- The object an image replaces; retirements and measured values are held by no command. -/
def Obj.key : Obj → ObjKey
  | .position _ _ _ => .position
  | .manifest _ => .manifest
  | .map _ => .map
  | .quire q _ => .quire q
  | .slot n _ => .slot n
  | .table k _ => .table k
  | .port d _ => .port d
  | .shaper x => .shaper x.quire x.port
  | .shapersGone _ => .none
  | .trust _ => .trust
  | .cap _ => .cap
  | .fwProgress _ _ => .fw
  | .rebind q _ => .rebind q
  | .retireRc _ => .none
  | .retireLeaf _ => .none
  | .deepTest _ _ => .none
  | .laser _ _ => .none

/-- The table record of a kind: 1 LST, 2 PFT, 3 ACT, 4 TTC (R544). -/
def Led.table (l : Led) (k : Nat) : TableRec :=
  if k = 1 then l.lst else if k = 2 then l.pft else if k = 3 then l.act else l.ttc

/-- Put a quire record in, in ascending ID order, or take it out. -/
def putQuire (l : List QuireRec) (q : QuireId) : Option QuireRec → List QuireRec
  | none => l.filter (·.id ≠ q)
  | some r => l.filter (·.id < q) ++ r :: l.filter (q < ·.id)

/-- The ledgered state with one object replaced. -/
def Led.apply (l : Led) : Obj → Led
  | .position a v k => { l with assigned := a, volume := v, softLock := k }
  | .manifest m => { l with manifest := m }
  | .map m => { l with map := m }
  | .quire q r => { l with quires := putQuire l.quires q r }
  | .slot n k => { l with slots := modAt l.slots (n - 1) fun _ => k }
  | .table k t =>
    if k = 1 then { l with lst := t } else if k = 2 then { l with pft := t }
    else if k = 3 then { l with act := t } else { l with ttc := t }
  | .port d c => { l with ports := modAt l.ports d fun _ => some c }
  | .shaper x =>
    { l with shapers := l.shapers.filter (fun y => !(y.quire = x.quire && y.port = x.port)) ++ [x] }
  | .shapersGone q => { l with shapers := l.shapers.filter (·.quire ≠ q) }
  | .trust t => { l with trust := t }
  | .cap w => { l with cap := some w }
  | .fwProgress m n => { l with fwMark := m, fwLen := n }
  | .rebind q r => { l with rebinds := l.rebinds.filter (·.quire ≠ q) ++ r.toList }
  | .retireRc rc => { l with retiredRc := insertSorted rc l.retiredRc }
  | .retireLeaf x => { l with retiredLeaf := insertSorted x l.retiredLeaf }
  | .deepTest r h => { l with deepReq := r, deepHours := h }
  | .laser r a => { l with laserRef := r, advised := a }

/-- The records in the write in progress. -/
def Ledger.inWrite (g : Ledger) : List DurRec :=
  match g.writing with
  | some { what := .group x, .. } => x.recs
  | _ => []

/-- Every durable change that is staged and has not joined the staged state, oldest first (R90). -/
def Ledger.pendingRecs (g : Ledger) : List DurRec := g.late ++ g.inWrite ++ g.groups.flatMap (·.recs) ++ g.unbuilt

/-- The ledgered state a command is validated against (R57): the staged state with every pending change. -/
def State.val (s : State) : Led := (s.ledger.pendingRecs.flatMap (·.objs)).foldl Led.apply s.stg.led

/-- Whether an object's change, applied in an earlier tick, still awaits its seal (R90): the command is BUSY_TICK. -/
def State.awaiting (s : State) (k : ObjKey) : Bool :=
  s.ledger.pendingRecs.any fun r => r.tick != s.now && r.objs.any fun o => o.key = k && k ≠ .none

/-! ### Interrupts (R616-R619) -/

/-- The message of a source with `n` messages granted (R619). -/
def msiMessage (n src : Nat) : Nat := if src < 8 then src % n else 0

/-- The pending, unmasked sources (R618). -/
def Irq.live (i : Irq) : Nat := i.stat.toNat - Nat.land i.stat.toNat i.mask.toNat

/-- The messages that are non-empty. -/
def Irq.messages (i : Irq) (n : Nat) : List Nat :=
  (List.range n).filter fun m => (List.range 18).any fun k => bit i.live k && msiMessage n k = m

/-- Deliver after a change: send each message whose set became non-empty (or stands non-empty after a host write), and
drive INTA (R605, R619). In D3hot no interrupt is sent. -/
def Irq.deliver (old new : Irq) (hostWrite : Bool) : Irq :=
  let sent := match new.msi with
    | some n => if new.d3 then [] else (new.messages n).filter fun m => hostWrite || !(old.messages n).contains m
    | none => []
  { new with sent := new.sent ++ sent, inta := new.msi.isNone && new.intx && !new.d3 && new.live ≠ 0 }

/-- Make sources pending now (R618). -/
def State.raiseNow (s : State) (bits : Word64) : State :=
  { s with irq := Irq.deliver s.irq { s.irq with stat := s.irq.stat ||| bits } false }

/-- Make a source pending at the next boundary (R383, R617). -/
def State.raiseNext (s : State) (k : Nat) : State :=
  { s with irq := { s.irq with next := s.irq.next ||| BitVec.ofNat 64 (2 ^ k) } }

/-! ### Durable changes and faults -/

/-- A history record waits for the journal like any durable change (R82, R96). -/
def histRec (s : State) (h : HistRec) (folios : Nat) : DurRec where
  ident := none
  kind := 2
  objs := []
  hist := [h]
  task := none
  result := none
  quire := none
  tick := s.now
  folios := folios

/-- Both journal devices have failed (R94). -/
def State.ledgerFaulted (s : State) : Bool := s.ledger.devA.failed && s.ledger.devB.failed

/-- One journal device has failed (R93). -/
def State.ledgerDegraded (s : State) : Bool := s.ledger.devA.failed != s.ledger.devB.failed

/-- Stage a durable change for the journal (R90, R91). -/
def State.stage (s : State) (r : DurRec) : State :=
  s.updLedger fun g => { g with unbuilt := g.unbuilt ++ [r] }

/-- A change of ledgered state that the director makes of its own accord: journaled like any other; with a faulted ledger, which no
command can change (R94), it stands unjournaled. -/
def State.stageOwn (s : State) (objs : List Obj) : State :=
  if s.ledgerFaulted then s.updLed fun l => objs.foldl Led.apply l
  else s.stage { ident := none, kind := 1, objs := objs, hist := [], task := none, result := none, quire := none, tick := s.now,
                 folios := 1 }

/-- The folios that uncheckpointed history occupies, those that wait for the journal included (R97). -/
def Ledger.histFolios (g : Ledger) : Nat :=
  g.hist.length + total ((g.pendingRecs.filter (·.kind = 2)).map (·.folios))

/-- Stage a history record. A faulted ledger takes none (R94); one that would exceed 192 folios is dropped and counted in the
next anchor (R97): the counter is one field (R98), so records of every kind are counted together (DESIGN CHOICE, log entry 164). -/
def State.stageHist (s : State) (h : HistRec) (folios : Nat) : State :=
  if s.ledgerFaulted then s
  else if 192 < s.ledger.histFolios + folios then
    s.updLedger fun g => { g with anchor := { g.anchor with dropped := g.anchor.dropped + 1 }, anchorDue := true }
  else s.stage (histRec s h folios)

/-- Insert a fault entry in order of tick, then function (R363). -/
def insertFault (e : FaultEntry) : List FaultEntry → List FaultEntry
  | [] => [e]
  | x :: l => if e.tick < x.tick || (e.tick = x.tick && e.fn < x.fn) then e :: x :: l else x :: insertFault e l

/-- The last `n` elements. -/
def lastN {α : Type} (n : Nat) (l : List α) : List α := l.drop (l.length - n)

/-- Change the counts of a function (codes 0x01 to 0x10). -/
def Faults.updFn (f : Faults) (fn : Nat) (g : FnFaults → FnFaults) : Faults :=
  { f with fns := modAt f.fns (fn - 1) g }

/-- A fault entry with no command and no operation. -/
def FaultEntry.plain (tick : Tick) (cls fn status object : Nat) : FaultEntry where
  tick := tick
  cls := cls
  fn := fn
  status := status
  object := object
  retry := 0
  chan := 0xFF
  seq := 0
  tag := 0

/-- Record a fault entry: count it in FAULT_SUM, keep it, journal it, and raise its interrupt (R359, R360, R363, R364,
R383). -/
def State.addFault (s : State) (e : FaultEntry) : State :=
  let f := s.faults.updFn e.fn fun x =>
    if e.cls = 1 then { x with transient := satSucc 0xFFFFFFFF x.transient }
    else if e.cls = 2 then { x with lasting := satSucc 0xFFFFFFFF x.lasting } else x
  let s := { s with faults := { f with entries := lastN 256 (insertFault e f.entries) } }
  let s := s.stageHist (.fault e) 1
  if e.cls = 2 then s.raiseNext 9 else if e.cls = 4 then s.raiseNext 10 else s

/-- A fault with only its class, function and object. -/
def State.fault (s : State) (cls fn object : Nat) : State := s.addFault (.plain s.now cls fn 0 object)

/-- Put a function into its degraded mode, or take it out (R367). -/
def State.setDegraded (s : State) (fn : Nat) (b : Bool) : State :=
  { s with faults := s.faults.updFn fn fun x => { x with degraded := b } }

/-- A lasting fault of a function: the entry and its degraded mode (R360). -/
def State.lasting (s : State) (fn object : Nat) : State := (s.fault 2 fn object).setDegraded fn true

/-! ### Status codes (R141) -/

/-- The code of a status. -/
def Status.code : Status → Nat
  | .ok => 0x0000
  | .accepted => 0x0001
  | .retriedOk => 0x0002
  | .retryPending => 0x0003
  | .badOpcode => 0x0010
  | .badParam => 0x0011
  | .badLength => 0x0012
  | .badSequence => 0x0013
  | .notPermitted => 0x0014
  | .badCrc => 0x0015
  | .busyTick => 0x0020
  | .notReadyEntropy => 0x0021
  | .notReadyBringup => 0x0022
  | .drainTimeout => 0x0030
  | .opTimeout => 0x0031
  | .lastingFault => 0x0032
  | .partialLegs => 0x0033
  | .cancelled => 0x0034
  | .keyRevoked => 0x0040
  | .keySlotFull => 0x0041
  | .attestFail => 0x0042
  | .ledgerDegraded => 0x0050
  | .ledgerFault => 0x0051
  | .booksImbalance => 0x0052
  | .fwVerifyFail => 0x0060
  | .fwRollback => 0x0061
  | .powerHoldup => 0x0070

/-- A fault entry of the command a task carries, with the status it ends with (R363). -/
def taskEntry (t : Task) (now : Tick) (cls fn object : Nat) (st : Option Status) : FaultEntry :=
  let e := FaultEntry.plain now cls fn (match st with | some x => x.code | none => 0) object
  match t.ident with
  | some i => { e with chan := i.chan, seq := i.seq.toNat, retry := t.retries }
  | none => { e with retry := t.retries }

/-! ### Replies -/

/-- Bytes of a frame that carries a UDP payload: Ethernet, IPv4 and UDP headers, the payload, and what the manual leaves
open of padding and FCS (R623). -/
def frameBytes (payload : Nat) : Nat := 42 + payload + Config.frameExtra payload

/-- The reply's bytes: the 24-byte header of R118 and the result. -/
def Reply.encode (r : Reply) : List Byte :=
  let flags := r.chan % 8 + (if r.status = .accepted then 0 else 8) + (if r.cached then 16 else 0) +
    (if r.recovered then 32 else 0)
  let head := [1, BitVec.ofNat 8 flags] ++ le 2 r.opcode ++ le 4 r.seq.toNat ++ le 2 r.status.code ++
    le 2 r.result.length ++ le 6 r.accTick ++ le 2 (if r.status = .accepted then 0 else sat 0xFFFF r.retry)
  head ++ le 4 (crc32c (head ++ r.result)).toNat ++ r.result

/-- The free bytes of a reply ring (R122, R129). -/
def Channel.replyFree (ch : Channel) : Nat := Config.ringBytes - (ch.rplTail - ch.rplHead).toNat

/-- Whether the ring of a channel is in service (R615). -/
def State.ringIn (s : State) (c : Nat) : Bool :=
  if c = 0 then (match s.rot.session with | some x => x.transport = .mailbox | none => true)
  else (s.chan c).assigned = .mailbox

/-- Write bytes into a ring from a free-running index (R121, R122). -/
def ringWrite (ring : List Host.Cell) (idx : Nat) : List Byte → List Host.Cell
  | [] => ring
  | b :: bs => ringWrite (Memory.write ring (idx % Config.ringBytes) b) (idx + 1) bs

/-- Read bytes of a ring from a free-running index. -/
def ringRead (ring : List Host.Cell) (idx : Nat) : Nat → List Byte
  | 0 => []
  | n + 1 => Memory.read ring (idx % Config.ringBytes) :: ringRead ring (idx + 1) n

/-- The cache entry of a command (R131). -/
def Channel.entry (ch : Channel) (seq : Word32) : Option CacheEntry := ch.cache.find? (·.seq = seq)

/-- Record a reply as the latest of its command. -/
def Channel.latest (ch : Channel) (r : Reply) (posted : Bool) : Channel :=
  if r.cached || !r.taken then ch else
  { ch with cache := modWhere ch.cache (fun e => e.seq = r.seq && e.accTick = r.accTick) fun e =>
      { e with last := some r, final := e.final || (posted && r.status ≠ .accepted) } }

/-- The bytes of a reply as they leave: in a session every reply of channel 0 is an SPDM secured message (R137). -/
def State.replyBytes (s : State) (r : Reply) : List Byte :=
  match (if r.chan = 0 then s.rot.session else none) with
  | some x => Config.spdmSeal x.key r.encode
  | none => r.encode

/-- Whether a reply can be posted now: on ETH0 always; on the mailbox when the ring is in service, consistent and has
room (R122, R123). -/
def State.canPost (s : State) (r : Reply) : Bool :=
  match r.transport with
  | .eth0 => true
  | .mailbox =>
    let ch := s.chan r.chan
    !ch.rplFault && !ch.cmdFault && roundUp (s.replyBytes r).length 64 ≤ ch.replyFree

/-- Post one reply: into the reply ring, advancing RPL_TAIL, then the REPLY interrupt (R122, R616, R620); or in a datagram
(R125). A reply to a ring out of service is discarded (R615). -/
def State.post (s : State) (r : Reply) : State :=
  let s := s.updChan r.chan fun ch => ch.latest r true
  let bytes := s.replyBytes r
  match r.transport with
  | .eth0 =>
    let out := EthOut.synen r (r.chan = 0 && s.rot.session.isSome)
    { s with eth0 := { s.eth0 with sent := s.eth0.sent ++ [out],
                                   counters := modAt (modAt s.eth0.counters 2 (· + 1)) 3 (· + frameBytes bytes.length) } }
  | .mailbox =>
    if s.ringIn r.chan then
      let ch := s.chan r.chan
      let raise := !bit s.irq.rimode.toNat r.chan || ch.armed
      let s := s.updChan r.chan fun ch =>
        { ch with rplRing := ringWrite ch.rplRing ch.rplTail.toNat bytes
                  rplTail := ch.rplTail + BitVec.ofNat 32 (roundUp bytes.length 64)
                  armed := ch.armed && !bit s.irq.rimode.toNat r.chan }
      if raise then s.raiseNow (BitVec.ofNat 64 (2 ^ r.chan)) else s
    else s

/-- Post a queue of replies in order until one cannot be posted; answer what is left (R129). -/
def State.postAll (s : State) : List Reply → State × List Reply
  | [] => (s, [])
  | r :: l => if s.canPost r then (s.post r).postAll l else (s, r :: l)

/-- Post the replies of a channel whose phase has come, in the order in which they arose (R129). -/
def State.flushDue (s : State) (c : Nat) : State :=
  let r := (s.updChan c fun ch => { ch with dueQ := [] }).postAll (s.chan c).dueQ
  r.1.updChan c fun ch => { ch with dueQ := r.2 }

/-- The seal phase posts what it finds in a channel's seal queue (R135). -/
def State.flushSeal (s : State) (c : Nat) : State :=
  (s.updChan c fun ch => { ch with dueQ := ch.dueQ ++ ch.sealQ, sealQ := [] }).flushDue c

/-- The intake phase posts the completions of the boundary (R135). -/
def State.postDue (s : State) (c : Nat) : State :=
  (s.updChan c fun ch => { ch with dueQ := ch.dueQ ++ ch.sealQ ++ ch.intakeQ, sealQ := [], intakeQ := [] }).flushDue c

/-- Queue a reply for the seal phase; within the seal phase it is posted at once (R135). -/
def State.queueSeal (s : State) (r : Reply) : State :=
  let s := s.updChan r.chan fun ch => { ch.latest r false with sealQ := ch.sealQ ++ [r] }
  if s.clk.running && s.clk.phase = .seal then s.flushSeal r.chan else s

/-- Queue a completion for the next intake phase (R135). -/
def State.queueIntake (s : State) (r : Reply) : State :=
  s.updChan r.chan fun ch => { ch with intakeQ := ch.intakeQ ++ [r] }

/-- A command that was taken in (R140): its channel, opcode and packet. -/
structure Taken where
  chan : Nat
  op   : Nat
  pkt  : Pkt
  tick : Tick
  epoch : Nat
  deriving DecidableEq, Repr

/-- The identity a durable change of the command carries (R132). -/
def Taken.ident (c : Taken) : CmdIdent :=
  { chan := c.chan, seq := c.pkt.seq, opcode := c.op, crc := c.pkt.crc, accTick := c.tick,
    transport := c.pkt.transport, ip := c.pkt.srcIp, port := c.pkt.srcPort, mac := c.pkt.srcMac,
    epoch := c.epoch, quire := c.pkt.quire }

/-- A reply to a command taken in. -/
def Taken.reply (c : Taken) (st : Status) (res : List Byte) : Reply where
  chan := c.chan
  opcode := c.op
  seq := c.pkt.seq
  status := st
  cached := false
  recovered := false
  taken := true
  accTick := c.tick
  retry := 0
  result := res
  transport := c.pkt.transport
  ip := c.pkt.srcIp
  port := c.pkt.srcPort
  mac := c.pkt.srcMac
  quire := c.pkt.quire

/-- What a command's handler decides in its acceptance tick: a single final reply, or ACCEPTED with a final reply to
follow (R135). -/
inductive Verdict where
  | reply (st : Status) (res : List Byte)
  | accepted
  deriving DecidableEq, Repr

/-- The meaning of a command once it is taken in and has passed checks 1 to 9. -/
abbrev Handler := Taken → State → State × Verdict

/-- Refuse with a status, changing nothing (R141). -/
def refuse (s : State) (st : Status) : State × Verdict := (s, .reply st [])

/-- Complete a volatile command: its effect is staged, ACCEPTED in this seal, OK in the next intake (R520 class V). -/
def volatileOk (c : Taken) (s : State) (res : List Byte) : State × Verdict :=
  (s.queueIntake (c.reply .ok res), .accepted)

/-- The final reply of a command known by its identity, unless its channel was closed or moved since (R114, R116). -/
def State.finalOf (s : State) (i : CmdIdent) (st : Status) (res : List Byte) (retry : Nat) : Option Reply :=
  if (s.chan i.chan).epoch = i.epoch then
    some { chan := i.chan, opcode := i.opcode, seq := i.seq, status := st, cached := false, recovered := false,
           taken := true, accTick := i.accTick, retry := retry, result := res, transport := i.transport, ip := i.ip,
           port := i.port, mac := i.mac, quire := i.quire }
  else none

/-- Post a failure in this tick's seal (R135). -/
def State.failCmd (s : State) (i : Option CmdIdent) (st : Status) (res : List Byte) (retry : Nat) : State :=
  match i.bind fun i => s.finalOf i st res retry with
  | some r => s.queueSeal r
  | none => s

/-- Post a completion in the next intake (R135). -/
def State.completeCmd (s : State) (i : Option CmdIdent) (st : Status) (res : List Byte) (retry : Nat) : State :=
  match i.bind fun i => s.finalOf i st res retry with
  | some r => s.queueIntake r
  | none => s

/-- OK, or LEDGER_DEGRADED when the change sealed on one device only (R93, R141). -/
def State.sealedOk (s : State) : Status := if s.ledgerDegraded then .ledgerDegraded else .ok

/-- What refuses every durable change: the faulted ledger, then the power warning (R94, R105). -/
def State.durableRefusal (s : State) : Option Status :=
  if s.ledgerFaulted then some .ledgerFault
  else if s.power.holdup then some .powerHoldup
  else none

/-- The durable change of a command. -/
def durRec (c : Taken) (objs : List Obj) (q : Option QuireId) (task : Option Nat) (res : Option (List Byte)) :
    DurRec where
  ident := some c.ident
  kind := 1
  objs := objs
  hist := []
  task := task
  result := res
  quire := q
  tick := c.tick
  folios := 1

/-- Stage a durable command: ACCEPTED, and completion when its group seals (R90), unless the journal refuses. -/
def durable (c : Taken) (s : State) (objs : List Obj) (q : Option QuireId) (res : List Byte) : State × Verdict :=
  match s.durableRefusal with
  | some st => refuse s st
  | none => (s.stage (durRec c objs q none (some res)), .accepted)

/-! ### Multi-tick commands (R58) -/

/-- Start a multi-tick command. -/
def State.startTask (s : State) (ident : Option CmdIdent) (q : QuireId) (k : TaskKind) : State :=
  { s with tasks := s.tasks ++ [{ id := s.nextTask, ident := ident, quire := q, kind := k, retries := 0,
                                  sealed := false, overran := false, skip := false }]
           nextTask := s.nextTask + 1 }

/-- Accept a multi-tick command (R520 class M). -/
def multi (c : Taken) (s : State) (k : TaskKind) : State × Verdict :=
  (s.startTask (some c.ident) c.pkt.quire k, .accepted)

/-- Change one task. -/
def State.updTask (s : State) (id : Nat) (f : Task → Task) : State :=
  { s with tasks := modWhere s.tasks (·.id = id) f }

/-- The task with this identity. -/
def State.task (s : State) (id : Nat) : Option Task := s.tasks.find? (·.id = id)

/-- Remove a task. -/
def State.dropTask (s : State) (id : Nat) : State := { s with tasks := s.tasks.filter (·.id ≠ id) }

/-- End a task in failure: its final reply goes out in this seal (R135). -/
def State.failTask (s : State) (t : Task) (st : Status) (res : List Byte) : State :=
  (s.dropTask t.id).failCmd t.ident st res t.retries

/-- End a task in success: its final reply goes out in the next intake (R135). -/
def State.endTask (s : State) (t : Task) (st : Status) (res : List Byte) : State :=
  (s.dropTask t.id).completeCmd t.ident st res t.retries

/-- End a task that succeeded at a seal: its final reply goes out in that seal (R196, R198). -/
def State.sealTask (s : State) (t : Task) (st : Status) (res : List Byte) : State := s.failTask t st res

/-- Stage the durable change of a task; the task hears of its seal. -/
def State.stageTask (s : State) (t : Task) (kind : Nat) (objs : List Obj) (q : Option QuireId) : State :=
  (s.updTask t.id fun x => { x with sealed := false }).stage
    { ident := t.ident, kind := kind, objs := objs, hist := [], task := some t.id, result := none, quire := q,
      tick := s.now, folios := 1 }

/-! ### Times in reference cycles -/

/-- A reference cycle falls before the end of this tick. -/
def State.reached (s : State) (c : Nat) : Bool := decide (c ≤ s.clk.cycles + s.clk.period)

/-- The reference cycle at which this tick's seal phase begins: its last 64 cycles (R58). -/
def State.sealCycle (s : State) : Nat := s.clk.cycles + s.clk.period - 64

end Sys2Proof.Machine
end

