-- ==== Sys2Proof/Machine/Flags.lean ====
section
/-! DEFINITION. The images of the status registers and descriptor fields (R602-R616), fixed at tick boundaries (R604). -/
namespace Sys2Proof.Machine

/-- The stage codes of R453. -/
def Stage.code : Stage → Nat
  | .held => 0x00
  | .rotRom => 0x01
  | .fwVerify => 0x02
  | .controlStart => 0x03
  | .clusterWaves => 0x04
  | .hbmTrain => 0x05
  | .memTest => 0x06
  | .leafZero => 0x07
  | .laneTrain => 0x08
  | .discovery => 0x09
  | .inService => 0x0A
  | .halted => 0xFF

/-- A 64-bit word from fields at bit positions, least significant first. -/
def word (fs : List (Nat × Nat)) : Word64 := BitVec.ofNat 64 (fs.foldl (fun x f => x + f.2 * 2 ^ f.1) 0)

/-- The grade (R468, R607). -/
def State.grade (s : State) : Nat := field s.fuses.colophon 16 1

/-- DIR_ID (R607): the grade field reads zero before ROT_ROM ends. -/
def State.dirIdWord (s : State) : Word64 :=
  let g := match s.boot.stage with | .held => 0 | .rotRom => 0 | _ => s.grade
  word [(0, Config.partCode), (16, g), (24, 0xB1), (32, 1)]

/-- The effective volume in the visible state (R145). -/
def State.volume (s : State) : Nat := effVolume s.boot s.vis.led

/-- DIR_STAT (R608). -/
def State.dirStatWord (s : State) : Word64 :=
  word [(0, b2n s.faults.fatal.isSome), (1, b2n (s.boot.stage = .inService)), (2, b2n (s.boot.stage = .halted)),
        (3, b2n s.power.holdup), (4, s.lib.align), (8, s.lib.leader), (16, s.volume),
        (22, b2n s.boot.straps.lock), (23, b2n s.vis.led.softLock), (24, s.lib.hops)]

/-- TICK_CFG (R609). -/
def State.tickCfgWord (s : State) : Word64 :=
  let f := match s.vis.led.manifest with | some m => m.fsync | none => false
  match s.clk.announced with
  | some (p, at_) => word [(0, s.clk.period), (13, b2n f), (16, p), (32, sat 0xFFFFFFFF (at_ - s.clk.now))]
  | none => word [(0, s.clk.period), (13, b2n f)]

/-- BOOT_STAT (R610). -/
def State.bootStatWord (s : State) : Word64 :=
  word [(0, s.boot.stage.code), (8, if s.boot.stage = .halted then s.boot.error else 0), (16, b2n s.boot.depthSet),
        (17, b2n s.boot.deep), (18, b2n s.ledger.restored), (24, s.boot.waves), (32, s.boot.rcRetired),
        (48, s.boot.leafRetired)]

/-- ENT_STAT (R611). -/
def State.entStatWord (s : State) : Word64 :=
  let e := s.rot.entropy
  word [(0, e.state), (2, b2n e.drbg), (8, sat 255 (e.failAt.filter fun c => s.clk.cycles < c + 24 * 3600 * Config.hz).length), (16, sat 0xFFFF e.readyMs)]

/-- STRAP_VAL (R611). -/
def State.strapWord (s : State) : Word64 :=
  word [(0, s.boot.straps.vol), (6, s.boot.straps.role), (8, b2n s.boot.straps.lock), (9, b2n s.boot.straps.pmb)]

/-- FAULT_SUM (R612). -/
def State.faultSumWord (s : State) : Word64 :=
  let deg := mask ((List.range 16).filter fun i =>
    (s.faults.fns.getD i { transient := 0, lasting := 0, degraded := false }).degraded)
  word [(0, deg), (16, b2n s.faults.fatal.isSome), (17, b2n (s.vis.led.quires.any (·.quarantined))),
        (18, b2n (s.boot.straps.role = 3)), (24, sat 0xFFFF (total (s.faults.fns.map (·.transient)))),
        (40, sat 0xFFFF (total (s.faults.fns.map (·.lasting)))), (56, s.faults.fatal.getD 0)]

/-- PWR_STAT (R613). -/
def State.pwrStatWord (s : State) : Word64 :=
  word [(0, b2n s.power.warn), (1, b2n s.power.window.isSome), (2, b2n s.power.unattainable),
        (3, b2n (s.power.shelves.any (·.lost))), (8, s.power.clkN), (16, sat 0xFFFF s.power.pulses),
        (32, sat 0xFFFF s.power.warnings)]

/-- The mirror state (R98, R562, R613): 0 both good, 1 A failed, 2 B failed, 3 both. -/
def mirrorCode (a b : Bool) : Nat := b2n a + 2 * b2n b

/-- The journal is held by PWR_WARN_N (R433). -/
def Ledger.held (g : Ledger) : Bool := g.pseal ≠ .idle

/-- LEDG_STAT (R613). -/
def State.ledgStatWord (s : State) : Word64 :=
  let g := s.ledger
  word [(0, mirrorCode g.devA.failed g.devB.failed), (2, mirrorCode g.arcA.failed g.arcB.failed),
        (4, b2n g.notGuaranteed), (5, b2n g.held), (6, b2n g.ckRun.isSome), (7, b2n g.restoring),
        (16, g.credits), (32, g.tip % 2 ^ 32)]

/-- Commands taken in and not final (R614). -/
def Channel.unfinished (ch : Channel) : Nat := (ch.cache.filter (!·.final)).length

/-- CHAN_STAT of a channel's descriptor (R614). -/
def State.chanStat (s : State) (c : Nat) : Nat :=
  let ch := s.chan c
  (word [(0, b2n (ch.isOpen || c = 0)), (1, b2n (s.ringIn c)), (2, b2n ch.cmdFault), (3, b2n ch.rplFault),
         (4, b2n ch.fence), (5, b2n (c = 0 && s.rot.session.isSome)), (6, b2n ch.baseline.isSome),
         (8, sat 255 (ch.dueQ.length + ch.sealQ.length + ch.intakeQ.length)), (16, sat 255 ch.unfinished)]).toNat

/-- What a boundary fixes of a channel's descriptor (R614): counts saturate, the discards are channel 0's. -/
def Channel.descLatch (ch : Channel) : DescLatch where
  baseline := match ch.baseline with | some b => b.toNat | none => 0
  discard := sat 0xFFFFFFFF ch.secDiscard
  refused := sat 0xFFFFFFFF ch.refused
  taken := ch.taken
  bound := ch.bound

/-- The registers as fixed at a boundary (R604). -/
def State.regsNow (s : State) : Regs where
  dirId := s.dirIdWord
  dirStat := s.dirStatWord
  tickNow := BitVec.ofNat 64 s.clk.now
  tickCfg := s.tickCfgWord
  bootStat := s.bootStatWord
  entStat := s.entStatWord
  strapVal := s.strapWord
  faultSum := s.faultSumWord
  pwrStat := s.pwrStatWord
  ledgStat := s.ledgStatWord
  chanStat := (List.range 8).map s.chanStat
  waiting := (List.range 8).map fun c => (s.chan c).left
  descs := (List.range 8).map fun c => (s.chan c).descLatch
  mbxRings := mask ((List.range 8).filter s.ringIn)
  mbxReady := s.clk.running

/-- Fix the registers at a boundary. -/
def State.latchRegs (s : State) : State := { s with regs := s.regsNow }

/-- Before the first boundary of CONTROL_START six registers follow their sources and the others read zero (R604). -/
def State.earlyRegs (s : State) : State :=
  if s.clk.running then s else
  { s with regs := { dirId := s.dirIdWord, dirStat := 0, tickNow := 0, tickCfg := 0, bootStat := s.bootStatWord,
                     entStat := s.entStatWord, strapVal := s.strapWord, faultSum := s.faultSumWord,
                     pwrStat := s.pwrStatWord, ledgStat := 0, chanStat := List.replicate 8 0,
                     waiting := List.replicate 8 0, descs := List.replicate 8 DescLatch.init, mbxRings := 0, mbxReady := false } }

/-- DIR_STAT.FATAL and FAULT_SUM.FATAL change at once (R370, R604). -/
def State.fatalRegs (s : State) (fn : Nat) : State :=
  { s with regs := { s.regs with
      dirStat := s.regs.dirStat ||| 1
      faultSum := (s.regs.faultSum ||| 0x10000) ||| word [(56, fn)] } }

/-- MBX_CTL (R616). -/
def State.mbxCtl (s : State) : Word64 :=
  word [(0, s.regs.mbxRings), (8, b2n s.regs.mbxReady), (16, s.irq.rimode.toNat)]

end Sys2Proof.Machine
end

