-- ==== Sys2Proof/Machine/Journal.lean ====
section
/-! DEFINITION. What the journal holds: folios by sequence, which of them are live, groups, and the bytes of history entries
(R84-R97, R111, R363, R440). -/
namespace Sys2Proof.Machine

/-! ### Entries -/

/-- A 32-byte fault entry (R363). -/
def FaultEntry.encode (e : FaultEntry) : List Byte :=
  le 8 e.tick ++ le 1 e.cls ++ le 1 e.fn ++ le 2 e.status ++ le 4 e.object ++ le 2 (sat 0xFFFF e.retry) ++ le 1 e.chan ++
  le 1 0 ++ le 4 e.seq ++ le 4 e.tag ++ le 4 0

/-- A 24-byte power-event entry (R440). -/
def PowerEvent.encode (e : PowerEvent) : List Byte :=
  le 8 e.tick ++ le 1 e.kind ++ le 1 e.unit ++ le 2 e.vin ++ le 4 (sat 0xFFFFFFFF e.duration) ++ le 2 e.freq ++ le 6 0

/-- A lane entry (R111). -/
def laneBytes (e : LaneEntry) : List Byte :=
  leInt 2 e.rxPower ++ leInt 2 e.txMon ++ le 1 (sat 255 e.snr) ++ le 1 (sat 255 e.ber)

/-- A lane that was never sampled. -/
def laneZero : LaneEntry := { rxPower := 0, txMon := 0, snr := 0, ber := 0 }

/-- A lane-margin record of 3,096 B (R111). -/
def laneRecord (tick : Tick) (x : LaneSample) : List Byte :=
  le 8 tick ++ ((List.range 8).flatMap fun f => leInt 2 (x.els.getD f 0)) ++
  (List.range 512).flatMap fun i => laneBytes (x.lanes.getD i laneZero)

/-- A history record's bytes (R111, R363, R440). -/
def HistRec.encode : HistRec → List Byte
  | .fault e => e.encode
  | .power e => e.encode
  | .lane t x => laneRecord t x

/-! ### Anchors and reservation records as bytes (R98, R100, R473) -/

/-- A command's identity (R132). -/
def CmdIdent.encode (i : CmdIdent) : List Byte :=
  le 1 i.chan ++ le 4 i.seq.toNat ++ le 2 i.opcode ++ le 4 i.crc.toNat ++ le 6 i.accTick

/-- A slot record (R473). -/
def FwSlot.encode (x : FwSlot) : List Byte :=
  le 1 x.status ++ le 1 x.boots ++ le 1 x.epoch ++ le 1 0 ++ le 4 x.len ++ le 4 x.ver ++ le 4 x.floor

/-- The firmware slot state, 64 bytes (R473). -/
def FwState.encode (x : FwState) : List Byte :=
  le 1 x.boot ++ le 1 (x.confirmed.getD 0xFF) ++ le 2 x.window ++ le 4 0 ++ x.slotA.encode ++ x.slotB.encode ++
  slice (match x.ident with | some i => i.encode | none => []) 0 17 ++ le 7 0

/-- An anchor's payload, without the reserved bytes at its end (R98). -/
def Anchor.encode (a : Anchor) : List Byte :=
  le 8 a.h ++ le 8 a.tip ++ le 8 a.ckNum ++ le 8 a.ckCovers ++ le 1 a.ckPos ++ le 1 a.mirror ++ le 2 0 ++ le 4 a.ckLen ++
  slice a.digest 0 48 ++ le 4 a.floor ++ le 4 0 ++ a.fw.encode ++ le 8 a.written ++
  ((List.range 8).flatMap fun i => le 4 (a.erases.getD i 0)) ++ le 8 a.dropped

/-- A reservation record of 64 bytes (R100). -/
def reserveRecord (h now : Tick) : List Byte :=
  let b := le 2 0x5248 ++ le 6 0 ++ le 8 h ++ le 8 now ++ le 36 0
  b ++ le 4 (crc32c b).toNat

/-- The H of a valid reservation record; none of any other 64 bytes (R100). -/
def reserveOf (b : List Byte) : Option Tick :=
  if field b 0 2 = 0x5248 && field b 60 4 = (crc32c (slice b 0 60)).toNat then some (field b 8 8) else none

/-- The highest H of any valid reservation record of a device (R100). -/
def ADev.reserved (d : ADev) : Tick := (d.reserve.filterMap reserveOf).foldl max 0

/-! ### A checkpoint as bytes (R84, R86, R107) -/

/-- The image after its header; with the header it is at most 8 MiB. -/
def Checkpoint.pay (c : Checkpoint) : List Byte := (Config.ckptBytes c.number).take (8388608 - 64)

/-- The header of kind 0x0200 at the start of an image, without its CRC (R84, R107). -/
def Checkpoint.head (c : Checkpoint) : List Byte :=
  le 2 0x464F ++ le 2 0x0200 ++ le 4 (min 4032 c.pay.length) ++ le 8 c.covers ++ le 8 c.tick ++ le 4 c.prevCrc.toNat ++ le 32 0

/-- The CRC of the header (R84): over bytes 0 to 59 and 64 to 4,095. -/
def Checkpoint.crc (c : Checkpoint) : Word32 := crc32c (c.head ++ slice c.pay 0 4032)

/-- The whole image. -/
def Checkpoint.image (c : Checkpoint) : List Byte := c.head ++ le 4 c.crc.toNat ++ c.pay

/-- The SHA-384 digest of an image (R98, R107). -/
def Checkpoint.digest (c : Checkpoint) : List Byte := slice (Config.sha384 c.image) 0 48

/-! ### Folios by sequence (R78, R87) -/

/-- The position of a journal sequence. -/
def ringPos (seq : Nat) : Nat := seq % 960

/-- The folio a device holds at a position. -/
def JDev.at_ (d : JDev) (p : Nat) : Option Folio := (d.folios.find? (·.1 = p)).map (·.2)

/-- Put a folio at a position. -/
def JDev.put (d : JDev) (p : Nat) (f : Folio) : JDev :=
  { d with folios := d.folios.filter (·.1 < p) ++ (p, f) :: d.folios.filter (p < ·.1) }

/-- The valid copy of a journal sequence that a device holds (R87). -/
def JDev.valid (d : JDev) (seq : Nat) : Option Folio :=
  match d.at_ (ringPos seq) with
  | some f => if f.good && f.seq = seq && f.kind ≠ 0x0100 then some f else none
  | none => none

/-- The valid anchor at an anchor position (R87). -/
def JDev.anchorAt (d : JDev) (i : Nat) : Option Folio :=
  match d.at_ (960 + i) with
  | some f => if f.good && f.kind = 0x0100 && f.seq % 64 = i then some f else none
  | none => none

/-- The folio of a sequence in a device that has not failed (R93). -/
def Ledger.folioAt (g : Ledger) (seq : Nat) : Option Folio :=
  (if g.devA.failed then none else g.devA.valid seq).orElse fun _ => if g.devB.failed then none else g.devB.valid seq

/-- The sequences the ring holds, oldest first: tip − 959 to tip (R102). -/
def Ledger.window (g : Ledger) : List Nat := (List.range (min 960 g.tip)).map fun i => g.tip - min 960 g.tip + 1 + i

/-- The folios the ring holds, oldest first. -/
def Ledger.ring (g : Ledger) : List Folio := g.window.filterMap g.folioAt

/-- The records a folio is a member of. -/
def Folio.rec_ (f : Folio) : Option DurRec :=
  match f.body with
  | .recs (r :: _) => some r
  | .cont r => some r
  | _ => none

/-- The objects whose current version a folio may hold: those of the records it took over, then its own. -/
def Folio.objs (f : Folio) : List Obj :=
  match f.body with
  | .recs (r :: rs) => rs.flatMap (·.objs) ++ r.objs
  | .cont r => r.objs
  | _ => []

/-- The identities a folio carries (R132). -/
def Folio.idents (f : Folio) : List (CmdIdent × Nat) :=
  match f.body with
  | .recs (r :: rs) => (r.ident.map (·, f.kind)).toList ++ rs.filterMap fun r => r.ident.map (·, r.kind)
  | _ => []

/-! ### Live folios (R96) -/

/-- A later object image takes the place of an earlier one. -/
def Obj.covers (new old : Obj) : Bool :=
  match new, old with
  | .shapersGone q, .shaper x => x.quire = q
  | .shapersGone q, .shapersGone r => q = r
  | .deepTest .., .deepTest .. => true
  | .laser .., .laser .. => true
  | .retireRc a, .retireRc b => a = b
  | .retireLeaf a, .retireLeaf b => a = b
  | a, b => a.key = b.key && a.key ≠ .none

/-- An image that stands for a ledgered object; one that removes its object stands for none. -/
def Obj.stands : Obj → Bool
  | .quire _ none => false
  | .rebind _ none => false
  | .shapersGone _ => false
  | .manifest none => false
  | _ => true

/-- The folio a record begins in. -/
def Folio.first (f : Folio) : Bool := match f.body with | .recs _ => true | _ => false

/-- The identities a ring holds, newest first, with their folio kinds (R133, R354). -/
def identsOf (fs : List Folio) : List (CmdIdent × Nat) :=
  fs.reverse.flatMap Folio.idents

/-- The identities of commands whose records are journaled or anchored, or stand in the checkpoint a lost journal was restored from, with
their folio kinds (R103, R133, R354). -/
def Ledger.idents (g : Ledger) : List (CmdIdent × Nat) :=
  identsOf g.ring ++ (match g.sealedA.fw.ident with | some i => [(i, 1)] | none => []) ++ g.ckIdents

/-- What the journal says of a channel's sequence (R133): no identity, identities of other commands alone, or the command itself; of a
rebind.commit's several the one its commit folio carries (R354). -/
inductive Recall where
  | unknown
  | other
  | known (i : CmdIdent) (kind : Nat)
  deriving DecidableEq, Repr

/-- Look a packet up among the identities (R133): one that matches in all four fields recovers it, whatever others share its channel
and sequence. -/
def Ledger.recall (g : Ledger) (chan : Nat) (seq : Word32) (op : Nat) (crc : Word32) : Recall :=
  let l := g.idents.filter fun x => x.1.chan = chan && x.1.seq = seq
  let own := l.filter fun x => x.1.opcode = op && x.1.crc = crc
  match (own.find? (·.2 = 4)).orElse fun _ => own.head? with
  | some (i, k) => .known i k
  | none => if l = [] then .unknown else .other

/-- A later version of an object stands elsewhere in the ring; a copy has the place of the folio it copies (R96). -/
def supersededBy (ring : List Folio) (f : Folio) (o : Obj) : Bool :=
  ring.any fun x => x.first && f.origin < x.origin && x.objs.any (·.covers o)

/-- A removal is kept while the ring still holds an older image of what it removed. -/
def Folio.removes (f : Folio) (ring : List Folio) (o : Obj) : Bool :=
  ring.any fun x => x.first && x.origin < f.origin && x.objs.any o.covers

/-- A folio of a ring is live (R96): it holds the current version of an object (a rebind's folios stand until the record that ends
it), or a history record above the covered sequence; no copy of it has been written since. -/
def Folio.live (f : Folio) (covers : Nat) (ring : List Folio) : Bool :=
  match f.rec_ with
  | none => false
  | some r =>
    !ring.any (fun x => x.origin = f.origin && f.seq < x.seq) &&
    if r.kind = 2 then covers < f.origin
    else f.objs.any fun o => (o.stands || f.removes ring o) && !supersededBy ring f o

/-- The live journal folios, oldest first (R96). -/
def Ledger.live (g : Ledger) : List Folio := g.ring.filter fun f => f.live g.sealedA.ckCovers g.ring

/-- The members of the group a sequence belongs to, among folios in sequence order (R88). -/
def groupFrom : List Folio → List (List Folio)
  | [] => []
  | f :: l =>
    match groupFrom l with
    | [] => [[f]]
    | g :: gs => if f.more then (f :: g) :: gs else [f] :: g :: gs

/-- What the head must carry forward before it writes the next `n` positions (R96): for every live folio that stands there, the
live members of its group, as one new group each. -/
def Ledger.carryFor (g : Ledger) (n : Nat) : List (List Folio) :=
  let live := g.live
  let due := fun (f : Folio) => f.seq + 960 ≤ g.tip + n
  ((groupFrom g.ring).filter fun grp => grp.any fun f => due f && live.contains f).map fun grp => grp.filter live.contains

/-! ### The bound on state records (R97) -/

/-- The folios that state records may occupy (R97). -/
def stateRoom : Nat := 384

/-- The live folios of state records. -/
def Ledger.stateLive (g : Ledger) : List Folio := g.live.filter (·.kind ≠ 2)

/-- The records whose folios must be taken over to free `n` folios, oldest first: each with the objects whose current version it holds. -/
def takeOver (ring : List Folio) : List Folio → Nat → List DurRec
  | _, 0 => []
  | [], _ => []
  | f :: l, n + 1 =>
    match f.rec_ with
    | some r =>
      if f.first && f.kind = 1 then
        { r with objs := f.objs.filter (fun o => (o.stands || f.removes ring o) && !supersededBy ring f o), hist := [] } ::
          takeOver ring l (n + 1 - r.folios)
      else takeOver ring l (n + 1)
    | none => takeOver ring l (n + 1)

/-- What the first folio of a group of `n` folios takes over, so that state records stay within their 384 folios (R97). How records share
folios is internal to the director (R84): DESIGN CHOICE (log entry 163). -/
def Ledger.takenOver (g : Ledger) (n : Nat) : List DurRec :=
  let l := g.stateLive
  takeOver g.ring l (l.length + n - stateRoom)

/-! ### History and objects as ledger.read counts them (R564) -/

/-- The history log of the archive: of a device that has not failed (R108, R109). -/
def Ledger.log (g : Ledger) : List HistRec := (if g.arcA.failed then g.arcB.blocks else g.arcA.blocks).flatten

/-- The history records retained, oldest first. -/
def Ledger.history (g : Ledger) : List HistRec := g.log ++ g.hist.map (·.2)

/-- The retained fault entries in the order of R363. -/
def Ledger.faultEntries (g : Ledger) : List FaultEntry :=
  (g.history.filterMap fun h => match h with | .fault e => some e | _ => none).foldl (fun l e => insertFault e l) []

/-- The retained power-event entries. -/
def Ledger.powerEntries (g : Ledger) : List PowerEvent :=
  g.history.filterMap fun h => match h with | .power e => some e | _ => none

/-- The retained lane-margin records. -/
def Ledger.laneEntries (g : Ledger) : List (Tick × LaneSample) :=
  g.history.filterMap fun h => match h with | .lane t x => some (t, x) | _ => none

/-- The class and number of an object (R564), and its place in the directory. -/
def Obj.dir : Obj → Option (Nat × Nat)
  | .position .. => some (1, 0)
  | .manifest _ => some (1, 0)
  | .map _ => some (2, 0)
  | .quire q _ => some (3, q)
  | .slot n _ => some (4, n)
  | .table k _ => some (5, k)
  | .port d _ => some (6, d)
  | .shaper x => some (7, x.quire)
  | .rebind q _ => some (8, q)
  | .fwProgress .. => some (9, 0)
  | .trust _ => some (10, 0)
  | _ => none

/-- The current versions the ring holds: each object image with its folio's sequence. -/
def currentObjs (ring : List Folio) : List (Obj × Nat) :=
  ring.flatMap fun f =>
    if f.first && !ring.any (fun x => x.origin = f.origin && f.seq < x.seq) then
      (f.objs.filter fun o => !supersededBy ring f o).map (·, f.seq)
    else []

/-- The object directory (R564 section 0): ascending class, then number. -/
def Ledger.directory (g : Ledger) : List (Nat × Nat × Nat) :=
  let es := (currentObjs g.ring).filterMap fun x =>
    if x.1.stands then x.1.dir.map fun d => (d.1, d.2, x.2) else none
  (List.range 11).flatMap fun c =>
    let l := es.filter (·.1 = c)
    (l.foldl (fun ns x => insertSorted x.2.1 ns) []).flatMap fun n =>
      let xs := l.filter (·.2.1 = n)
      if c = 7 then xs.take 1 else xs

/-! ### Folios as bytes (R84, R85, R98, R111, R350) -/

/-- A port reference as its two bytes spell it (R150). -/
def PortRef.code : PortRef → Nat
  | .dport d => 2 ^ 15 + d
  | .uplink g sl p => 64 * g + 4 * sl + p

/-- The map entries of a new grant (R350): a kept old index, or with [15] set a new leaf's number. -/
def grantEntries : List (Option Nat) → List Nat → List Byte
  | [], _ => []
  | some i :: l, ns => le 2 i ++ grantEntries l ns
  | none :: l, n :: ns => le 2 (2 ^ 15 + n) ++ grantEntries l ns
  | none :: l, [] => le 2 (2 ^ 15) ++ grantEntries l []

/-- The payload of a rebind-begin group (R350). -/
def RebindRec.beginBytes (r : RebindRec) : List Byte :=
  le 2 r.quire ++ le 2 r.close.length ++ le 2 r.opens.length ++ le 2 r.keep.length ++ le 6 r.planTag ++ le 6 r.accTick ++ le 12 0 ++
  grantEntries r.keep r.newLeaves ++ r.close.flatMap (le 2 ·) ++ r.opens.flatMap fun b => le 2 b.a.code ++ le 2 b.b.code

/-- The payload of a rebind-commit folio, without the reserved bytes at its end (R350). -/
def RebindRec.commitBytes (r : RebindRec) : List Byte := le 2 r.quire ++ le 6 r.accTick ++ le 8 r.beginSeq

/-- What a rebind's group holds (R350). -/
def DurRec.rebindBytes (r : DurRec) : List Byte :=
  r.objs.flatMap fun o => match o with
    | .rebind _ (some x) => if r.kind = 3 then x.beginBytes else x.commitBytes
    | _ => []

/-- The sequence of the first folio of the begin group a quire's rebind has in the journal (R350). -/
def Ledger.beginOf (g : Ledger) (q : QuireId) : Nat :=
  match (g.ring.filter fun f => f.first && f.kind = 3 && f.objs.any fun o => o.key = .rebind q).getLast? with
  | some f => f.seq
  | none => 0

/-- A folio's payload: an anchor's, a history record's and a rebind's as the rules lay them out (R98, R111, R350), a state record's
internal to the director. -/
def FolioBody.payload (b : FolioBody) (origin : Nat) : List Byte :=
  match b with
  | .anchor a => a.encode
  | .recs (r :: _) =>
    if r.kind = 2 then r.hist.flatMap HistRec.encode
    else if r.kind = 3 || r.kind = 4 then r.rebindBytes
    else Config.folioBytes origin
  | .cont r => if r.kind = 3 then r.rebindBytes.drop 4032 else Config.folioBytes origin
  | _ => Config.folioBytes origin

/-- The payload bytes in use, at most 4,032. -/
def Folio.pay (f : Folio) : List Byte := (f.body.payload f.origin).take 4032

/-- Bytes 0 to 59 of a folio (R84). -/
def Folio.head (f : Folio) : List Byte :=
  let type := f.kind + (if f.carry then 0x4000 else 0) + (if f.more then 0x8000 else 0)
  le 2 0x464F ++ le 2 type ++ le 4 f.pay.length ++ le 8 f.seq ++ le 8 f.tick ++ le 4 f.prevCrc.toNat ++ le 32 0

/-- A folio with the CRC of its bytes 0 to 59 and 64 to 4,095 (R84, R85). -/
def Folio.sealed (f : Folio) : Folio := { f with crc := crc32c (f.head ++ slice f.pay 0 4032) }

/-- The 4,096 bytes of a folio (R84). -/
def Folio.bytes (f : Folio) : List Byte := f.head ++ le 4 f.crc.toNat ++ slice f.pay 0 4032

end Sys2Proof.Machine
end

