-- ==== Sys2Proof/Machine/Operands.lean ====
section
/-! DEFINITION. The operands of commands: the command table (R519-R522, R548, R549), the validation order (R130-R140), the
holds on a quire (R550) and the intake of one packet. -/
namespace Sys2Proof

open Machine

/-- The sixteen header bytes of a command packet (R117). -/
def Pkt.header (p : Pkt) (op : Nat) : List Byte :=
  [p.version, p.flags] ++ le 2 op ++ le 4 p.seq.toNat ++ le 2 p.declLen ++ le 2 p.quire

/-- The packet's bytes (R117). -/
def Pkt.encode (p : Pkt) (op : Nat) : List Byte := p.header op ++ le 4 p.crc.toNat ++ p.params

/-- The channel a packet is for: its ring's on the mailbox, the flags' on ETH0. -/
def Pkt.chan (p : Pkt) : Nat := match p.transport with | .mailbox => p.ring | .eth0 => p.flags.toNat % 8

/-- Roles that configure no library link: standalone, bench and the reserved encoding (R144). -/
def Straps.alone (r : Straps) : Bool := r.role ≠ 0

/-- Bench, and the reserved encoding that behaves as bench (R144). -/
def Straps.bench (r : Straps) : Bool := r.role = 2 || r.role = 3

end Sys2Proof

namespace Sys2Proof.Machine

/-! ### Parameter fields -/

/-- Parameter byte `i`. -/
def Taken.u8 (c : Taken) (i : Nat) : Nat := field c.pkt.params i 1

/-- Parameter field of two bytes. -/
def Taken.u16 (c : Taken) (i : Nat) : Nat := field c.pkt.params i 2

/-- Parameter field of four bytes. -/
def Taken.u32 (c : Taken) (i : Nat) : Nat := field c.pkt.params i 4

/-- Parameter field of six bytes: a tick or a tag. -/
def Taken.u48 (c : Taken) (i : Nat) : Nat := field c.pkt.params i 6

/-- Parameter field of eight bytes. -/
def Taken.u64 (c : Taken) (i : Nat) : Nat := field c.pkt.params i 8

/-! ### The command table -/

/-- The opcodes the manual defines, and for each whether a parameter length is as its entry requires (R519). -/
def lengthOk (op : Nat) (ps : List Byte) : Option Bool :=
  let n := ps.length
  match op with
  | 0x0101 | 0x0103 | 0x0305 | 0x0401 | 0x0503 | 0x0901 | 0x0902 | 0x0A05 | 0x0C01 | 0x0D01 => some (n == 0)
  | 0x0102 => some (4 ≤ n && n ≤ 4080)
  | 0x0201 | 0x0202 | 0x0203 | 0x0303 | 0x0304 | 0x0403 | 0x0404 | 0x0405 | 0x0F03 | 0x0703 | 0x0706 | 0x0801
  | 0x0803 | 0x0A02 | 0x0A03 | 0x0A04 | 0x0C02 | 0x0D02 | 0x0D04 => some (n == 4)
  | 0x0204 | 0x0402 | 0x0502 | 0x0601 | 0x0603 | 0x0B02 | 0x0E01 | 0x0E02 => some (n == 8)
  | 0x0602 | 0x0F02 | 0x0704 => some (n == 12)
  | 0x0205 | 0x0501 | 0x0F01 | 0x0705 | 0x0A01 => some (9 ≤ n && n ≤ 4080)
  | 0x0301 => some (32 ≤ n && n == 32 + 4 * field ps 28 2)
  | 0x0302 => some (16 ≤ n && n == 16 + 4 * field ps 12 2)
  | 0x0701 => some (n == 144)
  | 0x0702 => some (n == 64)
  | 0x0802 => some (n == 56)
  | 0x0804 => some (n == 24)
  | 0x0903 => some (n == 16)
  | 0x0B01 => some (4 ≤ n && n == 4 + 8 * field ps 0 2)
  | 0x0D03 => some (n ≤ 4072)
  | _ => none

/-- The Quire column of the command tables (R521, R548). -/
inductive QuireRule where
  | none | existing | fresh | perOp
  deriving DecidableEq, Repr

/-- What the header's quire ID must be. -/
def quireRule (op : Nat) : QuireRule :=
  match op with
  | 0x0301 => .fresh
  | 0x0802 => .perOp
  | 0x0302 | 0x0303 | 0x0304 | 0x0305 | 0x0401 | 0x0402 | 0x0403 | 0x0404 | 0x0405 | 0x0501 | 0x0502 | 0x0503
  | 0x0602 | 0x0701 | 0x0702 | 0x0703 | 0x0704 | 0x0705 | 0x0706 | 0x0801 | 0x0803 | 0x0804 => .existing
  | _ => .none

/-- The commands that only read (R520 class R). -/
def isRead (op : Nat) : Bool :=
  [0x0101, 0x0103, 0x0204, 0x0305, 0x0503, 0x0603, 0x0F02, 0x0703, 0x0704, 0x0901, 0x0903, 0x0A05, 0x0B02, 0x0C01,
   0x0D03].contains op

/-- The commands that are always served (R139). -/
def alwaysServed (op : Nat) : Bool :=
  [0x0D01, 0x0D02, 0x0D03, 0x0D04, 0x0101, 0x0103, 0x0C01, 0x0A05, 0x0901].contains op

/-- The commands served inside a channel 0 session (R522, R549). -/
def inSession (op : Nat) : Bool :=
  [0x0101, 0x0102, 0x0103, 0x0305, 0x0801, 0x0802, 0x0803, 0x0703, 0x0901, 0x0A05, 0x0C01, 0x0D03, 0x0D02].contains op

/-- Check 8 of R140: the channel a command is permitted on (R138, R522, R549). -/
def chanPermits (s : State) (ring op : Nat) : Bool :=
  if ring = 0 then (match s.rot.session with | some _ => inSession op | none => op == 0x0102)
  else !(op == 0x0102 || op == 0x0801 || op == 0x0802)

/-- Commands that change quires, bores, routes or rebinds (R167). -/
def changesFabric (op : Nat) : Bool :=
  [0x0301, 0x0302, 0x0303, 0x0304, 0x0401, 0x0402, 0x0403, 0x0404, 0x0405, 0x0501, 0x0502].contains op

/-- The stage of bring-up a command needs has been reached (R139, R466, R167). -/
def stageServes (s : State) (op : Nat) : Bool :=
  if alwaysServed op then true
  else if s.boot.stage = .halted then false
  else if !s.shown.ledger.restored then false
  else if [0x0701, 0x0702, 0x0704, 0x0705, 0x0804, 0x0801, 0x0802, 0x0803].contains op then s.boot.leafZeroEnded
  else if isRead op || [0x0205, 0x0201, 0x0202, 0x0F01, 0x0F03, 0x0601, 0x0602, 0x0C02, 0x0A01, 0x0A02, 0x0A03, 0x0A04,
      0x0102, 0x0902, 0x0E01].contains op then true
  else if op = 0x0E02 then s.boot.laneEnded
  else s.boot.discEnded && (s.disc.complete || !changesFabric op)

/-- The entropy source gives random numbers (R424, R425). -/
def State.entropyReady (s : State) : Bool := s.rot.entropy.state = 1

/-- The DRBG answers one generate request (R423). -/
def State.drew (s : State) : State :=
  { s with rot := { s.rot with entropy := { s.rot.entropy with requests := s.rot.entropy.requests + 1 } } }

/-- Commands that need random numbers (R424). -/
def needsEntropy (op : Nat) : Bool := op == 0x0102 || op == 0x0801 || op == 0x0802

/-- A quire exists for a command: in the visible state for a reading command, and for a changing one in the state it is
validated against or where its record still awaits a seal (R57, R90). -/
def quireExists (s : State) (op : Nat) (q : QuireId) : Bool :=
  if isRead op then (s.vis.led.quire q).isSome
  else (s.val.quire q).isSome || ((s.stg.led.quire q).isSome && s.awaiting (.quire q))

/-- The quire ID part of check 10 (R521, R548). -/
def quireCheck (s : State) (op q : Nat) : Option Status :=
  match quireRule op with
  | .none => if q = 0xFFFF then none else some .badParam
  | .fresh => if 1 ≤ q && q ≤ 0x0FFF then none else some .badParam
  | .perOp => none
  | .existing =>
    if q = 0 then (if op = 0x0305 || op = 0x0602 then none else some .notPermitted)
    else if quireExists s op q then none else some .badParam

/-- Checks 6 to 10 of R140 that need no parameter values, in order. After a fatal fault only the always-served commands
are served (R370). -/
def tableCheck (s : State) (op ring : Nat) (p : Pkt) : Option Status :=
  match lengthOk op p.params with
  | none => some .badOpcode
  | some false => some .badLength
  | some true =>
    if !chanPermits s ring op then some .notPermitted
    else if !stageServes s op then some .notReadyBringup
    else if needsEntropy op && !s.entropyReady then some .notReadyEntropy
    else quireCheck s op p.quire

/-! ### The holds on a quire (R58, R550) -/

/-- Whether a multi-tick command in progress holds the quire. -/
def Task.holdsQuire (t : Task) (q : QuireId) : Bool :=
  match t.kind with
  | .rebind .. | .evict .. | .release .. | .reset .. | .drainHold _ | .install ..
  | .tenantOpen .. => t.quire = q
  | .activate _ _ qs .. => qs.contains q
  | _ => false

/-- A rebind holds the quire (R342). -/
def State.rebinding (s : State) (q : QuireId) : Bool :=
  s.tasks.any fun t => match t.kind with | .rebind .. => t.quire = q | _ => false

/-- The slot the quire holds is revoking, or the quire is held evicted (R417, R419). -/
def State.revoked (s : State) (q : QuireId) : Bool :=
  let n := s.vis.led.slotOf q
  (n ≠ 0 && (s.vis.led.slot n).state = .revoking) ||
    (match s.val.quire q with | some r => r.evicted | none => false)

/-- The quire is quarantined (R376). -/
def State.quarantined (s : State) (q : QuireId) : Bool :=
  match s.val.quire q with | some r => r.quarantined | none => false

/-- A multi-tick command in progress, or a change that awaits its seal, holds the quire (R58, R90). -/
def State.held (s : State) (q : QuireId) : Bool := s.tasks.any (·.holdsQuire q) || s.awaiting (.quire q)

/-- The holds a changing command meets on its quire, in the order of R550. -/
def quireGate (s : State) (q : QuireId) : Option Status :=
  if s.quarantined q then some .booksImbalance
  else if s.revoked q then some .keyRevoked
  else if s.held q then some .busyTick
  else none

/-! ### Reading a packet: checks 1 to 5 of R140 -/

/-- The packet at the head of a mailbox ring, from its bytes (R117); `n` is how many bytes stand up to CMD_TAIL. -/
def parsePkt (t : Transport) (ring n : Nat) (ip port mac : Nat) (bytes : List Byte) : Nat × Pkt :=
  let len := field bytes 8 2
  (field bytes 2 2,
   { transport := t, srcIp := ip, srcPort := port, srcMac := mac, ring := ring, version := (slice bytes 0 1).headD 0,
     flags := (slice bytes 1 1).headD 0, seq := BitVec.ofNat 32 (field bytes 4 4), declLen := len,
     quire := field bytes 10 2, crc := BitVec.ofNat 32 (field bytes 12 4),
     params := (bytes.drop 16).take (if len ≤ n - 16 then len else n - 16) })

/-- Check 4: the channel is open, assigned to the packet's transport and bound to its source (R114, R115, R137, R138). -/
def chanAccepts (s : State) (op : Nat) (p : Pkt) : Bool :=
  let ch := s.chan p.chan
  if p.chan = 0 then
    match s.rot.session with
    | none => true
    | some x => x.transport = p.transport && (p.transport = .mailbox || (x.ip = p.srcIp && x.port = p.srcPort))
  else
    ch.assigned = p.transport && (ch.isOpen || op == 0x0D01) &&
      (match ch.bound with | some b => b = (p.srcIp, p.srcPort) | none => true)

/-- Checks 1 to 4 of R140. -/
def screen (s : State) (op : Nat) (p : Pkt) : Option Status :=
  if p.params.length ≠ p.declLen || 4080 < p.declLen then some .badLength
  else if crc32c (p.header op ++ p.params) ≠ p.crc then some .badCrc
  else if p.version ≠ 1 || (p.transport = .mailbox && p.flags.toNat % 8 ≠ p.ring) then some .badParam
  else if !chanAccepts s op p then some .notPermitted
  else none

/-- A sequence is new against the baseline (R130). -/
def isNew (b : Option Word32) (q : Word32) : Bool :=
  match b with
  | none => true
  | some b => 1 ≤ (q - b).toNat && (q - b).toNat ≤ 2 ^ 31 - 1

/-- What check 5 finds (R130, R131, R133). -/
inductive SeqVerdict where
  | resend (e : CacheEntry)
  | stale
  | recovered (i : CmdIdent) (kind : Nat)
  | fresh
  deriving DecidableEq, Repr

/-- Check 5 of R140. chan.open is exempt from the sequence window (R116). -/
def seqCheck (s : State) (op : Nat) (p : Pkt) : SeqVerdict :=
  let ch := s.chan p.chan
  match ch.entry p.seq with
  | some e => if e.opcode = op && e.declLen = p.declLen && e.crc = p.crc then .resend e else .stale
  | none =>
    if op = 0x0D01 && p.chan ≠ 0 then .fresh
    else if !isNew ch.baseline p.seq then .stale
    else
      match (if ch.lookupOpen then s.ledger.recall p.chan p.seq op p.crc else .unknown) with
      | .known i k => .recovered i k
      | .other => .stale
      | .unknown => .fresh

/-- The channel key of R56. -/
def chanKey (now c : Nat) : Nat := (c + 8 - now % 8) % 8

/-- The channels in the order of the key of R56. -/
def chanOrder (now : Tick) : List Nat := (List.range 8).map fun i => (now + i) % 8

/-- Answer a packet that is not taken in: in this seal, not cached, echoing it as read (R118, R135, R140). -/
def State.answer (s : State) (op : Nat) (p : Pkt) (st : Status) : State :=
  let c := p.chan
  (s.updChan c fun ch => { ch with refused := satSucc 0xFFFFFFFF ch.refused }).queueSeal
    { chan := c, opcode := op, seq := p.seq, status := st, cached := false, recovered := false, taken := false,
      accTick := s.now, retry := 0, result := [], transport := p.transport, ip := p.srcIp, port := p.srcPort,
      mac := p.srcMac, quire := p.quire }

/-- Take a command in: it is cached, raises the baseline and counts (R130, R131, R140); `rec` when it is answered from
the journal, which leaves the lookup open (R133). chan.open leaves the baseline unset and the lookup open (R116, R133). -/
def State.take (s : State) (op : Nat) (p : Pkt) (fromJournal : Bool) : State :=
  let opening := op = 0x0D01 && p.chan ≠ 0
  s.updChan p.chan fun ch =>
    { ch with
      cache := (if ch.cache.length < 64 then ch.cache else ch.cache.drop 1) ++
        [{ seq := p.seq, opcode := op, declLen := p.declLen, crc := p.crc, accTick := s.now,
           transport := p.transport, ip := p.srcIp, port := p.srcPort, mac := p.srcMac, last := none, final := false }]
      baseline := if opening then ch.baseline else some p.seq
      lookupOpen := ch.lookupOpen && (fromJournal || opening)
      taken := ch.taken + 1 }

/-- The reply to a command recovered from the journal (R133): OK, RECOVERED; a rebind.commit whose commit folio is not in
the journal is answered NOT_PERMITTED (R354). Kind 4 is the rebind-commit folio (R86). -/
def recoveredReply (i : CmdIdent) (kind : Nat) (p : Pkt) : Reply where
  chan := p.chan
  opcode := i.opcode
  seq := p.seq
  status := if i.opcode = 0x0502 && kind ≠ 4 then .notPermitted else .ok
  cached := false
  recovered := true
  taken := true
  accTick := i.accTick
  retry := 0
  result := []
  transport := p.transport
  ip := p.srcIp
  port := p.srcPort
  mac := p.srcMac
  quire := p.quire

/-- Close a handler's verdict: the single final reply, or ACCEPTED (R135). -/
def conclude (c : Taken) (r : State × Verdict) : State :=
  match r.2 with
  | .reply st res => r.1.queueSeal (c.reply st res)
  | .accepted => r.1.queueSeal (c.reply .accepted [])

/-- A chan.open that is refused after it was taken in leaves the baseline as any other command does (R130, R140). -/
def State.notOpened (s : State) (op : Nat) (p : Pkt) : State :=
  if op = 0x0D01 then s.updChan p.chan fun ch => { ch with baseline := some p.seq } else s

/-- Read one packet: checks 1 to 5; a packet that passes is taken in and judged by checks 6 to 10 and by its handler, in
the order of R140. -/
def State.read (s : State) (op : Nat) (h : Handler) (p : Pkt) : State :=
  match screen s op p with
  | some st => s.answer op p st
  | none =>
    match seqCheck s op p with
    | .stale => s.answer op p .badSequence
    | .resend e =>
      match e.last with
      | some r =>
        s.queueSeal { r with
          cached := true, transport := p.transport, ip := p.srcIp, port := p.srcPort, mac := p.srcMac }
      | none => s
    | .recovered i k =>
      let s := s.take op p true
      let r := recoveredReply i k p
      let s := s.updChan p.chan fun ch =>
        { ch with cache := modWhere ch.cache (·.seq = p.seq) fun e => { e with accTick := i.accTick } }
      s.queueSeal r
    | .fresh =>
      if s.faults.fatal.isSome && !alwaysServed op then s.answer op p .lastingFault
      else
        let c : Taken := { chan := p.chan, op := op, pkt := p, tick := s.now,
                           epoch := (s.chan p.chan).epoch }
        match tableCheck s op p.chan p with
        | some st => conclude c ((s.take op p false).notOpened op p, .reply st [])
        | none => conclude c (h c (s.take op p false))

/-! ### How a packet reaches the director -/

/-- The command indices are inconsistent (R121, R123). -/
def Channel.cmdBad (ch : Channel) : Bool :=
  Config.ringBytes < (ch.cmdTail - ch.cmdHead).toNat || ch.cmdTail.toNat % 64 ≠ 0

/-- The reply indices are inconsistent (R122, R123). -/
def Channel.rplBad (ch : Channel) : Bool :=
  Config.ringBytes < (ch.rplTail - ch.rplHead).toNat || ch.rplHead.toNat % 64 ≠ 0

/-- A channel's ring becomes faulted when its indices break R121 or R122 (R123, R617). -/
def State.checkRing (s : State) (c : Nat) : State :=
  let ch := s.chan c
  let cf := ch.cmdFault || ch.cmdBad
  let rf := ch.rplFault || ch.rplBad
  let s := if (cf && !ch.cmdFault) || (rf && !ch.rplFault) then s.raiseNext 15 else s
  s.updChan c fun ch => { ch with cmdFault := cf, rplFault := rf }

/-- The host reaches BAR0: not in reset, PERST_N high, and the function in D0 (R452, R605). -/
def State.hostAccess (s : State) : Bool := s.boot.stage ≠ .held && !s.irq.perst && !s.irq.d3

/-- The host writes bytes into a command ring and moves CMD_TAIL (R121); ignored while the ring is out of service (R615). -/
def State.hostWrite (s : State) (c : Nat) (data : List Byte) (tail : Word32) : State :=
  if s.hostAccess && s.ringIn c then
    (s.updChan c fun ch => { ch with cmdRing := ringWrite ch.cmdRing ch.cmdTail.toNat data, cmdTail := tail }).checkRing c
  else s

/-- Whether the director takes packets: from the first boundary on (R139, R456). -/
def State.takesPackets (s : State) : Bool := s.clk.running

/-- The director is in the intake of a tick. -/
def State.inIntake (s : State) : Bool := s.takesPackets && s.clk.phase = .intake

/-- The packet that the intake of the running tick applies next (R56): the first of the first channel that has any left. -/
def State.nextUp (s : State) : Option (Nat × Pkt) := (chanOrder s.now).findSome? fun c => (s.chan c).agenda.head?

/-- The bytes of a packet as the host sends them: on channel 0 in a session as an SPDM secured message (R117, R137). -/
def State.wireBytes (s : State) (op : Nat) (p : Pkt) : List Byte :=
  match (if p.ring = 0 then s.rot.session else none) with
  | some x => Config.spdmSeal x.key (p.encode op)
  | none => p.encode op

/-- The state with the packet in its ring: the host wrote it from CMD_TAIL on and moved CMD_TAIL to the next multiple of 64 (R121). -/
def State.inserted (s : State) (op : Nat) (p : Pkt) : State :=
  let bytes := s.wireBytes op p
  s.hostWrite p.ring bytes ((s.chan p.ring).cmdTail + BitVec.ofNat 32 (roundUp bytes.length 64))

/-- A datagram comes in on ETH0 (R125, R126, R139, R623): its frame is counted, a frame above 9,216 bytes (headers of 42 bytes, 16 of the
packet's and FCS included, DEDUCED) is discarded, and before the first boundary every datagram is. -/
def State.datagram (s : State) (op : Nat) (p : Pkt) : State :=
  if !s.takesPackets then s
  else
    let n := frameBytes (16 + p.params.length)
    let bump := fun (k : Nat) => modAt (modAt (modAt s.eth0.counters 0 (· + 1)) 1 (· + n)) k (· + 1)
    if 9216 < 62 + p.params.length then { s with eth0 := { s.eth0 with counters := bump 8 } }
    else
      ({ s with eth0 := { s.eth0 with counters := bump 4 } }).updChan p.chan fun ch => { ch with waiting := ch.waiting ++ [(op, p)] }

/-- A packet reaches the director: it is a candidate from the next cycle 0 on (R54). -/
def State.delivered (s : State) (op : Nat) (p : Pkt) : State :=
  match p.transport with
  | .mailbox => s.inserted op p
  | .eth0 => s.datagram op p

/-- The state in which the intake applies the packet that is next. -/
def State.turn (s : State) (p : Pkt) : State := s.updChan p.chan fun ch => { ch with agenda := ch.agenda.tail }

/-- The intake of the running tick has reached this packet: it came in before cycle 0 and is the next in the order of R56. -/
def State.readsNow (s : State) (op : Nat) (p : Pkt) : Bool := s.inIntake && s.nextUp = some (op, p)

/-- A packet presented to the director: the candidate that the intake has reached is read (R54-R56); any other packet comes in, on the
mailbox by the host's write into its ring, on ETH0 in a datagram, and waits for the next tick. -/
def State.present (s : State) (op : Nat) (h : Handler) (p : Pkt) : State :=
  if s.readsNow op p then (s.turn p).read op h p else s.delivered op p

end Sys2Proof.Machine
end

