-- ==== Sys2Proof/Machine/ChannelCmds.lean ====
section
/-! DEFINITION. The channel commands (R571-R574) and the identity commands (R524, R525, R551). -/
namespace Sys2Proof.Machine

/-! ### chan.open, chan.close, chan.nop, chan.fence -/

/-- chan.open (R115, R116, R571): opens the channel, binds an ETH0 channel to the datagram's source, clears the reply cache
down to its own entry and leaves the baseline unset. -/
def hChanOpen : Handler := fun c s =>
  volatileOk c (s.updChan c.chan fun ch =>
    { ch with isOpen := true
              bound := if c.pkt.transport = .eth0 then some (c.pkt.srcIp, c.pkt.srcPort) else none
              cache := ch.cache.filter fun e => e.seq = c.pkt.seq && e.accTick = c.tick
              baseline := none }) []

def execChanOpen (p : Pkt) (s : State) : Host.Outcome State Fault Refusal := .next (s.present 0x0D01 hChanOpen p)

/-- chan.close (R116, R572): the named channel closes at the end of the next intake. -/
def hChanClose : Handler := fun c s =>
  let n := c.u8 0
  if 7 < n then refuse s .badParam
  else if n = 0 && c.chan ≠ 0 then refuse s .notPermitted
  else volatileOk c (s.updChan n fun ch => { ch with closing := if ch.closing = 2 then 2 else 1 }) []

def execChanClose (p : Pkt) (s : State) : Host.Outcome State Fault Refusal := .next (s.present 0x0D02 hChanClose p)

/-- The close itself, at the end of the intake after a chan.close (R116, R572): replies not yet posted are discarded, no
command of the channel has one to come, and a pending fence is released; on channel 0 the session ends and the channel stays open (R138). -/
def State.closeChan (s : State) (n : Nat) : State :=
  let s := { s with tasks := s.tasks.filter fun t =>
      match t.kind, t.ident with
      | .fence .., some i => i.chan ≠ n
      | _, _ => true }
  let s := s.updChan n fun ch =>
    { ch with isOpen := ch.isOpen && n = 0, bound := none, dueQ := [], sealQ := [], intakeQ := [], fence := false, closing := 0,
              cache := ch.cache.map fun e => { e with final := true }, epoch := ch.epoch + 1 }
  if n = 0 then { s with rot := { s.rot with session := none } } else s

/-- chan.nop returns its parameters (R573). -/
def hChanNop : Handler := fun c s => (s, .reply .ok c.pkt.params)

def execChanNop (p : Pkt) (s : State) : Host.Outcome State Fault Refusal := .next (s.present 0x0D03 hChanNop p)

/-- chan.fence (R74, R75, R574): later sequences of its channel wait until every command accepted on a masked channel in
this tick or earlier is final. -/
def hChanFence : Handler := fun c s =>
  if c.u8 0 = 0 then refuse s .badParam
  else multi c (s.updChan c.chan fun ch => { ch with fence := true }) (.fence (c.u8 0) c.tick [])

def execChanFence (p : Pkt) (s : State) : Host.Outcome State Fault Refusal := .next (s.present 0x0D04 hChanFence p)

/-- Whether a command of channel `d` accepted in tick `t` or earlier, other than the fence itself, is still unfinished: it
has no final reply, or it works on (R74). -/
def State.unfinishedBy (s : State) (d : Nat) (t : Tick) (self : Option CmdIdent) : Bool :=
  let ch := s.chan d
  (ch.cache.any fun e => e.accTick ≤ t && !e.final &&
    !(self.elim false fun i => i.chan = d && i.seq = e.seq && i.accTick = e.accTick)) ||
  s.tasks.any (fun x => x.ident.elim false fun i => i.chan = d && i.accTick ≤ t && some i ≠ self) ||
  s.ledger.pendingRecs.any (fun r => r.ident.elim false fun i => i.chan = d && i.accTick ≤ t && some i ≠ self)

/-- Whether a fence is complete at a boundary (R74). -/
def State.fenceDone (s : State) (m : Nat) (t : Tick) (self : Option CmdIdent) : Bool :=
  (bitsOf m 8).all fun d => !s.unfinishedBy d t self

/-- Complete the fences that a boundary finds complete; their channels may take commands again (R74). -/
def State.endFences (s : State) : State :=
  s.tasks.foldl (fun s t =>
    match t.kind with
    | .fence m at_ _ =>
      if at_ < s.now && s.fenceDone m at_ t.ident then
        let s := s.endTask t .ok []
        match t.ident with
        | some i => s.updChan i.chan fun ch => { ch with fence := false }
        | none => s
      else s
    | _ => s) s

/-! ### Identity -/

/-- ident.colophon returns the colophon byte for byte (R551). -/
def hIdentColophon : Handler := fun _ s => (s, .reply .ok (slice s.fuses.colophon 0 320))

def execIdentColophon (p : Pkt) (s : State) : Host.Outcome State Fault Refusal :=
  .next (s.present 0x0101 hIdentColophon p)

/-- The MAC address of a management port, first octet first (R127): the digest's first five octets, with bit 0 of the last
replaced by the port number. -/
def State.mac (s : State) (portNo : Nat) : List Byte :=
  let d := slice (Config.sha384 (slice s.fuses.colophon 0 224)) 0 5
  2 :: d.take 4 ++ [BitVec.ofNat 8 (((d.getD 4 0).toNat / 2) * 2 + portNo)]

/-- Logical clusters in service: passed and not retired (R258, R458). -/
def State.clustersInService (s : State) : Nat :=
  ((List.range 160).filter fun rc => (s.clusters.getD rc Cluster.init).passed && !s.vis.led.retiredRc.contains rc).length

/-- Grantable leaves: 0 to 379 that are not retired (R259). -/
def State.grantableLeaves (s : State) : Nat := 380 - (s.vis.led.retiredLeaf.filter (· < 380)).length

/-- The role of a port: port.config's where one was applied, else the manifest's mask; no library link in the roles that
configure none (R144, R541). -/
def portLibrary (b : Boot) (l : Led) (d : Nat) : Bool :=
  !b.straps.alone &&
    (match l.ports.getD d none with
     | some c => c.library
     | none => match l.manifest with | some m => bit m.libMask d | none => false)

/-- The enable bit of a port (R541): enabled until a port.config disables it. -/
def portEnabled (l : Led) (d : Nat) : Bool := match l.ports.getD d none with | some c => c.enabled | none => true

/-- The result of ident.caps (R525). -/
def State.capsResult (s : State) : List Byte :=
  let l := s.vis.led
  le 2 Config.partCode ++ le 1 s.grade ++ le 1 1 ++ le 4 s.fw.ver ++ le 4 s.shown.ledger.sealedA.floor ++
  le 2 s.clustersInService ++ le 2 s.grantableLeaves ++ le 1 s.fuses.otp ++ le 1 s.boot.straps.role ++
  le 1 s.volume ++ le 1 (b2n s.boot.straps.lock + 2 * b2n l.softLock) ++
  le 8 (mask ((List.range 64).filter (portEnabled l))) ++ le 8 (mask ((List.range 64).filter (portLibrary s.boot l))) ++
  le 2 l.quires.length ++ le 2 Config.quireLimit ++ le 1 ((l.slots.filter (·.state = .free)).length) ++ le 3 0 ++
  le 2 s.clk.period ++ s.mac 0 ++ s.mac 1 ++ le 6 0

/-- ident.caps (R525). -/
def hIdentCaps : Handler := fun _ s => (s, .reply .ok s.capsResult)

def execIdentCaps (p : Pkt) (s : State) : Host.Outcome State Fault Refusal := .next (s.present 0x0103 hIdentCaps p)

/-- ident.attest hands one SPDM request to the RoT core (R137, R524). -/
def hIdentAttest : Handler := fun c s => multi c s (.attest c.pkt.params)

def execIdentAttest (p : Pkt) (s : State) : Host.Outcome State Fault Refusal :=
  .next (s.present 0x0102 hIdentAttest p)

end Sys2Proof.Machine
end

