-- ==== Sys2Proof/Machine/Shape.lean ====
section
/-! DEFINITION. Coordinates, ports, planes, landings, house bores, grants and leaves (R16-R45, R150, R168, R257-R265). -/
namespace Sys2Proof.Machine

/-! ### Coordinates (R16, R17) -/

def cVol (c : Coord) : Nat := c / 2 ^ 14 % 64
def cGath (c : Coord) : Nat := c / 2 ^ 8 % 64
def cSlot (c : Coord) : Nat := c / 16 % 16
def cFun (c : Coord) : Nat := c % 16

/-- The coordinate v.g.s.f. -/
def mkCoord (v g s f : Nat) : Coord := v * 2 ^ 14 + g * 2 ^ 8 + s * 16 + f

/-- The board behind a gathering number. -/
def DiscMap.board (m : DiscMap) (g : Nat) : Board :=
  m.boards.getD g { board := 0, cap := 0, state := 0, house := none, live := [], awaiting := [] }

/-- A gathering is admitted, or was and is now unreachable for management (R153, R37). One that was never admitted and whose house
port is a library link is unreachable too, with no capacity on record (R541). -/
def Board.admitted (b : Board) : Bool := b.state = 1 || (b.state = 4 && b.cap ≠ 0)

/-- A coordinate is reserved (R16, R17, R22). -/
def reservedCoord (m : DiscMap) (v : Nat) (c : Coord) : Bool :=
  let g := cGath c
  if g < 32 then cVol c = v && (m.board g).admitted && (m.board g).cap = 8 && 8 ≤ cSlot c
  else !(g = 63 && cSlot c = 0 && cFun c ≤ 1)

/-- A main endpoint or a declared sub-endpoint of a live accelerator of the own volume (R18, R155). Those of a gathering that lost its
management reach stay as they were last reported (R37, R367). -/
def presentOwn (m : DiscMap) (fs : List (Coord × Nat)) (c : Coord) : Bool :=
  let b := m.board (cGath c)
  cGath c < 32 && b.admitted && b.live.contains (cSlot c) &&
    (cFun c = 0 || (fs.any fun x => x.1 = c - cFun c && bit x.2 (cFun c)))

/-- The library links that are up and not held down (R40, R42). -/
def State.libPorts (s : State) : List Nat :=
  (List.range 64).filter fun d => portLibrary s.boot s.vis.led d && (s.port d).vis.status = 2 && !(s.port d).heldDown

/-- The beacons of the neighbours behind live library links (R18, R65). -/
def State.neighbours (s : State) : List Beacon := s.lib.beacons.filter fun b => b.age < 256 && s.libPorts.contains b.port

/-- The library links to a volume's director on the way through a neighbour (R191): one to the neighbour itself; the neighbour's hop count
and one to the leader it follows. Of every other volume no beacon carries the distance: it is free, and none where the volume's
beacons reach no director there (log entry 168). -/
def State.linksTo (s : State) (v : Nat) (b : Beacon) : Option Nat :=
  if b.volume = v then some 1
  else if b.leader = v then some (b.hops + 1)
  else (Config.libHops b.volume v s.clk.tickOut).map (· + 2)

/-- One way (links, next volume, port) is taken before another: fewer links, then the lower next volume (R191); of parallel links to one
neighbour, which the manual leaves open, the lowest-numbered port (DESIGN CHOICE, log entry 169). -/
def wayBefore (x y : Nat × Nat × Nat) : Bool :=
  x.1 < y.1 || (x.1 = y.1 && (x.2.1 < y.2.1 || (x.2.1 = y.2.1 && x.2.2 ≤ y.2.2)))

/-- The library link toward another volume, as the next volume and the port (R41, R191). -/
def State.libraryWay (s : State) (v : Nat) : Option (Nat × Nat) :=
  let ways := s.neighbours.filterMap fun b => (s.linksTo v b).map fun n => (n, b.volume, b.port)
  (ways.find? fun x => ways.all fun y => wayBefore x y).map (·.2)

/-- The library port toward another volume. -/
def State.libraryPort (s : State) (v : Nat) : Option Nat := (s.libraryWay v).map (·.2)

/-- A director is live (R18): the own one, and one whose beacons reached this part of the library-link graph in the last 256 ticks. -/
def State.directorLive (s : State) (v : Nat) : Bool := v = s.volume || s.neighbours.any fun b => (s.linksTo v b).isSome

/-- A coordinate is present for this director (R18), with its discovery map and library quires as `f` gives them. -/
def State.presentIn (s : State) (f : Fabric) (c : Coord) : Bool :=
  if reservedCoord f.led.map (effVolume s.boot f.led) c then false
  else if cGath c = 63 then s.directorLive (cVol c)
  else if cVol c = effVolume s.boot f.led then presentOwn f.led.map f.vol.functions c
  else s.neighbours ≠ [] && f.vol.quires.any fun q => (f.led.quire q.id).isSome &&
    q.announced.any fun a => a.volume = cVol c && !a.released && a.members.contains (c - cFun c)

/-- Present in the visible state. -/
def State.present18 (s : State) (c : Coord) : Bool := s.presentIn s.vis c

/-! ### Ports, planes and landings (R25-R36, R150) -/

/-- A port reference from its two bytes; bits [14:11] are reserved and ignored (R150, R9). -/
def portRef (x : Nat) : PortRef :=
  if bit x 15 then .dport (x % 64) else .uplink (x / 64 % 32) (x / 4 % 16) (x % 4)

/-- The plane of a port (R25, R26). -/
def PortRef.plane : PortRef → Nat
  | .dport d => d / 16
  | .uplink _ _ p => p

/-- The index of an uplink in the landing table and the map (R150, R528). -/
def uplinkIndex (g sl p : Nat) : Nat := 64 * g + 4 * sl + p

/-- The landing of a port on its plane's units (R150). -/
def Manifest.landingOf (m : Manifest) : PortRef → Option Nat
  | .dport d => m.dLanding.getD d none
  | .uplink g sl p => m.landing.getD (uplinkIndex g sl p) none

/-- A plane is switched: a manifest is held and says so (R152). -/
def switchedPlane (m : Option Manifest) (p : Nat) : Bool :=
  match m with | some m => m.switched.getD p false | none => false

/-- The number of units of a plane (R27). -/
def planeUnits (m : Option Manifest) (p : Nat) : Nat := match m with | some m => m.units.getD p 0 | none => 0

/-- The indices of a plane's units (R28). -/
def unitsOf (m : Option Manifest) (p : Nat) : List Nat :=
  if switchedPlane m p then (List.range (planeUnits m p)).map (8 * p + ·) else []

/-- A port whose lanes the plane's units do not all reach counts as uncabled on its plane: LANES stands for it (R29, R162). -/
def Led.uncabled (l : Led) (r : PortRef) : Bool := l.map.mismatch.any fun x => x.code = 0x0A && x.object = r.code

/-- The house port of a gathering (R35). -/
def housePort (g : Nat) : Nat := 16 * (g % 4) + g / 4

/-- The gathering whose house port a port is, if it lies in a house range (R26, R35). -/
def houseGathering (d : Nat) : Option Nat := if d % 16 < 8 then some (4 * (d % 16) + d / 16) else none

/-- A port is the house port of a present gathering (R35, R38). -/
def DiscMap.isHousePort (m : DiscMap) (d : Nat) : Bool :=
  match houseGathering d with | some g => (m.board g).admitted | none => false

/-- The house bores: from each admitted gathering's house port to its house accelerator, both cabled (R29, R35). -/
def houseBores (b : Boot) (l : Led) : List (PortRef × PortRef) :=
  (List.range 32).filterMap fun g =>
    let x := l.map.board g
    if x.admitted && !portLibrary b l (housePort g) then
      (x.house.map fun sl => (PortRef.dport (housePort g), PortRef.uplink g sl (g % 4))).filter fun r =>
        !l.uncabled r.1 && !l.uncabled r.2
    else none

/-- The bore name of two ports (R168): the lower landing on a switched plane, the connection's index on a patch plane. -/
def boreName (m : Option Manifest) (a b : PortRef) : Option Nat :=
  let p := a.plane
  match m with
  | none => none
  | some mf =>
    if switchedPlane m p then
      match mf.landingOf a, mf.landingOf b with
      | some x, some y => some (p * 2 ^ 13 + min x y)
      | _, _ => none
    else
      (mf.patches.findIdx? fun c => c = (a, b) || c = (b, a)).map (2 ^ 15 + p * 2 ^ 13 + ·)

/-- The bores of every quire. -/
def Led.bores (l : Led) : List Bore := l.quires.flatMap (·.bores)

/-- A port is an end of a bore. -/
def Bore.ends (b : Bore) (r : PortRef) : Bool := b.a = r || b.b = r

/-- The scan bores in progress (R158). -/
def Ocs.scanBores (o : Ocs) : List (PortRef × PortRef) :=
  o.planes.flatMap fun c => match c with
    | some { kind := .scan _ _ pairs, .. } => pairs
    | _ => []

/-- The bores being opened on planes, by the ports they join (R170, R171). -/
def State.opening (s : State) : List (PortRef × PortRef) :=
  s.tasks.flatMap fun t => match t.kind with
    | .boreOpen a b _ => [(a, b)]
    | .rebind r => r.plan.opens
    | _ => []

/-- A port is part of a house bore, a scan bore, or a bore of a quire, made or in the making (R169). -/
def State.refUsed (s : State) (l : Led) (r : PortRef) : Bool :=
  (houseBores s.boot l).any (fun x => x.1 = r || x.2 = r) || s.ocs.scanBores.any (fun x => x.1 = r || x.2 = r) ||
  s.opening.any (fun x => x.1 = r || x.2 = r) || l.bores.any (·.ends r)

/-- The quire that holds an accelerator, besides the house quire (R530). -/
def Led.holder (l : Led) (c : Coord) : Option QuireRec := l.quires.find? fun q => q.members.contains (c - cFun c)

/-- A change of OCS connections is in progress on the plane, or is being staged (R170). -/
def State.planeBusy (s : State) (p : Nat) : Bool :=
  (s.ocs.planes.getD p none).isSome ||
  s.tasks.any fun t => match t.kind with
    | .boreOpen _ _ q => q = p
    | .rebind r => r.planes.contains p
    | _ => false

/-! ### Grants (R257-R265) -/

/-- Clusters a quire may be granted, ascending (R258, R261). -/
def State.freeClusters (s : State) (l : Led) : List Nat :=
  (List.range 160).filter fun rc => (s.clusters.getD rc Cluster.init).passed && !l.retiredRc.contains rc &&
    (s.clusters.getD rc Cluster.init).zeroing = none && !l.quires.any (·.clusters.contains rc)

/-- Leaves a rebind in progress has granted for its new bindings (R343). -/
def State.rebindLeaves (s : State) : List Nat :=
  s.tasks.flatMap fun t => match t.kind with | .rebind r => r.record.newLeaves | _ => []

/-- Leaves that are free and scrubbed, ascending (R259, R261, R412). -/
def State.freeLeaves (s : State) (l : Led) : List Nat :=
  (List.range 380).filter fun x => !l.retiredLeaf.contains x && !s.stg.vol.dirty.contains x &&
    !l.quires.any (·.leaves.contains x) && !s.rebindLeaves.contains x

/-- A range of grant-space addresses lies inside a grant of `n` leaves (R262). -/
def inGrant (n addr len : Nat) : Bool := addr + len ≤ n * 2 ^ 30

/-- Reserved bits of a grant-space address are set (R262). -/
def addrBad (addr : Nat) : Bool := 2 ^ 40 ≤ addr

/-- The HBM store address of a grant-space address (R262). -/
def hbmAddr (leaves : List Nat) (addr : Nat) : Nat := leaves.getD (addr / 2 ^ 30) 384 * 2 ^ 30 + addr % 2 ^ 30

/-- Read `n` bytes of grant space. -/
def hbmRead (m : List Host.Cell) (leaves : List Nat) (addr : Nat) : Nat → List Byte
  | 0 => []
  | n + 1 => Memory.read m (hbmAddr leaves addr) :: hbmRead m leaves (addr + 1) n

/-- Write bytes of grant space. -/
def hbmWrite (m : List Host.Cell) (leaves : List Nat) (addr : Nat) : List Byte → List Host.Cell
  | [] => m
  | b :: bs => hbmWrite (Memory.write m (hbmAddr leaves addr) b) leaves (addr + 1) bs

/-- Zero whole leaves (R411, R412). -/
def zeroLeaves (m : List Host.Cell) (ls : List Nat) : List Host.Cell :=
  m.filter fun c => !ls.contains (c.1 / 2 ^ 30)

/-- Zero a range of grant space (R415). -/
def zeroGrant (m : List Host.Cell) (leaves : List Nat) (addr len : Nat) : List Host.Cell :=
  m.filter fun c =>
    !(List.range leaves.length).any fun i =>
      leaves.getD i 384 = c.1 / 2 ^ 30 &&
        addr ≤ i * 2 ^ 30 + c.1 % 2 ^ 30 && i * 2 ^ 30 + c.1 % 2 ^ 30 < addr + len

/-- Two ranges overlap. -/
def overlap (a n b m : Nat) : Bool := 0 < n && 0 < m && a < b + m && b < a + n

end Sys2Proof.Machine
end

