-- ==== Sys2Proof/Machine/Position.lean ====
section
/-! DEFINITION. Position, the installation manifest and the discovery map as commands see them (R143-R152, R162, R523,
R526, R528, R529). -/
namespace Sys2Proof.Machine

/-! ### Chunked objects (R523) -/

/-- What one chunk does to its staging stream. -/
inductive ChunkStep where
  | refused (st : Status)
  | more (x : Staging)
  | whole (data : List Byte)
  deriving DecidableEq, Repr

/-- Judge a chunk at offset `off` (R149, R523): `legal` says which total lengths the object admits. A chunk that starts off the high-water
mark and also ends beyond the total is NOT_PERMITTED: which of the two answers comes first is open (DESIGN CHOICE, log entry 170). -/
def chunkStep (cur : Option Staging) (off : Nat) (data : List Byte) (legal : Nat → Bool) : ChunkStep :=
  let put := fun (tot : Nat) (done : List Byte) =>
    if tot < done.length then ChunkStep.refused .badParam
    else if done.length = tot then .whole done
    else .more { total := tot, data := done }
  if off = 0 then
    if data.length < 8 then .refused .badParam
    else if !legal (field data 4 4) then .refused .badParam
    else put (field data 4 4) data
  else
    match cur with
    | none => .refused .notPermitted
    | some x => if off ≠ x.data.length then .refused .notPermitted else put x.total (x.data ++ data)

/-! ### pos.assign and pos.lock -/

/-- The discovery map cleared, as a volume reset and a move to a new volume clear it (R147, R148): nothing is known but the listed
gatherings and uplinks and the house slots, since house bores stand. -/
def DiscMap.cleared (x : DiscMap) (m : Option Manifest) : DiscMap :=
  let entry := fun (g : Nat) => m.bind fun m => m.gatherings.getD g none
  { DiscMap.empty with
    boards := x.boards.mapIdx fun g b =>
      { board := 0, cap := 0, state := if (entry g).isSome then 3 else 0, house := b.house, live := [], awaiting := [] }
    uplinks := x.uplinks.mapIdx fun i _ =>
      if (entry (i / 64)).any fun e => i / 4 % 16 < e.cap then .unconfirmed else .notListed
    changeSeq := x.changeSeq }

/-- The ledgered map as a restore gives it back (R167): every accelerator awaits its confirmation anew. -/
def DiscMap.unconfirm (x : DiscMap) : DiscMap :=
  { x with boards := x.boards.map fun b =>
      { b with live := [], awaiting := b.live.foldl (fun l a => insertSorted a l) b.awaiting } }

/-- The cases in which pos.assign is refused (R145, R146, R526). -/
def posAssignRefusal (c : Taken) (s : State) : Option Status :=
  let v := c.u8 0
  if 63 < v then some .badParam
  else if s.boot.straps.lock then some .notPermitted
  else if s.awaiting .position || (v ≠ effVolume s.boot s.val && s.awaiting .map) then some .busyTick
  else if s.val.softLock then some .notPermitted
  else if s.val.quires ≠ [] && v ≠ effVolume s.boot s.val then some .notPermitted
  else none

/-- pos.assign (R146, R148): naming the effective volume changes nothing. -/
def hPosAssign : Handler := fun c s =>
  match posAssignRefusal c s with
  | some st => refuse s st
  | none =>
    if c.u8 0 = effVolume s.boot s.val then volatileOk c s []
    else durable c s [.position (some (c.u8 0)) (c.u8 0) s.val.softLock, .map (s.val.map.cleared s.val.manifest)] none []

def execPosAssign (p : Pkt) (s : State) : Host.Outcome State Fault Refusal := .next (s.present 0x0201 hPosAssign p)

/-- The cases in which pos.lock is refused (R526). -/
def posLockRefusal (c : Taken) (s : State) : Option Status :=
  if 1 < c.u8 0 then some .badParam
  else if s.boot.straps.lock then some .notPermitted
  else if s.awaiting .position then some .busyTick
  else none

/-- pos.lock sets or clears the soft lock (R146, R526). -/
def hPosLock : Handler := fun c s =>
  match posLockRefusal c s with
  | some st => refuse s st
  | none => durable c s [.position s.val.assigned s.val.volume (c.u8 0 = 1)] none []

def execPosLock (p : Pkt) (s : State) : Host.Outcome State Fault Refusal := .next (s.present 0x0202 hPosLock p)

/-! ### The installation manifest -/

/-- A landing field: 0xFFFF is none (R150). -/
def landingField (b : List Byte) (off : Nat) : Option Nat :=
  let x := field b off 2
  if x = 0xFFFF then none else some x

/-- The manifest an image spells (R150). -/
def parseManifest (b : List Byte) : Manifest where
  period := field b 8 2
  fsync := bit (field b 10 1) 0
  fsyncK := field b 10 1 / 2 % 16 + 1
  onEth := (List.range 8).map fun c => c ≠ 0 && bit (field b 11 1) c
  ip0 := fieldIp b 12
  len0 := field b 16 1
  switched := (List.range 4).map fun p => bit (field b 17 1) p
  units := (List.range 4).map fun p => 2 ^ (field b 18 1 / 4 ^ p % 4)
  ip1 := fieldIp b 20
  len1 := field b 24 1
  libMask := field b 28 8
  gatherings := (List.range 32).map fun g =>
    let o := 64 + 16 * g
    if field b o 8 = 0 then none
    else some { board := field b o 8, cap := field b (o + 8) 1,
                alt := if field b (o + 9) 1 = 0xFF then none else some (field b (o + 9) 1) }
  ocs := (List.range 32).map fun u => (fieldIp b (576 + 16 * u), field b (580 + 16 * u) 2)
  landing := (List.range 2048).map fun i => landingField b (1088 + 2 * i)
  dLanding := (List.range 64).map fun d => landingField b (5184 + 2 * d)
  patches := (List.range ((b.length - 5312) / 4)).map fun i =>
    (portRef (field b (5312 + 4 * i) 2), portRef (field b (5314 + 4 * i) 2))

/-- Two addresses share a prefix of this length. -/
def samePrefix (len a b : Nat) : Bool := a / 2 ^ (32 - len) = b / 2 ^ (32 - len)

/-- The unit indices a manifest puts in use (R28, R151). -/
def Manifest.unitsInUse (m : Manifest) : List Nat := (List.range 4).flatMap (unitsOf (some m))

/-- A listed uplink: of a listed gathering, at a slot within its capacity (R150, R158). -/
def Manifest.listed (m : Manifest) (g sl : Nat) : Bool :=
  match m.gatherings.getD g none with | some e => sl < e.cap | none => false

/-- The least port count of a plane's units (R150, R151). -/
def Manifest.ocsPorts (m : Manifest) (p : Nat) : Nat :=
  ((unitsOf (some m) p).map fun u => (m.ocs.getD u (0, 0)).2).foldl min 65536

/-- The landings on a plane: byte offset, whether one is required, and the landing (R150, R151). -/
def Manifest.planeLandings (m : Manifest) (attached : Nat → Bool) (p : Nat) : List (Nat × Bool × Option Nat) :=
  ((List.range 512).map fun i =>
    (1088 + 2 * (4 * i + p), m.listed (i / 16) (i % 16), m.landing.getD (4 * i + p) none)) ++
  ((List.range 16).map fun j => (5184 + 2 * (16 * p + j), attached (16 * p + j), m.dLanding.getD (16 * p + j) none))

/-- The offset of the first faulty landing of a plane: two landings on one OCS port, a landing beyond the units' ports, or a
missing one (R151). -/
def landingFault (ports : Nat) : List Nat → List (Nat × Bool × Option Nat) → Option Nat
  | _, [] => none
  | seen, (off, need, x) :: l =>
    match x with
    | none => if need then some off else landingFault ports seen l
    | some y => if ports ≤ y || seen.contains y then some off else landingFault ports (y :: seen) l

/-- The exception of R151: the house port of a listed gathering with an alternate, joined to slot 0 and to the alternate. -/
def Manifest.houseTwice (m : Manifest) (r : PortRef) : Bool :=
  match r with
  | .dport d =>
    match houseGathering d with
    | none => false
    | some g =>
      match m.gatherings.getD g none with
      | some { alt := some k, .. } =>
        let ends := m.patches.filterMap fun c => if c.1 = r then some c.2 else if c.2 = r then some c.1 else none
        ends.length = 2 && ends.contains (.uplink g 0 (g % 4)) && ends.contains (.uplink g k (g % 4))
      | _ => false
  | _ => false

/-- The offset of the first faulty patch connection (R34, R151). -/
def patchFault (m : Manifest) (i : Nat) : List (PortRef × PortRef) → Option Nat
  | [] => none
  | (a, b) :: l =>
    let before := m.patches.take i
    let used := fun r => before.any fun c => c.1 = r || c.2 = r
    if a.plane ≠ b.plane || a = b || m.switched.getD a.plane false || (used a && !m.houseTwice a) ||
        (used b && !m.houseTwice b) then some (5312 + 4 * i)
    else patchFault m (i + 1) l

/-- The first of a list of faults. -/
def firstSome : List (Option Nat) → Option Nat
  | [] => none
  | none :: l => firstSome l
  | some x :: _ => some x

/-- The byte offset of the first fault of a manifest, in the order of R151. -/
def manifestFault (b : List Byte) (attached : Nat → Bool) : Option Nat :=
  let m := parseManifest b
  let P := m.period
  let chk := fun (bad : Bool) (off : Nat) => if bad then some off else none
  firstSome ([
    chk (field b 0 2 ≠ 0x4D46) 0, chk (field b 2 2 ≠ 1) 2,
    chk (field b 4 4 ≠ b.length || b.length ≠ 5312 + 4 * field b 36 2) 4,
    chk (crc32c (b.take 60 ++ [0, 0, 0, 0] ++ b.drop 64) ≠ BitVec.ofNat 32 (field b 60 4)) 60,
    chk (P < 512 || 4096 < P || P % 128 ≠ 0) 8, chk (!m.fsync && m.fsyncK ≠ 1) 10,
    chk (m.len0 < 8 || 30 < m.len0) 16, chk (m.len1 < 8 || 30 < m.len1) 24] ++
    m.unitsInUse.map (fun u =>
      let a := (m.ocs.getD u (0, 0)).1
      chk (!samePrefix m.len1 a m.ip1 || a = m.ip1 ||
        m.unitsInUse.any fun w => w < u && (m.ocs.getD w (0, 0)).1 = a) (576 + 16 * u)) ++
    (List.range 32).map (fun g =>
      match m.gatherings.getD g none with
      | none => none
      | some e => if e.cap ≠ 8 && e.cap ≠ 16 then some (72 + 16 * g)
                  else chk (match e.alt with | some k => k = 0 || e.cap ≤ k | none => false) (73 + 16 * g)) ++
    (List.range 32).map (fun g =>
      match m.gatherings.getD g none with
      | none => none
      | some e => chk ((List.range g).any fun h =>
          match m.gatherings.getD h none with | some x => x.board = e.board | none => false) (64 + 16 * g)) ++
    (List.range 4).map (fun p =>
      if m.switched.getD p false then landingFault (m.ocsPorts p) [] (m.planeLandings attached p) else none) ++
    [patchFault m 0 m.patches,
     chk ((List.range 64).any fun d => bit m.libMask d &&
       match houseGathering d with | some g => (m.gatherings.getD g none).isSome | none => false) 28])

/-- Whether two manifests differ on a plane (R161, R529). -/
def planeDiffers (old : Option Manifest) (m : Manifest) (p : Nat) : Bool :=
  match old with
  | none => m.switched.getD p false
  | some o =>
    o.switched.getD p false ≠ m.switched.getD p false || o.units.getD p 0 ≠ m.units.getD p 0 ||
    (List.range 8).any (fun k => o.ocs.getD (8 * p + k) (0, 0) ≠ m.ocs.getD (8 * p + k) (0, 0)) ||
    (List.range 512).any (fun i => o.landing.getD (4 * i + p) none ≠ m.landing.getD (4 * i + p) none) ||
    (List.range 16).any (fun j => o.dLanding.getD (16 * p + j) none ≠ m.dLanding.getD (16 * p + j) none) ||
    o.patches.filter (·.1.plane = p) ≠ m.patches.filter (·.1.plane = p)

/-- The gathering of a port of an accelerator. -/
def PortRef.gathering : PortRef → Option Nat
  | .dport _ => none
  | .uplink g _ _ => some g

/-- Two patch connections join the same ports, in either order (R150). -/
def sameJoin (x y : PortRef × PortRef) : Bool := x = y || x = (y.2, y.1)

/-- A new manifest would take away what carries a bore of a quire (R152). A gathering whose entry names another board is gone as the
gathering it was; the manual does not say so (DESIGN CHOICE, log entry 171). -/
def manifestCutsBore (l : Led) (m : Manifest) : Bool :=
  match l.manifest with
  | none => false
  | some o =>
    l.bores.any fun b =>
      let p := b.a.plane
      let gone := fun (r : PortRef) => match r.gathering with
        | none => false
        | some g => ((o.gatherings.getD g none).map (·.board)) ≠ ((m.gatherings.getD g none).map (·.board))
      gone b.a || gone b.b || o.switched.getD p false ≠ m.switched.getD p false ||
      (if o.switched.getD p false then o.landingOf b.a ≠ m.landingOf b.a || o.landingOf b.b ≠ m.landingOf b.b
       else match o.patches[b.name % 2 ^ 13]?, m.patches[b.name % 2 ^ 13]? with
         | some x, some y => !sameJoin x y
         | none, none => false
         | _, _ => true)

/-- A gathering's entry names the board and the capacity it named before. -/
def sameEntry (o : Option Manifest) (m : Manifest) (g : Nat) : Bool :=
  match o.bind (fun o => o.gatherings.getD g none), m.gatherings.getD g none with
  | some x, some y => x.board = y.board && x.cap = y.cap
  | _, _ => false

/-- A mismatch whose cause a new manifest leaves standing (R159, R162, R182): one of a plane it does not change, or of a gathering whose
board it keeps; what it says of boards and units is judged anew. -/
def mismatchStays (o : Option Manifest) (m : Manifest) (y : Mismatch) : Bool :=
  let ofPlane := y.plane.any fun p => !planeDiffers o m p
  let ofGath := sameEntry o m (cGath y.object)
  match y.code with
  | 0x04 | 0x0D => false
  | 0x06 | 0x0A => ofPlane && (if 2 ^ 15 ≤ y.object then y.code = 0x0A else m.listed (y.object / 64) (y.object / 4 % 16))
  | 0x07 => ofPlane
  | 0x03 | 0x05 | 0x08 | 0x0B | 0x0C => ofGath
  | _ => true

/-- What a new manifest does to the discovery map (R150, R153, R159, R160, R162, R182): an uplink newly listed, or whose landing or
regime it moves, is unconfirmed, and one no longer listed drops out; a gathering whose entry names another board or capacity, or that is
listed no more, is not admitted, at once (the manual does not say when: DESIGN CHOICE, log entry 172); patch connections keep their
finding under their new index; the identifiers of units and the mis-landed ports are cleared. -/
def DiscMap.adopt (x : DiscMap) (o : Option Manifest) (m : Manifest) : DiscMap :=
  let moved := fun (i : Nat) => (o.any fun o => o.landing.getD i none ≠ m.landing.getD i none) ||
    switchedPlane o (i % 4) ≠ m.switched.getD (i % 4) false
  { x with
    uplinks := x.uplinks.mapIdx fun i u =>
      if !m.listed (i / 64) (i / 4 % 16) then .notListed
      else if u = .notListed || moved i then .unconfirmed else u
    boards := x.boards.mapIdx fun g b =>
      if (m.gatherings.getD g none).isNone then { b with state := 0, live := [], awaiting := [], house := none }
      else if sameEntry o m g then b
      else { board := 0, cap := 0, state := 3, house := none, live := [], awaiting := [] }
    unitIds := x.unitIds.mapIdx fun u i => if m.unitsInUse.contains u then none else i
    dMis := []
    mismatch := x.mismatch.filter (mismatchStays o m)
    spdm := x.spdm.filter fun c => sameEntry o m (cGath c)
    patchOk := (List.range m.patches.length).filter fun j => x.patchOk.any fun i =>
      match o.bind (fun o => o.patches[i]?), m.patches[j]? with
      | some c, some e => sameJoin c e
      | _, _ => false }

/-- A port is plane-attached for judging a manifest: as port.config set it, else as the manifest's own mask (R541). -/
def attachedUnder (s : State) (b : List Byte) (d : Nat) : Bool :=
  !portLibrary s.boot { s.val with manifest := some (parseManifest b) } d

/-- Judge a whole manifest (R151, R152, R529): the refusal and its result. -/
def manifestRefusal (s : State) (b : List Byte) : Option (Status × List Byte) :=
  let m := parseManifest b
  match manifestFault b (attachedUnder s b) with
  | some off => some (.badParam, le 4 off)
  | none =>
    if s.awaiting .manifest || s.awaiting .map then some (.busyTick, [])
    else if (List.range 4).any (fun p => planeDiffers s.val.manifest m p && s.planeBusy p) then some (.busyTick, [])
    else if manifestCutsBore s.val m then some (.notPermitted, [])
    else none

/-- disc.manifest (R149, R523, R529). -/
def hDiscManifest : Handler := fun c s =>
  match chunkStep s.disc.manifest (c.u32 4) (c.pkt.params.drop 8) (fun n => 5312 ≤ n && n ≤ 9536) with
  | .refused st => refuse s st
  | .more x => volatileOk c { s with disc := { s.disc with manifest := some x } } []
  | .whole b =>
    let s := { s with disc := { s.disc with manifest := none } }
    match manifestRefusal s b with
    | some (st, res) => (s, .reply st res)
    | none =>
      let m := parseManifest b
      durable c s [.manifest (some m), .map (s.val.map.adopt s.val.manifest m)] none []

def execDiscManifest (p : Pkt) (s : State) : Host.Outcome State Fault Refusal := .next (s.present 0x0205 hDiscManifest p)

/-! ### disc.map -/

/-- A page of fixed-size entries: the ones from `first` that fit, at most `count` when it is not 0 (R528, R564, R569). -/
def pageOf (entries : List (List Byte)) (size room first count : Nat) : List (List Byte) :=
  let fit := room / size
  (entries.drop first).take (if count = 0 then fit else min count fit)

/-- The code of an uplink's state (R528). -/
def UplinkState.code : UplinkState → Nat
  | .notListed => 0
  | .unconfirmed => 1
  | .verified => 2
  | .misLanded => 3
  | .silent => 4

/-- The entries of a section of disc.map, and their size (R528). -/
def State.mapSection (s : State) (sec : Nat) : Nat × List (List Byte) :=
  let l := s.vis.led
  let m := l.map
  match sec with
  | 0 =>
    let listed := match l.manifest with | some x => (x.gatherings.filter (·.isSome)).length | none => 0
    (32, [le 1 (b2n l.manifest.isSome + 2 * b2n s.disc.complete) ++ le 1 s.volume ++ le 1 listed ++
      le 1 (m.boards.filter (·.state = 1)).length ++ le 2 (total (m.boards.map (·.live.length))) ++
      le 2 m.mismatch.length ++ le 8 m.changeSeq ++
      ((List.range 4).flatMap fun p =>
        let scan := match s.ocs.planes.getD p none with | some { kind := .scan .., .. } => true | _ => false
        le 1 (b2n (switchedPlane l.manifest p) + 2 * b2n scan + 4 * b2n (s.ocs.scanned.contains p))) ++ le 12 0])
  | 1 => (16, m.boards.map fun b =>
      le 8 b.board ++ le 1 b.cap ++ le 1 b.state ++ le 1 (b.house.getD 0xFF) ++ le 1 0 ++ le 2 (mask b.live) ++
      le 2 (mask b.awaiting))
  | 2 => (1, m.uplinks.map fun u => le 1 u.code)
  | 3 => (1, (List.range 64).map fun d =>
      let up := (s.port d).vis.status = 2
      le 1 ((if !portEnabled l d then 0 else if up then 2 else 1) + 4 * b2n (portLibrary s.boot l d) +
        8 * b2n (m.isHousePort d) + 16 * b2n (s.port d).vis.suspect))
  | _ => (16, m.mismatch.map fun x =>
      le 1 x.code ++ le 1 (x.plane.getD 0xFF) ++ le 2 0 ++ le 4 x.object ++ le 2 (x.found.getD 0xFFFF) ++
      le 2 (x.second.getD 0xFFFF) ++ le 4 0)

/-- disc.map (R528). -/
def hDiscMap : Handler := fun c s =>
  let sec := c.u8 0
  let first := c.u16 2
  if 4 < sec then refuse s .badParam
  else
    let (size, es) := s.mapSection sec
    if es.length ≤ first then refuse s .badParam
    else
      let pg := pageOf es size 4064 first (c.u16 4)
      (s, .reply .ok (le 1 sec ++ le 1 0 ++ le 2 first ++ le 2 pg.length ++ le 2 es.length ++ pg.flatten))

def execDiscMap (p : Pkt) (s : State) : Host.Outcome State Fault Refusal := .next (s.present 0x0204 hDiscMap p)

end Sys2Proof.Machine
end

