-- ==== Sys2Proof/Machine/Tables.lean ====
section
/-! DEFINITION. The loadable tables: images, defaults, validation, and table.load, table.read and table.activate (R163-R166,
R220-R222, R298-R301, R445-R446, R544-R547). -/
namespace Sys2Proof.Machine

/-! ### Images -/

/-- The image length of a table kind (R545). -/
def tableLen (k : Nat) : Nat := if k = 1 then 4672 else if k = 2 then 1088 else if k = 3 then 16704 else 128

/-- The magic of a table kind (R163, R220, R298, R445). -/
def tableMagic (k : Nat) : Nat := if k = 1 then 0x5453 else if k = 2 then 0x4650 else if k = 3 then 0x4341 else 0x4354

/-- An image from its version and body, with its CRC. -/
def tableImage (k version : Nat) (body : List Byte) : List Byte :=
  let head := le 2 (tableMagic k) ++ le 1 k ++ le 1 1 ++ le 4 (tableLen k) ++ le 4 version ++ le 48 0
  head ++ le 4 (crc32c (head ++ [0, 0, 0, 0] ++ body)).toNat ++ body

/-- A default LST state (R166): link status, flags and timer. -/
def defaultLstState (s : Nat) : Option (Nat × Nat × Nat) :=
  match s with
  | 0 => some (0, 0, 0)
  | 1 => some (0, 0, 0)
  | 2 => some (1, 2, 65536)
  | 3 => some (1, 2, 16384)
  | 4 => some (1, 2, 4096)
  | 5 => some (2, 1, 0)
  | 6 => some (3, 2, 65536)
  | 7 => some (4, 4, 0)
  | 8 => some (2, 2, 4096)
  | _ => none

/-- A default LST cell the manual lists (R164, R166): next state and actions. The second expiry out of state 6 leads to state 7 through the
retry states; that the first leads to state 9, and its expiry to state 7, is PRESUMED (log entry 178). -/
def defaultLstCell (s e : Nat) : Option (Nat × Nat) :=
  if e = 0 then some (1, 0)
  else if e = 1 then some (0, 0)
  else if e = 15 then some (s, 0)
  else
    match s, e with
    | 0, 14 => some (1, 0)
    | 1, 7 => some (2, 1)
    | 2, 8 => some (3, 2)
    | 2, 13 => some (6, 0)
    | 3, 9 => some (4, 4)
    | 3, 13 => some (6, 0)
    | 4, 10 => some (5, 0)
    | 4, 4 => some (7, 0)
    | 4, 13 => some (6, 0)
    | 6, 13 => some (9, 0)
    | 9, 13 => some (7, 0)
    | 5, 3 => some (6, 8)
    | 5, 11 => some (6, 8)
    | 5, 12 => some (6, 8)
    | 5, 5 => some (8, 0)
    | 6, 8 => some (3, 2)
    | 7, 14 => some (1, 0)
    | 8, 6 => some (4, 0)
    | 8, 13 => some (6, 0)
    | _, _ => none

/-- The body of the default LST (R166), with what the manual does not list left open. -/
def defaultLstBody (fw : Nat) : List Byte :=
  ((List.range 64).flatMap fun s =>
    match defaultLstState s with
    | some (st, fl, t) => le 1 st ++ le 1 fl ++ (if t < 65536 then le 2 t else slice (Config.lstTimerBytes fw s) 0 2) ++ le 4 0
    | none => slice (Config.lstDescriptor fw s) 0 8) ++
  ((List.range 64).flatMap fun s => (List.range 16).flatMap fun e =>
    match defaultLstCell s e with
    | some (n, a) => le 1 n ++ le 1 a ++ le 2 0
    | none => slice (Config.lstCell fw s e) 0 4)

/-- The default PFT entries (R221). -/
def defaultPftEntry (f : Nat) : List Byte :=
  let e := fun (role len off kinds cons : Nat) =>
    le 1 1 ++ le 1 role ++ le 1 len ++ le 1 off ++ le 4 kinds ++ le 1 cons ++ le 23 0
  match f with
  | 0 => e 1 32 0 0 0
  | 1 => e 2 16 0 0 0
  | 2 => e 3 16 0 0 0
  | 3 => e 4 32 1 0x1F 1
  | 4 => e 4 32 1 0x07 1
  | _ => le 32 0

/-- A segment of the default ACT (R301): curve 1 is ReLU; curves 2 to 4 are in the firmware image; the others are unused. -/
def defaultActSegment (fw c i : Nat) : List Byte :=
  match c, i with
  | 1, 0 => le 4 0xFF800000 ++ le 12 0
  | 1, 1 => le 4 0 ++ le 4 0x3F800000 ++ le 8 0
  | _, _ =>
    if 2 ≤ c && c ≤ 4 then
      le 4 (Config.actSegment fw c i 0).toNat ++ le 4 (Config.actSegment fw c i 1).toNat ++
      le 4 (Config.actSegment fw c i 2).toNat ++ le 4 0
    else le 16 0

/-- The body of the default ACT (R301). -/
def defaultActBody (fw : Nat) : List Byte :=
  ((List.range 16).flatMap fun c =>
    if c = 1 then le 1 1 ++ le 1 2 ++ le 14 0
    else if 2 ≤ c && c ≤ 4 then le 1 1 ++ le 1 64 ++ le 14 0 else le 16 0) ++
  ((List.range 16).flatMap fun c => (List.range 64).flatMap fun i => defaultActSegment fw c i)

/-- The body of the default TTC (R446). -/
def defaultTtcBody : List Byte :=
  (List.range 16).flatMap fun i => if i < 12 then le 2 (980 + 10 * i) ++ le 1 (15 - i) ++ le 1 0 else le 4 0

/-- Vioroc's default image of a kind in a firmware version (R544). -/
def defaultTable (k fw : Nat) : List Byte :=
  tableImage k (Config.defaultVersion k fw)
    (if k = 1 then defaultLstBody fw
     else if k = 2 then (List.range 32).flatMap defaultPftEntry
     else if k = 3 then defaultActBody fw else defaultTtcBody)

/-- The active image of a kind (R544). -/
def activeTable (l : Led) (k fw : Nat) : List Byte := (l.table k).active.getD (defaultTable k fw)

/-! ### Reading a table -/

/-- An LST state descriptor: link status, flags, timer in ticks (R163, R166). -/
def lstState (l : Led) (fw st : Nat) : Nat × Nat × Nat :=
  match l.lst.active, defaultLstState st with
  | none, some d => d
  | none, none => let b := Config.lstDescriptor fw st; (field b 0 1, field b 1 1, field b 2 2)
  | some b, _ => (field b (64 + 8 * st) 1, field b (65 + 8 * st) 1, field b (66 + 8 * st) 2)

/-- An LST cell: next state and actions (R163). -/
def lstCell (l : Led) (fw st ev : Nat) : Nat × Nat :=
  match l.lst.active, defaultLstCell st ev with
  | none, some d => d
  | none, none => let b := Config.lstCell fw st ev; (field b 0 1 % 64, field b 1 1 % 128)
  | some b, _ => (field b (576 + 4 * (16 * st + ev)) 1 % 64, field b (577 + 4 * (16 * st + ev)) 1 % 128)

/-- What an LST state shows of a port (R163, R165). -/
def lstView (l : Led) (fw st : Nat) : LinkView :=
  let (status, fl, _) := lstState l fw st
  { status := status, data := bit fl 0, beacon := bit fl 1, suspect := bit fl 2 }

/-- A PFT entry (R220). -/
structure PftEntry where
  used : Bool
  role : Nat
  len : Nat
  kindOff : Nat
  kinds : Nat
  consume : Bool
  deriving DecidableEq, Repr

/-- A PFT entry of 32 bytes. -/
def pftEntryOf (b : List Byte) : PftEntry where
  used := field b 0 1 = 1
  role := field b 1 1
  len := field b 2 1
  kindOff := field b 3 1
  kinds := field b 4 4
  consume := bit (field b 8 1) 0

/-- The entry of a format in the active PFT (R220, R221). -/
def pftEntry (l : Led) (f : Nat) : PftEntry :=
  pftEntryOf (match l.pft.active with | some b => slice b (64 + 32 * f) 32 | none => defaultPftEntry f)

/-- The used points of the active TTC, lowest first: temperature in 0.1 °C and n (R445, R446). -/
def ttcPoints (l : Led) : List (Int × Nat) :=
  let b := match l.ttc.active with | some b => b.drop 64 | none => defaultTtcBody
  (List.range 16).filterMap fun i =>
    let n := field b (4 * i + 2) 1
    if n = 0 then none else some (fieldInt b (4 * i) 2, n)

/-! ### Validation -/

/-- The offset of a wrong header field of a table image. -/
def headerFault (k : Nat) (b : List Byte) : Option Nat :=
  if field b 0 2 ≠ tableMagic k then some 0
  else if field b 2 1 ≠ k then some 2
  else if field b 3 1 ≠ 1 then some 3
  else if field b 4 4 ≠ tableLen k || b.length ≠ tableLen k then some 4
  else if crc32c (b.take 60 ++ [0, 0, 0, 0] ++ b.drop 64) ≠ BitVec.ofNat 32 (field b 60 4) then some 60
  else none

/-- The first fault of an LST image (R164). -/
def lstFault (b : List Byte) : Option Nat :=
  let data := fun (st : Nat) => bit (field b (65 + 8 * st) 1) 0
  let nxt := fun (st e : Nat) => field b (576 + 4 * (16 * st + e)) 1 % 64
  firstSome (headerFault 1 b ::
    (List.range 64).map (fun st => if 4 < field b (64 + 8 * st) 1 then some (64 + 8 * st) else none) ++
    [if field b 64 1 ≠ 0 then some 64 else none, if data 0 then some 65 else none] ++
    (List.range 64).map (fun st =>
      if data st && data (nxt st 0) then some (576 + 64 * st)
      else if data st && data (nxt st 1) then some (580 + 64 * st)
      else if nxt st 15 ≠ st || field b (577 + 4 * (16 * st + 15)) 1 % 128 ≠ 0 then some (576 + 4 * (16 * st + 15))
      else none))

/-- The first fault of a PFT image (R221). -/
def pftFault (b : List Byte) : Option Nat :=
  firstSome (headerFault 2 b :: (List.range 32).map fun f =>
    let o := 64 + 32 * f
    let e := pftEntryOf (slice b o 32)
    if 1 < field b o 1 then some o
    else if f < 5 then (if e = pftEntryOf (defaultPftEntry f) then none else some o)
    else if e.used && e.role ≠ 4 then some (o + 1)
    else if e.used && (e.len % 4 ≠ 0 || e.len < 8 || 64 < e.len) then some (o + 2)
    else if e.used && (e.kindOff = 0 || e.kindOff = 2 || e.kindOff = 3 || e.len ≤ e.kindOff) then some (o + 3)
    else if e.consume then some (o + 8)
    else none)

/-- An FP32 encoding that is no NaN, as a number that orders like the value it encodes. -/
def f32Order (x : Nat) : Int := if 2 ^ 31 ≤ x then -((x - 2 ^ 31 : Nat) : Int) else x

/-- An FP32 encoding is a NaN; is a NaN or an infinity. -/
def f32Nan (x : Nat) : Bool := 0x7F800000 < x % 2 ^ 31
def f32Special (x : Nat) : Bool := 0x7F800000 ≤ x % 2 ^ 31

/-- The first fault of an ACT image (R300). -/
def actFault (b : List Byte) : Option Nat :=
  firstSome (headerFault 3 b :: (List.range 16).flatMap fun c =>
    let u := field b (64 + 16 * c) 1
    let n := field b (65 + 16 * c) 1
    let seg := fun (i : Nat) => 320 + 1024 * c + 16 * i
    (if 1 < u then some (64 + 16 * c) else if u = 1 && (n < 1 || 64 < n) then some (65 + 16 * c) else none) ::
    (List.range 64).map fun i =>
      let x := field b (seg i) 4
      if u = 1 && i < n then
        if i = 0 && x ≠ 0xFF800000 then some (seg i)
        else if f32Nan x then some (seg i)
        else if 0 < i && f32Order x ≤ f32Order (field b (seg (i - 1)) 4) then some (seg i)
        else if f32Special (field b (seg i + 4) 4) then some (seg i + 4)
        else if f32Special (field b (seg i + 8) 4) then some (seg i + 8)
        else none
      else if field b (seg i) 16 ≠ 0 then some (seg i) else none)

/-- The first fault of a TTC image (R446). -/
def ttcFault (b : List Byte) : Option Nat :=
  let n := fun (i : Nat) => field b (66 + 4 * i) 1
  let t := fun (i : Nat) => fieldInt b (64 + 4 * i) 2
  firstSome (headerFault 4 b :: (if field b 12 48 ≠ 0 then some 12 else none) ::
    (if n 0 = 0 then some 66 else none) ::
    (List.range 16).map fun i =>
      let o := 64 + 4 * i
      if field b (o + 3) 1 ≠ 0 then some (o + 3)
      else if n i = 0 then (if t i ≠ 0 then some o else none)
      else if n i < 4 || 16 < n i then some (o + 2)
      else if i = 0 && t 0 < 980 then some o
      else if 1100 ≤ t i then some o
      else if 0 < i && n (i - 1) = 0 then some (o + 2)
      else if 0 < i && t i ≤ t (i - 1) then some o
      else if 0 < i && n (i - 1) < n i then some (o + 2)
      else none)

/-- The first fault of an image of a kind (R164, R221, R300, R446). -/
def tableFault (k : Nat) (b : List Byte) : Option Nat :=
  if k = 1 then lstFault b else if k = 2 then pftFault b else if k = 3 then actFault b else ttcFault b

/-! ### The commands -/

/-- An activation of the kind runs (R545, R547). -/
def State.activating (s : State) (k : Nat) : Bool :=
  s.tasks.any fun t => match t.kind with | .activate x .. => x = k | _ => false

/-- table.load (R523, R545). -/
def hTableLoad : Handler := fun c s =>
  let k := c.u8 0
  if k < 1 || 4 < k then refuse s .badParam
  else if s.activating k then refuse s .busyTick
  else
    let cur := (s.disc.tables.find? (·.1 = k)).map (·.2)
    let without := s.disc.tables.filter (·.1 ≠ k)
    match chunkStep cur (c.u32 4) (c.pkt.params.drop 8) (· = tableLen k) with
    | .refused st => refuse s st
    | .more x => volatileOk c { s with disc := { s.disc with tables := without ++ [(k, x)] } } []
    | .whole b =>
      let s := { s with disc := { s.disc with tables := without } }
      match tableFault k b with
      | some off => (s, .reply .badParam (le 4 off))
      | none =>
        if s.awaiting (.table k) then refuse s .busyTick
        else durable c s [.table k { s.val.table k with loaded := some b }] none []

def execTableLoad (p : Pkt) (s : State) : Host.Outcome State Fault Refusal := .next (s.present 0x0F01 hTableLoad p)

/-- table.read (R546). -/
def hTableRead : Handler := fun c s =>
  let k := c.u8 0
  let n := c.u32 8
  if k < 1 || 4 < k || 1 < c.u8 1 || n < 1 || 4072 < n || tableLen k < c.u32 4 + n then refuse s .badParam
  else if c.u8 1 = 0 then (s, .reply .ok (slice (activeTable s.vis.led k s.fw.ver) (c.u32 4) n))
  else
    match (s.vis.led.table k).loaded with
    | none => refuse s .notPermitted
    | some b => (s, .reply .ok (slice b (c.u32 4) n))

def execTableRead (p : Pkt) (s : State) : Host.Outcome State Fault Refusal := .next (s.present 0x0F02 hTableRead p)

/-- A drain bound a command may give, as the bound it means (R195). -/
def drainBound (b : Nat) : Option Nat := if b = 0 then some Config.defaultDrain else if b < 64 then none else some b

/-- A drain that starts at the next boundary (R195). -/
def Drain.start (b : Nat) : Drain := { bound := b, count := 0, started := false, since := 0 }

/-- The quires an activation drains: every one for a PFT, those with an activation descriptor for an ACT (R547). -/
def State.activationDrains (s : State) (k : Nat) : List QuireId :=
  if k = 2 then 0 :: s.val.quires.map (·.id)
  else if k = 3 then
    (s.stg.vol.quires.filter fun q => q.descs.any (·.2.optAct)).map (·.id)
  else []

/-- What an activation makes of a table record: loaded and active change places (R547). -/
def TableRec.swap (t : TableRec) (k fw : Nat) : TableRec :=
  { active := t.loaded, loaded := some (t.active.getD (defaultTable k fw)) }

/-- The cases in which table.activate is refused (R547). -/
def tableActivateRefusal (c : Taken) (s : State) : Option Status :=
  let k := c.u8 0
  if k < 1 || 4 < k || (drainBound (c.u16 2)).isNone then some .badParam
  else if s.activating k || s.awaiting (.table k) then some .busyTick
  else if (s.activationDrains k).any s.rebinding then some .busyTick
  else if (s.val.table k).loaded.isNone then some .notPermitted
  else s.durableRefusal

/-- table.activate (R166, R222, R301, R547): kinds that drain do so first; the others seal at once. -/
def hTableActivate : Handler := fun c s =>
  match tableActivateRefusal c s with
  | some st => refuse s st
  | none =>
    let k := c.u8 0
    let dr := Drain.start ((drainBound (c.u16 2)).getD Config.defaultDrain)
    let qs := s.activationDrains k
    if qs = [] then
      let t : Task := { id := s.nextTask, ident := some c.ident, quire := 0xFFFF,
                        kind := .activate k dr [] true [] [], retries := 0, sealed := false, overran := false,
                        skip := false }
      let s := s.startTask (some c.ident) 0xFFFF t.kind
      (s.stageTask t 1 [.table k ((s.val.table k).swap k s.fw.ver)] none, .accepted)
    else multi c s (.activate k dr qs false [] [])

def execTableActivate (p : Pkt) (s : State) : Host.Outcome State Fault Refusal :=
  .next (s.present 0x0F03 hTableActivate p)

end Sys2Proof.Machine
end

