-- ==== Sys2Proof/Machine/Wire.lean ====
section
/-! DEFINITION. What the director sends: control packets and their bodies (R210-R214, R494, R509), router tables and key
sets (R495-R498), and OCS messages (R175-R179). -/
namespace Sys2Proof.Machine

/-- The director's control endpoint (R16, R17). -/
def State.self (s : State) : Coord := mkCoord s.volume 63 0 0

/-- The coordinate of the director's data endpoint (R17). -/
def State.dataEnd (s : State) : Coord := mkCoord s.volume 63 0 1

/-! ### Control packets (R210-R212) -/

/-- The house session with a peer that is up (R396). -/
def State.houseKey (s : State) (peer : Coord) : Option Nat :=
  ((s.rot.house.find? fun h => h.peer = peer && h.up).map (·.key))

/-- A control packet's 64 bytes (R210). -/
def ctlPacket (kind : Nat) (auth isLocal : Bool) (src dst seq : Nat) (body tag : List Byte) : List Byte :=
  let head := le 1 0xC0 ++ le 1 kind ++ le 2 (b2n auth + 2 * b2n isLocal) ++ le 4 src ++ le 4 dst ++ le 8 seq ++
    slice body 0 32 ++ slice tag 0 8
  head ++ le 4 (crc32c head).toNat

/-- Queue a control packet on a port; it is authenticated when a house session with its destination is up (R211, R212,
R398). -/
def State.ctlOn (s : State) (d kind : Nat) (isLocal : Bool) (dst : Coord) (body : List Byte) : State :=
  let src := s.self
  let seq := s.clk.now * 65536 + s.clk.ctlCount
  let key := if isLocal then none else s.houseKey (dst - cFun dst)
  let plain := ctlPacket kind key.isSome isLocal src (if isLocal then 0 else dst) seq body []
  let tag := match key with
    | some k => Config.gmac k (slice plain 4 4 ++ slice plain 12 8) (plain.take 52)
    | none => []
  let pkt := ctlPacket kind key.isSome isLocal src (if isLocal then 0 else dst) seq body tag
  ({ s with clk := { s.clk with ctlCount := s.clk.ctlCount + 1 } }).updPort d fun p => { p with ctl := p.ctl ++ [pkt] }

/-- The library link holds a house session with the director at its other end (R396). -/
def State.linkHeld (s : State) (d : Nat) : Bool :=
  s.neighbours.any fun b => b.port = d && (s.houseKey (mkCoord b.volume 63 0 0)).isSome

/-- The port on which a control packet leaves: the house port of the gathering (R35), or the library link toward another volume (R191);
none for a reserved coordinate, to which the director sends nothing (R19). -/
def State.ctlPort (s : State) (dst : Coord) : Option Nat :=
  if reservedCoord s.vis.led.map s.volume dst then none
  else if cVol dst ≠ s.volume then s.libraryPort (cVol dst)
  else if cGath dst < 32 then some (housePort (cGath dst)) else none

/-- Send a control packet to an endpoint. -/
def State.sendCtl (s : State) (kind : Nat) (dst : Coord) (body : List Byte) : State :=
  match s.ctlPort dst with
  | some d => if kind = 0x0F && !s.linkHeld d then s else s.ctlOn d kind false dst body
  | none => s

/-- Send the same control packet to several endpoints. -/
def State.sendCtls (s : State) (kind : Nat) (dsts : List Coord) (body : List Byte) : State :=
  dsts.foldl (fun s c => s.sendCtl kind c body) s

/-- Latch an LST event of a port (R165). -/
def State.latch (s : State) (d ev : Nat) : State :=
  s.updPort d fun p => { p with latched := insertSorted ev p.latched }

/-! ### Notices -/

/-- The endpoints whose key set holds a quire's key: its members and the accelerators its routes transit (R509). -/
def State.recipients (s : State) (q : QuireId) : List Coord :=
  let ms := match s.stg.led.quire q with | some r => r.members | none => []
  let tr := match (s.stg.vol.quire q).installed with | some x => x.transit | none => []
  (ms ++ tr.filter fun c => !ms.contains c).filter fun c => s.presentIn s.stg c

/-- The body of a quire-state notice (R509 subtype 1). -/
def State.quireNotice (s : State) (q : QuireId) (admitted reset : Bool) (eff : Tick) : List Byte :=
  let l := s.stg.led
  let k := l.slot (l.slotOf q)
  let (cur, prev) := if k.state = .keyed then (k.cur, k.prev) else (0, 0)
  let (rc, ev) := match l.quire q with | some r => (r.resetCount, r.evicted) | none => (0, false)
  le 1 1 ++ le 1 (b2n admitted + 2 * b2n reset + 4 * b2n ev) ++ le 2 q ++ le 4 rc ++ le 2 cur ++ le 2 prev ++ le 6 eff

/-- Tell a quire's endpoints its state (R407, R509). -/
def State.announceQuire (s : State) (q : QuireId) (reset : Bool) (eff : Tick) : State :=
  s.sendCtls 0x0D (s.recipients q) (s.quireNotice q (s.stg.vol.quire q).admitted reset eff)

/-- Whether nothing but a command's own hold keeps a quire's admission stopped. -/
def State.mayAdmit (s : State) (q : QuireId) : Bool :=
  let v := s.stg.vol.quire q
  !v.drainHold && !v.inReset && !s.power.holdup &&
    (match s.stg.led.quire q with | some r => !r.quarantined && !r.evicted | none => q = 0)

/-- Stop a quire's admission, telling its endpoints (R195). -/
def State.stopAdmission (s : State) (q : QuireId) (eff : Tick) : State :=
  (s.updQuireVol q fun v => { v with admitted := false }).announceQuire q false eff

/-- Resume a quire's admission where nothing else holds it stopped (R195). -/
def State.resumeAdmission (s : State) (q : QuireId) (eff : Tick) : State :=
  if s.mayAdmit q then (s.updQuireVol q fun v => { v with admitted := true }).announceQuire q false eff else s

/-- A path-mask notice (R509 subtype 3). -/
def maskNotice (q g h m eff : Nat) : List Byte :=
  le 1 3 ++ le 1 0 ++ le 2 q ++ le 1 g ++ le 1 h ++ le 2 0 ++ le 4 m ++ le 6 eff

/-- An operation-window notice (R509 subtype 2). -/
def windowNotice (q tag cLow w : Nat) (closed : Bool) (resend : Option Nat) : List Byte :=
  le 1 2 ++ le 1 (b2n closed) ++ le 2 q ++ le 4 tag ++ le 4 cLow ++ le 1 w ++ le 3 0 ++ le 4 (resend.getD 0xFFFFFFFF)

/-- A period notice (R509 subtype 4). -/
def periodNotice (p at_ : Nat) : List Byte := le 1 4 ++ le 1 0 ++ le 2 p ++ le 6 at_

/-- Tell one end of a bore that switching has begun or is done (R171, R494 kind 0x06): a control packet to an accelerator,
an LST event on a director port. -/
def State.tellEnd (s : State) (r : PortRef) (phase name : Nat) : State :=
  match r with
  | .dport d => s.latch d (if phase = 1 then 5 else 6)
  | .uplink g sl p => s.sendCtl 0x06 (mkCoord s.volume g sl 0) (le 1 phase ++ le 1 p ++ le 2 name)

/-- Tell both ends of bores. -/
def State.tellBores (s : State) (bs : List Bore) (phase : Nat) : State :=
  bs.foldl (fun s b => (s.tellEnd b.a phase b.name).tellEnd b.b phase b.name) s

/-- A coordinate assignment (R154, R494 kind 0x04). -/
def State.assignCoord (s : State) (g sl board : Nat) : State :=
  let c := mkCoord s.volume g sl 0
  s.sendCtl 0x04 c (le 8 board ++ le 1 sl ++ le 1 0 ++ le 2 s.clk.period ++ le 8 s.clk.now ++ le 4 c)

/-- A retrain request to an end of a bore (R347, R494 kind 0x0E); on a director port the request is its own LST event 12. -/
def State.askRetrain (s : State) (r : PortRef) (reason : Nat) : State :=
  match r with
  | .dport d => s.latch d 12
  | .uplink g sl p => s.sendCtl 0x0E (mkCoord s.volume g sl 0) (le 1 p ++ le 1 reason)

/-! ### Router tables and key sets (R495-R498) -/

/-- A path entry (R497). -/
def Path.word (p : Path) : Nat :=
  p.nearSlot + 16 * p.nearUp +
    (if p.twoBore then 64 + 128 * p.mid + 4096 * p.exitSlot + 65536 * p.exitUp else 0)

/-- The paths of a pair. -/
def Solution.paths (x : Solution) (g h : Nat) : List Path :=
  match x.pairs.find? (fun p => p.g = g && p.h = h) with | some p => p.paths | none => []

/-- The directory and the path entries from pair number `k` on (R497): 33 pairs for each of 32 gatherings. -/
def routerBody (x : Solution) : List Nat → Nat → List Byte × List Byte
  | [], _ => ([], [])
  | k :: ks, first =>
    let ps := x.paths (k / 33) (k % 33)
    let n := ps.length
    let r := routerBody x ks (first + n)
    (le 4 ((if n = 0 then 0 else first) + 65536 * n) ++ r.1, ps.flatMap (fun p => le 4 p.word) ++ r.2)

/-- The router-table image of a quire (R497). -/
def routerImage (q : QuireRec) (x : Solution) : List Byte :=
  let (dir, es) := routerBody x (List.range 1056) 0
  let head := le 2 0x5452 ++ le 2 q.id ++ le 2 q.key ++ le 1 (b2n q.walled) ++ le 1 0 ++ le 4 q.seed ++
    le 4 (4288 + es.length) ++ le 4 (es.length / 4) ++ le 40 0
  head ++ le 4 (crc32c (head ++ le 4 0 ++ dir ++ es)).toNat ++ dir ++ es

/-- A quire's key is permitted on a port of an endpoint (R185): 0-3 an uplink with a bore of the quire, 4 the electrical
links of a member or a transited accelerator. -/
def keyOn (q : QuireRec) (x : Option Solution) (bores : List Bore) (c : Coord) (k : Nat) : Bool :=
  if k < 4 then bores.any fun b => b.ends (.uplink (cGath c) (cSlot c) k)
  else q.members.contains c || (match x with | some x => x.transit.contains c | none => false)

/-- A key set (R498). -/
def keySetImage (keys : List Nat) : List Byte :=
  let ks := (0 :: keys.foldl (fun l k => insertSorted k l) []).take 17
  le 2 ks.length ++ le 2 0 ++ ks.flatMap (le 2 ·)

/-- Every quire with its routes and bores, with those of one quire as they will be. -/
def State.routed (s : State) (q : QuireId) (x : Solution) (bores : List Bore) :
    List (QuireRec × Option Solution × List Bore) :=
  s.val.quires.map fun r =>
    if r.id = q then (r, some x, bores) else (r, (s.stg.vol.quire r.id).installed, r.bores)

/-- The shadow-table jobs of a task. -/
def TaskKind.jobs : TaskKind → List ShadowJob
  | .install _ _ _ js _ _ => js
  | .rebind r => r.jobs
  | .activate _ _ _ _ js _ => js
  | .rewrite _ js _ => js
  | _ => []

/-- The router-table index a quire takes on an endpoint: the one it has, or is being written under, else the lowest free one (R495). -/
def State.tableIndex (s : State) (q : QuireId) (c : Coord) : Nat :=
  let written := fun (mine : Bool) => (s.tasks.filter fun t => decide (t.quire = q) == mine).flatMap fun t =>
    (t.kind.jobs.filter fun j => j.coord = c && j.table = 1).map (·.index)
  match (s.stg.vol.quire q).tables.find? (·.1 = c) with
  | some x => x.2
  | none => match written true with
    | i :: _ => i
    | [] =>
      let used := s.stg.vol.quires.flatMap (fun v => (v.tables.filter (·.1 = c)).map (·.2)) ++ written false
      ((List.range 16).find? fun i => !used.contains i).getD 0

/-- The endpoints that hold a quire's tables: members and transited accelerators that are present (R197, R199). -/
def State.holders (s : State) (q : QuireRec) (x : Solution) : List Coord :=
  (q.members ++ x.transit.filter fun c => !q.members.contains c).filter fun c => s.presentIn s.stg c

/-- The shadow writes of one endpoint: the quire's router table, where it holds it, and the endpoint's five key sets (R197, R346). -/
def State.shadowJobs (s : State) (r : QuireRec) (x : Solution) (bores : List Bore) (c : Coord) : List ShadowJob :=
  let all := s.routed r.id x bores
  let job := fun (t i : Nat) (img : List Byte) =>
    { coord := c, table := t, index := i, image := img,
      unacked := (List.range ((img.length + 19) / 20)).map fun k => { off := 20 * k, tick := s.now, resent := false }
      again := [] : ShadowJob }
  (if (s.holders r x).contains c then [job 1 (s.tableIndex r.id c) (routerImage r x)] else []) ++
    (List.range 5).map fun k =>
      job 2 k (keySetImage (all.filterMap fun y => if keyOn y.1 y.2.1 y.2.2 c k then some y.1.key else none))

/-- Send the writes of a job at the given offsets (R494 kind 0x07, R496). -/
def State.sendWrites (s : State) (q : QuireId) (j : ShadowJob) (offs : List Nat) : State :=
  offs.foldl (fun s o =>
    let data := (j.image.drop o).take 20
    s.sendCtl 0x07 j.coord (le 1 j.table ++ le 1 j.index ++ le 2 q ++ le 4 o ++ le 1 data.length ++ le 3 0 ++ data)) s

/-- Switch the shadow copies of an endpoint at a tick (R494 kind 0x09): the router table of the quire, where one was written, and the key
sets. -/
def State.sendSwitch (s : State) (q : QuireId) (c : Coord) (router : Bool) (eff : Tick) : State :=
  let s := if router then s.sendCtl 0x09 c (le 1 2 ++ le 1 (s.tableIndex q c) ++ le 2 q ++ le 6 eff) else s
  (List.range 5).foldl (fun s k => s.sendCtl 0x09 c (le 1 4 ++ le 1 k ++ le 2 q ++ le 6 eff)) s

/-- The endpoints that shadow-table jobs wrote; of those, the ones whose router table was among it. -/
def jobCoords (js : List ShadowJob) (router : Bool) : List Coord :=
  (js.filter fun j => !router || j.table = 1).foldl (fun l j => insertNew j.coord l) []

/-- Switch what jobs wrote, on every endpoint at one tick (R197 step 4). -/
def State.switchJobs (s : State) (q : QuireId) (js : List ShadowJob) (eff : Tick) : State :=
  (jobCoords js false).foldl (fun s c => s.sendSwitch q c ((jobCoords js true).contains c) eff) s

/-- How many quires' tables an endpoint would hold with a solution of `q` installed (R495). -/
def State.tablesOn (s : State) (q : QuireId) (x : Solution) (c : Coord) : Nat :=
  let holds := fun (r : QuireRec) (sol : Option Solution) =>
    match sol with | some y => r.members.contains c || y.transit.contains c | none => false
  (s.val.quires.filter fun r =>
    holds r (if r.id = q then some x else (s.stg.vol.quire r.id).installed)).length

/-- Some endpoint would hold more than 16 router tables (R495). -/
def State.tooManyTables (s : State) (q : QuireId) (x : Solution) (members : List Coord) : Bool :=
  (members ++ x.transit).any fun c => 16 < s.tablesOn q x c

/-! ### OCS messages (R175-R179) -/

/-- The bytes of a message (R176). -/
def OcsMsg.encode (m : OcsMsg) : List Byte :=
  let head := le 2 0x534F ++ le 1 1 ++ le 1 m.type ++ le 4 m.seq ++ le 2 m.body.length ++ le 1 m.unit ++ le 1 0
  head ++ le 4 (crc32c (head ++ m.body)).toNat ++ m.body

/-- The manifest's address of a unit. -/
def State.unitIp (s : State) (u : Nat) : Ip :=
  match s.vis.led.manifest with | some m => (m.ocs.getD u (0, 0)).1 | none => 0

/-- Count a frame a management port sent. -/
def EthPort.count (e : EthPort) (i n : Nat) : EthPort := { e with counters := modAt (modAt e.counters i (· + 1)) (i + 1) (· + n) }

/-- Bytes of an ARP frame (R623): Ethernet header and ARP packet, and what the manual leaves open of padding and FCS. -/
def arpBytes : Nat := 42 + Config.frameExtra 0

/-- Put a message on ETH1, or hold it and ask for the unit's address when that is not resolved (R127). -/
def State.putOcs (s : State) (m : OcsMsg) : State :=
  let ip := s.unitIp m.unit
  if s.eth1.arp.any (·.1 = ip) then
    { s with ocs := { s.ocs with out := s.ocs.out ++ [m] }, eth1 := s.eth1.count 2 (frameBytes (16 + m.body.length)) }
  else
    { s with ocs := { s.ocs with hold := s.ocs.hold ++ [m] }
             eth1 := { s.eth1.count 2 arpBytes with sent := s.eth1.sent ++ [.arpAsk ip], asks := s.eth1.asks.filter (· ≠ ip) ++ [ip] } }

/-- Send a message to a unit with the next sequence (R176); none under the bench role (R144). -/
def State.sendOcs (s : State) (u type : Nat) (body : List Byte) : State :=
  if s.boot.straps.bench then s else
  let m : OcsMsg := { unit := u, type := type, seq := s.ocs.nextSeq % 2 ^ 32, body := body }
  ({ s with ocs := { s.ocs with nextSeq := s.ocs.nextSeq + 1 } }).putOcs m

/-- Send a SET (R177) under a generation. -/
def State.sendSet (s : State) (u gen : Nat) (entries : List (Nat × Nat)) : State :=
  s.sendOcs u 0x02 (le 8 gen ++ le 2 entries.length ++ le 2 0 ++ entries.flatMap fun e => le 2 e.1 ++ le 2 e.2)

/-- The next generation of this tick (R179). -/
def State.nextGen (s : State) : Nat × State :=
  (s.clk.now * 256 + s.ocs.setsNow, { s with ocs := { s.ocs with setsNow := s.ocs.setsNow + 1 } })

end Sys2Proof.Machine
end

