-- ==== Sys2Proof/Machine/Routes.lean ====
section
/-! DEFINITION. Routes (R185-R203): solving, masks, drains, installation, and route.solve, route.install and
route.drain (R534, R535, R537). -/
namespace Sys2Proof.Machine

/-! ### Solving (R187-R189) -/

/-- The gathering of a bore's end in a path list; 32 stands for the director (R497). -/
def PortRef.gath : PortRef → Nat
  | .dport _ => 32
  | .uplink g _ _ => g

/-- The slot and uplink of a bore's end; for the director, the port stands in place of the uplink. -/
def PortRef.side : PortRef → Nat × Nat
  | .dport d => (0, d)
  | .uplink _ sl p => (sl, p)

/-- The accelerators a keyed quire may transit: those of other keyed quires (R186). -/
def transitSet (l : Led) (q : QuireRec) : List Coord :=
  if q.walled then [] else (l.quires.filter fun r => r.id ≠ q.id && !r.walled).flatMap (·.members)

/-- A bore's end can carry the quire's paths (R186, R187). -/
def endOk (v : Nat) (q : QuireRec) (transit : List Coord) : PortRef → Bool
  | .dport d => q.ports.contains d
  | .uplink g sl _ => let c := mkCoord v g sl 0; q.members.contains c || transit.contains c

/-- Insert a bore in ascending order of name. -/
def insertBore (b : Bore) : List Bore → List Bore
  | [] => [b]
  | x :: l => if b.name < x.name then b :: x :: l else x :: insertBore b l

/-- The bores in ascending order of name. -/
def sortBores (l : List Bore) : List Bore := l.foldl (fun acc b => insertBore b acc) []

/-- Each usable bore in both directions: name, near end, far end. -/
def hops (v : Nat) (q : QuireRec) (transit : List Coord) (bores : List Bore) : List (Nat × PortRef × PortRef) :=
  (sortBores bores).flatMap fun b =>
    if endOk v q transit b.a && endOk v q transit b.b && b.a.gath ≠ b.b.gath then
      [(b.name, b.a, b.b), (b.name, b.b, b.a)] else []

/-- The path list of a pair (R187, R188): every one-bore path by bore name; else every two-bore path by intermediate
gathering, first and second bore name; at most 32. Inside the intermediate gathering a path takes one electrical hop, so
it leaves on another accelerator than it entered on (DEDUCED). -/
def pairPaths (hs : List (Nat × PortRef × PortRef)) (g h : Nat) : List Path :=
  let near := hs.filter fun x => x.2.1.gath = g
  let one := (near.filter fun x => x.2.2.gath = h).map fun x =>
    { bore1 := x.1, nearSlot := x.2.1.side.1, nearUp := x.2.1.side.2, twoBore := false, mid := 0, exitSlot := 0,
      exitUp := 0, bore2 := 0, lastSlot := x.2.2.side.1 : Path }
  if one ≠ [] then one.take 32
  else
    ((List.range 32).flatMap fun k =>
      if k = g || k = h then [] else
        (near.filter fun x => x.2.2.gath = k).flatMap fun x =>
          (hs.filter fun y => y.2.1.gath = k && y.2.2.gath = h && y.2.1.side.1 ≠ x.2.2.side.1).map fun y =>
            { bore1 := x.1, nearSlot := x.2.1.side.1, nearUp := x.2.1.side.2, twoBore := true, mid := k,
              exitSlot := y.2.1.side.1, exitUp := y.2.1.side.2, bore2 := y.1, lastSlot := y.2.2.side.1 : Path }).take 32

/-- The gatherings that hold members. -/
def QuireRec.gatherings (q : QuireRec) : List Nat := q.members.foldl (fun l c => insertSorted (cGath c) l) []

/-- The ordered pairs of a quire (R534): distinct member gatherings, and each to and from the director. -/
def QuireRec.pairs (q : QuireRec) : List (Nat × Nat) :=
  let gs := q.gatherings
  gs.flatMap (fun g => (gs.filter (· ≠ g)).map (g, ·)) ++ gs.map (·, 32) ++ gs.map (32, ·)

/-- A solve that starts now (R188, R189): bores are those it solves over. -/
def solveStart (l : Led) (q : QuireRec) (bores : List Bore) (tag : Tick) (transit : List Coord) : SolveJob where
  sol := { tag := tag, pairs := [], transit := [], members := q.members, bores := sortBores bores,
           walled := q.walled }
  todo := q.pairs
  bores := bores
  transitOk := transit.filter fun c => (l.holder c).isSome

/-- The accelerators of other quires that the ends of the bores of some paths are (R188). -/
def pathTransit (v : Nat) (q : QuireRec) (bores : List Bore) (ps : List Path) : List Coord :=
  bores.flatMap fun b =>
    if ps.any fun p => p.bore1 = b.name || (p.twoBore && p.bore2 = b.name) then
      [b.a, b.b].filterMap fun r => match r with
        | .dport _ => none
        | .uplink g sl _ => let c := mkCoord v g sl 0; if q.members.contains c then none else some c
    else []

/-- One step of a solve: one ordered pair (R189). -/
def SolveJob.step (v : Nat) (q : QuireRec) (j : SolveJob) (g h : Nat) : SolveJob :=
  let ps := pairPaths (hops v q j.transitOk j.bores) g h
  { j with sol := { j.sol with
      pairs := j.sol.pairs ++ [{ g := g, h := h, paths := ps }]
      transit := (pathTransit v q j.bores ps).foldl (fun l c => insertSorted c l) j.sol.transit } }

/-- Every step of a solve at once. -/
def SolveJob.all (v : Nat) (q : QuireRec) (j : SolveJob) : Solution :=
  (j.todo.foldl (fun j p => j.step v q p.1 p.2) j).sol

/-- The declared worst cases that fit one work phase, in reference cycles (R13, R59): three quarters of the period. -/
def State.workCycles (s : State) : Nat := 3 * s.clk.period / 4

/-- Schedule one step of a command kind in what is left of a work phase (R59); a kind that runs alone (R367) takes the
whole phase. -/
def State.schedule (s : State) (op cost left : Nat) : Option Nat :=
  match s.faults.slowStep with
  | some (k, _) =>
    if k = op then (if left = s.workCycles && 2 * cost ≤ left then some 0 else none)
    else if cost ≤ left then some (left - cost) else none
  | none => if cost ≤ left then some (left - cost) else none

/-- Run solving steps while they fit (R189: 96 reference cycles each). -/
def State.runSolve (s : State) (v : Nat) (q : QuireRec) (op : Nat) (j : SolveJob) :
    List (Nat × Nat) → Nat → SolveJob × Nat
  | [], left => ({ j with todo := [] }, left)
  | p :: ps, left =>
    match s.schedule op 96 left with
    | none => ({ j with todo := p :: ps }, left)
    | some n => s.runSolve v q op (j.step v q p.1 p.2) ps n

/-- The largest P, and the unreachable pairs, of a solution. -/
def Solution.maxP (x : Solution) : Nat := (x.pairs.map (·.paths.length)).foldl max 0
def Solution.unreachable (x : Solution) : Nat := (x.pairs.filter (·.paths = [])).length

/-! ### Link health and masks (R193) -/

/-- The director sees a port up and not suspect in the visible state. -/
def State.portGood (s : State) (d : Nat) : Bool :=
  (s.port d).vis.status = 2 && !(s.port d).vis.suspect && !s.faults.suspects.contains (.port d)

/-- An accelerator's uplink is up: a peer report not older than 256 ticks names a peer (R157), and it is not suspect. -/
def State.uplinkGood (s : State) (c : Coord) (u : Nat) : Bool :=
  (s.disc.peers.any fun x => x.1 = c && x.2.1 = u && x.2.2.1.isSome && x.2.2.2 < 256) &&
  !s.faults.suspects.contains (.uplink c u)

/-- An electrical link is up: neither end's last confirmation shows it down, and it is not suspect. -/
def State.elecGood (s : State) (g a b : Nat) : Bool :=
  let v := s.volume
  let up := fun (x y : Nat) => match s.disc.elec.find? (·.1 = mkCoord v g x 0) with
    | some e => bit e.2 y
    | none => true
  up a b && up b a && !s.faults.suspects.contains (.elec g a b) && !s.faults.suspects.contains (.elec g b a)

/-- Both ends of a bore are good. -/
def State.boreGood (s : State) (bores : List Bore) (name : Nat) : Bool :=
  match bores.find? (·.name = name) with
  | none => false
  | some b => [b.a, b.b].all fun r => match r with
    | .dport d => s.portGood d
    | .uplink g sl u => s.uplinkGood (mkCoord s.volume g sl 0) u

/-- The slot at which a path enters its intermediate gathering. -/
def arriveSlot (bores : List Bore) (p : Path) : Nat :=
  match bores.find? (·.name = p.bore1) with
  | none => p.exitSlot
  | some b => if b.a.gath = p.mid then b.a.side.1 else b.b.side.1

/-- Every link of a path is up and not suspect (R193). -/
def State.pathGood (s : State) (bores : List Bore) (p : Path) : Bool :=
  s.boreGood bores p.bore1 &&
    (!p.twoBore || (s.boreGood bores p.bore2 && s.elecGood p.mid (arriveSlot bores p) p.exitSlot))

/-- The mask of a pair of a quire, bit i for path i (R193, R509). -/
def QuireVol.maskOf (v : QuireVol) (g h : Nat) : Nat :=
  mask ((v.masks.filter fun m => m.g = g && m.h = h).map (·.path))

/-- The health masks of a quire after a boundary: a bad path is masked; a masked one counts the boundaries since it was good
again, and stays masked until PATH_MASK_CLEAR (R193). -/
def State.healthMasks (s : State) (r : QuireRec) (x : Solution) (old : List Mask) : List Mask :=
  let bores := match r.installed with | some i => i.2 | none => r.bores
  (old.filter fun m => m.kind = .transit) ++
  x.pairs.flatMap fun pr => (List.range pr.paths.length).filterMap fun i =>
    match pr.paths[i]? with
    | none => none
    | some p =>
      let was := old.find? fun m => m.kind = .health && m.g = pr.g && m.h = pr.h && m.path = i
      if s.pathGood bores p then was.map fun m => { m with goodFor := m.goodFor + 1 }
      else some { g := pr.g, h := pr.h, path := i, kind := .health, goodFor := 0 }

/-- Tell a quire's endpoints the masks of its pairs that changed (R509). -/
def State.tellMasks (s : State) (q : QuireId) (x : Solution) (old new : QuireVol) (eff : Tick) : State :=
  x.pairs.foldl (fun s pr =>
    let m := new.maskOf pr.g pr.h
    if m = old.maskOf pr.g pr.h then s
    else s.sendCtls 0x0D (s.recipients q) (maskNotice q pr.g pr.h m eff)) s

/-- Set a quire's masks at a boundary: they hold from it (R193). -/
def State.maskNow (s : State) (q : QuireId) (ms : List Mask) : State :=
  let s := s.updQuireVol q fun w => { w with masks := ms }
  { s with vis := { s.vis with vol := { s.vis.vol with quires := modWhere s.vis.vol.quires (·.id = q) fun w => { w with masks := ms } } } }

/-- Renew the health masks of every quire at a boundary (R193): the director and the endpoints step over a masked path from it on. -/
def State.renewMasks (s : State) : State :=
  s.stg.led.quires.foldl (fun s r =>
    let v := s.stg.vol.quire r.id
    match v.installed with
    | none => s
    | some x =>
      let new := { v with masks := s.healthMasks r x v.masks }
      if new.masks = v.masks then s
      else (s.maskNow r.id new.masks).tellMasks r.id x v new s.now) s

/-- A masked path clears at the first boundary that comes 64 ticks after the first one at which it was good (R193). -/
def execPathMaskClear (q : QuireId) (g h path : Nat) (s : State) : Host.Outcome State Fault Refusal :=
  let v := s.stg.vol.quire q
  let due := fun (m : Mask) => m.kind = .health && m.g = g && m.h = h && m.path = path && 64 ≤ m.goodFor
  match v.installed with
  | some x =>
    if v.masks.any due then
      let new := { v with masks := v.masks.filter fun m => !due m }
      .next ((s.updQuireVol q fun w => { w with masks := new.masks }).tellMasks q x v new (s.now + 1))
    else .next s
  | none => .next s

/-! ### Drains (R195, R196) -/

/-- The endpoints of a quire that are present; of the house quire, every live accelerator. -/
def State.endpoints (s : State) (q : QuireId) : List Coord :=
  if q = 0 then
    (List.range 32).flatMap fun g => (s.vis.led.map.board g).live.map fun sl => mkCoord s.volume g sl 0
  else match s.stg.led.quire q with
    | some r => r.members.filter fun c => s.presentIn s.stg c
    | none => []

/-- The director holds a ring slot for a quire: the number its stops latched at the last seal is not zero (R196, R249). -/
def State.holdsSlots (s : State) (q : QuireId) : Bool := s.rings.latch.any fun x => x.quire = q && x.held ≠ 0

/-- A quire is settled (R196, R309, R511): its operations have ended, and its counts are equal in summaries that came in since
admission stopped. A summary does not carry the tick in which it was sent: the tick of its arrival stands for it (DEDUCED, log entry
180). -/
def State.settled (s : State) (q : QuireId) (since : Tick) : Bool :=
  let v := s.stg.vol.quire q
  let es := s.endpoints q
  let sums := es.filterMap fun c => v.summaries.find? fun x => x.coord = c && since ≤ x.tick
  sums.length = es.length && sums.all (!·.pending) &&
  v.originated + total (sums.map (·.originated)) =
    v.accepted + total (sums.map (·.accepted)) + v.givenUp + total (sums.map (·.givenUp)) &&
  (s.stg.vol.ops.all fun o => o.quire ≠ q || o.state = .ended) && !s.holdsSlots q

/-- A drain at a boundary: admission stops (R195). -/
def State.beginDrain (s : State) (q : QuireId) (d : Drain) : State × Drain :=
  if d.started then (s, d)
  else (s.stopAdmission q s.now, { d with started := true, since := s.now })

/-- A drain has run to its bound (R195). -/
def Drain.expired (d : Drain) : Bool := d.started && d.bound ≤ d.count

/-! ### route.solve (R534) -/

/-- A route.solve of the quire is solving (R190). -/
def State.solving (s : State) (q : QuireId) : Bool :=
  s.tasks.any fun t => match t.kind with | .solve _ => t.quire = q | _ => false

/-- The cases in which route.solve is refused (R190, R534, R550). -/
def routeSolveRefusal (c : Taken) (s : State) : Option Status :=
  match quireGate s c.pkt.quire with
  | some st => some st
  | none => if s.solving c.pkt.quire then some .busyTick else none

/-- route.solve (R188, R189, R534). -/
def hRouteSolve : Handler := fun c s =>
  match routeSolveRefusal c s, s.val.quire c.pkt.quire with
  | some st, _ => refuse s st
  | none, none => refuse s .badParam
  | none, some q => multi c s (.solve (solveStart s.val q q.bores c.tick (transitSet s.val q)))

def execRouteSolve (p : Pkt) (s : State) : Host.Outcome State Fault Refusal := .next (s.present 0x0401 hRouteSolve p)

/-- The result of route.solve (R534). -/
def Solution.solveResult (x : Solution) : List Byte :=
  le 6 x.tag ++ le 2 0 ++ le 4 x.pairs.length ++ le 2 x.unreachable ++ le 1 x.maxP ++ le 1 0

/-- The work of a route.solve in a work phase; `left` is what is left of it (R59, R189). -/
def State.workSolve (s : State) (t : Task) (j : SolveJob) (left : Nat) : State × Nat :=
  match s.val.quire t.quire with
  | none => (s.failTask t .cancelled [], left)
  | some q =>
    let (j, left) := s.runSolve s.volume q 0x0401 j j.todo left
    if j.todo = [] then
      ((s.updQuireVol t.quire fun v => { v with staged := some j.sol }).endTask t .ok j.sol.solveResult, left)
    else (s.updTask t.id fun t => { t with kind := .solve j }, left)

/-- End the solves of a quire with CANCELLED (R534). -/
def State.cancelSolves (s : State) (q : QuireId) : State :=
  s.tasks.foldl (fun s t => match t.kind with
    | .solve _ => if t.quire = q then s.failTask t .cancelled [] else s
    | _ => s) s

/-! ### route.install (R197, R535) -/

/-- A solution still rests on what it was solved from (R190). -/
def Solution.current (l : Led) (q : QuireRec) (x : Solution) : Bool :=
  x.members = q.members && x.walled = q.walled && x.bores = sortBores q.bores &&
  x.transit.all fun c => match l.holder c with | some r => !r.walled | none => false

/-- The cases in which route.install is refused (R190, R195, R495, R535, R550). -/
def routeInstallRefusal (c : Taken) (s : State) : Option Status :=
  if (drainBound (c.u16 6)).isNone then some .badParam
  else match quireGate s c.pkt.quire with
  | some st => some st
  | none =>
    match (s.stg.vol.quire c.pkt.quire).staged, s.val.quire c.pkt.quire with
    | some x, some q =>
      if x.tag ≠ c.u48 0 || !x.current s.val q || s.tooManyTables q.id x q.members then some .notPermitted
      else s.durableRefusal
    | _, _ => some .notPermitted

/-- The endpoints an installation writes: those that hold its tables, and those that held the tables before it, whose key sets lose the
quire's key (R185, R197, R199). -/
def State.writeList (s : State) (q : QuireRec) (x : Solution) : List Coord :=
  let es := s.holders q x
  es ++ (((s.stg.vol.quire q.id).tables.map (·.1)).filter fun c => !es.contains c && s.presentIn s.stg c)

/-- Start an installation (R197); without a drain when route.drain holds the quire. -/
def State.startInstall (s : State) (ident : Option CmdIdent) (q : QuireRec) (x : Solution) (bound : Nat)
    (parent : Option Nat) : State :=
  let held := (s.stg.vol.quire q.id).drainHold
  s.startTask ident q.id (.install x (Drain.start bound) (if held then .writing else .draining) [] (s.writeList q x) parent)

/-- route.install (R197, R535). -/
def hRouteInstall : Handler := fun c s =>
  match routeInstallRefusal c s, (s.stg.vol.quire c.pkt.quire).staged, s.val.quire c.pkt.quire with
  | some st, _, _ => refuse s st
  | none, some x, some q =>
    (s.startInstall (some c.ident) q x ((drainBound (c.u16 6)).getD Config.defaultDrain) none, .accepted)
  | none, _, _ => refuse s .notPermitted

def execRouteInstall (p : Pkt) (s : State) : Host.Outcome State Fault Refusal :=
  .next (s.present 0x0402 hRouteInstall p)

/-- The work of writing shadow tables: one endpoint a step, 64 reference cycles each (R197, R346). -/
def State.writeShadows (s : State) (r : QuireRec) (x : Solution) (bores : List Bore) (op : Nat) :
    List Coord → List ShadowJob → Nat → State × List ShadowJob × List Coord × Nat
  | [], js, left => (s, js, [], left)
  | c :: cs, js, left =>
    match s.schedule op 64 left with
    | none => (s, js, c :: cs, left)
    | some n =>
      let new := s.shadowJobs r x bores c
      let s := new.foldl (fun s j => s.sendWrites r.id j (j.unacked.map (·.off))) s
      s.writeShadows r x bores op cs (js ++ new) n

/-- Write again what endpoints answered with status 3 (R496). -/
def State.writeAgain (s : State) (q : QuireId) (js : List ShadowJob) : State × List ShadowJob :=
  (js.foldl (fun s j => s.sendWrites q j j.again) s, js.map fun j =>
    { j with unacked := j.unacked.map (fun w => if j.again.contains w.off then { w with tick := s.now } else w), again := [] })

/-- A failed installation (R195, R197, R535): nothing is installed, admission resumes unless route.drain holds it, and a
command that waits for the installation ends the same way (R202). -/
def State.failInstall (s : State) (t : Task) (parent : Option Nat) (st : Status) : State :=
  let s := (s.failTask t st []).resumeAdmission t.quire (s.now + 1)
  match parent.bind s.task with
  | some p => s.failTask p st []
  | none => s

/-- Every write of the jobs is acknowledged. -/
def jobsDone (js : List ShadowJob) : Bool := js.all fun j => j.unacked = []

/-- The work of an installation in a work phase (R197 steps 2 and 3): an endpoint that is absent now is skipped, and one that became present
is written. -/
def State.workInstall (s : State) (t : Task) (x : Solution) (d : Drain) (step : InstallStep) (js : List ShadowJob)
    (todo : List Coord) (parent : Option Nat) (left : Nat) : State × Nat :=
  match step, s.val.quire t.quire with
  | .writing, some q =>
    let es := s.writeList q x
    let js := js.filter fun j => es.contains j.coord
    let todo := es.filter fun c => todo.contains c || !js.any (·.coord = c)
    let (s, js) := s.writeAgain q.id js
    let (s, js, todo, left) := s.writeShadows q x q.bores 0x0402 todo js left
    if todo = [] && jobsDone js then
      match s.durableRefusal with
      | some st => (s.failInstall t parent st, left)
      | none =>
        let s := s.updTask t.id fun t => { t with kind := .install x d .sealing js [] parent }
        (s.stageTask t 1 [.quire q.id (some { q with installed := some (x.tag, q.bores) })] (some q.id), left)
    else (s.updTask t.id fun t => { t with kind := .install x d .writing js todo parent }, left)
  | _, _ => (s, left)

/-- The install folio is sealed (R197 step 4): at the next boundary every endpoint and the director switch, the masks clear
(R496), and admission resumes. -/
def State.installSealed (s : State) (t : Task) (x : Solution) (js : List ShadowJob) : State :=
  let eff := s.now + 1
  let idx := (jobCoords js true).map fun c => (c, s.tableIndex t.quire c)
  let s := s.switchJobs t.quire js eff
  let s := s.updQuireVol t.quire fun v =>
    { v with installed := some x, masks := [], drainHold := false, tables := idx }
  (s.resumeAdmission t.quire eff).endTask t s.sealedOk []

/-! ### route.drain (R198, R537) -/

/-- route.drain with mode 0 (R198). -/
def routeDrainHold (c : Taken) (s : State) : State × Verdict :=
  if (drainBound (c.u16 2)).isNone then refuse s .badParam
  else match quireGate s c.pkt.quire with
  | some st => refuse s st
  | none => multi c s (.drainHold (Drain.start ((drainBound (c.u16 2)).getD Config.defaultDrain)))

/-- route.drain with mode 1 (R198): admission resumes at the next boundary. -/
def routeDrainResume (c : Taken) (s : State) : State × Verdict :=
  match quireGate s c.pkt.quire with
  | some st => refuse s st
  | none =>
    if !(s.stg.vol.quire c.pkt.quire).drainHold then refuse s .notPermitted
    else
      let s := s.updQuireVol c.pkt.quire fun v => { v with drainHold := false }
      volatileOk c (s.resumeAdmission c.pkt.quire (s.now + 1)) []

/-- route.drain (R198, R537). -/
def hRouteDrain : Handler := fun c s =>
  match c.u8 0 with
  | 0 => routeDrainHold c s
  | 1 => routeDrainResume c s
  | _ => refuse s .badParam

def execRouteDrainHold (p : Pkt) (s : State) : Host.Outcome State Fault Refusal := .next (s.present 0x0405 hRouteDrain p)
def execRouteDrainResume (p : Pkt) (s : State) : Host.Outcome State Fault Refusal := .next (s.present 0x0405 hRouteDrain p)

end Sys2Proof.Machine
end

