-- ==== Sys2Proof/Machine/Operations.lean ====
section
/-! DEFINITION. The operations a quire runs, as the whole machine sees them (R306-R336): extents, ending one, and what a
quire's reset, release, eviction or quarantine ends. -/
namespace Sys2Proof.Machine

/-! ### Extents (R266-R270) -/

/-- The bit width of a format code (R282). -/
def fmtWidth (f : Nat) : Nat :=
  if f = 1 then 4 else if f = 2 || f = 3 then 8 else if f = 4 || f = 5 then 16 else 32

/-- A tile's bytes (R266). -/
def tileBytes (f : Nat) : Nat := 512 * fmtWidth f

/-- Bytes of a tile tensor of R rows and C columns (R267). -/
def tensorBytes (f rows cols : Nat) : Nat := (rows + 63) / 64 * ((cols + 63) / 64) * tileBytes f

/-- Bytes of a vector of V elements in a format (R268). -/
def vectorBytes (f n : Nat) : Nat := (n + 4095) / 4096 * tileBytes f

/-- Bytes of an FP32 vector of bias, weights or statistics (R268). -/
def plainBytes (n : Nat) : Nat := 4 * roundUp n 64

/-- The extent of an M by N output in a format: a tile tensor, or the vector of a contributor reduction (R267, R268,
R271). -/
def Desc.outBytes (d : Desc) (f : Nat) : Nat := if d.kind = 1 then vectorBytes f d.n else tensorBytes f d.m d.n

/-- FP32's format code (R282). -/
def fp32 : Nat := 6

/-- The ranges of grant space a descriptor writes (R270, R271). -/
def Desc.writes (d : Desc) : List (Nat × Nat) :=
  [(d.addrY, d.outBytes d.fmtY)] ++
  (if d.optPair then [(d.addrYlo, d.outBytes d.fmtY)] else []) ++
  (if d.optAccOut then [(d.addrAcc, d.outBytes fp32)] else []) ++
  (if d.optStats then [(d.addrStats, roundUp (4 * d.m) 64 + plainBytes d.m)] else [])

/-- The ranges a descriptor reads. -/
def Desc.reads (d : Desc) : List (Nat × Nat) :=
  (if d.kind = 0 then [(d.addrA, tensorBytes d.fmtA d.m d.k), (d.addrB, tensorBytes d.fmtB d.k d.n)]
   else if d.kind = 2 then [(d.addrA, tensorBytes d.fmtA d.m d.n)]
   else if d.optWeights then [(d.addrA, plainBytes d.k)] else []) ++
  (if d.optSeed then [(d.addrSeed, d.outBytes fp32)] else []) ++
  (if d.optBias then [(d.addrBias, plainBytes d.n)] else [])

/-- The ranges an operation writes, its staging area included (R308, R313). -/
def Op.writes (o : Op) : List (Nat × Nat) :=
  (match o.desc with | some d => d.writes | none => []) ++ [(o.stBase, o.stLen)]

/-- Every range a live operation has a use for (R415, R556): tensors, staging, the broadcast source. -/
def Op.ranges (o : Op) : List (Nat × Nat) :=
  o.writes ++ (match o.desc with | some d => d.reads | none => []) ++
  (if o.kind = 3 then [(o.bSrc, (o.bCount * fmtWidth o.bFmt + 7) / 8)] else [])

/-! ### Ending -/

/-- Queue a claim of this director for other directors; it goes out in the seal phase (R72, R331). -/
def State.queueClaim (s : State) (vols : List Nat) (c : Claim) : State :=
  let mine := vols.map fun v => { claim := c, port := none, dest := v, task := none, sent := false : OwnClaim }
  { s with lib := { s.lib with own := s.lib.own ++ mine } }

/-- Change one operation. -/
def State.updOp (s : State) (q : QuireId) (tag : Nat) (f : Op → Op) : State :=
  s.updVol fun v => { v with ops := modWhere v.ops (fun o => o.quire = q && o.tag = tag) f }

/-- The operation of a quire with a tag. -/
def Vol.op (v : Vol) (q : QuireId) (tag : Nat) : Option Op := v.ops.find? fun o => o.quire = q && o.tag = tag

/-- Fill ranges of a quire's grant with unspecified bytes (R322). -/
def State.scramble (s : State) (leaves : List Nat) : List (Nat × Nat) → State
  | [] => s
  | (a, n) :: l =>
    let (bs, s) := s.freeBytes n
    (s.updVol fun v => { v with hbm := hbmWrite v.hbm leaves a bs }).scramble leaves l

/-- The volumes of an operation's set other than this director's (R330). -/
def State.otherVolumes (s : State) (o : Op) : List Nat :=
  (o.set.foldl (fun l c => insertSorted (cVol c) l) []).filter (· ≠ s.volume)

/-- End an operation (R321, R322, R328): its tag is closed for twice its horizon from the tick of its final reply (R135, R307), its
counts are set to balance, and the final reply of its launch goes out; on a failure what it writes is unspecified. -/
def State.endOp (s : State) (o : Op) (st : Status) : State :=
  let fails := !(st = .ok || st = .retriedOk || st = .partialLegs)
  let s := s.updOp o.quire o.tag fun o =>
    { o with state := .ended, final := some st, closing := 2 * o.horizon + b2n (st = .ok || st = .retriedOk), held := [], missing := [],
             expected := if fails then o.received else o.expected, tell := true }
  let s := match o.desc, s.stg.led.quire o.quire with
    | some d, some q => if fails then s.scramble q.leaves d.writes else s
    | _, _ => s
  match s.task o.task with
  | some t => if fails || st = .partialLegs then s.failTask { t with retries := o.retries } st []
              else s.endTask { t with retries := o.retries } st []
  | none => s

/-- End an operation with a failure, telling the other participants of a library-wide one (R334). -/
def State.failOp (s : State) (o : Op) (st : Status) : State :=
  let s := s.endOp o st
  if o.library then
    s.queueClaim (s.otherVolumes o)
      (if st = .cancelled then .cancel s.volume s.now o.quire o.tag else .failed s.volume s.now o.quire o.tag)
  else s

/-- The operations of a quire that have not ended. -/
def Vol.liveOps (v : Vol) (q : QuireId) : List Op := v.ops.filter fun o => o.quire = q && o.state ≠ .ended

/-- End every operation of a quire with a status (R335, R375, R417). -/
def State.endOps (s : State) (q : QuireId) (st : Status) : State :=
  (s.stg.vol.liveOps q).foldl (fun s o => s.failOp o st) s

/-! ### Slots of ingress buffers (R205, R226, R371 book 2) -/

/-- Slots of a packet (R206). -/
def slotsOf (n : Nat) : Nat := (n + 63) / 64

/-- Slots a fabric packet holds in its port's ingress buffer: what has not yet entered the rings (R226). -/
def FabricPkt.slotsHeld (f : FabricPkt) : Nat :=
  if f.entered.length < f.frags then slotsOf (f.bytes.length - 256 * f.entered.length) else 0

/-- Slots a port's ingress buffer holds, and those of one quire (R226, R371). -/
def State.ingressSlots (s : State) (d : Nat) : Nat :=
  total ((s.rings.fabric.filter fun f => f.src = .port d).map (·.slotsHeld))
def State.ingressOf (s : State) (q : QuireId) (d : Nat) : Nat :=
  total ((s.rings.fabric.filter fun f => f.src = .port d && f.quire = q).map (·.slotsHeld))

/-- Count in the reorder-buffer book of a quire and port (R371). -/
def State.countSlots (s : State) (q : QuireId) (place : RingPlace) (taken released : Nat) : State :=
  match place with
  | .port d =>
    let mine := fun (b : SlotBook) => decide (b.quire = q) && decide (b.port = d)
    let bs := s.rings.slots
    let add := fun (b : SlotBook) => { b with taken := b.taken + taken, released := b.released + released }
    let new := if bs.any mine then modWhere bs mine add
      else bs ++ [{ quire := q, port := d, taken := taken, released := released }]
    { s with rings := { s.rings with slots := new } }
  | _ => s

/-- The reorder-buffer books of a quire start again with what its packets hold (R373, R379 step 4). -/
def State.restartSlots (s : State) (q : QuireId) : State :=
  let held := (List.range 64).filterMap fun d =>
    if s.ingressOf q d = 0 then none
    else some ({ quire := q, port := d, taken := s.ingressOf q d, released := 0 } : SlotBook)
  { s with rings := { s.rings with slots := s.rings.slots.filter (·.quire ≠ q) ++ held } }

end Sys2Proof.Machine
end

