-- ==== Sys2Proof/Machine/Arith.lean ====
section
/-! DEFINITION. Arithmetic of the clusters (R266-R269, R282-R305): exact binary numbers, formats, blocks and promotion, pass
modes, strict mode, the epilogue, activation curves, conversion and fan splits. -/
namespace Sys2Proof.Machine

/-! ### Exact binary numbers -/

/-- A number the cluster computes with: NaN, a signed infinity, or (−1)^neg × m × 2^e exactly; m = 0 is a signed zero. -/
inductive Fp where
  | nan
  | inf (neg : Bool)
  | fin (neg : Bool) (m : Nat) (e : Int)
  deriving DecidableEq, Repr

/-- The signed zero. -/
def Fp.zero (neg : Bool) : Fp := .fin neg 0 0

/-- It is a zero. -/
def Fp.isZero : Fp → Bool
  | .fin _ m _ => m = 0
  | _ => false

/-- The number of bits of a natural number. -/
def bitLen (n : Nat) : Nat := if n = 0 then 0 else Nat.log2 n + 1

/-- ⌊log₂⌋ of a finite non-zero number. -/
def fpLog (m : Nat) (e : Int) : Int := (bitLen m : Int) - 1 + e

/-- `m / 2^k` rounded to nearest, ties to even. -/
def rneShift (m k : Nat) : Nat :=
  let q := m / 2 ^ k
  let r := m % 2 ^ k
  if 2 * r < 2 ^ k then q else if 2 * r = 2 ^ k then q + q % 2 else q + 1

/-- The exact product; a zero times an infinity is NaN. -/
def Fp.mul : Fp → Fp → Fp
  | .nan, _ => .nan
  | _, .nan => .nan
  | .inf a, .inf b => .inf (a != b)
  | .inf a, .fin b m _ => if m = 0 then .nan else .inf (a != b)
  | .fin a m _, .inf b => if m = 0 then .nan else .inf (a != b)
  | .fin a m e, .fin b n f => .fin (a != b) (m * n) (e + f)

/-- The exact sum (R293): infinities of both signs are NaN; an exact zero is −0 only when both terms are −0. -/
def Fp.add : Fp → Fp → Fp
  | .nan, _ => .nan
  | _, .nan => .nan
  | .inf a, .inf b => if a = b then .inf a else .nan
  | .inf a, .fin _ _ _ => .inf a
  | .fin _ _ _, .inf b => .inf b
  | .fin a m e, .fin b n f =>
    if m = 0 && n = 0 then .zero (a && b)
    else
      let l := min e f
      let x : Int := (if a then -1 else 1) * (m * 2 ^ (e - l).toNat : Nat)
      let y : Int := (if b then -1 else 1) * (n * 2 ^ (f - l).toNat : Nat)
      let z := x + y
      if z = 0 then .zero false else .fin (z < 0) z.natAbs l

/-- The negated number. -/
def Fp.neg : Fp → Fp
  | .nan => .nan
  | .inf a => .inf !a
  | .fin a m e => .fin (!a) m e

/-- x ≤ y of numbers that are no NaN; +0 equals −0. -/
def Fp.le : Fp → Fp → Bool
  | .nan, _ => false
  | _, .nan => false
  | .inf a, y => a || y = .inf false
  | .fin _ _ _, .inf b => !b
  | .fin a m e, .fin b n f =>
    let l := min e f
    let x : Int := (if a then -1 else 1) * (m * 2 ^ (e - l).toNat : Nat)
    let y : Int := (if b then -1 else 1) * (n * 2 ^ (f - l).toNat : Nat)
    x ≤ y

/-! ### Formats (R282, R283) -/

/-- The special encodings of a format (R283). -/
inductive Special where
  | none | e4m3 | ieee
  deriving DecidableEq, Repr

/-- A format's fields (R283). -/
structure Fmt where
  width   : Nat
  expBits : Nat
  bias    : Nat
  t       : Nat
  special : Special
  deriving DecidableEq, Repr

/-- The format of a code (R282, R283). -/
def fmtOf (code : Nat) : Fmt :=
  match code with
  | 1 => { width := 4, expBits := 2, bias := 1, t := 1, special := .none }
  | 2 => { width := 8, expBits := 4, bias := 7, t := 3, special := .e4m3 }
  | 3 => { width := 8, expBits := 5, bias := 15, t := 2, special := .ieee }
  | 4 => { width := 16, expBits := 5, bias := 15, t := 10, special := .ieee }
  | 5 => { width := 16, expBits := 8, bias := 127, t := 7, special := .ieee }
  | _ => { width := 32, expBits := 8, bias := 127, t := 23, special := .ieee }

/-- F19 (R283). -/
def f19 : Fmt := { width := 19, expBits := 8, bias := 127, t := 10, special := .ieee }

/-- FP32 (R283). -/
def f32 : Fmt := fmtOf 6

/-- Decode an encoding (R283). -/
def Fmt.decode (f : Fmt) (x : Nat) : Fp :=
  let s := bit x (f.width - 1)
  let e := x / 2 ^ f.t % 2 ^ f.expBits
  let m := x % 2 ^ f.t
  let top := 2 ^ f.expBits - 1
  if f.special = .ieee && e = top then (if m = 0 then .inf s else .nan)
  else if f.special = .e4m3 && e = top && m = 7 then .nan
  else if e = 0 then .fin s m (1 - (f.bias : Int) - f.t)
  else .fin s (2 ^ f.t + m) ((e : Int) - f.bias - f.t)

/-- Round a finite number once, to nearest, ties to even, on the format's grid with its subnormals, as if its exponent had no
upper limit (R284, R294). -/
def Fmt.round (f : Fmt) (m : Nat) (e : Int) : Nat × Int :=
  let q := max ((bitLen m : Int) + e - (f.t + 1)) (1 - (f.bias : Int) - f.t)
  if q ≤ e then (m * 2 ^ (e - q).toNat, q) else (rneShift m (q - e).toNat, q)

/-- The exponent of the largest finite value's last place, and its significand. -/
def Fmt.maxFinite (f : Fmt) : Nat × Int :=
  match f.special with
  | .none => (2 ^ (f.t + 1) - 1, (2 ^ f.expBits - 1 : Int) - f.bias - f.t)
  | .e4m3 => (2 ^ (f.t + 1) - 2, (2 ^ f.expBits - 1 : Int) - f.bias - f.t)
  | .ieee => (2 ^ (f.t + 1) - 1, (2 ^ f.expBits - 2 : Int) - f.bias - f.t)

/-- A rounded magnitude exceeds the largest finite value. -/
def Fmt.over (f : Fmt) (m : Nat) (e : Int) : Bool :=
  let (mm, me) := f.maxFinite
  !(Fp.le (.fin false m e) (.fin false mm me))

/-- The encoding of a finite number that stands on the format's grid. -/
def Fmt.encodeFinite (f : Fmt) (neg : Bool) (m : Nat) (e : Int) : Nat :=
  let s := if neg then 2 ^ (f.width - 1) else 0
  if m = 0 then s
  else
    let low : Int := 1 - (f.bias : Int) - f.t
    let k : Int := fpLog m e - f.t
    let u := if k < low then low else k
    let n := if u ≤ e then m * 2 ^ (e - u).toNat else m / 2 ^ (u - e).toNat
    if n < 2 ^ f.t then s + n else s + (u - low + 1).toNat * 2 ^ f.t + (n - 2 ^ f.t)

/-- A number as FP32 on the full grid, one rounding (R284, R289, R293): overflow is infinity, and in fast mode a rounded
result below 2⁻¹²⁶ is zero with its sign. -/
def Fp.to32 (fast : Bool) : Fp → Fp
  | .nan => .nan
  | .inf a => .inf a
  | .fin a m e =>
    let (n, k) := f32.round m e
    if n = 0 then .zero a
    else if f32.over n k then .inf a
    else if fast && fpLog n k < -126 then .zero a
    else .fin a n k

/-- The FP32 encoding of an FP32 value; every NaN is 0x7FC0_0000 (R293). -/
def Fp.bits32 : Fp → Nat
  | .nan => 0x7FC00000
  | .inf a => if a then 0xFF800000 else 0x7F800000
  | .fin a m e => f32.encodeFinite a m e

/-- An input operand in a mode (R284, R292): fast mode flushes FP16, BF16 and FP32 subnormals. -/
def decodeIn (fast : Bool) (code x : Nat) : Fp :=
  let f := fmtOf code
  let v := f.decode x
  match v with
  | .fin a m e => if fast && 4 ≤ code && m ≠ 0 && fpLog m e < 1 - (f.bias : Int) then .zero a else .fin a m e
  | v => v

/-! ### F19 and passes (R285, R291) -/

/-- The F19 value of an FP32 value (R285). -/
def toF19 (rne : Bool) (x : Fp) : Fp :=
  match x with
  | .nan => .nan
  | .inf a => .inf a
  | .fin a m e =>
    let b := f32.encodeFinite a m e
    if rne then
      let sgn := b / 2 ^ 31
      f19.decode (sgn * 2 ^ 18 + rneShift (b % 2 ^ 31) 13)
    else f19.decode (b / 2 ^ 13)

/-- An operand as the array takes it: hi and lo (R291); a non-FP32 operand is its own hi. -/
structure Operand where
  hi : Fp
  lo : Fp
  deriving DecidableEq, Repr

/-- Split an operand (R284, R291). -/
def splitOperand (rne : Bool) (code : Nat) (x : Fp) : Operand :=
  if code ≠ 6 then { hi := x, lo := .zero false }
  else
    let h := toF19 rne x
    match h with
    | .fin _ _ _ => { hi := h, lo := toF19 rne ((x.add h.neg).to32 true) }
    | _ => { hi := h, lo := .zero false }

/-- What one pass multiplies (R291). -/
def passes (mode fmtA : Nat) : List (Operand × Operand → Fp × Fp) :=
  if mode = 1 then
    [fun p => if fmtA = 6 then (p.1.lo, p.2.hi) else (p.1.hi, p.2.lo), fun p => (p.1.hi, p.2.hi)]
  else if mode = 2 then [fun p => (p.1.lo, p.2.hi), fun p => (p.1.hi, p.2.lo), fun p => (p.1.hi, p.2.hi)]
  else [fun p => (p.1.hi, p.2.hi)]

/-! ### Blocks and promotion (R287-R290) -/

/-- The block's largest ⌊log₂|p|⌋ over its finite non-zero products (R287). -/
def blockExp (ps : List Fp) : Option Int :=
  ps.foldl (fun o p => match p with
    | .fin _ m e => if m = 0 then o else some (match o with | some x => max x (fpLog m e) | none => fpLog m e)
    | _ => o) none

/-- One aligned product (R287): truncated toward zero to a multiple of 2^(E_b − 18). -/
def aligned (eb : Int) : Fp → Int
  | .fin a m e =>
    let u := eb - 18
    let q : Nat := if u ≤ e then m * 2 ^ (e - u).toNat else m / 2 ^ (u - e).toNat
    if a then -(q : Int) else q
  | _ => 0

/-- Promote a block of products into the far accumulator (R288-R290). -/
def promote (far : Fp) (ps : List Fp) : Fp :=
  if far = .nan || ps.any (· = .nan) then .nan
  else
    let pos := ps.any (· = .inf false)
    let neg := ps.any (· = .inf true)
    if pos && neg then .nan
    else if pos || neg then (if far = .inf (!neg) then .nan else .inf neg)
    else match blockExp ps with
    | none => far
    | some eb =>
      let s := ps.foldl (fun z p => z + aligned eb p) (0 : Int)
      match far with
      | .inf a => .inf a
      | _ =>
        let x := far.add (if s = 0 then .zero false else .fin (s < 0) s.natAbs (eb - 18))
        if x.isZero then .zero false else x.to32 true

/-- Cut a list into blocks of eight (R287). -/
def blocks8 {α : Type} : Nat → List α → List (List α)
  | 0, _ => []
  | n + 1, l => if l.isEmpty then [] else l.take 8 :: blocks8 n (l.drop 8)

/-- Reduce pairs of operands in fast mode (R287-R291): each block's passes in order, each promoted. -/
def reduceFast (mode fmtA : Nat) (far : Fp) (xs : List (Operand × Operand)) : Fp :=
  (blocks8 xs.length xs).foldl (fun f b =>
    (passes mode fmtA).foldl (fun f pass => promote f (b.map fun p => let y := pass p; y.1.mul y.2)) f) far

/-- Reduce in strict mode (R292): fused multiply-adds in ascending order. -/
def reduceStrict (far : Fp) (xs : List (Fp × Fp)) : Fp :=
  xs.foldl (fun f p => (Fp.add (p.1.mul p.2) f).to32 false) far

/-- An FP32 addition (R293). -/
def add32 (fast : Bool) (a b : Fp) : Fp := (a.add b).to32 fast

/-- The parts of a fan split (R305): part i of f holds blocks ⌊i × n / f⌋ up to ⌊(i + 1) × n / f⌋. -/
def fanParts {α : Type} (f : Nat) (xs : List α) : List (List α) :=
  let n := (xs.length + 7) / 8
  (List.range f).map fun i =>
    let lo := i * n / f
    let hi := (i + 1) * n / f
    (xs.drop (8 * lo)).take (8 * (hi - lo))

/-- The far accumulator of one output element (R271, R289, R292, R305): operands already decoded and split. -/
def reduceElem (d : Desc) (far : Fp) (xs : List (Operand × Operand)) : Fp :=
  if d.mode = 3 then reduceStrict far (xs.map fun p => (p.1.hi, p.2.hi))
  else if d.fan = 0 then reduceFast d.mode d.fmtA far xs
  else
    ((fanParts (2 ^ d.fan) xs).map (reduceFast d.mode d.fmtA (.zero false))).foldl (add32 true) far

/-- Prepare an operand for a descriptor: strict mode takes it exactly (R291, R292). -/
def Desc.operand (d : Desc) (code x : Nat) : Operand :=
  let strict := d.mode = 3
  let v := decodeIn (!strict) code x
  if strict then { hi := v, lo := .zero false } else splitOperand d.rne code v

/-! ### The epilogue (R293-R299) -/

/-- Convert to an output format (R294): the code, whether it saturated, and whether a NaN became FP4. -/
def convertOut (fast : Bool) (code : Nat) (x : Fp) : Nat × Bool × Bool :=
  let f := fmtOf code
  let sgn := fun (a : Bool) => if a then 2 ^ (f.width - 1) else 0
  let top := fun (a : Bool) =>
    match f.special with
    | .none => (sgn a + 7, true)
    | .e4m3 => (sgn a + 0x7E, true)
    | .ieee => (sgn a + (2 ^ f.expBits - 1) * 2 ^ f.t, false)
  match x with
  | .nan =>
    if code = 1 then (0, false, true)
    else if code = 2 then (0x7F, false, false)
    else if code = 3 then (0x7E, false, false)
    else if code = 4 then (0x7E00, false, false)
    else if code = 5 then (0x7FC0, false, false)
    else (0x7FC00000, false, false)
  | .inf a => ((top a).1, (top a).2, false)
  | .fin a m e =>
    let (n, k) := f.round m e
    if n ≠ 0 && f.over n k then ((top a).1, (top a).2, false)
    else if fast && 4 ≤ code && n ≠ 0 && fpLog n k < 1 - (f.bias : Int) then (sgn a, false, false)
    else (f.encodeFinite a n k, false, false)

/-- A curve of the activation table (R298): its segments, or none when it is not in use. -/
def actCurve (l : Led) (fw c : Nat) : Option (List (Fp × Fp × Fp)) :=
  let b := match l.act.active with | some b => b.drop 64 | none => defaultActBody fw
  if field b (16 * c) 1 = 1 then
    some ((List.range (field b (16 * c + 1) 1)).map fun i =>
      let o := 256 + 1024 * c + 16 * i
      (f32.decode (field b o 4), f32.decode (field b (o + 4) 4), f32.decode (field b (o + 8) 4)))
  else none

/-- The activation step (R299). -/
def activate (fast : Bool) (curve : Option (List (Fp × Fp × Fp))) (z : Fp) : Fp :=
  match curve with
  | none => z
  | some segs =>
    match z, (segs.filter fun g => g.1.le z).getLast? with
    | .nan, _ => .nan
    | _, none => z
    | .inf _, some (_, a, b) => if a.isZero then b.to32 fast else a.mul z
    | _, some (_, a, b) => ((a.mul z).add b).to32 fast

/-- What the epilogue yields for one element (R293): z₃, the exact z₃ × s_Y, and y. -/
structure Outcome3 where
  z3 : Fp
  scaled : Fp
  y : Nat
  saturated : Bool
  nanFp4 : Bool
  deriving DecidableEq, Repr

/-- The epilogue of one element (R293, R294). -/
def epilogue (d : Desc) (curve : Option (List (Fp × Fp × Fp))) (far bias : Fp) : Outcome3 :=
  let fast := d.mode ≠ 3
  let sB := if d.kind = 2 then Fp.fin false 1 0 else f32.decode d.scaleB.toNat
  let z1 := ((far.mul (f32.decode d.scaleA.toNat)).mul sB).to32 fast
  let z2 := if d.optBias then (z1.add bias).to32 fast else z1
  let z3 := if d.optAct then activate fast curve z2 else z2
  let y := z3.mul (f32.decode d.scaleY.toNat)
  let c := convertOut fast d.fmtY y
  { z3 := z3, scaled := y, y := c.1, saturated := c.2.1, nanFp4 := c.2.2 }

/-- y_lo under pair output (R297). -/
def pairLow (d : Desc) (o : Outcome3) : Nat × Bool × Bool :=
  match o.scaled with
  | .fin _ _ _ => convertOut (d.mode ≠ 3) d.fmtY (o.scaled.add ((fmtOf d.fmtY).decode o.y).neg)
  | _ => (0, false, false)

/-! ### Row statistics (R296) -/

/-- The larger of two numbers; +0 counts as greater than −0. -/
def fpMax (a b : Fp) : Fp :=
  if a = .nan || b = .nan then .nan
  else if a.isZero && b.isZero then (match a with | .fin true _ _ => b | _ => a)
  else if a.le b then b else a

/-- The maximum and sum of a row of z₃ (R296). -/
def rowStats (fast : Bool) (zs : List Fp) : Fp × Fp :=
  (match zs with | [] => .nan | z :: l => l.foldl fpMax z, zs.foldl (add32 fast) (.zero false))

/-! ### Tensors in grant space (R266-R269) -/

/-- The bit offset of element (i, j) of a tile tensor with `cols` columns (R266, R267). -/
def elemBit (f cols i j : Nat) : Nat :=
  8 * ((i / 64 * ((cols + 63) / 64) + j / 64) * tileBytes f) + (64 * (i % 64) + j % 64) * fmtWidth f

/-- The bit offset of element e of a vector (R268). -/
def vecBit (f e : Nat) : Nat := 8 * (e / 4096 * tileBytes f) + e % 4096 * fmtWidth f

/-- The code of an element at a bit offset from a base. -/
def readCode (m : List Host.Cell) (leaves : List Nat) (base f off : Nat) : Nat :=
  if fmtWidth f = 4 then
    let b := (Memory.read m (hbmAddr leaves (base + off / 8))).toNat
    if off % 8 = 0 then b % 16 else b / 16
  else fromLe (hbmRead m leaves (base + off / 8) (fmtWidth f / 8))

/-- Store the code of an element at a bit offset from a base. -/
def writeCode (m : List Host.Cell) (leaves : List Nat) (base f off x : Nat) : List Host.Cell :=
  if fmtWidth f = 4 then
    let a := hbmAddr leaves (base + off / 8)
    let b := (Memory.read m a).toNat
    Memory.write m a (BitVec.ofNat 8 (if off % 8 = 0 then b / 16 * 16 + x % 16 else b % 16 + 16 * (x % 16)))
  else hbmWrite m leaves (base + off / 8) (le (fmtWidth f / 8) x)

/-- The FP32 value of a plain vector's element (R268). -/
def plainElem (m : List Host.Cell) (leaves : List Nat) (base i : Nat) : Fp :=
  f32.decode (fromLe (hbmRead m leaves (base + 4 * i) 4))

/-! ### Work items (R271, R276-R278) -/

/-- What an output element of a kind 0 or 2 descriptor starts its epilogue with (R271, R289): the far accumulator. -/
def Desc.farOf (d : Desc) (m : List Host.Cell) (leaves : List Nat) (i j : Nat) : Fp :=
  let fast := d.mode ≠ 3
  if d.kind = 2 then decodeIn fast d.fmtA (readCode m leaves d.addrA d.fmtA (elemBit d.fmtA d.n i j))
  else
    let f0 := if d.optSeed then
        (f32.decode (readCode m leaves d.addrSeed fp32 (elemBit fp32 d.n i j))).to32 fast
      else .zero false
    reduceElem d f0 ((List.range d.k).map fun k =>
      (d.operand d.fmtA (readCode m leaves d.addrA d.fmtA (elemBit d.fmtA d.k i k)),
       d.operand d.fmtB (readCode m leaves d.addrB d.fmtB (elemBit d.fmtB d.n k j))))

/-- The bias of a column. -/
def Desc.biasOf (d : Desc) (m : List Host.Cell) (leaves : List Nat) (j : Nat) : Fp :=
  if d.optBias then (plainElem m leaves d.addrBias j).to32 (d.mode ≠ 3) else .zero false

/-- What a work item has written so far: memory, and the counts of R295. -/
structure ItemOut where
  mem : List Host.Cell
  saturated : Nat
  nanFp4 : Nat
  deriving DecidableEq, Repr

/-- Write one output element, its y_lo and its far accumulator at bit offsets (R278, R293, R297). -/
def Desc.putElem (d : Desc) (leaves : List Nat) (o : Outcome3) (far : Fp) (offY offF : Nat) (w : ItemOut) : ItemOut :=
  let m := writeCode w.mem leaves d.addrY d.fmtY offY o.y
  let lo := pairLow d o
  let m := if d.optPair then writeCode m leaves d.addrYlo d.fmtY offY lo.1 else m
  let m := if d.optAccOut then writeCode m leaves d.addrAcc fp32 offF far.bits32 else m
  { mem := m
    saturated := w.saturated + b2n o.saturated + b2n (d.optPair && lo.2.1)
    nanFp4 := w.nanFp4 + b2n o.nanFp4 + b2n (d.optPair && lo.2.2) }

/-- Write zero into a padding element of every tensor a tile of which is written (R267). -/
def Desc.putPad (d : Desc) (leaves : List Nat) (offY offF : Nat) (w : ItemOut) : ItemOut :=
  let m := writeCode w.mem leaves d.addrY d.fmtY offY 0
  let m := if d.optPair then writeCode m leaves d.addrYlo d.fmtY offY 0 else m
  { w with mem := if d.optAccOut then writeCode m leaves d.addrAcc fp32 offF 0 else m }

/-- The number of 4 × 4 tile blocks across, and of work items, of a RUN (R276). -/
def Desc.across (d : Desc) : Nat := (d.n + 255) / 256
def Desc.runItems (d : Desc) : Nat := (d.m + 255) / 256 * d.across

/-- The rows and columns of an item's block, padding of its edge tiles included. -/
def Desc.itemRows (d : Desc) (item : Nat) : List Nat :=
  let r := item / d.across * 256
  (List.range (min 256 (roundUp d.m 64 - r))).map (r + ·)
def Desc.itemCols (d : Desc) (item : Nat) : List Nat :=
  let c := item % d.across * 256
  (List.range (min 256 (roundUp d.n 64 - c))).map (c + ·)

/-- Run one work item of kind 0 or 2 (R271, R277, R278): every element is computed from the inputs `m` and written into the
outputs. -/
def Desc.runItem (d : Desc) (curve : Option (List (Fp × Fp × Fp))) (m : List Host.Cell) (leaves : List Nat) (item : Nat) :
    ItemOut :=
  (d.itemRows item).foldl (fun w i =>
    (d.itemCols item).foldl (fun w j =>
      let oy := elemBit d.fmtY d.n i j
      let of_ := elemBit fp32 d.n i j
      if i < d.m && j < d.n then
        let far := d.farOf m leaves i j
        d.putElem leaves (epilogue d curve far (d.biasOf m leaves j)) far oy of_ w
      else d.putPad leaves oy of_ w) w) { mem := m, saturated := 0, nanFp4 := 0 }

/-- The row statistics of a descriptor (R271, R296), written with zero padding (R268). The far accumulators come from the
written tensor where there is one, since a seed may have been replaced in place (R274). -/
def Desc.writeStats (d : Desc) (curve : Option (List (Fp × Fp × Fp))) (m : List Host.Cell) (leaves : List Nat) :
    List Host.Cell :=
  let fast := d.mode ≠ 3
  let far := fun (i j : Nat) =>
    if d.optAccOut then f32.decode (readCode m leaves d.addrAcc fp32 (elemBit fp32 d.n i j)) else d.farOf m leaves i j
  let st := (List.range d.m).map fun i =>
    rowStats fast ((List.range d.n).map fun j => (epilogue d curve (far i j) (d.biasOf m leaves j)).z3)
  let pad := le (4 * (roundUp d.m 64 - d.m)) 0
  let maxs := st.flatMap (fun x => le 4 x.1.bits32)
  let sums := st.flatMap (fun x => le 4 x.2.bits32)
  hbmWrite m leaves d.addrStats (slice maxs 0 (roundUp (4 * d.m) 64) ++ sums ++ pad)

end Sys2Proof.Machine
end

