-- ==== Sys2Proof/Machine/Quires.lean ====
section
/-! DEFINITION. The quire commands (R183, R184, R260-R265, R378-R381, R421, R530-R533) and the transit step of R202. -/
namespace Sys2Proof.Machine

/-! ### quire.carve (R530) -/

/-- The coordinates of 4 bytes each from `off` on; bits above [19] are reserved (R16, R9). -/
def coordsAt (ps : List Byte) (off n : Nat) : List Coord := (List.range n).map fun i => field ps (off + 4 * i) 4 % 2 ^ 20

/-- A member list that no quire could have (R530): not ascending, reserved, not a main endpoint, of another volume. -/
def membersBad (l : Led) (v : Nat) (cs : List Coord) : Bool :=
  !rising cs || cs.any fun c => reservedCoord l.map v c || cFun c ≠ 0 || cVol c ≠ v

/-- A member cannot be granted (R530): absent, or held by a quire. -/
def memberTaken (l : Led) (c : Coord) : Bool := !presentOwn l.map [] c || (l.holder c).isSome

/-- A director port cannot be granted (R530). -/
def State.portTaken (s : State) (l : Led) (d : Nat) : Bool :=
  l.map.isHousePort d || portLibrary s.boot l d || l.quires.any (·.ports.contains d)

/-- The parameter values quire.carve refuses (R183, R530). -/
def carveBad (c : Taken) (s : State) : Bool :=
  let v := effVolume s.boot s.val
  let m := c.u16 28
  c.u16 0 = 0 || c.u16 0 = 0xFFFF || 160 < c.u16 8 || 380 < c.u16 10 || m < 1 || 512 < m ||
  membersBad s.val v (coordsAt c.pkt.params 32 m) || !bit (c.u64 20) v

/-- The cases in which quire.carve is refused (R90, R183, R260, R412, R521, R530). -/
def carveRefusal (c : Taken) (s : State) : Option Status :=
  let l := s.val
  if carveBad c s then some .badParam
  else if s.awaiting (.quire c.pkt.quire) then some .busyTick
  else if (l.quire c.pkt.quire).isSome || l.quires.any (·.key = c.u16 0) ||
      (coordsAt c.pkt.params 32 (c.u16 28)).any (memberTaken l) || (bitsOf (c.u64 12) 64).any (s.portTaken l) ||
      (s.freeClusters l).length < c.u16 8 || (s.freeLeaves l).length < c.u16 10 ||
      Config.quireLimit ≤ l.quires.length then some .notPermitted
  else s.durableRefusal

/-- The quire a carve makes (R261, R530): slot 0, no bores, no routes. -/
def carved (c : Taken) (s : State) : QuireRec where
  id := c.pkt.quire
  key := c.u16 0
  walled := bit (c.u8 2) 0
  seed := c.u32 4
  span := c.u64 20
  members := coordsAt c.pkt.params 32 (c.u16 28)
  clusters := (s.freeClusters s.val).take (c.u16 8)
  leaves := (s.freeLeaves s.val).take (c.u16 10)
  ports := bitsOf (c.u64 12) 64
  bores := []
  installed := none
  resetCount := 0
  quarantined := false
  evicted := false

/-- Start zeroing the tile stores of clusters (R263). -/
def State.zeroTiles (s : State) (cs : List Nat) : State :=
  { s with clusters := s.clusters.mapIdx fun i x => if cs.contains i then { x with zeroing := some s.clk.cycles } else x }

/-- quire.carve (R530). -/
def hQuireCarve : Handler := fun c s =>
  match carveRefusal c s with
  | some st => refuse s st
  | none => let q := carved c s; durable c (s.zeroTiles q.clusters) [.quire q.id (some q)] (some q.id) []

def execQuireCarve (p : Pkt) (s : State) : Host.Outcome State Fault Refusal := .next (s.present 0x0301 hQuireCarve p)

/-! ### quire.grow (R531) -/

/-- The parameter values quire.grow refuses, the totals included (R531). -/
def growBad (c : Taken) (s : State) (q : QuireRec) : Bool :=
  let m := c.u16 12
  511 < m || 160 < q.clusters.length + c.u16 0 || 380 < q.leaves.length + c.u16 2 || 512 < q.members.length + m ||
  membersBad s.val (effVolume s.boot s.val) (coordsAt c.pkt.params 16 m)

/-- The cases in which quire.grow is refused (R260, R342, R412, R531, R550). -/
def growRefusal (c : Taken) (s : State) (q : QuireRec) : Option Status :=
  if growBad c s q then some .badParam
  else match quireGate s q.id with
  | some st => some st
  | none =>
    if (coordsAt c.pkt.params 16 (c.u16 12)).any (memberTaken s.val) || (bitsOf (c.u64 4) 64).any (s.portTaken s.val) ||
        (s.freeClusters s.val).length < c.u16 0 || (s.freeLeaves s.val).length < c.u16 2 then some .notPermitted
    else s.durableRefusal

/-- The quire after a grow (R261). -/
def grown (c : Taken) (s : State) (q : QuireRec) : QuireRec :=
  { q with
    members := (coordsAt c.pkt.params 16 (c.u16 12)).foldl (fun l x => insertSorted x l) q.members
    clusters := q.clusters ++ (s.freeClusters s.val).take (c.u16 0)
    leaves := q.leaves ++ (s.freeLeaves s.val).take (c.u16 2)
    ports := (bitsOf (c.u64 4) 64).foldl (fun l d => insertSorted d l) q.ports }

/-- Mark leaves as awaiting a scrub (R411, R412). -/
def State.soil (s : State) (ls : List Nat) : State :=
  s.updVol fun v => { v with dirty := ls.foldl (fun d x => insertSorted x d) v.dirty }

/-- quire.grow (R531): with a tenant slot the new leaves are scrubbed before the grow completes (R411). -/
def hQuireGrow : Handler := fun c s =>
  match s.val.quire c.pkt.quire with
  | none => refuse s .busyTick
  | some q =>
    match growRefusal c s q with
    | some st => refuse s st
    | none =>
      let new := (s.freeLeaves s.val).take (c.u16 2)
      let r := grown c s q
      let s := s.zeroTiles ((s.freeClusters s.val).take (c.u16 0))
      let s := if s.val.slotOf q.id ≠ 0 then s.soil new else s
      durable c s [.quire q.id (some r)] (some q.id) []

def execQuireGrow (p : Pkt) (s : State) : Host.Outcome State Fault Refusal := .next (s.present 0x0302 hQuireGrow p)

/-! ### The transit step (R202) -/

/-- What clears the transit through a quire's accelerators. -/
inductive TransitPlan where
  | refused (st : Status)
  | clear (masks : List (QuireId × List Mask)) (installs : List (QuireRec × Solution))
  deriving DecidableEq, Repr

/-- The paths of a solution that transit given accelerators, as masks (R202 step 1). -/
def transitMasks (v : Nat) (q : QuireRec) (x : Solution) (through : List Coord) : List Mask :=
  let bores := match q.installed with | some i => i.2 | none => q.bores
  x.pairs.flatMap fun pr => (List.range pr.paths.length).filterMap fun i =>
    match pr.paths[i]? with
    | some p =>
      if (pathTransit v q bores [p]).any through.contains then
        some { g := pr.g, h := pr.h, path := i, kind := .transit, goodFor := 0 } else none
    | none => none

/-- Every pair that loses a path keeps one (R202 step 1). -/
def keepsPath (x : Solution) (ms : List Mask) : Bool :=
  x.pairs.all fun pr => (ms.filter fun m => m.g = pr.g && m.h = pr.h).length < pr.paths.length || pr.paths = []

/-- What one other quire needs (R202). -/
def State.transitOne (s : State) (gone : QuireRec) (force : Bool) (r : QuireRec) (x : Solution) : TransitPlan :=
  let v := s.volume
  let ms := transitMasks v r x gone.members
  if ms = [] then .clear [] []
  else if keepsPath x ms then .clear [(r.id, ms)] []
  else
    let ok := (transitSet s.val r).filter fun c => !gone.members.contains c
    let y := (solveStart s.val r r.bores s.now ok).all v r
    if !force && x.pairs.any (fun pr => pr.paths ≠ [] && y.paths pr.g pr.h = []) then .refused .notPermitted
    else if s.held r.id then .refused .busyTick
    else .clear [] [(r, y)]

/-- Put two quires' needs together; the first refusal stands. -/
def TransitPlan.both : TransitPlan → TransitPlan → TransitPlan
  | .refused st, _ => .refused st
  | _, .refused st => .refused st
  | .clear a b, .clear c d => .clear (a ++ c) (b ++ d)

/-- What clears the transit of every other quire through a quire (R202). -/
def State.transitPlan (s : State) (gone : QuireRec) (force : Bool) : TransitPlan :=
  s.val.quires.foldl (fun p r =>
    if r.id = gone.id then p
    else match (s.stg.vol.quire r.id).installed with
      | some x => p.both (s.transitOne gone force r x)
      | none => p) (.clear [] [])

/-- Set the transit masks (R202 step 1, R509). -/
def State.maskTransit (s : State) (q : QuireId) (ms : List Mask) : State :=
  let old := s.stg.vol.quire q
  let new := { old with masks := old.masks ++ ms.filter fun m => !old.masks.contains m }
  let s := s.updQuireVol q fun v => { v with masks := new.masks }
  match old.installed with
  | some x => s.tellMasks q x old new (s.now + 1)
  | none => s

/-! ### quire.reset and quire.release (R378-R381, R421, R532) -/

/-- The holds on a reset or release (R376, R419, R532): quarantine and an evicted hold do not bar it. -/
def resetGate (s : State) (q : QuireId) : Option Status :=
  let n := s.vis.led.slotOf q
  if n ≠ 0 && (s.vis.led.slot n).state = .revoking then some .keyRevoked
  else if s.held q then some .busyTick
  else none

/-- A bore of the quire is opening (R58). -/
def State.boreOpening (s : State) (q : QuireId) : Bool :=
  s.tasks.any fun t => match t.kind with | .boreOpen .. => t.quire = q | _ => false

/-- Steps 1 and 2 of R379 end: operations end, descriptors and everything volatile of the quire go, its clusters' tile stores
are zeroed; admission stops, clusters are held in reset and endpoints are told from the next boundary. -/
def State.resetStart (s : State) (r : QuireRec) : State :=
  let s := (s.endOps r.id .cancelled).cancelSolves r.id
  let s := s.zeroTiles r.clusters
  let s := s.updQuireVol r.id fun v =>
    { QuireVol.init r.id with
      installed := v.installed, tables := v.tables, announced := v.announced, masks := v.masks,
      excluded := v.excluded, rebind := v.rebind, admitted := false, inReset := true }
  { s with flows := s.flows.filter (·.quire ≠ r.id), sends := s.sends.filter (·.quire ≠ r.id),
           casts := s.casts.filter (·.quire ≠ r.id),
           rings := { s.rings with fabric := s.rings.fabric.filter fun p => p.quire ≠ r.id || p.entered ≠ [] } }.restartSlots r.id

/-- Set the step of a reset or release. -/
def TaskKind.withStep (k : TaskKind) (st : ResetStep) (cs : List Coord) (left : Nat) : TaskKind :=
  match k with
  | .reset f _ _ _ => .reset f st cs left
  | .release f b _ _ _ => .release f b st cs left
  | k => k

/-- Change the step of a task that resets or releases. -/
def State.setReset (s : State) (id : Nat) (st : ResetStep) (cs : List Coord) (left : Nat) : State :=
  s.updTask id fun t => { t with kind := t.kind.withStep st cs left }

/-- Accept a reset or release: step 1 of R379 ends in this tick unless routes must be installed first. -/
def resetAccept (c : Taken) (s : State) (q : QuireRec) (force : Bool) (bound : Nat) (k : TaskKind) : State × Verdict :=
  match s.transitPlan q force with
  | .refused st => refuse s st
  | .clear ms ins =>
    let id := s.nextTask
    let s := s.startTask (some c.ident) q.id k
    let s := ms.foldl (fun s m => s.maskTransit m.1 m.2) s
    let s := ins.foldl (fun s i => s.startInstall none i.1 i.2 bound (some id)) s
    if ins = [] then ((s.resetStart q).setReset id .start [] 0, .accepted) else (s, .accepted)

/-- The cases in which quire.reset is refused before its transit step (R532). -/
def quireResetRefusal (c : Taken) (s : State) : Option Status :=
  if (drainBound (c.u16 0)).isNone then some .badParam
  else match resetGate s c.pkt.quire with
  | some st => some st
  | none => s.durableRefusal

/-- quire.reset (R378, R379, R532). -/
def hQuireReset : Handler := fun c s =>
  match quireResetRefusal c s, s.val.quire c.pkt.quire with
  | some st, _ => refuse s st
  | none, none => refuse s .badParam
  | none, some q =>
    let f := bit (c.u8 2) 0
    resetAccept c s q f ((drainBound (c.u16 0)).getD Config.defaultDrain) (.reset f .transit [] 0)

def execQuireReset (p : Pkt) (s : State) : Host.Outcome State Fault Refusal := .next (s.present 0x0304 hQuireReset p)

/-- The cases in which quire.release is refused before its transit step (R58, R532). -/
def quireReleaseRefusal (c : Taken) (s : State) : Option Status :=
  if (drainBound (c.u16 0)).isNone then some .badParam
  else match resetGate s c.pkt.quire with
  | some st => some st
  | none => if s.boreOpening c.pkt.quire then some .busyTick else s.durableRefusal

/-- quire.release (R380, R421, R532). -/
def hQuireRelease : Handler := fun c s =>
  match quireReleaseRefusal c s, s.val.quire c.pkt.quire with
  | some st, _ => refuse s st
  | none, none => refuse s .badParam
  | none, some q =>
    let f := bit (c.u8 2) 0
    let b := (drainBound (c.u16 0)).getD Config.defaultDrain
    resetAccept c s q f b (.release f b .transit [] 0)

def execQuireRelease (p : Pkt) (s : State) : Host.Outcome State Fault Refusal :=
  .next (s.present 0x0303 hQuireRelease p)

/-- An installation still runs for a command (R202 step 2). -/
def State.installsFor (s : State) (id : Nat) : Bool :=
  s.tasks.any fun t => match t.kind with | .install _ _ _ _ _ p => p = some id | _ => false

/-- The opcode of the command a task carries (R363 function 0x01). -/
def Task.opcode (t : Task) : Nat := match t.ident with | some i => i.opcode | none => 0

/-- The work phase starts a reset or release once the transit rules are met (R379). Its step has the declared worst case of a table write
(R59; DESIGN CHOICE, log entry 63). -/
def State.workReset (s : State) (t : Task) (st : ResetStep) (left : Nat) : State × Nat :=
  match st, s.val.quire t.quire with
  | .transit, some q =>
    if s.installsFor t.id then (s, left)
    else match s.schedule t.opcode 64 left with
    | some left => ((s.resetStart q).setReset t.id .start [] 0, left)
    | none => (s, left)
  | _, _ => (s, left)

/-- The boundary of a reset or release (R379 step 3): the endpoints are told, and owe a confirmation. -/
def State.boundaryReset (s : State) (t : Task) (st : ResetStep) : State :=
  match st, s.stg.led.quire t.quire with
  | .start, some q =>
    let es := s.endpoints q.id
    let body := le 1 1 ++ le 1 2 ++ le 2 q.id ++ le 4 (q.resetCount + 1) ++ le 4 0 ++ le 6 s.now
    (s.sendCtls 0x0D (s.recipients q.id) body).setReset t.id .confirming es 0
  | _, _ => s

/-- Zeroise every key of a slot (R391). -/
def State.zeroiseSlot (s : State) (n : Nat) : State :=
  { s with rot := { s.rot with keys := s.rot.keys.filter (·.slot ≠ n), memKeys := s.rot.memKeys.filter (· ≠ n) } }

/-- In-flight uses of a revoking slot (R402): the scrubs a mem.scrub still runs under its memory key, and what `rot.refs` holds. -/
def State.slotRefs (s : State) (n : Nat) : Nat :=
  total ((s.rot.refs.filter (·.1 = n)).map (·.2)) +
    (s.tasks.filter fun t => match t.kind with | .scrub .. => s.val.slotOf t.quire = n | _ => false).length

/-- The accesses and packets in flight under a slot when it is revoking (R402, R417): how many is the timing of the engines, a free
value. -/
def State.takeRefs (s : State) (n : Nat) : State :=
  let (k, s) := s.freeNat
  { s with rot := { s.rot with refs := s.rot.refs.filter (·.1 ≠ n) ++ [(n, k)] } }

/-- A tick's uses of a revoking slot that end (R402, R417 step 4): a free number of those left, and none begins. -/
def State.lessRefs (s : State) (n : Nat) : State :=
  let (k, s) := s.freeNat
  { s with rot := { s.rot with refs := s.rot.refs.map fun r => if r.1 = n then (n, r.2 - k) else r } }

/-- Every use of a slot ends without writing anything (R418): the count is zero, and a mem.scrub under its key ends with
KEY_REVOKED. -/
def State.endUses (s : State) (n : Nat) : State :=
  let mine := s.tasks.filter fun t => match t.kind with | .scrub .. => s.val.slotOf t.quire = n | _ => false
  let s := { s with rot := { s.rot with refs := s.rot.refs.filter (·.1 ≠ n) } }
  mine.foldl (fun s t => s.failTask t .keyRevoked []) s

/-- Every book of a quire balances again (R373, R379 step 5): nothing is on the rings for it, and its shaper levels are at β. -/
def State.restartBooks (s : State) (q : QuireId) : State :=
  { s with buckets := s.buckets.filter (·.quire ≠ q)
           rings := { s.rings with books := s.rings.books.filter (·.quire ≠ q), latch := s.rings.latch.filter (·.quire ≠ q) } }.restartSlots q

/-- The record that ends a reset (R379 step 5). -/
def State.stageReset (s : State) (t : Task) (q : QuireRec) : State :=
  let s := s.restartBooks q.id
  (s.setReset t.id .sealing [] 0).stageTask t 1
    [.quire q.id (some { q with resetCount := q.resetCount + 1, quarantined := false, evicted := false })] (some q.id)

/-- The record that ends a release (R380, R421). -/
def State.stageRelease (s : State) (t : Task) (q : QuireRec) : State :=
  let n := s.val.slotOf q.id
  (s.setReset t.id .sealing [] 0).stageTask t 1
    ([.quire q.id none, .shapersGone q.id] ++ (if n = 0 then [] else [.slot n KeySlot.init])) (some q.id)

/-- A release frees its leaves (R412, R421): without a slot they are scrubbed first; with one, its keys are revoked first. -/
def State.releaseLeaves (s : State) (t : Task) (q : QuireRec) : State :=
  let n := s.val.slotOf q.id
  if n = 0 then (s.soil q.leaves).setReset t.id .scrubbing [] 0
  else (s.setReset t.id .revoke [] 0).stageTask t 1 [.slot n { s.val.slot n with state := .revoking }] (some q.id)

/-- Step 4 of R379 ended: a reset is journaled; a release frees its leaves. -/
def State.resetConfirmed (s : State) (t : Task) (q : QuireRec) : State :=
  match t.kind with
  | .reset .. => s.stageReset t q
  | _ => s.releaseLeaves t q

/-- After the slot's keys are gone: scrub, or with quick release scrub in the background (R412, R421). -/
def State.releaseScrub (s : State) (t : Task) (q : QuireRec) (n : Nat) : State :=
  let k := s.val.slot n
  let s := s.soil q.leaves
  if !k.clear && k.quick then s.stageRelease t q else s.setReset t.id .scrubbing [] 0

/-- The seal phase of a reset or release: a confirmed reset (R379 step 4), a slot without uses (R417 step 4), an ended
scrub. -/
def State.sealReset (s : State) (t : Task) (st : ResetStep) (cs : List Coord) (left : Nat) : State :=
  match st, s.val.quire t.quire with
  | .confirming, some q =>
    let left := left + 1
    if cs = [] && !s.holdsSlots q.id then s.resetConfirmed t q else s.setReset t.id .confirming cs left
  | .waiting, some q =>
    let n := s.val.slotOf q.id
    let s := s.lessRefs n
    if s.slotRefs n = 0 then (s.zeroiseSlot n).releaseScrub t q n else s.setReset t.id .waiting [] (left + 1)
  | .scrubbing, some q => if q.leaves.any s.stg.vol.dirty.contains then s else s.stageRelease t q
  | _, _ => s

/-- The bound of 2,048 ticks of R379: an endpoint that has not confirmed is a lasting fault and stays excluded. -/
def execResetConfirmTimeout (q : QuireId) (s : State) : Host.Outcome State Fault Refusal :=
  let due := s.tasks.find? fun t => t.quire = q && match t.kind with
    | .reset _ .confirming _ left => 2048 ≤ left
    | .release _ _ .confirming _ left => 2048 ≤ left
    | _ => false
  match due, s.val.quire q with
  | some t, some r =>
    let cs := match t.kind with | .reset _ _ cs _ => cs | .release _ _ _ cs _ => cs | _ => []
    let s := cs.foldl (fun s c => s.fault 2 0x0C c) s
    let s := s.updQuireVol q fun v => { v with excluded := v.excluded ++ cs.filter fun c => !v.excluded.contains c }
    .next (s.resetConfirmed t r)
  | _, _ => .next s

/-- The landings of bores on switched planes, to be disconnected once their planes take a change (R173). -/
def State.dropBores (s : State) (bs : List Bore) : State :=
  let m := s.val.manifest
  let ds := bs.filterMap fun b =>
    if switchedPlane m b.a.plane then (m.bind (·.landingOf b.a)).map (b.a.plane, ·) else none
  { s with ocs := { s.ocs with disconnect := s.ocs.disconnect ++ ds } }

/-- A reset's or release's record is sealed: a reset quire's clusters leave reset, its flows start from 0 again (R194), and its admission
resumes at the next boundary (R379 step 6); a released quire is gone, its leaves await a background scrub under quick release, and its bores
are disconnected (R380). A sealed revoking record starts the wait of R417 step 4. -/
def State.resetSealed (s : State) (t : Task) (old : Option QuireRec) : State :=
  match t.kind, old with
  | .reset _ .sealing _ _, some q =>
    let s := s.updQuireVol q.id fun v => { v with inReset := false }
    let s := { s with flows := s.flows.filter (·.quire ≠ q.id) }
    let s := s.resumeAdmission q.id (s.now + 1)
    s.endTask t s.sealedOk []
  | .release _ _ .revoke _ _, some q =>
    let s := (s.announceQuire q.id false (s.now + 1)).takeRefs (s.val.slotOf q.id)
    s.setReset t.id .waiting [] 0
  | .release .., some q =>
    let s := s.updVol fun v => { v with quires := v.quires.filter (·.id ≠ q.id), ops := v.ops.filter (·.quire ≠ q.id) }
    let s := { s with buckets := s.buckets.filter (·.quire ≠ q.id) }
    let s := s.dropBores q.bores
    s.endTask t s.sealedOk []
  | _, _ => s

/-! ### quire.status (R533) -/

/-- The other volumes a quire spans (R184). -/
def QuireRec.others (q : QuireRec) (v : Nat) : List Nat := (bitsOf q.span 64).filter (· ≠ v)

/-- Some spanned director has not announced its part (R184). -/
def incomplete (v : Nat) (q : QuireRec) (w : QuireVol) : Bool :=
  (q.others v).any fun x => !w.announced.any fun a => a.volume = x && !a.released

/-- An announcement differs from this part (R184). -/
def splitQuire (q : QuireRec) (w : QuireVol) : Bool :=
  w.announced.any fun a => !a.released &&
    (a.key ≠ q.key || a.walled ≠ q.walled || a.seed ≠ q.seed || a.span ≠ q.span)

/-- A reset or release of the quire runs (R533). -/
def State.resetting (s : State) (q : QuireId) : Bool :=
  s.tasks.any fun t => t.quire = q && match t.kind with | .reset .. => true | .release .. => true | _ => false

/-- A link key of the slot has passed 2^62 (R409). -/
def State.rekeyAdvised (s : State) (n : Nat) : Bool := s.rot.keys.any fun k => k.slot = n && 2 ^ 62 < k.nonce

/-- The code of a slot's state in quire.status (R533). -/
def SlotState.code : SlotState → Nat
  | .free => 0
  | .opened => 1
  | .keyed => 2
  | .revoking => 3

/-- The result of quire.status for a quire (R533). -/
def State.statusResult (s : State) (q : QuireRec) : List Byte :=
  let v := s.vis.vol.quire q.id
  let n := s.vis.led.slotOf q.id
  let k := s.vis.led.slot n
  le 2 q.id ++
  le 1 (mask ((if q.walled then [0] else []) ++ (if q.quarantined then [1] else []) ++
    (if v.admitted then [] else [2]) ++ (if q.evicted then [3] else []) ++ (if s.rebinding q.id then [4] else []) ++
    (if n ≠ 0 && s.rekeyAdvised n then [5] else []) ++ (if n ≠ 0 && k.state = .revoking then [6] else []) ++
    (if s.resetting q.id then [7] else []))) ++
  le 1 n ++ le 1 (if n = 0 then 0 else k.state.code) ++ le 1 (b2n (n ≠ 0 && k.clear)) ++
  le 1 (b2n (n ≠ 0 && k.quick) + 2 * b2n (incomplete s.volume q v) + 4 * b2n (splitQuire q v)) ++ le 1 0 ++
  le 2 q.key ++ le 2 q.members.length ++ le 2 q.clusters.length ++ le 2 q.leaves.length ++ le 8 (mask q.ports) ++
  le 4 q.seed ++ le 4 q.resetCount ++ le 2 q.bores.length ++ le 2 (s.vis.vol.liveOps q.id).length ++
  le 2 (if n = 0 then 0 else k.cur) ++ le 2 (if n = 0 then 0 else k.prev) ++ le 8 v.stale ++ le 8 v.plainRefused ++
  le 6 (match v.installed with | some x => x.tag | none => 0) ++ le 2 (sat 0xFFFF v.xferRefused)

/-- The result of quire.status for the house quire (R533): bytes 3 to 7 and 24 to 61 are zero but for its bores. -/
def State.houseStatus (s : State) : List Byte :=
  let hb := houseBores s.boot s.vis.led
  let ports := hb.filterMap fun x => match x.1 with | .dport d => some d | _ => none
  let v := s.vis.vol.quire 0
  le 2 0 ++ le 1 (if v.admitted then 0 else 4) ++ le 5 0 ++ le 2 0 ++
  le 2 (total (s.vis.led.map.boards.map (·.live.length))) ++ le 2 0 ++ le 2 4 ++ le 8 (mask ports) ++ le 8 0 ++
  le 2 hb.length ++ le 28 0 ++ le 2 (sat 0xFFFF v.xferRefused)

/-- quire.status (R533). -/
def hQuireStatus : Handler := fun c s =>
  if c.pkt.quire = 0 then (s, .reply .ok s.houseStatus)
  else match s.vis.led.quire c.pkt.quire with
    | some q => (s, .reply .ok (s.statusResult q))
    | none => refuse s .badParam

def execQuireStatus (p : Pkt) (s : State) : Host.Outcome State Fault Refusal := .next (s.present 0x0305 hQuireStatus p)

/-! ### Library quires (R184) -/

/-- What this director announces of its part of a quire (R184). -/
def State.partOf (s : State) (q : QuireRec) (released : Bool) : Announcement where
  volume := s.volume
  quire := q.id
  key := q.key
  walled := q.walled
  seed := q.seed
  span := q.span
  members := q.members.filter fun c => presentOwn s.vis.led.map [] c
  released := released

/-- Announce a part to the spanned directors in control packets of kind 0x0F over the library-link graph (R184). -/
def State.announcePart (s : State) (q : QuireRec) (released : Bool) : State :=
  let a := s.partOf q released
  let body := Config.claimBody ([a.volume, a.quire, a.key, b2n a.walled, a.seed, a.span, b2n a.released] ++ a.members)
  s.sendCtls 0x0F ((q.others s.volume).map fun v => mkCoord v 63 0 0) body

/-- Parts of library quires are announced again (R184). -/
def State.announceAll (s : State) : State :=
  s.stg.led.quires.foldl (fun s q => if q.others s.volume = [] then s else s.announcePart q false) s

/-- An announcement arrives (R184): the latest of each director for each quire is kept, also for a quire not carved here yet. -/
def execQuireAnnouncementRx (port : Nat) (ann : Announcement) (s : State) : Host.Outcome State Fault Refusal :=
  if s.libPorts.contains port && ann.volume ≠ s.volume then
    let s := s.updVol fun v => { v with parts := (v.parts.filter fun a => !(a.volume = ann.volume && a.quire = ann.quire)) ++ [ann] }
    .next (if (s.stg.led.quire ann.quire).isSome then s.updQuireVol ann.quire fun v =>
        { v with announced := v.announced.filter (·.volume ≠ ann.volume) ++ [ann] }
      else s)
  else .next s

end Sys2Proof.Machine
end

