-- ==== Sys2Proof/Machine/Bores.lean ====
section
/-! DEFINITION. Bores and the OCS units (R158-R162, R168-R182, R625): bore.open, bore.close, disc.scan, the messages of
units and their timers, scan rounds and reconciliation. -/
namespace Sys2Proof.Machine

/-! ### Units -/

/-- A unit. -/
def State.unit (s : State) (u : Nat) : OcsUnit := s.ocs.units.getD u OcsUnit.init

/-- Change a unit. -/
def State.updUnit (s : State) (u : Nat) (f : OcsUnit → OcsUnit) : State :=
  { s with ocs := { s.ocs with units := modAt s.ocs.units u f } }

/-- A unit takes no change (R181, R182, R367): silent, unfit, or degraded. -/
def OcsUnit.down (u : OcsUnit) : Bool := 3 ≤ u.missed || u.unresponsive || u.degraded

/-- Some unit of a plane takes no change (R181). Under the bench role no unit is commanded at all (R144), so no plane takes one
(DEDUCED, log entry 174). -/
def State.planeDown (s : State) (p : Nat) : Bool :=
  s.boot.straps.bench || (unitsOf s.vis.led.manifest p).any fun u => (s.unit u).down

/-- Set the change of connections of a plane (R170). -/
def State.setPlane (s : State) (p : Nat) (c : Option PlaneChange) : State :=
  { s with ocs := { s.ocs with planes := modAt s.ocs.planes p fun _ => c } }

/-- A lasting fault of a unit, which degrades it (R367). -/
def State.unitFault (s : State) (u : Nat) : State :=
  ((s.fault 2 0x03 u).updUnit u fun x => { x with degraded := true, answered := 0 }).setDegraded 0x03 true

/-- The same for a unit that failed a change of a command, which ends with a status (R363). -/
def State.unitFaultOf (s : State) (u : Nat) (t : Option Task) (st : Status) : State :=
  match t with
  | some t =>
    ((s.addFault (taskEntry t s.now 2 0x03 u (some st))).updUnit u fun x => { x with degraded := true, answered := 0 }).setDegraded
      0x03 true
  | none => s.unitFault u

/-- The landing of a port. -/
def landingOn (m : Option Manifest) (r : PortRef) : Option Nat := m.bind (·.landingOf r)

/-- The OCS ports a pair of ports joins. -/
def joinOf (m : Option Manifest) (a b : PortRef) : Option (Nat × Nat) :=
  match landingOn m a, landingOn m b with
  | some x, some y => some (x, y)
  | _, _ => none

/-- One unit's part of a change, cut into SETs of at most 361 entries (R177, R181). -/
def UnitPart.start (u : Nat) (es : List (Nat × Nat)) : UnitPart where
  unit := u
  gen := 0
  entries := es.take 361
  rest := es.drop 361
  done := false
  failed := false
  retried := false
  silent := false
  sentAt := 0

/-- A unit's part of a change. A unit that failed its identity checks, or declares an impossible switching time, is never commanded
(R181, R182): its part has failed from the start. -/
def State.unitPart (s : State) (es : List (Nat × Nat)) (u : Nat) : UnitPart :=
  if (s.unit u).unresponsive then { UnitPart.start u es with failed := true, silent := true } else UnitPart.start u es

/-- A change that gives every unit of a plane the same entries (R171, R344). -/
def State.planeChange (s : State) (p : Nat) (k : ChangeKind) (es : List (Nat × Nat)) : State :=
  s.setPlane p (some { kind := k, parts := (unitsOf s.vis.led.manifest p).map (s.unitPart es), sent := false })

/-- The bores whose ends are told when a change is sent and when it is done (R171, R344). -/
def State.changeBores (s : State) (p : Nat) (k : ChangeKind) : List Bore :=
  let m := s.vis.led.manifest
  let named := fun (l : List (PortRef × PortRef)) =>
    l.filterMap fun x => (boreName m x.1 x.2).map fun n => ({ name := n, a := x.1, b := x.2 } : Bore)
  match k with
  | .boreOpen t => match s.task t with
    | some { kind := .boreOpen a b _, .. } => named [(a, b)]
    | _ => []
  | .scan _ _ pairs => named pairs
  | .rebind t => match s.task t with
    | some { kind := .rebind r, quire := q, .. } =>
      let old := match s.val.quire q with | some x => x.bores.filter fun b => r.plan.close.contains b.name | none => []
      (old ++ r.record.opens).filter (·.a.plane = p)
    | _ => []
  | .houseMove g sl => named [(.dport (housePort g), .uplink g sl (g % 4))]
  | _ => []

/-- Send a change's SETs under new generations, and tell its ends that switching has begun (R171, R179). -/
def State.sendChange (s : State) (p : Nat) (ch : PlaneChange) : State :=
  let (s, parts) := ch.parts.foldl (fun (x : State × List UnitPart) pt =>
    if pt.failed then (x.1, x.2 ++ [pt])
    else
      let (g, s) := x.1.nextGen
      (s.sendSet pt.unit g pt.entries, x.2 ++ [{ pt with gen := g, sentAt := s.sealCycle }])) (s, [])
  let s := s.setPlane p (some { ch with parts := parts, sent := true, sentAt := s.sealCycle })
  s.tellBores (s.changeBores p ch.kind) 1

/-! ### bore.open (R169-R172, R536) -/

/-- A reference is malformed or names a reserved coordinate (R169): a gathering's slot beyond its board. -/
def refBad (l : Led) : PortRef → Bool
  | .dport _ => false
  | .uplink g sl _ => (l.map.board g).admitted && (l.map.board g).cap = 8 && 8 ≤ sl

/-- A port reference's two bytes are malformed: bits that belong to no port (R150). -/
def codeBad (x : Nat) : Bool := bit x 15 && 64 ≤ x % 2048

/-- An end may carry a bore of the quire (R169). -/
def boreEnd (v : Nat) (l : Led) (q : QuireRec) : PortRef → Bool
  | .dport d => q.ports.contains d
  | .uplink g sl _ =>
    let c := mkCoord v g sl 0
    q.members.contains c ||
      (!q.walled && match l.holder c with | some r => r.id ≠ q.id && !r.walled | none => false)

/-- The two ports can be joined as the plane requires (R29, R159, R160, R169). -/
def joinable (l : Led) (a b : PortRef) : Bool :=
  let ok := fun (r : PortRef) => !l.uncabled r && match r with
    | .dport d => !l.map.dMis.contains d && (landingOn l.manifest r).isSome
    | .uplink g sl p => l.map.uplinks.getD (uplinkIndex g sl p) .notListed = .verified
  if switchedPlane l.manifest a.plane then ok a && ok b
  else match boreName l.manifest a b with
    | some n => l.map.patchOk.contains (n % 2 ^ 15)
    | none => false

/-- The conditions of R169 that are judged against the staged state; `freed` are bores whose ends count as free. -/
def openRefused (s : State) (l : Led) (q : QuireRec) (freed : List Bore) (a b : PortRef) : Bool :=
  let used := fun (r : PortRef) => s.refUsed { l with quires := l.quires.map fun x =>
    { x with bores := x.bores.filter fun y => !freed.any (·.name = y.name) } } r
  let lib := fun (r : PortRef) => match r with | .dport d => portLibrary s.boot l d | _ => false
  a.plane ≠ b.plane || !joinable l a b || used a || used b || lib a || lib b ||
  !boreEnd (effVolume s.boot l) l q a || !boreEnd (effVolume s.boot l) l q b

/-- The cases in which bore.open is refused, in order (R169, R170, R181, R536, R550). -/
def boreOpenRefusal (c : Taken) (s : State) (q : QuireRec) : Option Status :=
  let a := portRef (c.u16 0)
  let b := portRef (c.u16 2)
  if codeBad (c.u16 0) || codeBad (c.u16 2) || a = b || refBad s.val a || refBad s.val b then some .badParam
  else match quireGate s q.id with
  | some st => some st
  | none =>
    if openRefused s s.val q [] a b then some .notPermitted
    else if switchedPlane s.val.manifest a.plane && s.planeBusy a.plane then some .busyTick
    else if switchedPlane s.val.manifest a.plane && s.planeDown a.plane then some .opTimeout
    else s.durableRefusal

/-- bore.open (R171, R536): on a patch plane the grant is durable at once; on a switched plane every unit is set first. -/
def hBoreOpen : Handler := fun c s =>
  match s.val.quire c.pkt.quire with
  | none => refuse s .badParam
  | some q =>
    match boreOpenRefusal c s q with
    | some st => refuse s st
    | none =>
      let a := portRef (c.u16 0)
      let b := portRef (c.u16 2)
      let m := s.val.manifest
      match boreName m a b with
      | none => refuse s .notPermitted
      | some n =>
        if switchedPlane m a.plane then
          let id := s.nextTask
          let r := multi c s (.boreOpen a b a.plane)
          (r.1.planeChange a.plane (.boreOpen id) (joinOf m a b).toList, r.2)
        else
          durable c s [.quire q.id (some { q with bores := q.bores ++ [{ name := n, a := a, b := b }] })] (some q.id)
            (le 2 n)

def execBoreOpen (p : Pkt) (s : State) : Host.Outcome State Fault Refusal := .next (s.present 0x0403 hBoreOpen p)

/-! ### bore.close (R173, R536) -/

/-- The bore names of the solutions that are installed or being installed for a quire (R173). -/
def State.routedBores (s : State) (q : QuireId) : List Nat :=
  let names := fun (x : Solution) => x.pairs.flatMap fun pr => pr.paths.flatMap fun p =>
    if p.twoBore then [p.bore1, p.bore2] else [p.bore1]
  (match (s.stg.vol.quire q).installed with | some x => names x | none => []) ++
  s.tasks.flatMap fun t => if t.quire = q then (match t.kind with | .install x .. => names x | _ => []) else []

/-- The cases in which bore.close is refused (R170, R173, R181, R536, R550). -/
def boreCloseRefusal (c : Taken) (s : State) (q : QuireRec) : Option Status :=
  match quireGate s q.id with
  | some st => some st
  | none =>
    match q.bores.find? (·.name = c.u16 0) with
    | none => some .notPermitted
    | some b =>
      if (s.routedBores q.id).contains b.name then some .notPermitted
      else if switchedPlane s.val.manifest b.a.plane && s.planeBusy b.a.plane then some .busyTick
      else if switchedPlane s.val.manifest b.a.plane && s.planeDown b.a.plane then some .opTimeout
      else s.durableRefusal

/-- bore.close (R173): durable first; the plane is held for its disconnects. -/
def hBoreClose : Handler := fun c s =>
  match s.val.quire c.pkt.quire with
  | none => refuse s .badParam
  | some q =>
    match boreCloseRefusal c s q, q.bores.find? (·.name = c.u16 0) with
    | some st, _ => refuse s st
    | none, none => refuse s .notPermitted
    | none, some b =>
      let s := if switchedPlane s.val.manifest b.a.plane then
        s.setPlane b.a.plane (some { kind := .boreClose b.name, parts := [], sent := false }) else s
      durable c s [.quire q.id (some { q with bores := q.bores.filter (·.name ≠ b.name) })] (some q.id) []

def execBoreClose (p : Pkt) (s : State) : Host.Outcome State Fault Refusal := .next (s.present 0x0404 hBoreClose p)

/-- A bore.close whose record sealed: its plane's units disconnect both landings (R173). -/
def State.closeSealed (s : State) : State :=
  (List.range 4).foldl (fun s p =>
    match s.ocs.planes.getD p none with
    | some { kind := .boreClose n, parts := [], .. } =>
      if s.stg.led.bores.any (·.name = n) then s
      else s.planeChange p (.boreClose n) [(n % 2 ^ 13, 0xFFFF)]
    | _ => s) s

/-- A bore.close whose record was withdrawn leaves its plane free. -/
def State.closeDropped (s : State) (i : Option CmdIdent) : State :=
  if (i.elim 0 (·.opcode)) = 0x0404 then
    (List.range 4).foldl (fun s p =>
      match s.ocs.planes.getD p none with
      | some { kind := .boreClose n, parts := [], .. } =>
        if s.val.bores.any (·.name = n) then s.setPlane p none else s
      | _ => s) s
  else s

/-! ### Connections a unit must hold, and reconciliation (R174) -/

/-- The house bores of the listed gatherings: to the house accelerator in use, or to slot 0 before one is known (R35); none where an end
is not cabled (R29). -/
def State.houseWanted (s : State) : List (PortRef × PortRef) :=
  let l := s.stg.led
  (List.range 32).filterMap fun g =>
    let listed := match l.manifest with | some m => (m.gatherings.getD g none).isSome | none => false
    let r := (PortRef.dport (housePort g), PortRef.uplink g ((s.val.map.board g).house.getD 0) (g % 4))
    if listed && !portLibrary s.boot l (housePort g) && !l.uncabled r.1 && !l.uncabled r.2 then some r else none

/-- The connections of a plane's units: house bores, ledgered bores, scan bores in progress (R174). -/
def State.derived (s : State) (p : Nat) : List (Nat × Nat) :=
  let l := s.stg.led
  ((s.houseWanted ++ l.bores.map (fun b => (b.a, b.b)) ++ s.ocs.scanBores).filter (·.1.plane = p)).filterMap
    fun x => joinOf l.manifest x.1 x.2

/-- The entries that bring a unit's connections to the derived ones, disconnects first (R174). -/
def mendEntries (want : List (Nat × Nat)) (have_ : List (Nat × Nat)) : List (Nat × Nat) :=
  let made := fun (x y : Nat) => have_.any fun h => h = (x, y)
  let new := want.filter fun w => !made w.1 w.2
  let named := new.flatMap fun w => [w.1, w.2]
  let stale := have_.filter fun h => h.1 < h.2 && !want.any (fun w => w = h || w = (h.2, h.1)) &&
    !named.contains h.1 && !named.contains h.2
  stale.map (fun h => (h.1, 0xFFFF)) ++ new

/-- Ask a unit for its connections from a port on (R177). -/
def State.askMap (s : State) (u first : Nat) : State :=
  let ports := match (s.unit u).ident with | some i => i.ports | none => 0
  s.sendOcs u 0x04 (le 2 first ++ le 2 (min 700 (ports - first)))

/-- Start the reconciliation of a unit whose plane is free (R170, R174). -/
def State.startReconcile (s : State) (u : Nat) : State :=
  ((s.updUnit u fun x => { x with conn := [] }).setPlane (u / 8)
    (some { kind := .reconcile u, parts := [], sent := true })).askMap u 0

/-! ### Scanning (R158-R161, R527) -/

/-- Record a mismatch that stands, once (R162). -/
def DiscMap.report (x : DiscMap) (m : Mismatch) : DiscMap :=
  { x with mismatch := if m ∈ x.mismatch then x.mismatch else x.mismatch ++ [m] }

/-- Drop the mismatches a test names. -/
def DiscMap.clearMismatch (x : DiscMap) (f : Mismatch → Bool) : DiscMap :=
  { x with mismatch := x.mismatch.filter fun m => !f m }

/-- Journal a changed discovery map; an unchanged one is not journaled. -/
def State.mapTo (s : State) (m : DiscMap) : State := if m = s.val.map then s else s.stageOwn [.map m]

/-- An uplink or director port carries a standing bore. -/
def State.carries (s : State) (r : PortRef) : Bool :=
  s.houseWanted.any (fun x => x.1 = r || x.2 = r) || s.stg.led.bores.any (·.ends r)

/-- The uplinks a scan of a plane covers, by gathering, then slot (R29, R158). -/
def State.scanned (s : State) (p : Nat) : List PortRef :=
  match s.stg.led.manifest with
  | none => []
  | some m => (List.range 512).filterMap fun i =>
      let r := PortRef.uplink (i / 16) (i % 16) p
      if m.listed (i / 16) (i % 16) && !s.carries r && !s.stg.led.uncabled r then some r else none

/-- Join neighbours of a list two by two. -/
def pairUp : List PortRef → List (PortRef × PortRef)
  | a :: b :: l => (a, b) :: pairUp l
  | _ => []

/-- A plane-attached director port of the plane that carries no bore (R158). -/
def State.freePort (s : State) (p : Nat) : Option PortRef :=
  ((List.range 16).find? fun j =>
    !portLibrary s.boot s.stg.led (16 * p + j) && !s.carries (.dport (16 * p + j)) &&
      !s.stg.led.uncabled (.dport (16 * p + j))).map fun j => .dport (16 * p + j)

/-- The pairs of a round (R158): neighbours from the first, neighbours from the second with the last joined to the first, and
in a third round what no free director port could take (DEDUCED: those two with each other). -/
def State.scanPairs (s : State) (p round : Nat) : List (PortRef × PortRef) :=
  let us := s.scanned p
  let m := us.length
  let odd := fun (u : Option PortRef) => match u, s.freePort p with
    | some a, some d => [(a, d)]
    | _, _ => []
  if round = 0 then pairUp us ++ (if m % 2 = 1 then odd us.getLast? else [])
  else if round = 1 then
    pairUp us.tail ++
      (match us.head?, us.getLast? with
       | some f, some l => if m % 2 = 0 then (if m = 0 then [] else [(l, f)]) else odd (some f)
       | _, _ => [])
  else match us.head?, us.getLast? with
    | some f, some l => if f = l then [] else [(l, f)]
    | _, _ => []

/-- The number of rounds (R158). -/
def State.scanRounds (s : State) (p : Nat) : Nat :=
  if (s.scanned p).length % 2 = 1 && (s.freePort p).isNone then 3 else 2

/-- Forget what uplinks reported, before a round; when they last reported stands (R157). -/
def State.forget (s : State) (rs : List PortRef) : State :=
  let v := s.volume
  let named := fun (c u : Nat) => rs.any fun r => match r with | .uplink g sl p => c = mkCoord v g sl 0 && u = p | _ => false
  { s with disc := { s.disc with peers := s.disc.peers.map fun x => if named x.1 x.2.1 then (x.1, x.2.1, none, x.2.2.2) else x } }

/-- A scan of a plane begins: what was recorded of its director ports' landings is cleared, with its LANDING mismatches (R159, R162). -/
def DiscMap.scanStarts (x : DiscMap) (p : Nat) : DiscMap :=
  { x.clearMismatch (fun y => y.code = 0x06 && y.plane = some p && 2 ^ 15 ≤ y.object) with
    dMis := x.dMis.filter fun d => d / 16 ≠ p }

/-- Start a round of a scan (R158): the ports of the round before that it does not join are disconnected. -/
def State.startRound (s : State) (p : Nat) (task : Option Nat) (round : Nat) (before : List (PortRef × PortRef)) :
    State :=
  let m := s.stg.led.manifest
  let pairs := s.scanPairs p round
  let es := pairs.filterMap fun x => joinOf m x.1 x.2
  let named := es.flatMap fun e => [e.1, e.2]
  let off := (before.filterMap fun x => joinOf m x.1 x.2).filterMap fun e =>
    if named.contains e.1 || named.contains e.2 then none else some (e.1, 0xFFFF)
  let s := if round = 0 then s.mapTo (s.val.map.scanStarts p) else s
  (s.forget (pairs.flatMap fun x => [x.1, x.2])).planeChange p (.scan task round pairs) (off ++ es)

/-- Every unit of a plane is identified, recorded and reconciled (R182). -/
def State.unitsReady (s : State) (p : Nat) : Bool :=
  (unitsOf s.vis.led.manifest p).all fun u =>
    let x := s.unit u
    x.ident.isSome && !x.down && !x.reconcile && (s.val.map.unitIds.getD u none).isSome

/-- The cases in which disc.scan is refused (R161, R170, R181, R527). A unit that only fails its identity does not bar the
scan, which clears the recorded identifier (R182). -/
def discScanRefusal (c : Taken) (s : State) : Option Status :=
  let ps := bitsOf (c.u8 0) 4
  if c.u8 0 = 0 || 16 ≤ c.u8 0 then some .badParam
  else if s.val.manifest.isNone || ps.any (fun p => !switchedPlane s.val.manifest p) then some .notPermitted
  else if ps.any (fun p => s.planeBusy p || s.ocs.scanDue.any (·.1 = p)) || s.awaiting .map then some .busyTick
  else if s.boot.straps.bench || ps.any (fun p => (unitsOf s.val.manifest p).any fun u => 3 ≤ (s.unit u).missed || (s.unit u).degraded)
    then some .opTimeout
  else s.durableRefusal

/-- disc.scan (R158, R161, R182, R527): the recorded identifiers of the planes' units are cleared, the units are asked for
their identity, and the planes wait for their scan. -/
def hDiscScan : Handler := fun c s =>
  match discScanRefusal c s with
  | some st => refuse s st
  | none =>
    let ps := bitsOf (c.u8 0) 4
    let us := ps.flatMap (unitsOf s.val.manifest)
    let id := s.nextTask
    let m := s.val.map
    let m := { m with unitIds := m.unitIds.mapIdx fun u x => if us.contains u then none else x }
    let r := multi c s (.scan (c.u8 0))
    let s := r.1.stage { ident := some c.ident, kind := 1, objs := [.map m], hist := [], task := none, result := none,
                         quire := none, tick := c.tick, folios := 1 }
    let s := us.foldl (fun s u => (s.updUnit u fun x => { x with reconcile := true, unresponsive := false }).sendOcs u 0x01 []) s
    let due := ps.map fun p => (p, some id)
    ({ s with ocs := { s.ocs with scanDue := s.ocs.scanDue ++ due } }, r.2)

def execDiscScan (p : Pkt) (s : State) : Host.Outcome State Fault Refusal := .next (s.present 0x0203 hDiscScan p)

/-- The next change of a free plane (R170, R173, R174): reconciliation, then disconnects, then a scan that waits. A plane with a unit that
takes no change ends a disc.scan with OP_TIMEOUT; a scan no command asked for waits (R181). -/
def State.nextChange (s : State) (p : Nat) : State :=
  if (s.ocs.planes.getD p none).isSome || s.power.warn || s.power.holdup then s
  else
    let us := unitsOf s.vis.led.manifest p
    match us.find? (fun u => let x := s.unit u
                             x.reconcile && x.ident.isSome && !x.unresponsive && x.missed < 3 &&
                             (s.val.map.unitIds.getD u none).isSome) with
    | some u => s.startReconcile u
    | none =>
      let ds := s.ocs.disconnect.filter (·.1 = p)
      if ds ≠ [] then
        ({ s with ocs := { s.ocs with disconnect := s.ocs.disconnect.filter (·.1 ≠ p) } }).planeChange p .cleanup
          (ds.map fun (d : Nat × Nat) => (d.2, 0xFFFF))
      else match s.ocs.scanDue.find? (·.1 = p) with
        | some (_, t) =>
          let drop := { s with ocs := { s.ocs with scanDue := s.ocs.scanDue.filter (·.1 ≠ p) } }
          if us.any fun u => (s.unit u).down then
            match t.bind s.task with
            | some k => drop.failTask k .opTimeout []
            | none => s
          else if s.unitsReady p then drop.startRound p t 0 []
          else s
        | none => s

/-- The work phase starts the changes that planes can take. -/
def State.nextChanges (s : State) : State := (List.range 4).foldl (fun s p => s.nextChange p) s

/-! #### Judging a scan (R159) -/

/-- The OCS port joined to a port in a round. -/
def partner (m : Option Manifest) (r : ScanRound) (x : Nat) : Option Nat :=
  (r.pairs.filterMap fun p => joinOf m p.1 p.2).findSome? fun e =>
    if e.1 = x then some e.2 else if e.2 = x then some e.1 else none

/-- The peer a round's pairs predict. -/
def predicted (r : ScanRound) (u : PortRef) : Option PortRef :=
  r.pairs.findSome? fun p => if p.1 = u then some p.2 else if p.2 = u then some p.1 else none

/-- The peer an uplink reported in a round. -/
def sawIn (r : ScanRound) (u : PortRef) : Option PortRef := (r.got.find? (·.1 = u)).map (·.2)

/-- Spread locations (DEDUCED): whoever saw a located port in a round stands at that port's partner. -/
def spread (m : Option Manifest) (rs : List ScanRound) (us : List PortRef) (loc : List (PortRef × Nat)) :
    List (PortRef × Nat) :=
  loc ++ us.filterMap fun u =>
    if loc.any (·.1 = u) then none
    else rs.findSome? fun r => match sawIn r u with
      | none => none
      | some y => match loc.find? (·.1 = y) with
        | some l => (partner m r l.2).map (u, ·)
        | none => none

/-- Repeat the spreading. -/
def spreadN (m : Option Manifest) (rs : List ScanRound) (us : List PortRef) : Nat → List (PortRef × Nat) → List (PortRef × Nat)
  | 0, l => l
  | n + 1, l => spreadN m rs us n (spread m rs us l)

/-- What a scan finds of one uplink (R159). One whose reports all match, but that reported in some rounds only, is none of the three: it
stays unconfirmed (DEDUCED, log entry 175). -/
def judge (m : Option Manifest) (rs : List ScanRound) (loc : List (PortRef × Nat)) (u : PortRef) :
    UplinkState × Option Mismatch :=
  let mine := rs.filter fun r => (predicted r u).isSome
  let saw := mine.filterMap fun r => sawIn r u
  let land := landingOn m u
  let miss := fun (x y : Option Nat) => some (Mismatch.mk 0x06 (some u.plane) u.code x y)
  if saw = [] then (.silent, none)
  else match loc.find? (·.1 = u) with
    | some l => if some l.2 = land then (if saw.length = mine.length then .verified else .unconfirmed, none)
                else (.misLanded, miss (some l.2) none)
    | none =>
      if mine.all fun r => (sawIn r u).elim true fun y => some y = predicted r u then (.unconfirmed, none)
      else
        let cands := mine.filterMap fun r => ((sawIn r u).bind (landingOn m)).bind (partner m r)
        (.misLanded, miss cands.head? cands.tail.head?)

/-- Take the rounds of a plane's scan into the discovery map (R159). -/
def DiscMap.scanned (x : DiscMap) (m : Option Manifest) (p : Nat) (rs : List ScanRound) (us : List PortRef) : DiscMap :=
  let sure := us.filter fun u =>
    let mine := rs.filter fun r => (predicted r u).isSome
    mine ≠ [] && mine.all fun r => sawIn r u = predicted r u
  let loc := spreadN m rs us us.length (sure.filterMap fun u => (landingOn m u).map (u, ·))
  let found := us.map fun u => (u, judge m rs loc u)
  { x with
    uplinks := found.foldl (fun l f => match f.1 with
      | .uplink g sl q => modAt l (uplinkIndex g sl q) fun _ => f.2.1
      | _ => l) x.uplinks
    mismatch := (x.mismatch.filter fun y => !(y.code = 0x06 && y.plane = some p && us.any fun u => u.code = y.object)) ++
      found.filterMap (·.2.2) }

/-- The result of disc.scan (R527). -/
def State.scanResult (s : State) (msk : Nat) : List Byte :=
  (List.range 4).flatMap fun p =>
    if bit msk p then
      let n := fun (st : UplinkState) =>
        ((List.range 512).filter fun i => s.val.map.uplinks.getD (4 * i + p) .notListed = st).length
      le 1 p ++ le 1 0 ++ le 2 (n .verified) ++ le 2 (n .misLanded) ++ le 2 (n .silent)
    else le 8 0

/-- Stage a change of the discovery map (R82, R161). -/
def State.stageMap (s : State) (m : DiscMap) (task : Option Nat) (ident : Option CmdIdent) (res : Option (List Byte)) :
    State :=
  s.stage { ident := ident, kind := 1, objs := [.map m], hist := [], task := task, result := res, quire := none,
            tick := s.now, folios := 1 }

/-- A plane's scan has ended: the map takes its findings, the scan bores close, and a disc.scan whose planes are all scanned
ends when the map has sealed (R158, R527). -/
def State.scanEnded (s : State) (p : Nat) (task : Option Nat) (pairs : List (PortRef × PortRef)) : State :=
  let rs := s.ocs.seen.filter (·.plane = p)
  let m := s.stg.led.manifest
  let x := s.val.map.scanned m p rs (s.scanned p)
  let s := { s with ocs := { s.ocs with seen := s.ocs.seen.filter (·.plane ≠ p), scanned := insertSorted p s.ocs.scanned } }
  let s := s.planeChange p .cleanup ((pairs.filterMap fun y => joinOf m y.1 y.2).map fun e => (e.1, 0xFFFF))
  let more := fun (t : Nat) => s.ocs.scanDue.any (·.2 = some t) ||
    (s.ocs.planes.any fun c => match c with | some { kind := .scan (some u) _ _, .. } => u = t | _ => false)
  match task.bind s.task with
  | some t =>
    if more t.id then s.stageMap x none t.ident none
    else if s.ledgerFaulted then (s.stageOwn [.map x]).failTask t .ledgerFault []
    else s.stageMap x (some t.id) t.ident none
  | none => s.stageOwn [.map x]

/-- The time a round takes after its SETs (R158): the units' declared switching time and 16 ticks, in reference cycles. -/
def State.roundCycles (s : State) (p : Nat) : Nat :=
  let us := (unitsOf s.stg.led.manifest p).map fun u => match (s.unit u).ident with | some i => i.switchUs | none => 0
  100 * us.foldl max 0 + 16 * s.clk.period

/-- A scan round ends (R158), in the tick in which its time is over and every unit's switching has an outcome: what its uplinks reported is
kept, or nothing where a unit failed; then the next round, or the end. -/
def execScanRoundEnd (plane : Nat) (s : State) : Host.Outcome State Fault Refusal :=
  match s.ocs.planes.getD plane none with
  | some { kind := .scan t r pairs, sent := true, parts := ps, sentAt := at_ } =>
    if s.clk.cycles + s.clk.period ≤ at_ + s.roundCycles plane || ps.any fun x => !x.failed && (!x.done || x.rest ≠ []) then .next s
    else
      let got := if ps.any (·.failed) then [] else (pairs.flatMap fun x => [x.1, x.2]).filterMap fun u => match u with
        | .uplink g sl q =>
          (s.disc.peers.find? fun y => y.1 = mkCoord s.volume g sl 0 && y.2.1 = q).bind fun y => y.2.2.1.map (u, ·)
        | .dport _ => none
      let s := { s with ocs := { s.ocs with seen := s.ocs.seen ++ [{ plane := plane, pairs := pairs, got := got : ScanRound }] } }
      .next (if r + 1 < s.scanRounds plane then s.startRound plane t (r + 1) pairs else s.scanEnded plane t pairs)
  | _ => .next s

/-! ### What units answer -/

/-- A change of connections has ended on every unit (R171-R174, R352). -/
def State.finishChange (s : State) (p : Nat) (ch : PlaneChange) : State :=
  let bad := ch.parts.filter (·.failed)
  let st : Status := if bad.all (·.silent) then .opTimeout else .lastingFault
  let cmd := match ch.kind with | .boreOpen id => s.task id | .rebind id => s.task id | _ => none
  let faulted := fun (s : State) =>
    (bad.filter fun x => !(s.unit x.unit).unresponsive).foldl (fun s x => s.unitFaultOf x.unit cmd st) s
  let undo := fun (s : State) (es : List (Nat × Nat)) =>
    let ps := (ch.parts.filter (·.done)).map fun x => UnitPart.start x.unit es
    if ps = [] then s.setPlane p none else s.setPlane p (some { kind := .cleanup, parts := ps, sent := false })
  match ch.kind with
  | .boreOpen id =>
    match s.task id with
    | some t =>
      match t.kind with
      | .boreOpen a b _ =>
        if bad = [] then
          match boreName s.val.manifest a b, s.val.quire t.quire with
          | some n, some q =>
            let bo : Bore := { name := n, a := a, b := b }
            let s := s.setPlane p none
            let s := { s with ocs := { s.ocs with doneNext := s.ocs.doneNext ++ [bo] } }
            match s.durableRefusal with
            | some st => (undo s ((joinOf s.val.manifest a b).toList.map fun e => (e.1, 0xFFFF))).failTask t st []
            | none => s.stageTask t 1 [.quire q.id (some { q with bores := q.bores ++ [bo] })] (some q.id)
          | _, _ => (undo s ((joinOf s.val.manifest a b).toList.map fun e => (e.1, 0xFFFF))).failTask t .cancelled []
        else
          (faulted (undo s ((joinOf s.val.manifest a b).toList.map fun e => (e.1, 0xFFFF)))).failTask t st []
      | _ => s.setPlane p none
    | none => s.setPlane p none
  | .boreClose _ | .cleanup =>
    let s := bad.foldl (fun s x => s.updUnit x.unit fun u => { u with stray := u.stray ++ x.entries.map (·.1) }) s
    (faulted s).setPlane p none
  | .scan .. => faulted (s.setPlane p (some { ch with parts := ch.parts.map fun x => { x with done := true, rest := [] } }))
  | .reconcile u =>
    let s := s.setPlane p none
    if bad = [] then s.updUnit u fun x => { x with reconcile := false, stray := [] } else faulted s
  | .rebind id =>
    let s := (faulted s).setPlane p none
    let s := { s with ocs := { s.ocs with doneNext := s.ocs.doneNext ++ (if bad = [] then s.changeBores p ch.kind else []) } }
    s.updTask id fun t => match t.kind with
      | .rebind r => { t with kind := .rebind { r with
          planes := r.planes.filter (· ≠ p)
          fail := if bad = [] then r.fail else some (r.fail.getD st) } }
      | _ => t
  | .houseMove g sl =>
    let s := (faulted s).setPlane p none
    if bad = [] then
      let s := { s with ocs := { s.ocs with doneNext := s.ocs.doneNext ++ s.changeBores p ch.kind }
                        disc := { s.disc with noBoard := s.disc.noBoard.filter (·.1 ≠ g) } }
      s.mapTo { s.val.map with boards := modAt s.val.map.boards g fun b => { b with house := some sl } }
    else { s with ocs := { s.ocs with houseMoves := insertSorted g s.ocs.houseMoves } }

/-- Whether a change has an outcome on every unit; further SETs go out when the ones before completed (R181). -/
def State.checkChange (s : State) (p : Nat) : State :=
  match s.ocs.planes.getD p none with
  | none => s
  | some ch =>
    if !ch.sent || ch.parts = [] || ch.parts.any (fun x => !x.done && !x.failed) then s
    else if ch.parts.all (·.done) && ch.parts.any (fun x => x.rest ≠ []) then
      s.sendChange p { ch with parts := (ch.parts.filter fun x => x.rest ≠ []).map fun x => UnitPart.start x.unit x.rest }
    else match ch.kind with
      | .scan .. => if ch.parts.any (·.failed) then s.finishChange p ch else s
      | _ => s.finishChange p ch

/-- The seal phase sends the changes that are ready (R171 step 1, R179); none while PWR_WARN_N holds (R432). A change that no unit may be
sent has its outcome at once. -/
def State.sendChanges (s : State) : State :=
  if s.power.warn || s.power.holdup then s
  else (List.range 4).foldl (fun s p =>
    match s.ocs.planes.getD p none with
    | some ch => if ch.sent || ch.parts = [] then s else (s.sendChange p ch).checkChange p
    | none => s) s

/-- Change one unit's part of its plane's change. -/
def State.updPart (s : State) (u : Nat) (f : UnitPart → UnitPart) : State :=
  match s.ocs.planes.getD (u / 8) none with
  | none => s
  | some ch => s.setPlane (u / 8) (some { ch with parts := modWhere ch.parts (·.unit = u) f })

/-- A unit refused its SET, failed an entry, or was silent (R172): once more, then failed. -/
def State.failPart (s : State) (u : Nat) (silent : Bool) : State :=
  match (s.ocs.planes.getD (u / 8) none).bind fun ch => ch.parts.find? fun x => x.unit = u && !x.done && !x.failed with
  | none => s
  | some x =>
    if !x.retried then
      if silent then (s.updPart u fun x => { x with retried := true, sentAt := s.sealCycle }).sendSet u x.gen x.entries
      else
        let (g, s) := s.nextGen
        (s.updPart u fun x => { x with retried := true, gen := g, sentAt := s.sealCycle }).sendSet u g x.entries
    else (s.updPart u fun x => { x with failed := true, silent := silent }).checkChange (u / 8)

/-- The part of a unit that a generation names. -/
def State.partOfGen (s : State) (u gen : Nat) : Option UnitPart :=
  (s.ocs.planes.getD (u / 8) none).bind fun ch => ch.parts.find? fun x => x.unit = u && x.gen = gen && !x.done && !x.failed

/-- A SET_ACK (R177, R178): any result but 0 is a refusal. -/
def State.ocsSetAck (s : State) (u : Nat) (b : List Byte) : State :=
  if (s.partOfGen u (field b 0 8)).isSome && field b 8 1 ≠ 0 then s.failPart u false else s

/-- A SET_DONE (R171, R172, R178). -/
def State.ocsSetDone (s : State) (u : Nat) (b : List Byte) : State :=
  match s.partOfGen u (field b 0 8) with
  | none => s
  | some _ =>
    if field b 10 2 = 0 then (s.updPart u fun x => { x with done := true }).checkChange (u / 8)
    else s.failPart u false

/-- A MAP (R174): kept until the unit's ports are all known; then the SETs that mend its connections. -/
def State.ocsMap (s : State) (u : Nat) (b : List Byte) : State :=
  match s.ocs.planes.getD (u / 8) none with
  | some { kind := .reconcile w, parts := [], .. } =>
    if w ≠ u then s
    else
      let first := field b 8 2
      let k := field b 10 2
      let new := (List.range k).filterMap fun i =>
        let y := field b (12 + 2 * i) 2
        if y = 0xFFFF then none else some (first + i, y)
      let s := s.updUnit u fun x => { x with conn := x.conn ++ new }
      let ports := match (s.unit u).ident with | some i => i.ports | none => 0
      if k ≠ 0 && first + k < ports then s.askMap u (first + k)
      else
        let es := mendEntries (s.derived (u / 8)) (s.unit u).conn
        if es = [] then
          (s.setPlane (u / 8) none).updUnit u fun x => { x with reconcile := false, stray := [] }
        else s.setPlane (u / 8) (some { kind := .reconcile u, parts := [UnitPart.start u es], sent := false })
  | _ => s

/-- The ports of a plane whose lanes its units, of which the smallest has this many ports, do not all reach (R29): LANES mismatches. -/
def laneMismatches (m : Manifest) (p ports : Nat) : List Mismatch :=
  ((List.range 512).map (fun i => PortRef.uplink (i / 16) (i % 16) p) ++ (List.range 16).map fun j => PortRef.dport (16 * p + j)).filterMap
    fun r => match m.landingOf r with
      | some x => if ports ≤ x then
          some { code := 0x0A, plane := some p, object := r.code, found := none, second := none } else none
      | none => none

/-- The fewest ports an identified unit of a plane has. -/
def State.leastPorts (s : State) (p : Nat) : Nat :=
  ((unitsOf s.vis.led.manifest p).filterMap fun u => (s.unit u).ident.map (·.ports)).foldl min 65536

/-- An IDENT (R177, R181, R182): the identity is recorded at first, then checked; a new boot count starts a
reconciliation (R174). -/
def State.ocsIdent (s : State) (u : Nat) (b : List Byte) : State :=
  let id : UnitIdent := { ident := field b 0 8, ports := field b 8 2, switchUs := field b 12 4, boot := field b 16 4,
                          latching := bit (field b 21 1) 0 }
  let old := s.unit u
  let s := s.updUnit u fun x =>
    { x with ident := some id, missed := 0, asked := false, answered := x.answered + 1, lastBoot := some id.boot }
  match s.vis.led.manifest with
  | none => s
  | some m =>
    let recd := s.val.map.unitIds.getD u none
    let s := if recd.isNone then s.mapTo { s.val.map with unitIds := modAt s.val.map.unitIds u fun _ => some id.ident } else s
    let range := 1000 ≤ id.switchUs && id.switchUs ≤ 100000
    let fits := (m.ocs.getD u (0, 0)).2 ≤ id.ports && (recd.isNone || recd = some id.ident)
    let lanes := laneMismatches m (u / 8) (s.leastPorts (u / 8))
    let laned := fun (x : DiscMap) =>
      lanes.foldl (fun x l => x.report l) (x.clearMismatch fun y => y.code = 0x0A && y.plane = some (u / 8) && !lanes.contains y)
    let mm : Mismatch := { code := 0x0D, plane := none, object := u, found := none, second := none }
    if !fits then
      let s := if old.unresponsive then s else (s.fault 2 0x03 u)
      (s.updUnit u fun x => { x with unresponsive := true }).mapTo (laned (s.val.map.report mm))
    else
      let s := s.mapTo (laned (s.val.map.clearMismatch (· = mm)))
      if !range then
        let s := if old.unresponsive then s else (s.fault 2 0x03 u)
        s.updUnit u fun x => { x with unresponsive := true }
      else s.updUnit u fun x =>
        { x with unresponsive := false,
                 reconcile := x.reconcile || old.lastBoot ≠ some id.boot || x.degraded || recd.isNone }

/-- An ALARM (R625). -/
def State.ocsAlarm (s : State) (u : Nat) (b : List Byte) : State :=
  let s := s.fault 1 0x03 u
  if field b 2 2 = 2 then (s.updUnit u fun x => { x with asked := true }).sendOcs u 0x01 []
  else s.updUnit u fun x => { x with reconcile := true }

/-- The lengths R177 gives message bodies. -/
def ocsLengthOk (type : Nat) (b : List Byte) : Bool :=
  let n := b.length
  if type = 0x81 then n = 24 else if type = 0x82 then n = 12 else if type = 0x83 then n = 12 + 2 * field b 10 2
  else if type = 0x84 then n = 12 + 2 * field b 10 2 else if type = 0x85 then n = 16 else false

/-- Count a discard of ETH1 (R175, R623). -/
def State.ethDiscard1 (s : State) (i : Nat) : State :=
  { s with eth1 := { s.eth1 with counters := modAt s.eth1.counters i (· + 1) } }

/-- A message to ETH1's port 24113 (R175-R177, R182): discarded and counted when it comes from no unit's address or is
malformed; a unit that names another index is treated as unresponsive; else it is acted on by its type. -/
def State.ocsReceive (s : State) (src : Ip) (msg : List Byte) : State :=
  let s := { s with eth1 := s.eth1.count 0 (frameBytes msg.length) }
  let us := match s.vis.led.manifest with | some m => m.unitsInUse | none => []
  match us.find? fun u => s.unitIp u = src with
  | none => s.ethDiscard1 10
  | some u =>
    let b := msg.drop 16
    let type := field msg 3 1
    if msg.length < 16 || field msg 0 2 ≠ 0x534F || field msg 2 1 ≠ 1 || field msg 8 2 ≠ b.length ||
        !ocsLengthOk type b || crc32c (msg.take 12 ++ b) ≠ BitVec.ofNat 32 (field msg 12 4) then s.ethDiscard1 9
    else
      let s := s.ethDiscard1 4
      if field msg 10 1 ≠ u then
        let s := if (s.unit u).unresponsive then s else s.fault 2 0x03 u
        (s.updUnit u fun x => { x with unresponsive := true }).mapTo
          (s.val.map.report { code := 0x0D, plane := none, object := u, found := none, second := none })
      else if type = 0x81 then s.ocsIdent u b
      else if type = 0x82 then s.ocsSetAck u b
      else if type = 0x83 then s.ocsSetDone u b
      else if type = 0x84 then s.ocsMap u b
      else s.ocsAlarm u b

def execIdentRx (src : Ip) (msg : List Byte) (s : State) : Host.Outcome State Fault Refusal := .next (s.ocsReceive src msg)
def execSetAckRx (src : Ip) (msg : List Byte) (s : State) : Host.Outcome State Fault Refusal := .next (s.ocsReceive src msg)
def execSetDoneRx (src : Ip) (msg : List Byte) (s : State) : Host.Outcome State Fault Refusal := .next (s.ocsReceive src msg)
def execMapRx (src : Ip) (msg : List Byte) (s : State) : Host.Outcome State Fault Refusal := .next (s.ocsReceive src msg)
def execAlarmRx (src : Ip) (msg : List Byte) (s : State) : Host.Outcome State Fault Refusal := .next (s.ocsReceive src msg)

/-- The deadline of a unit's SET_DONE is past (R181): its declared switching time and 5 ms from the seal phase of its SET. -/
def State.deadlinePast (s : State) (u : Nat) : Bool :=
  (s.ocs.planes.getD (u / 8) none).any fun ch => ch.sent && ch.parts.any fun x =>
    x.unit = u && !x.done && !x.failed && s.reached (x.sentAt + usCycles ((s.unit u).ident.elim 0 (·.switchUs)) + msCycles 5)

/-- The deadline of a unit's SET_DONE passes (R172, R181). -/
def execSetDeadlineExpiry (unit : Nat) (s : State) : Host.Outcome State Fault Refusal :=
  .next (if s.deadlinePast unit then s.failPart unit true else s)

/-- Once a second every unit is asked for its identity (R181); three in a row unanswered make it unresponsive, a lasting
fault, and its address is resolved again (R127). -/
def State.identReq (s : State) (u : Nat) : State :=
  let x := s.unit u
  let n := if x.asked then x.missed + 1 else x.missed
  let s := s.updUnit u fun x => { x with missed := n, asked := true, answered := if x.asked then 0 else x.answered }
  let s := if n = 3 then
      let s := s.unitFault u
      { s with eth1 := { s.eth1 with arp := s.eth1.arp.filter (·.1 ≠ s.unitIp u) } }
    else s
  s.sendOcs u 0x01 []

def execIdentReqTimer (s : State) : Host.Outcome State Fault Refusal :=
  if s.boot.straps.bench then .next s else
  if s.clk.cycles + s.clk.period < s.ocs.identAt then .next s else
  let us := match s.vis.led.manifest with | some m => m.unitsInUse | none => []
  .next (us.foldl (fun s u => s.identReq u) { s with ocs := { s.ocs with identAt := s.clk.cycles + Config.hz } })

/-! ### House bores (R35-R37) -/

/-- The slots whose uplink may carry a gathering's house bore: on a switched plane every slot, on a patch plane slot 0 and the manifest's
alternate (R36). -/
def State.houseSlots (s : State) (g : Nat) : List Nat :=
  let e := s.val.manifest.bind fun m => m.gatherings.getD g none
  if switchedPlane s.val.manifest (g % 4) then List.range (match e with | some e => e.cap | none => 0)
  else 0 :: (e.bind (·.alt)).toList

/-- Where the house bore of a gathering belongs (R35, R37): its lowest-numbered live slot. Where no board shows behind the house bore of a
gathering that is not admitted, the next slot is tried (DESIGN CHOICE, log entry 176). -/
def State.houseTarget (s : State) (g : Nat) : Option Nat :=
  let b := s.val.map.board g
  if b.admitted then (s.houseSlots g).find? b.live.contains
  else if (s.disc.noBoard.find? (·.1 = g)).elim false fun x => 256 ≤ x.2 then
    let h := b.house.getD 0
    ((s.houseSlots g).find? (h < ·)).orElse fun _ => (s.houseSlots g).head?
  else none

/-- A gathering has lost its management reach (R37): a mismatch that stands, a lasting fault, and the state unreachable. -/
def State.loseReach (s : State) (g : Nat) : State :=
  let b := s.val.map.board g
  if b.state = 4 then s
  else
    let m := { s.val.map with boards := modAt s.val.map.boards g fun b => { b with state := 4, cap := if b.state = 1 then b.cap else 0 } }
    (s.lasting 0x09 g).mapTo (m.report { code := 0x0B, plane := none, object := mkCoord s.volume g 0 0, found := none, second := none })

/-- The house bore of a gathering moves (R35, R37): on a switched plane in the next tick in which every unit takes the change, and again
after a change that failed; on a patch plane to the alternate. With no slot left the gathering is unreachable for management. -/
def execHouseBoreMove (g : Nat) (s : State) : Host.Outcome State Fault Refusal :=
  let m := s.val.map
  let b := m.board g
  let p := g % 4
  let settled := { s with ocs := { s.ocs with houseMoves := s.ocs.houseMoves.filter (· ≠ g) } }
  let listed := (s.val.manifest.bind fun x => x.gatherings.getD g none).isSome
  if !listed || portLibrary s.boot s.val (housePort g) then .next settled
  else match s.houseTarget g with
  | none => .next (if b.admitted && (b.house.elim true fun h => !b.live.contains h) then settled.loseReach g else settled)
  | some sl =>
    if b.house = some sl then .next settled
    else if !switchedPlane s.val.manifest p then
      .next (settled.mapTo { m with boards := modAt m.boards g fun b => { b with house := some sl } })
    else if s.planeBusy p || s.planeDown p || !s.unitsReady p then
      .next { s with ocs := { s.ocs with houseMoves := insertSorted g s.ocs.houseMoves } }
    else
      .next (settled.planeChange p (.houseMove g sl)
        (joinOf s.val.manifest (.dport (housePort g)) (.uplink g sl p)).toList)

end Sys2Proof.Machine
end

