-- ==== Sys2Proof/Machine/Rebind.lean ====
section
/-! DEFINITION. Rebind: rebind.plan, rebind.commit and rebind.status, the steps of R343, roll-back and the two folios
(R337-R357, R538-R540). -/
namespace Sys2Proof.Machine

/-! ### The plan (R337-R340, R538) -/

/-- A plan image as it spells (R538). -/
structure PlanImage where
  copies : List (Nat × Nat × Nat)
  grant  : List Nat
  close  : List Nat
  opens  : List (Nat × Nat)
  deriving DecidableEq, Repr

/-- The lists of a plan image (R538). -/
def parsePlan (b : List Byte) : PlanImage :=
  let g := field b 8 2
  let c := field b 10 2
  let o := field b 12 2
  let n := field b 14 2
  let og := 16 + 24 * n
  let oc := og + 2 * g
  let oo := oc + 2 * c
  { copies := (List.range n).map fun i => (field b (16 + 24 * i) 8, field b (24 + 24 * i) 8, field b (32 + 24 * i) 8)
    grant := (List.range g).map fun i => field b (og + 2 * i) 2
    close := (List.range c).map fun i => field b (oc + 2 * i) 2
    opens := (List.range o).map fun i => (field b (oo + 4 * i) 2, field b (oo + 4 * i + 2) 2) }

/-- A list names something twice. -/
def repeats {α : Type} [DecidableEq α] : List α → Bool
  | [] => false
  | x :: l => decide (x ∈ l) || repeats l

/-- What rebind.plan answers with BAD_PARAM (R338, R538). -/
def planBad (l : Led) (q : QuireRec) (b : List Byte) : Bool :=
  let g := field b 8 2
  let c := field b 10 2
  let o := field b 12 2
  let n := field b 14 2
  let x := parsePlan b
  field b 0 2 ≠ 0x5052 || g < 1 || 380 < g || 1056 < c || 1056 < o || 4096 < n ||
  b.length ≠ 16 + 24 * n + 2 * g + 2 * c + 4 * o ||
  x.copies.any (fun y => addrBad y.1 || addrBad y.2.1 || y.1 % 64 ≠ 0 || y.2.1 % 64 ≠ 0 || y.2.2 % 64 ≠ 0 || y.2.2 = 0) ||
  x.grant.any (fun i => i ≠ 0xFFFF && q.leaves.length ≤ i) || repeats (x.grant.filter (· ≠ 0xFFFF)) ||
  x.opens.any fun y => codeBad y.1 || codeBad y.2 || portRef y.1 = portRef y.2 || refBad l (portRef y.1) || refBad l (portRef y.2)

/-- A destination range lies in leaves of the new grant that are marked new (R339). -/
def inNewLeaves (grant : List Nat) (addr len : Nat) : Bool :=
  addr + len ≤ grant.length * 2 ^ 30 &&
  (List.range ((addr + len - 1) / 2 ^ 30 - addr / 2 ^ 30 + 1)).all fun i => grant.getD (addr / 2 ^ 30 + i) 0 = 0xFFFF

/-- Two destinations of a copy list overlap (R339). -/
def copiesOverlap : List (Nat × Nat × Nat) → Bool
  | [] => false
  | x :: l => l.any (fun y => overlap x.2.1 x.2.2 y.2.1 y.2.2) || copiesOverlap l

/-- What rebind.plan answers with NOT_PERMITTED at acceptance (R339). -/
def planRefused (s : State) (q : QuireRec) (x : PlanImage) : Bool :=
  let os := x.opens.map fun y => (portRef y.1, portRef y.2)
  let freed := q.bores.filter fun b => x.close.contains b.name
  x.close.any (fun n => !q.bores.any (·.name = n)) ||
  os.any (fun y => openRefused s s.val q freed y.1 y.2) || repeats (os.flatMap fun y => [y.1, y.2]) ||
  x.copies.any (fun y => !inGrant q.leaves.length y.1 y.2.2 || !inNewLeaves x.grant y.2.1 y.2.2) ||
  copiesOverlap x.copies || (s.freeLeaves s.val).length < (x.grant.filter (· = 0xFFFF)).length

/-- Bores with their names. -/
def namedBores (m : Option Manifest) (os : List (PortRef × PortRef)) : List Bore :=
  os.filterMap fun y => (boreName m y.1 y.2).map fun n => { name := n, a := y.1, b := y.2 }

/-- The bores of a quire under a plan. -/
def Plan.boresOf (p : Plan) (m : Option Manifest) (q : QuireRec) : List Bore :=
  (q.bores.filter fun b => !p.close.contains b.name) ++ namedBores m p.opens

/-- The leaves a plan asks for. -/
def Plan.newLeaves (p : Plan) : Nat := (p.grant.filter (·.isNone)).length

/-- The bytes a plan copies. -/
def Plan.copyBytes (p : Plan) : Nat := total (p.copies.map (·.2.2))

/-- The plan of an image, before its routes are solved. -/
def planOf (c : Taken) (q : QuireRec) (x : PlanImage) : Plan where
  tag := c.tick
  close := x.close
  opens := x.opens.map fun y => (portRef y.1, portRef y.2)
  grant := x.grant.map fun i => if i = 0xFFFF then none else some i
  copies := x.copies
  routes := { tag := c.tick, pairs := [], transit := [], members := [], bores := [], walled := false }
  members := q.members
  bores := sortBores q.bores
  leaves := q.leaves
  walled := q.walled

/-- The holds rebind.plan meets (R376, R550); a rebind of the quire does not bar it (R538). -/
def planGate (s : State) (q : QuireId) : Option Status :=
  if s.quarantined q then some .booksImbalance
  else if s.revoked q then some .keyRevoked
  else if s.held q && !s.rebinding q then some .busyTick
  else none

/-- rebind.plan (R337-R340, R523, R538). -/
def hRebindPlan : Handler := fun c s =>
  let q := c.pkt.quire
  match chunkStep (s.stg.vol.quire q).planChunks (c.u32 4) (c.pkt.params.drop 8) (fun n => 16 ≤ n && n ≤ 105416),
      s.val.quire q with
  | _, none => refuse s .badParam
  | .refused st, _ => match planGate s q with
    | some g => refuse s (if st = .badParam then st else g)
    | none => refuse s st
  | .more x, _ => match planGate s q with
    | some g => refuse s g
    | none => volatileOk c (s.updQuireVol q fun v => { v with planChunks := some x }) []
  | .whole b, some r =>
    let s := s.updQuireVol q fun v => { v with planChunks := none }
    let x := parsePlan b
    if planBad s.val r b then refuse s .badParam
    else match planGate s q with
    | some g => refuse s g
    | none =>
      if planRefused s r x then refuse s .notPermitted
      else
        let p := planOf c r x
        multi c s (.planSolve p (solveStart s.val r (p.boresOf s.val.manifest r) c.tick (transitSet s.val r)))

def execRebindPlan (p : Pkt) (s : State) : Host.Outcome State Fault Refusal := .next (s.present 0x0501 hRebindPlan p)

/-- The result of rebind.plan (R538). -/
def Plan.result (p : Plan) : List Byte :=
  le 6 p.tag ++ le 2 0 ++ le 4 p.routes.pairs.length ++ le 1 p.routes.maxP ++ le 1 0 ++ le 2 p.newLeaves ++
  le 8 p.copyBytes ++ le 8 (p.newLeaves * 2 ^ 30 - p.copyBytes)

/-- Some pair of member gatherings has no path (R339). -/
def Solution.partitioned (x : Solution) : Bool := x.pairs.any fun p => p.g ≠ 32 && p.h ≠ 32 && p.paths = []

/-- The work of a rebind.plan in a work phase (R189, R340). -/
def State.workPlan (s : State) (t : Task) (p : Plan) (j : SolveJob) (left : Nat) : State × Nat :=
  match s.val.quire t.quire with
  | none => (s.failTask t .cancelled [], left)
  | some q =>
    let (j, left) := s.runSolve s.volume q 0x0501 j j.todo left
    if j.todo ≠ [] then (s.updTask t.id fun t => { t with kind := .planSolve p j }, left)
    else if j.sol.partitioned || s.tooManyTables q.id j.sol q.members then (s.failTask t .notPermitted [], left)
    else
      let p := { p with routes := j.sol }
      ((s.updQuireVol t.quire fun v => { v with plan := some p }).endTask t .ok p.result, left)

/-! ### rebind.commit (R341, R342, R539) -/

/-- What rebind.commit answers with NOT_PERMITTED (R341). -/
def commitRefused (s : State) (tag : Nat) (q : QuireRec) (p : Plan) : Bool :=
  let freed := q.bores.filter fun b => p.close.contains b.name
  p.tag ≠ tag || p.members ≠ q.members || p.bores ≠ sortBores q.bores || p.leaves ≠ q.leaves ||
  p.walled ≠ q.walled || (s.freeLeaves s.val).length < p.newLeaves ||
  p.opens.any (fun y => openRefused s s.val q freed y.1 y.2) || s.tooManyTables q.id p.routes q.members

/-- The cases in which rebind.commit is refused (R195, R341, R539, R550). -/
def rebindCommitRefusal (c : Taken) (s : State) : Option Status :=
  if (drainBound (c.u16 6)).isNone then some .badParam
  else match quireGate s c.pkt.quire with
  | some st => some st
  | none =>
    match s.val.quire c.pkt.quire, (s.stg.vol.quire c.pkt.quire).plan with
    | some q, some p => if commitRefused s (c.u48 0) q p then some .notPermitted else s.durableRefusal
    | _, _ => some .notPermitted

/-- What a rebind records in its begin group (R350). -/
def rebindRecord (c : Taken) (s : State) (q : QuireRec) (p : Plan) : RebindRec where
  quire := q.id
  planTag := p.tag
  accTick := c.tick
  keep := p.grant
  newLeaves := (s.freeLeaves s.val).take p.newLeaves
  close := p.close
  opens := namedBores s.val.manifest p.opens
  beginSeq := 0
  committed := false

/-- rebind.commit (R341-R343, R539). -/
def hRebindCommit : Handler := fun c s =>
  match rebindCommitRefusal c s, s.val.quire c.pkt.quire, (s.stg.vol.quire c.pkt.quire).plan with
  | some st, _, _ => refuse s st
  | none, some q, some p =>
    let rec_ := rebindRecord c s q p
    let held := (s.stg.vol.quire q.id).drainHold
    let run : RebindRun :=
      { plan := p, record := rec_, step := .draining, drain := Drain.start ((drainBound (c.u16 6)).getD Config.defaultDrain)
        jobs := [], todo := s.writeList q p.routes, planes := [], copied := false, rerun := false, wasHeld := held
        verify := [], fail := none }
    let s := s.updQuireVol q.id fun v => { v with rebind :=
      { v.rebind with state := 1, planTag := p.tag, accTick := c.tick, toSwitch := p.close.length + p.opens.length,
                      switched := 0, verified := 0, installed := 0, copied := 0, toCopy := p.newLeaves * 2 ^ 30 } }
    multi c s (.rebind run)
  | none, _, _ => refuse s .notPermitted

def execRebindCommit (p : Pkt) (s : State) : Host.Outcome State Fault Refusal := .next (s.present 0x0502 hRebindCommit p)

/-! ### rebind.status (R356, R540) -/

/-- rebind.status (R540). -/
def hRebindStatus : Handler := fun c s =>
  let x := (s.vis.vol.quire c.pkt.quire).rebind
  (s, .reply .ok (le 1 x.state ++ le 1 0 ++ le 2 (match x.last with | some st => st.code | none => 0xFFFF) ++
    le 6 x.planTag ++ le 6 x.accTick ++ le 2 x.toSwitch ++ le 2 x.switched ++ le 2 x.verified ++ le 2 x.installed ++
    le 8 x.copied ++ le 8 x.toCopy ++ le 6 x.endTick ++ le 2 0))

def execRebindStatus (p : Pkt) (s : State) : Host.Outcome State Fault Refusal := .next (s.present 0x0503 hRebindStatus p)

/-! ### The steps (R343) -/

/-- The code of a rebind's step (R356). -/
def RebindStep.code : RebindStep → Nat
  | .draining => 1
  | .beginning => 2
  | .running => 3
  | .verifying => 4
  | .committing => 5
  | .rollingBack => 6

/-- Store what a rebind has become, with its reported state. -/
def State.setRebind (s : State) (t : Task) (r : RebindRun) : State :=
  let done := r.record.opens.length - r.verify.length
  let inst := (r.jobs.foldl (fun l j => insertNew j.coord l) []).filter fun c =>
    r.jobs.all fun j => j.coord ≠ c || j.unacked = []
  (s.updTask t.id fun t => { t with kind := .rebind r }).updQuireVol t.quire fun v =>
    { v with rebind := { v.rebind with state := r.step.code, verified := done, installed := inst.length } }

/-- The payload bytes of a begin group, in folios (R350). -/
def RebindRec.folios (r : RebindRec) : Nat :=
  if 32 + 2 * r.keep.length + 2 * r.close.length + 4 * r.opens.length ≤ 4032 then 1 else 2

/-- A rebind ends: its state is reported with the outcome (R356). -/
def State.rebindOver (s : State) (q : QuireId) (st : Status) (at_ : Tick) : State :=
  s.updQuireVol q fun v => { v with rebind := { v.rebind with state := 0, last := some st, endTick := at_ } }

/-- Step 3 starts: the begin group is staged (R343, R350). -/
def State.rebindBegin (s : State) (t : Task) (r : RebindRun) : State :=
  (s.setRebind t { r with step := .beginning }).stage
    { ident := t.ident, kind := 3, objs := [.rebind t.quire (some r.record)], hist := [], task := some t.id, result := none,
      quire := some t.quire, tick := s.now, folios := r.record.folios }

/-- A rebind that ends before its begin group seals (R351, R355): nothing is recorded, and admission resumes. -/
def State.rebindAbort (s : State) (t : Task) (st : Status) : State :=
  ((s.failTask t st []).rebindOver t.quire st s.now).resumeAdmission t.quire (s.now + 1)

/-- The units of planes are to be brought to the ledgered bores (R174). -/
def State.mendPlanes (s : State) (ps : List Nat) : State :=
  (ps.flatMap (unitsOf s.stg.led.manifest)).foldl (fun s u => s.updUnit u fun x => { x with reconcile := true }) s

/-- The planes a plan changes that are switched (R344). -/
def Plan.planesOf (p : Plan) (m : Option Manifest) (q : QuireRec) : List Nat :=
  let ps := (q.bores.filter fun b => p.close.contains b.name).map (·.a.plane) ++ p.opens.map (·.1.plane)
  (ps.foldl (fun l x => insertSorted x l) []).filter (switchedPlane m)

/-- A rebind rolls back (R352): its remaining steps stop, the units go back to the old bores, the new leaves are released,
and a state record ends it. With a faulted ledger the record cannot seal. -/
def State.rebindRollback (s : State) (t : Task) (r : RebindRun) (st : Status) : State :=
  let ps := match s.val.quire t.quire with | some q => r.plan.planesOf s.val.manifest q | none => []
  let s := (s.mendPlanes ps).soil r.record.newLeaves
  if s.ledgerFaulted then s.rebindAbort t .ledgerFault
  else
    let s := s.setRebind t { r with step := .rollingBack, planes := [], todo := [], jobs := [], fail := some st }
    s.stageTask t 1 [.rebind t.quire none] (some t.quire)

/-- The entries of a rebind's SET on a plane (R344): disconnects of closed bores whose OCS ports no opened bore reuses, then
the connects. -/
def rebindEntries (m : Option Manifest) (q : QuireRec) (p : Plan) (plane : Nat) : List (Nat × Nat) :=
  let on := p.opens.filterMap fun y => if y.1.plane = plane then joinOf m y.1 y.2 else none
  let named := on.flatMap fun e => [e.1, e.2]
  let off := (q.bores.filter fun b => p.close.contains b.name && b.a.plane = plane).filterMap fun b =>
    match joinOf m b.a b.b with
    | some (x, y) => if !named.contains x && !named.contains y then some (x, 0xFFFF)
                     else if !named.contains x && !on.any (fun e => e.1 = y || e.2 = y) then some (x, 0xFFFF) else none
    | none => none
  off ++ on

/-- Start the changes of the planes that are free (R344). -/
def State.rebindPlanes (s : State) (t : Task) (r : RebindRun) : State :=
  match s.val.quire t.quire with
  | none => s
  | some q =>
    r.planes.foldl (fun s p =>
      if (s.ocs.planes.getD p none).isSome || s.power.warn || s.power.holdup then s
      else s.planeChange p (.rebind t.id) (rebindEntries s.val.manifest q r.plan p)) s

/-- The begin group is sealed (R343): steps 4 to 6 start; every opened bore is to be verified. -/
def State.rebindBegun (s : State) (t : Task) (r : RebindRun) : State :=
  match s.val.quire t.quire with
  | none => s
  | some q =>
    let ps := r.plan.planesOf s.val.manifest q
    let r := { r with
      step := .running, planes := ps, copied := r.plan.newLeaves = 0
      verify := r.record.opens.map fun b => { bore := b, okA := false, okB := false, since := none, again := false : Verify } }
    (s.setRebind t r).rebindPlanes t r

/-- The bytes one tick may copy (R345). -/
def State.copyRate (s : State) : Nat := 65536 * s.clk.period

/-- A tick's copying goes on until every byte is written, while step 7 verifies too (R343, R345). -/
def State.copySome (s : State) (q : QuireId) : State :=
  s.updQuireVol q fun v => { v with rebind := { v.rebind with copied := min v.rebind.toCopy (v.rebind.copied + s.copyRate) } }

/-- The work of a rebind in a work phase: shadow tables, planes that became free, copied bytes (R343-R346); a failed step
rolls it back. -/
def State.workRebind (s : State) (t : Task) (r : RebindRun) (left : Nat) : State × Nat :=
  match s.val.quire t.quire with
  | none => (s, left)
  | some q =>
    if r.step = .verifying && !r.copied then (s.copySome q.id, left)
    else if r.step ≠ .running then (s, left)
    else match r.fail with
    | some st => if r.planes.any (fun p => match s.ocs.planes.getD p none with
          | some { kind := .rebind i, sent := true, .. } => i = t.id | _ => false) then (s, left)
        else (s.rebindRollback t r st, left)
    | none =>
      let es := s.writeList q r.plan.routes
      let js := r.jobs.filter fun j => es.contains j.coord
      let todo := es.filter fun c => r.todo.contains c || !js.any (·.coord = c)
      let (s, js) := s.writeAgain q.id js
      let (s, js, todo, left) := s.writeShadows q r.plan.routes (r.plan.boresOf s.val.manifest q) 0x0502 todo js left
      let r := { r with jobs := js, todo := todo }
      let s := s.copySome q.id
      ((s.setRebind t r).rebindPlanes t r, left)

/-- The copies of a list, in order (R345). -/
def copyAll (old new : List Nat) : List (Nat × Nat × Nat) → List Host.Cell → List Host.Cell
  | [], m => m
  | (a, b, n) :: l, m => copyAll old new l (hbmWrite m new b (hbmRead m old a n))

/-- The leaves of the new grant: kept old ones, and new ones in order (R348). -/
def newGrant (old : List Nat) : List (Option Nat) → List Nat → List Nat
  | [], _ => []
  | some i :: l, ns => old.getD i 384 :: newGrant old l ns
  | none :: l, n :: ns => n :: newGrant old l ns
  | none :: l, [] => 384 :: newGrant old l []

/-- The copy and zero writes end (R345): with the bytes the rate admits done; an uncorrectable error runs the step once more,
a second one fails it. -/
def execRebindCopyDone (q : QuireId) (uncorrectable : Bool) (s : State) : Host.Outcome State Fault Refusal :=
  match s.tasks.find? (fun t => t.quire = q && match t.kind with | .rebind _ => true | _ => false), s.val.quire q with
  | some t, some rec_ =>
    match t.kind with
    | .rebind r =>
      let x := (s.stg.vol.quire q).rebind
      if (r.step ≠ .running && r.step ≠ .verifying) || r.copied || x.copied < x.toCopy then .next s
      else if uncorrectable then
        if r.rerun then .next (s.rebindRollback t r .lastingFault)
        else
          let s := s.updQuireVol q fun v => { v with rebind := { v.rebind with copied := 0 } }
          .next (s.setRebind t { r with rerun := true })
      else
        let grant := newGrant rec_.leaves r.record.keep r.record.newLeaves
        let s := s.updVol fun v =>
          { v with hbm := copyAll rec_.leaves grant r.plan.copies (zeroLeaves v.hbm r.record.newLeaves) }
        .next (s.setRebind t { r with copied := true })
    | _ => .next s
  | _, _ => .next s

/-! ### Verifying (R347) -/

/-- An opened bore's verify bound runs, and reports count: its plane's switching is done and told. -/
def RebindRun.counts (s : State) (r : RebindRun) (v : Verify) : Bool :=
  v.since.isSome && !r.planes.contains v.bore.a.plane && !s.ocs.doneNext.any (·.name = v.bore.name)

/-- A report or beacon of one end names its peer: the end is verified where it is up and the peer is the other end (R347). -/
def State.verifyEnd (s : State) (me : PortRef) (peer : PortRef) (up : Bool) : State :=
  s.tasks.foldl (fun s t => match t.kind with
    | .rebind r =>
      if up && r.verify.any (fun v => (v.bore.a = me && v.bore.b = peer) || (v.bore.b = me && v.bore.a = peer)) then
        let vs := r.verify.map fun v =>
          if !r.counts s v then v
          else if v.bore.a = me && v.bore.b = peer then { v with okA := true }
          else if v.bore.b = me && v.bore.a = peer then { v with okB := true } else v
        s.setRebind t { r with verify := vs.filter fun v => !(v.okA && v.okB) }
      else s
    | _ => s) s

/-- The boundary of a rebind: a held drain goes on to the begin group; the verify bounds that start at this boundary start
(R341, R347); step 7 starts when steps 4 and 6 have ended. -/
def State.boundaryRebind (s : State) (t : Task) (r : RebindRun) : State :=
  match r.step with
  | .draining =>
    if r.wasHeld then s.rebindBegin t r
    else let (s, d) := s.beginDrain t.quire r.drain; s.setRebind t { r with drain := d }
  | .running | .verifying =>
    let step7 := r.planes = [] && r.todo = [] && jobsDone r.jobs && r.fail.isNone
    let vs := r.verify.map fun v =>
      if v.since.isSome then v
      else if switchedPlane s.stg.led.manifest v.bore.a.plane then
        if r.planes.contains v.bore.a.plane then v else { v with since := some s.now }
      else if step7 then { v with since := some s.now } else v
    let sw := match s.val.quire t.quire with
      | some q => (q.bores.filter fun b => r.plan.close.contains b.name && !r.planes.contains b.a.plane).length +
          (r.record.opens.filter fun b => !r.planes.contains b.a.plane).length
      | none => 0
    let s := s.updQuireVol t.quire fun v => { v with rebind := { v.rebind with switched := sw } }
    s.setRebind t { r with verify := vs, step := if step7 then .verifying else r.step }
  | _ => s

/-- A verify bound of a rebind ends (R347): a retrain request to each end, then one further bound, then a lasting fault. -/
def execRebindVerifyTimeout (q : QuireId) (s : State) : Host.Outcome State Fault Refusal :=
  match s.tasks.find? fun t => t.quire = q && match t.kind with | .rebind _ => true | _ => false with
  | none => .next s
  | some t =>
    match t.kind with
    | .rebind r =>
      let due := fun (v : Verify) => match v.since with
        | some b => (if v.again then 2048 else 1024) ≤ s.since b
        | none => false
      let late := r.verify.filter due
      if late = [] || (r.step ≠ .running && r.step ≠ .verifying) then .next s
      else
        let s := (late.filter fun v => !v.again).foldl (fun s v =>
          (s.askRetrain v.bore.a 1).askRetrain v.bore.b 1) s
        let dead := late.filter (·.again)
        if dead = [] then
          .next (s.setRebind t { r with verify := r.verify.map fun v => if due v then { v with again := true } else v })
        else
          let s := dead.foldl (fun s v =>
            ((if v.okA then [] else [v.bore.a]) ++ (if v.okB then [] else [v.bore.b])).foldl (fun s e => match e with
              | PortRef.dport d => s.addFault (taskEntry t s.now 2 0x02 d (some .lastingFault))
              | PortRef.uplink g sl _ => s.addFault (taskEntry t s.now 2 0x0C (mkCoord s.volume g sl 0) (some .lastingFault))) s) s
          let ends := dead.flatMap fun v => [v.bore.a, v.bore.b]
          let m := s.val.map
          let x := ends.foldl (fun (x : DiscMap) e => match e with
            | .dport _ => x
            | .uplink g sl p =>
              let seen := (s.disc.peers.find? fun y => y.1 = mkCoord s.volume g sl 0 && y.2.1 = p).bind (·.2.2.1)
              let y : UplinkState := if seen.isNone then .silent else .misLanded
              let mm : Mismatch := { code := 0x06, plane := some p, object := e.code, found := none, second := none }
              let x := { x with uplinks := modAt x.uplinks (uplinkIndex g sl p) fun _ => y }
              if seen.isNone then x else x.report mm) m
          .next ((s.mapTo x).rebindRollback t r .lastingFault)
    | _ => .next s

/-! ### Commit (R343 steps 8 to 10, R348) -/

/-- The quire under its new binding (R348). -/
def QuireRec.rebound (q : QuireRec) (r : RebindRun) : QuireRec :=
  let bs := (q.bores.filter fun b => !r.plan.close.contains b.name) ++ r.record.opens
  { q with bores := bs, leaves := newGrant q.leaves r.record.keep r.record.newLeaves
           installed := some (r.plan.routes.tag, bs) }

/-- Steps 5 and 7 have ended: the commit folio is staged (R343, R350). -/
def State.rebindCommitReady (s : State) (t : Task) (r : RebindRun) : State :=
  match s.val.quire t.quire with
  | some q =>
    if r.step = .verifying && r.copied && r.verify = [] && r.fail.isNone then
      match s.durableRefusal with
      | some st => s.rebindRollback t r st
      | none =>
        (s.setRebind t { r with step := .committing }).stage
          { ident := t.ident, kind := 4,
            objs := [.quire q.id (some (q.rebound r)), .rebind q.id (some { r.record with beginSeq := s.ledger.beginOf q.id, committed := true })], hist := [],
            task := some t.id, result := none, quire := some q.id, tick := s.now, folios := 1 }
    else s
  | none => s

/-- The seal phase of a rebind: a settled drain starts step 3 (R196, R343). -/
def State.sealRebind (s : State) (t : Task) (r : RebindRun) : State :=
  match r.step with
  | .draining =>
    if !r.drain.started then s
    else if s.settled t.quire r.drain.since then s.rebindBegin t r
    else s.setRebind t { r with drain := { r.drain with count := r.drain.count + 1 } }
  | .verifying => s.rebindCommitReady t r
  | _ => s

/-- The commit folio is sealed (R348): at the next boundary endpoints and director switch, the old leaves that are not kept
are released, admission resumes, and the rebind ends OK; a state record ends it in the journal. -/
def State.rebindCommitted (s : State) (t : Task) (r : RebindRun) (old : QuireRec) : State :=
  let eff := s.now + 1
  let idx := (jobCoords r.jobs true).map fun c => (c, s.tableIndex t.quire c)
  let s := s.switchJobs t.quire r.jobs eff
  let s := s.updQuireVol t.quire fun v =>
    { v with installed := some r.plan.routes, staged := none, plan := none, masks := [], drainHold := false, tables := idx }
  let kept := r.record.keep.filterMap fun k => k.map fun i => old.leaves.getD i 384
  let s := s.soil (old.leaves.filter fun x => !kept.contains x)
  let st := s.sealedOk
  let s := ((s.resumeAdmission t.quire eff).rebindOver t.quire st eff).endTask t st []
  s.stageOwn [.rebind t.quire none]

/-- The record that ends a rolled-back rebind is sealed (R352). -/
def State.rebindUndone (s : State) (t : Task) (r : RebindRun) : State :=
  let st := r.fail.getD .lastingFault
  ((s.failTask t st []).rebindOver t.quire st s.now).resumeAdmission t.quire (s.now + 1)

/-- A record of a rebind is sealed. -/
def State.rebindSealed (s : State) (t : Task) (r : RebindRun) (old : Option QuireRec) : State :=
  match r.step, old with
  | .beginning, _ => s.rebindBegun t r
  | .committing, some q => s.rebindCommitted t r q
  | .rollingBack, _ => s.rebindUndone t r
  | _, _ => s

/-- A rebind whose commit folio has not sealed when power comes back, or whose quire is quarantined (R355, R375). -/
def State.rebindStop (s : State) (t : Task) (r : RebindRun) (st : Status) : State :=
  match r.step with
  | .draining | .beginning => s.rebindAbort t st
  | .running | .verifying | .committing => s.rebindRollback t r st
  | .rollingBack => s

end Sys2Proof.Machine
end

