-- ==== Sys2Proof/Machine/PortCmds.lean ====
section
/-! DEFINITION. Ports and shapers as commands see them: port.config, shaper.set, port.counters, token buckets (R144, R163,
R228-R232, R541-R543). -/
namespace Sys2Proof.Machine

/-! ### port.config (R38, R72, R541) -/

/-- The settings of a port until port.config is first applied to it (R541). -/
def portDefault (s : State) (l : Led) (d : Nat) : PortCfg :=
  (l.ports.getD d none).getD { library := portLibrary s.boot l d, enabled := true, fec := 8, snr := 20 }

/-- The settings a port.config names (R541). -/
def cfgOf (c : Taken) : PortCfg where
  library := c.u8 1 = 1
  enabled := bit (c.u8 2) 0
  fec := if c.u8 3 = 0 then 8 else c.u8 3
  snr := if c.u8 4 = 0 then 20 else c.u8 4

/-- The port is an end of a bore of a quire. -/
def Led.portBored (l : Led) (d : Nat) : Bool := l.bores.any (·.ends (.dport d))

/-- A bore opening or closing on the port is in progress (R541). -/
def State.boring (s : State) (d : Nat) : Bool :=
  s.opening.any (fun x => x.1 = .dport d || x.2 = .dport d) ||
  s.tasks.any (fun t => match t.kind with
    | .roleClaim e _ => e = d
    | .rebind r => (match s.val.quire t.quire with
        | some q => q.bores.any fun b => r.plan.close.contains b.name && b.ends (.dport d)
        | none => false)
    | _ => false) ||
  s.ocs.planes.any fun p => match p with
    | some { kind := .boreClose n, .. } =>
      landingOn s.val.manifest (.dport d) = some (n % 2 ^ 13) && n / 2 ^ 13 = d / 16
    | _ => false

/-- The cases in which port.config is refused (R38, R90, R144, R541). -/
def portConfigRefusal (c : Taken) (s : State) : Option Status :=
  let d := c.u8 0
  let l := s.val
  let new := cfgOf c
  let old := portDefault s l d
  if 63 < d || 1 < c.u8 1 then some .badParam
  else if s.awaiting (.port d) || s.boring d then some .busyTick
  else if (new.library && (l.map.isHousePort d || s.boot.straps.alone)) ||
      (new.library ≠ old.library && (l.portBored d || l.quires.any (·.ports.contains d) ||
        (houseBores s.boot l).any (·.1 = .dport d))) ||
      (!new.enabled && (houseBores s.boot l).any (·.1 = .dport d)) then some .notPermitted
  else s.durableRefusal

/-- port.config (R541). A library link is shared with the director behind it, and a change of its role is claimed first (R72). -/
def hPortConfig : Handler := fun c s =>
  match portConfigRefusal c s with
  | some st => refuse s st
  | none =>
    let d := c.u8 0
    let new := cfgOf c
    let shared := match (s.port d).peer with
      | some (.director x _) => if (s.port d).vis.status = 2 then some (cVol x) else none
      | _ => none
    match shared.filter fun _ => (portDefault s s.val d).library && !new.library with
    | some far =>
      let id := s.nextTask
      let r := multi c s (.roleClaim d new)
      let own : OwnClaim := { claim := .linkRole s.volume c.tick d new.library, port := some d, dest := far, task := some id, sent := false }
      ({ r.1 with lib := { r.1.lib with own := r.1.lib.own ++ [own] } }, r.2)
    | none => durable c s [.port d new] none []

def execPortConfig (p : Pkt) (s : State) : Host.Outcome State Fault Refusal := .next (s.present 0x0601 hPortConfig p)

/-! ### Shapers (R228-R230, R542) -/

/-- The shaper setting of a quire on a port: a new bucket is unshaped with β = 65,536 (R228). -/
def Led.shaper (l : Led) (q : QuireId) (d : Nat) : Option Nat × Nat :=
  match l.shapers.find? fun x => x.quire = q && x.port = d with
  | some x => (x.rate, x.burst)
  | none => (none, 65536)

/-- The ports that carry a quire's packets (R542): granted ports, director ends of its installed bores, the library links of
a library quire; of the house quire, the house ports. -/
def State.portsOf (s : State) (l : Led) (q : QuireId) : List Nat :=
  if q = 0 then (houseBores s.boot l).filterMap fun x => match x.1 with | .dport d => some d | _ => none
  else match l.quire q with
    | none => []
    | some r =>
      let ends := (match r.installed with | some i => i.2 | none => []).flatMap fun (b : Bore) => [b.a, b.b]
      (List.range 64).filter fun d => r.ports.contains d || ends.contains (.dport d) ||
        (r.others s.volume ≠ [] && portLibrary s.boot l d)

/-- The ports a shaper.set names (R542). -/
def shaperPorts (c : Taken) (s : State) : List Nat :=
  let ps := s.portsOf s.val c.pkt.quire
  if c.u8 0 = 0xFF then ps else ps.filter (· = c.u8 0)

/-- A claim on this shaper is not resolved yet. -/
def State.claimingShaper (s : State) (q : QuireId) (d : Nat) : Bool :=
  s.tasks.any fun t => match t.kind with
    | .shaperClaim recs => recs.any fun r => r.quire = q && r.port = d
    | _ => false

/-- The cases in which shaper.set is refused (R228, R342, R542, R550). -/
def shaperSetRefusal (c : Taken) (s : State) : Option Status :=
  if (63 < c.u8 0 && c.u8 0 ≠ 0xFF) || c.u32 8 < 64 || 16777216 < c.u32 8 then some .badParam
  else match quireGate s c.pkt.quire with
  | some st => some st
  | none =>
    if (shaperPorts c s).any (fun d => s.awaiting (.shaper c.pkt.quire d) || s.claimingShaper c.pkt.quire d) then some .busyTick
    else if shaperPorts c s = [] then some .notPermitted
    else s.durableRefusal

/-- The quire spans other volumes (R184). -/
def State.spansVolumes (s : State) (q : QuireId) : Bool :=
  match s.val.quire q with | some r => r.others s.volume ≠ [] | none => false

/-- shaper.set (R228, R542). The bandwidth of a library quire on a library link is shared with the director behind it, and is claimed first
(R72). -/
def hShaperSet : Handler := fun c s =>
  match shaperSetRefusal c s with
  | some st => refuse s st
  | none =>
    let r := if c.u32 4 = 0xFFFFFFFF then none else some (c.u32 4)
    let recs := (shaperPorts c s).map fun d => { quire := c.pkt.quire, port := d, rate := r, burst := c.u32 8 : ShaperRec }
    match (if s.spansVolumes c.pkt.quire then s.neighbours.filter fun b => recs.any (·.port = b.port) else []) with
    | [] => durable c s (recs.map .shaper) (some c.pkt.quire) []
    | bs =>
      let id := s.nextTask
      let x := multi c s (.shaperClaim recs)
      let own := bs.map fun b => { claim := .bandwidth s.volume c.tick b.port c.pkt.quire r (c.u32 8), port := some b.port,
                                   dest := b.volume, task := some id, sent := false : OwnClaim }
      ({ x.1 with lib := { x.1.lib with own := x.1.lib.own ++ own } }, x.2)

def execShaperSet (p : Pkt) (s : State) : Host.Outcome State Fault Refusal := .next (s.present 0x0602 hShaperSet p)

/-- The bucket of a quire on a port; levels start at β (R230). -/
def State.bucket (s : State) (q : QuireId) (d : Nat) : Bucket :=
  (s.buckets.find? fun b => b.quire = q && b.port = d).getD
    { quire := q, port := d, level := (s.vis.led.shaper q d).2, before := (s.vis.led.shaper q d).2, spent := 0 }

/-- Store a bucket. -/
def State.putBucket (s : State) (b : Bucket) : State :=
  { s with buckets := (s.buckets.filter fun x => !(x.quire = b.quire && x.port = b.port)) ++ [b] }

/-- What a change of setting does to a level (R230). -/
def Bucket.retune (b : Bucket) (old new : Option Nat × Nat) : Bucket :=
  if old.1.isNone ≠ new.1.isNone then { b with level := new.2 }
  else if old.2 ≠ new.2 && (new.2 : Int) < b.level then { b with level := new.2 } else b

/-- The refill at cycle 0 (R229): the debt is frozen where r is 0; an unshaped quire's level is not kept. Rates above
2,000 × P behave as 2,000 × P (R228). -/
def Bucket.refill (b : Bucket) (set : Option Nat × Nat) (period : Nat) : Bucket :=
  match set.1 with
  | none => { b with before := b.level, spent := 0 }
  | some r =>
    let r := min r (2000 * period)
    { b with level := if r = 0 then b.level else min set.2 (b.level + r), before := b.level, spent := 0 }

/-- The buckets at a boundary: new settings, then the refill (R229, R230). -/
def State.refillAll (s : State) (old : Led) : State :=
  let l := s.vis.led
  let new := (l.shapers.filter fun x => !s.buckets.any fun b => b.quire = x.quire && b.port = x.port).map fun x =>
    let b := (old.shaper x.quire x.port).2
    ({ quire := x.quire, port := x.port, level := b, before := b, spent := 0 } : Bucket)
  { s with buckets := (s.buckets ++ new).map fun b =>
      (b.retune (old.shaper b.quire b.port) (l.shaper b.quire b.port)).refill (l.shaper b.quire b.port) s.clk.period }

/-! ### port.counters (R234, R515, R543) -/

/-- The links a counter report may name (R515). -/
def linkOk (k : Nat) : Bool := k ≤ 3 || (16 ≤ k && k ≤ 31)

/-- port.counters (R543). -/
def hPortCounters : Handler := fun c s =>
  let answer := fun (stale : Bool) (vals : List Nat) =>
    (s, Verdict.reply .ok (le 6 s.mirror.tick ++ le 1 (b2n stale) ++ le 1 0 ++
      (List.range 32).flatMap fun i => le 8 (vals.getD i 0)))
  if c.u8 0 = 0 then
    if 63 < c.u8 1 then refuse s .badParam else answer false (s.mirror.ports.getD (c.u8 1) [])
  else if c.u8 0 = 1 then
    let x := c.u32 4 % 2 ^ 20
    if !linkOk (c.u8 1) || !s.present18 x || cGath x = 63 then refuse s .badParam
    else match s.links.find? fun l => l.coord = x && l.link = c.u8 1 with
      | some l => answer l.stale l.shown
      | none => answer true []
  else refuse s .badParam

def execPortCounters (p : Pkt) (s : State) : Host.Outcome State Fault Refusal :=
  .next (s.present 0x0603 hPortCounters p)

end Sys2Proof.Machine
end

