-- ==== Sys2Proof/Machine/Packets.lean ====
section
/-! DEFINITION. Data packets (R185, R191-R194, R206-R227, R402-R409, R505-R508): header chains, the receive checks, forwarding
and tunnels, the director's own flows, egress buffers and sending, and codeword errors. -/
namespace Sys2Proof.Machine

/-! ### Counting -/

/-- Add to a counter of a port (R232). -/
def State.count (s : State) (d i n : Nat) : State := s.updPort d fun p => { p with counters := modAt p.counters i fun x => sat (2 ^ 64 - 1) (x + n) }

/-- The slots of a packet: bytes of its last slot beyond the packet are zero (R206). -/
def slotBytes (pkt : List Byte) : List (List Byte) := (List.range (slotsOf pkt.length)).map fun i => slice pkt (64 * i) 64

/-- An idle slot (R206). -/
def idleSlot : List Byte := List.replicate 64 0

/-- The slots a port sends in a tick of P reference cycles: 2,000 × P bytes (R205). -/
def slotsPerTick (period : Nat) : Nat := 125 * period / 4

/-- The slots a port sends in a tick: those of packets, and idle slots in every slot that carries none (R206). The idle slots stand after the
packets (DESIGN CHOICE, log entry 186). -/
def Port.sentSlots (p : Port) (period : Nat) : List (List Byte) :=
  p.slots.take (slotsPerTick period) ++ List.replicate (slotsPerTick period - p.slots.length) idleSlot

/-- Which slots of a run begin a packet, `left` slots of the packet before still to come (R206, R209). -/
def packetStarts : Nat → List (List Byte) → List Bool
  | _, [] => []
  | n + 1, _ :: l => false :: packetStarts n l
  | 0, x :: l =>
    if field x 0 1 = 0x40 then
      true :: packetStarts (slotsOf (36 + field x 2 2 + (if bit (field x 14 1) 0 then 16 else 0)) - 1) l
    else (field x 0 1 = 0xC0) :: packetStarts 0 l

/-- Codeword j of a tick: its 20-bit header and its ten slots (R205). -/
def Port.codeword (p : Port) (period j : Nat) : Nat × List (List Byte) :=
  let starts := ((packetStarts p.carry (p.sentSlots period)).drop (10 * j)).take 10
  let first := (starts.findIdx? (· = true)).getD 15
  (first + 16 * ((p.slotCount / 10 + j) % 1024), ((p.sentSlots period).drop (10 * j)).take 10)

/-- The slots of a packet that began and runs on after n slots. -/
def runsOn : Nat → Nat → List (List Byte) → Nat
  | k, 0, _ => k
  | k, _, [] => k
  | k + 1, n + 1, _ :: l => runsOn k n l
  | 0, n + 1, x :: l =>
    runsOn (if field x 0 1 = 0x40 then slotsOf (36 + field x 2 2 + (if bit (field x 14 1) 0 then 16 else 0)) - 1 else 0) n l

/-- A tick's slots have been sent; a packet that began in it may run on into the next (R206). -/
def Port.slotsSent (period : Nat) (p : Port) : Port :=
  { p with slots := p.slots.drop (slotsPerTick period), slotCount := p.slotCount + slotsPerTick period
           carry := runsOn p.carry (slotsPerTick period) p.slots }

/-- Ring packets of a fabric packet (R239). -/
def fragsOf (n : Nat) : Nat := (n + 255) / 256

/-- Slots of an egress buffer in use, and those of one quire (R226, R231). -/
def Port.egressSlots (p : Port) : Nat := total (p.egress.map fun e => slotsOf e.bytes.length)
def Port.quireSlots (p : Port) (q : QuireId) : Nat :=
  total ((p.egress.filter (·.quire = q)).map fun e => slotsOf e.bytes.length)

/-! ### Building packets (R215-R217) -/

/-- The fields of a link header (R216). -/
structure LinkHdr where
  next  : Nat
  dst   : Coord
  src   : Coord
  key   : Nat
  enc   : Bool
  multi : Bool
  path  : Nat
  seq   : Nat
  deriving DecidableEq, Repr

/-- The header's bytes for a body length (R216). -/
def LinkHdr.encode (h : LinkHdr) (len : Nat) : List Byte :=
  le 1 0x40 ++ le 1 h.next ++ le 2 len ++ le 4 h.dst ++ le 4 h.src ++ le 2 h.key ++
  le 1 (b2n h.enc + 2 * b2n h.multi) ++ le 1 h.path ++ le 4 h.seq ++ le 12 0

/-- The header a packet begins with. -/
def parseLink (b : List Byte) : LinkHdr where
  next := field b 1 1
  dst := field b 4 4 % 2 ^ 20
  src := field b 8 4 % 2 ^ 20
  key := field b 12 2
  enc := bit (field b 14 1) 0
  multi := bit (field b 14 1) 1
  path := field b 15 1
  seq := field b 16 4

/-- A whole packet: header, body, tag, CRC (R215). -/
def buildPacket (h : LinkHdr) (body tag : List Byte) : List Byte :=
  let x := h.encode body.length ++ body ++ tag
  x ++ le 4 (crc32c x).toNat

/-- The associated data of R217: the tenant header, then link header bytes 8 to 13 and 16 to 19. -/
def gcmAad (tenant link : List Byte) : List Byte := tenant ++ slice link 8 6 ++ slice link 16 4

/-- The nonce of R217. -/
def gcmNonce (src : Coord) (counter : List Byte) : List Byte := le 4 src ++ counter

/-! ### Header chains (R223-R225) -/

/-- Follow a header chain from format `f` at `off`, with `rem` bytes enclosed; `fuel` headers may still be named (R224). None:
check 5 fails. Otherwise the headers with their offsets, and whether check 6 holds. -/
def chain (l : Led) (toDirector stopTenant : Bool) (b : List Byte) : Nat → Nat → Nat → Nat →
    Option (List (Nat × Nat) × Bool)
  | 0, _, _, _ => none
  | n + 1, f, off, rem =>
    let e := pftEntry l f
    if f = 0 || 32 ≤ f || !e.used then none
    else
      let r := field b (off + 2) 2
      let ok := r + e.len = rem
      if e.role = 4 then
        let k := field b (off + e.kindOff) 1
        if field b off 1 ≠ 0xFF || 32 ≤ k || !bit e.kinds k || (toDirector && !e.consume) then none
        else if f = 4 then
          let c := field b (off + 18) 1
          if c = 0 || 6 < c then none
          else some ([(f, off)], ok && r = (field b (off + 16) 2 * fmtWidth c + 7) / 8)
        else some ([(f, off)], ok)
      else if e.role = 3 && stopTenant then (if n = 0 then none else some ([(f, off)], ok))
      else match chain l toDirector stopTenant b n (field b off 1) (off + e.len) r with
        | some (hs, y) => some ((f, off) :: hs, ok && y)
        | none => none

/-- The offset of the header of a role in a chain. -/
def headerOf (l : Led) (hs : List (Nat × Nat)) (role : Nat) : Option Nat :=
  (hs.find? fun h => (pftEntry l h.1).role = role).map (·.2)

/-! ### Keys at ports and endpoints (R185, R402-R409) -/

/-- The quire a partition key names; key 0 is the house quire's (R183). -/
def Led.quireOfKey (l : Led) (k : Nat) : Option QuireId := if k = 0 then some 0 else (l.quires.find? (·.key = k)).map (·.id)

/-- A port's permitted keys hold this key (R185): of every quire whose installed routes have a bore at the port, from the boundary of the
installation; of a library quire on library links; and, on a house port, of a keyed quire of the house accelerator (R38). -/
def State.keyPermitted (s : State) (d k : Nat) : Bool :=
  k = 0 || s.vis.led.quires.any fun q =>
    q.key = k && ((q.installed.any fun i => i.2.any (·.ends (.dport d))) ||
      (q.others s.volume ≠ [] && portLibrary s.boot s.vis.led d) ||
      (!q.walled && (houseBores s.boot s.vis.led).any fun b => b.1 = .dport d && match b.2 with
        | .uplink g sl _ => q.members.contains (mkCoord s.volume g sl 0)
        | .dport _ => false))

/-- A packet that crosses this volume on its way between two others, over library links (R41): the director that only carries it need not
hold its quire (DEDUCED, log entry 182). -/
def State.passes (s : State) (d : Nat) (dst : Coord) : Bool := portLibrary s.boot s.vis.led d && cVol dst ≠ s.volume

/-- Check 8 accepts a key epoch (R407). -/
def State.epochOk (s : State) (q : QuireId) (src : Coord) (epoch : Nat) : Bool :=
  if q = 0 then epoch = 0 && cGath src = 63 && (s.houseKey (src - cFun src)).isSome
  else
    let k := s.vis.led.slot (s.vis.led.slotOf q)
    k.state = .keyed && epoch ≠ 0 && (epoch = k.cur || epoch = k.prev)

/-- The key a receiver decrypts with. -/
def State.linkKey (s : State) (slot epoch : Nat) : Option (List Byte) :=
  (s.rot.keys.find? fun k => k.slot = slot && k.epoch = epoch).map (·.key)

/-- The director may originate packets of a quire now: a keyed slot's counter is below its reservation and below the end of
its range (R409). -/
def State.mayOriginate (s : State) (q : QuireId) : Bool :=
  let n := s.stg.led.slotOf q
  let k := s.stg.led.slot n
  k.state ≠ .keyed || s.rot.keys.any fun x => x.slot = n && x.epoch = k.cur && x.nonce + 2 ^ 40 < 2 ^ 64 &&
    (match k.reserve.find? (·.1 = k.cur) with | some r => x.nonce < r.2 | none => false)

/-! ### The director's own flows (R191-R193, R505, R506, R508) -/

/-- The unmasked path index a sequence takes (R192, R193): the placed one, or the next above it modulo P. -/
def placePath (msk p i : Nat) : Option Nat :=
  if p = 0 then none else ((List.range p).map fun k => (i + k) % p).find? fun j => !bit msk j

/-- The flow hash (R192). -/
def flowHash (seed src dst : Nat) : Nat := (seed + 40503 * src + 9973 * dst) % 65536

/-- Where the director sends a packet of a quire for a destination: the path index and the port (R35, R191, R192). -/
def State.outPort (s : State) (q : QuireId) (src dst : Coord) (seq : Nat) : Option (Nat × Nat) :=
  if cVol dst ≠ s.volume then (s.libraryPort (cVol dst)).map (0, ·)
  else if 32 ≤ cGath dst then none
  else if q = 0 then some (0, housePort (cGath dst))
  else
    let v := s.vis.vol.quire q
    match v.installed, s.vis.led.quire q with
    | some x, some r =>
      let ps := x.paths 32 (cGath dst)
      match placePath (v.maskOf 32 (cGath dst)) ps.length ((seq + flowHash r.seed src dst) % (max 1 ps.length)) with
      | some i => match ps[i]? with | some p => some (i, p.nearUp) | none => none
      | none => none
    | _, _ => none

/-- Give a packet for a port's egress to the rings, in ⌈n / 256⌉ fragments (R239). -/
def State.toRings (s : State) (q : QuireId) (src : RingPlace) (out : Nat) (bytes : List Byte) : State :=
  let f : FabricPkt := { uid := s.rings.nextUid, quire := q, bytes := bytes, src := src, dst := .port out,
                         frags := fragsOf bytes.length, entered := [], ended := [], dead := false, charged := false }
  { s with rings := { s.rings with fabric := s.rings.fabric ++ [f], nextUid := s.rings.nextUid + 1 } }.countSlots q src f.slotsHeld 0

/-- The tunnel header of a packet for another volume (R216, R218). -/
def tunnelHdr (next rem final : Nat) : List Byte := le 1 next ++ le 1 0 ++ le 2 rem ++ le 4 final ++ le 8 0

/-- Put a packet for another volume into a tunnel (R41, R218). -/
def tunnelled (h : LinkHdr) (body tag : List Byte) : List Byte :=
  buildPacket { h with next := 1, dst := mkCoord (cVol h.dst) 63 0 1 } (tunnelHdr h.next body.length h.dst ++ body) tag

/-- Use one nonce of a slot's current key (R409). -/
def State.useNonce (s : State) (slot epoch : Nat) : State :=
  { s with rot := { s.rot with keys := modWhere s.rot.keys (fun k => k.slot = slot && k.epoch = epoch) fun k =>
      { k with nonce := k.nonce + 1 } } }

/-- The packet of a body: `fmt` is the terminal format the body begins with; encrypted where the quire's slot is keyed
(R217, R406). -/
def State.sealBody (s : State) (q : QuireId) (h : LinkHdr) (fmt : Nat) (body : List Byte) :
    LinkHdr × List Byte × List Byte × State :=
  let n := s.stg.led.slotOf q
  let k := s.stg.led.slot n
  if k.state = .keyed then
    match s.rot.keys.find? fun x => x.slot = n && x.epoch = k.cur with
    | some x =>
      let th := le 1 fmt ++ le 1 0 ++ le 2 body.length ++ le 2 k.cur ++ le 2 0 ++ le 8 x.nonce
      let h := { h with next := 2, enc := true }
      let c := Config.gcmSeal x.key (gcmNonce h.src (le 8 x.nonce)) (gcmAad th (h.encode (body.length + 16))) body
      (h, th ++ slice c 0 body.length, slice c body.length 16, s.useNonce n k.cur)
    | none => ({ h with next := fmt }, body, [], s)
  else if q = 0 && cVol h.dst ≠ s.volume then
    match s.houseKey (mkCoord (cVol h.dst) 63 0 0) with
    | some k =>
      let n := le 8 (s.clk.now * 65536 + s.clk.ctlCount)
      let th := le 1 fmt ++ le 1 0 ++ le 2 body.length ++ le 2 0 ++ le 2 0 ++ n
      let h := { h with next := 2, enc := true }
      let c := Config.gcmSeal (Config.houseKey k) (gcmNonce h.src n) (gcmAad th (h.encode (body.length + 16))) body
      (h, th ++ slice c 0 body.length, slice c body.length 16, { s with clk := { s.clk with ctlCount := s.clk.ctlCount + 1 } })
    | none => ({ h with next := fmt }, body, [], s)
  else ({ h with next := fmt }, body, [], s)

/-- Send one data packet the director originates, under a sequence; a pair without a usable path loses it (R193). None is sent to a
reserved coordinate (R19). Packets of the
director's data endpoint start at the control complex (R242; the model's choice). -/
def State.originate (s : State) (q : QuireId) (dst : Coord) (seq : Nat) (multi : Bool) (fmt : Nat) (body : List Byte) :
    State :=
  let key := match s.stg.led.quire q with | some r => r.key | none => 0
  match (if reservedCoord s.vis.led.map s.volume dst then none else s.outPort q s.dataEnd dst seq) with
  | none => s
  | some (i, port) =>
    let h : LinkHdr := { next := fmt, dst := dst, src := s.dataEnd, key := key, enc := false, multi := multi, path := i,
                         seq := seq % 2 ^ 32 }
    let (h, body, tag, s) := s.sealBody q h fmt body
    s.toRings q .control port (if cVol dst ≠ s.volume then tunnelled h body tag else buildPacket h body tag)

/-- The director's flow to a destination. -/
def State.sendFlow (s : State) (q : QuireId) (dst : Coord) : SendFlow :=
  (s.sends.find? fun f => f.quire = q && f.dst = dst).getD
    { quire := q, dst := dst, next := 0, acked := 0, queue := [], out := [] }

/-- Store a flow. -/
def State.putFlow (s : State) (f : SendFlow) : State :=
  { s with sends := (s.sends.filter fun x => !(x.quire = f.quire && x.dst = f.dst)) ++ [f] }

/-- Send what waits on a flow while the window admits it (R506). Transfer packets (format 3) await acknowledgement (R508);
each counts as originated (R511). -/
def State.flushFlow (s : State) (q : QuireId) (dst : Coord) : Nat → State
  | 0 => s
  | n + 1 =>
    let f := s.sendFlow q dst
    match f.queue with
    | [] => s
    | b :: rest =>
      if 4096 ≤ (f.next + 2 ^ 32 - f.acked) % 2 ^ 32 || !s.mayOriginate q then s
      else
        let fmt := (b.headD 0).toNat
        let body := b.drop 1
        let keep : List SentPkt :=
          if fmt = 3 then [{ seq := f.next, tick := s.now, resent := false, body := body }] else []
        let s := s.putFlow { f with next := (f.next + 1) % 2 ^ 32, queue := rest, out := f.out ++ keep }
        let s := s.updQuireVol q fun v => { v with originated := v.originated + 1 }
        (s.originate q dst f.next false fmt body).flushFlow q dst n

/-- Queue a body with its terminal format on a flow, and send what the window admits. -/
def State.sendBody (s : State) (q : QuireId) (dst : Coord) (fmt : Nat) (body : List Byte) : State :=
  let f := s.sendFlow q dst
  let s := s.putFlow { f with queue := f.queue ++ [BitVec.ofNat 8 fmt :: body] }
  s.flushFlow q dst (f.queue.length + 1)

/-- A flow-window report for a flow the director sends (R506). -/
def State.flowAcked (s : State) (q : QuireId) (dst : Coord) (n : Nat) : State :=
  let f := s.sendFlow q dst
  if s.sends.any (fun x => x.quire = q && x.dst = dst) then
    let ahead := fun (x : Nat) => (x + 2 ^ 32 - n) % 2 ^ 32 < 2 ^ 31
    let s := s.putFlow { f with acked := n, out := f.out.filter fun p => ahead p.seq }
    s.flushFlow q dst f.queue.length
  else s

/-- The boundary's part of sending (R508): a transfer packet is sent again 64 ticks after sending and given up at 128. -/
def State.resendFlow (s : State) (f : SendFlow) : State :=
  let due := f.out.filter fun p => !p.resent && 64 ≤ s.since p.tick
  let gone := f.out.filter fun p => 128 ≤ s.since p.tick
  if due = [] && gone = [] then s.flushFlow f.quire f.dst f.queue.length
  else
    let left := (f.out.filter fun p => s.since p.tick < 128).map fun p => { p with resent := p.resent || 64 ≤ s.since p.tick }
    let s := s.putFlow { f with out := left }
    let s := s.updQuireVol f.quire fun v => { v with givenUp := v.givenUp + gone.length }
    let s := (due.filter fun p => s.since p.tick < 128).foldl (fun s p => s.originate f.quire f.dst p.seq false 3 p.body) s
    s.flushFlow f.quire f.dst f.queue.length

/-- Every flow's part of a boundary. -/
def State.resendFlows (s : State) : State := s.sends.foldl (fun s f => s.resendFlow f) s

/-! ### Receiving flows (R194, R506) -/

/-- The lowest unreceived sequence of a flow. -/
def Flow.lowest (f : Flow) : Nat :=
  (f.base + (((List.range 4097).find? fun k => !f.got.contains ((f.base + k) % 2 ^ 32)).getD 4096)) % 2 ^ 32

/-- Accept a sequence into a window (R194): the flow after it, or none for a duplicate. -/
def Flow.accept (f : Flow) (seq : Nat) : Option Flow :=
  let d := (seq + 2 ^ 32 - f.base) % 2 ^ 32
  if d < 4096 then (if f.got.contains seq then none else some { f with got := f.got ++ [seq] })
  else if d < 2 ^ 31 then
    let b := (seq + 2 ^ 32 - 4095) % 2 ^ 32
    some { f with base := b, got := (f.got.filter fun x => (x + 2 ^ 32 - b) % 2 ^ 32 < 4096) ++ [seq] }
  else none

/-- A flow-window report (R510 kind 3). -/
def windowReport (q : QuireId) (sender : Coord) (n : Nat) : List Byte :=
  le 1 3 ++ le 1 0 ++ le 2 q ++ le 4 sender ++ le 4 n

/-- The director owes the sender a report once its lowest missing sequence has moved 1,024 past the last reported (R506). -/
def Flow.owes (g : Flow) : Bool := 1024 ≤ (g.lowest + 2 ^ 32 - g.reported) % 2 ^ 32

/-- The flow from a sender as it stands. -/
def State.flowFrom (s : State) (q : QuireId) (src : Coord) : Flow :=
  (s.flows.find? fun f => f.quire = q && f.src = src).getD { quire := q, src := src, base := 0, got := [], reported := 0 }

/-- A packet of a flow is taken: the flow moves on, the quire counts it, and what is owed is reported. -/
def State.tookSeq (s : State) (q : QuireId) (src : Coord) (g : Flow) : State :=
  let h := if g.owes then { g with reported := g.lowest } else g
  let s := { s with flows := (s.flows.filter fun (x : Flow) => !(x.quire = q && x.src = src)) ++ [h] }
  let s := s.updQuireVol q fun v => { v with accepted := v.accepted + 1 }
  if g.owes then s.sendCtl 0x0B src (windowReport q src g.lowest) else s

/-- Accept a packet of a flow (R194): it counts as accepted; the sender hears of the window each 1,024 sequences (R506). -/
def State.acceptSeq (s : State) (q : QuireId) (src : Coord) (seq : Nat) : Option State :=
  ((s.flowFrom q src).accept seq).map (s.tookSeq q src)

/-- Every 64 ticks the director reports its flow windows (R506). -/
def State.reportFlows (s : State) : State :=
  if s.now % 64 ≠ 0 then s
  else
    let s1 := { s with flows := s.flows.map fun f => { f with reported := f.lowest } }
    (s.flows.filter fun f => f.lowest ≠ f.reported || f.got.any fun x => (x + 2 ^ 32 - f.lowest) % 2 ^ 32 < 2 ^ 31).foldl
      (fun s f => s.sendCtl 0x0B f.src (windowReport f.quire f.src f.lowest)) s1

/-! ### Transfers at the director's data endpoint (R219) -/

/-- A range of a quire's grant holds an address with a recurring uncorrectable error (R219, R367). -/
def Vol.rangeBad (v : Vol) (leaves : List Nat) (addr len : Nat) : Bool :=
  v.bad.any fun x => (List.range leaves.length).any fun i =>
    leaves.getD i 384 = x / 2 ^ 30 && addr ≤ i * 2 ^ 30 + x % 2 ^ 30 && i * 2 ^ 30 + x % 2 ^ 30 < addr + len

/-- Why a transfer is refused (R219): the read-response status, or none. -/
def State.transferBad (s : State) (q : QuireId) (addr len : Nat) : Option Nat :=
  match s.vis.led.quire q with
  | none => some 1
  | some r =>
    let k := s.vis.led.slot (s.vis.led.slotOf q)
    if addrBad addr || !inGrant r.leaves.length addr len then some 1
    else if k.state = .revoking || r.evicted then some 2
    else if s.stg.vol.rangeBad r.leaves addr len then some 3
    else none

/-- A read response (R219). -/
def readResponse (tag target status : Nat) (data : List Byte) : List Byte :=
  le 1 0xFF ++ le 1 3 ++ le 2 data.length ++ le 4 tag ++ le 8 target ++ le 4 0 ++ le 1 status ++ le 1 0 ++ le 2 0 ++
  le 8 0 ++ data

/-- The transfer header's effect (R219): a write into grant space, or a read answered with responses. -/
def State.transfer (s : State) (q : QuireId) (src : Coord) (h data : List Byte) : State :=
  let kind := field h 1 1
  let addr := field h 8 8 % 2 ^ 40
  let leaves := match s.vis.led.quire q with | some r => r.leaves | none => []
  if kind = 1 then
    match s.transferBad q addr data.length with
    | some _ => s.updQuireVol q fun v => { v with xferRefused := v.xferRefused + 1 }
    | none => s.updVol fun v => { v with hbm := hbmWrite v.hbm leaves addr data }
  else if kind = 2 then
    let tag := field h 4 4
    let len := field h 16 4
    let reply := field h 24 8
    let bad := if q = 0 then some 1
      else if len = 0 || 16777216 < len then some 4
      else if 2 ^ 48 ≤ reply then some 5
      else s.transferBad q addr len
    match bad with
    | some st => s.sendBody q src 3 (readResponse tag reply st [])
    | none =>
      (List.range ((len + 1983) / 1984)).foldl (fun s i =>
        let n := min 1984 (len - 1984 * i)
        s.sendBody q src 3 (readResponse tag (reply + 1984 * i) 0 (hbmRead s.stg.vol.hbm leaves (addr + 1984 * i) n))) s
  else s

/-! ### Receive checks (R223) -/

/-- What the checks of a port find. -/
inductive RxVerdict where
  /-- discarded and charged to a counter -/
  | drop (counter : Nat)
  /-- to be forwarded -/
  | forward
  /-- addressed to the director, with a tunnel removed where there was one: the terminal format, its header and its data, and
  whether a tenant header stood -/
  | consume (fmt : Nat) (hdr data : List Byte) (tenant : Bool)
  deriving DecidableEq, Repr

/-- Checks 9 and 10 (R217, R223): decrypt and follow the chain to its terminal header. -/
def State.openPacket (s : State) (q : QuireId) (link body tag : List Byte) (l : Led) (hs : List (Nat × Nat)) : RxVerdict :=
  let src := field link 8 4 % 2 ^ 20
  let finish := fun (b : List Byte) (f off : Nat) (t : Bool) =>
    let e := pftEntry l f
    RxVerdict.consume f (slice b off e.len) (b.drop (off + e.len)) t
  match headerOf l hs 3 with
  | none => match hs.getLast? with
    | some (f, off) => finish body f off false
    | none => .drop 8
  | some off =>
    let th := slice body off 16
    let epoch := field th 4 2
    let key := if q = 0 then (s.houseKey (src - cFun src)).map Config.houseKey else s.linkKey (s.vis.led.slotOf q) epoch
    match key.bind fun k => Config.gcmOpen k (gcmNonce src (slice th 8 8)) (gcmAad th link) (body.drop (off + 16) ++ tag) with
    | none => .drop 5
    | some plain =>
      match chain l true false plain (3 - hs.length) (field th 0 1) 0 (field th 2 2) with
      | none => .drop 8
      | some (ts, ok) =>
        if !ok then .drop 9
        else match ts.getLast? with
        | some (f, o) => finish plain f o true
        | none => .drop 8

/-- The checks of R223 in order, for a data packet at a port. -/
def State.rxChecks (s : State) (d : Nat) (uncorrectable : Bool) (pkt : List Byte) : RxVerdict :=
  let l := s.vis.led
  let len := field pkt 2 2
  let h := parseLink pkt
  let tagLen := if h.enc then 16 else 0
  let n := 32 + len + tagLen
  let body := (pkt.drop 32).take len
  let forMe := h.dst = s.dataEnd
  let tunnelMine := fun (hs : List (Nat × Nat)) => (headerOf l hs 2).map fun off => field body (off + 4) 4 % 2 ^ 20
  if uncorrectable then .drop 4
  else if field pkt 0 1 ≠ 0x40 then .drop 8
  else if 2048 < len then .drop 9
  else if pkt.length ≠ n + 4 || crc32c (pkt.take n) ≠ BitVec.ofNat 32 (field pkt n 4) then .drop 5
  else
    match chain l false true body 3 h.next 0 len with
    | none => .drop 8
    | some (hs, ok) =>
      let ten := headerOf l hs 3
      let final := match (if forMe then tunnelMine hs else none) with | some x => x | none => h.dst
      let foreign := hs.getLast?.any fun x => (pftEntry l x.1).role = 4 && !(pftEntry l x.1).consume
      if final = s.dataEnd && foreign then .drop 8
      else if !ok || h.enc ≠ ten.isSome then .drop 9
      else if !s.present18 h.dst || !s.present18 final || !(s.keyPermitted d h.key || s.passes d final) then .drop 6
      else
        let q := (l.quireOfKey h.key).getD 0
        if (match ten with | some off => !s.epochOk q h.src (field body (off + 4) 2) | none => false) then .drop 7
        else
          let room := slotsOf pkt.length + s.ingressSlots d ≤ 4096
          let room := fun (v : RxVerdict) => if room then v else .drop 10
          if final = s.dataEnd then
            match s.openPacket q (pkt.take 32) body (slice pkt (32 + len) tagLen) l hs with
            | .drop c => .drop c
            | v => room v
          else room .forward

/-- Forward a packet (R191, R218): out of a tunnel into this volume, into a tunnel toward another, or on over a library
link. -/
def State.forwardPkt (s : State) (d : Nat) (q : QuireId) (pkt : List Byte) : State :=
  let len := field pkt 2 2
  let h := parseLink pkt
  let body := (pkt.drop 32).take len
  let tag := (pkt.drop (32 + len)).take (if h.enc then 16 else 0)
  let send := fun (h : LinkHdr) (body : List Byte) =>
    match s.outPort q h.src h.dst h.seq with
    | none => s.count d 10 1
    | some (i, port) => s.toRings q (.port d) port (buildPacket { h with path := i } body tag)
  if h.dst = s.dataEnd then
    send { h with next := field body 0 1, dst := field body 4 4 % 2 ^ 20 } (body.drop 16)
  else if cVol h.dst = s.volume then send h body
  else if h.next = 1 then
    match s.libraryPort (cVol h.dst) with
    | none => s.count d 10 1
    | some port => s.toRings q (.port d) port pkt
  else if 2048 < len + 16 then s.count d 9 1
  else
    match s.libraryPort (cVol h.dst) with
    | none => s.count d 10 1
    | some port => s.toRings q (.port d) port (tunnelled h body tag)

/-- Count a packet received (R223, R232). -/
def State.rxCount (s : State) (d n : Nat) : State := (s.count d 0 1).count d 1 n

/-! ### Codewords (R207, R208) -/

/-- A codeword is uncorrectable (R207, R232): its delimitable packets are discarded, and parsing stops. -/
def execUncorrectableCodeword (port packets : Nat) (s : State) : Host.Outcome State Fault Refusal :=
  .next (((s.count port 4 packets).count port 18 1).updPort port fun p => { p with parsing := false })

/-- A first start disagrees with the receiver's reckoning while it parses (R208): the packet in progress goes to PARSE_LEN. -/
def execFirstStartDisagreement (port : Nat) (s : State) : Host.Outcome State Fault Refusal :=
  if (s.port port).parsing then .next (s.count port 9 1) else .next s

end Sys2Proof.Machine
end

