-- ==== Sys2Proof/Machine/RingNet.lean ====
section
/-! DEFINITION. The on-die rings (R235-R254): entry, ejection, deflection, retirement, the ring-slot books, and the way of a
fabric packet into an egress buffer (R226, R231). -/
namespace Sys2Proof.Machine

/-! ### Stops and paths (R235-R237, R241, R242, R252) -/

/-- The stops of a ring: 19 on a row ring (0 to 9), 15 on a column ring (10 to 25) (R235, R236). -/
def ringStops (ring : Nat) : Nat := if ring < 10 then 19 else 15

/-- Hops from a stop to another in a direction (R241). -/
def ringHops (ring : Nat) (dir : RingDir) (src dst : Nat) : Nat :=
  let n := ringStops ring
  match dir with
  | .asc => (dst + n - src) % n
  | .desc => (src + n - dst) % n

/-- The direction with fewer hops (R241): ring sizes are odd, so the two are never equal between two stops. -/
def shorterDir (ring src dst : Nat) : RingDir :=
  if ringHops ring .asc src dst < ringHops ring .desc src dst then .asc else .desc

/-- The next stop in a direction. -/
def nextStop (ring : Nat) (dir : RingDir) (x : Nat) : Nat :=
  let n := ringStops ring
  match dir with
  | .asc => (x + 1) % n
  | .desc => (x + n - 1) % n

/-- The physical position the fuse map spares in a row, if it spares one (R252, R468). -/
def Fuses.spare (f : Fuses) (row : Nat) : Option Nat :=
  let b := field f.colophon (18 + row) 1
  if b < 16 then some b else none

/-- The physical position of a cluster in its row (R237, R252). -/
def Fuses.pos (f : Fuses) (rc : Nat) : Nat := if f.spare (rc / 16) = some (rc % 16) then 16 else rc % 16

/-- The column an agent counts at (R236, R242). -/
def colOf : RingPlace → Nat
  | .cluster rc => rc % 16
  | .hbm c => c
  | .port d => d / 4
  | .control => 0

/-- An agent's stop on its column ring (R236). -/
def colStopOf : RingPlace → Nat
  | .cluster rc => rc / 16
  | .hbm _ => 10
  | .port d => 11 + d % 4
  | .control => 0

/-- The crossing stop of a row ring nearer to a stop (R242); where both are equally near, which it is is free. -/
def nearCrossing (west : Bool) (stop : Nat) : Nat :=
  let w := min stop (19 - stop)
  let e := min (18 - stop) (stop + 1)
  if w < e || (w = e && west) then 0 else 18

/-- The way along an agent's column ring from a stop to it; a spared cluster lies behind its column's node of its row, and is
reached through that node's turn queue (R252). -/
def Fuses.alongColumn (f : Fuses) (x : Nat) : RingPlace → List RingLeg
  | .cluster rc =>
    if f.pos rc = 16 then [⟨10 + rc % 16, x, rc / 16, .turn⟩, ⟨rc / 16, rc % 16 + 1, 17, .cluster rc⟩]
    else [⟨10 + rc % 16, x, rc / 16, .cluster rc⟩]
  | .hbm c => [⟨10 + c, x, 10, .hbm⟩]
  | .port d => [⟨10 + d / 4, x, 11 + d % 4, .port d⟩]
  | .control => []

/-- The rings a packet takes from a cluster (R242, R252). -/
def Fuses.fromCluster (f : Fuses) (west : Bool) (x : Nat) (b : RingPlace) : List RingLeg :=
  let r := x / 16
  let stop := f.pos x + 1
  let across := ⟨r, stop, (colOf b) + 1, .turn⟩ :: f.alongColumn r b
  match b with
  | .control => [⟨r, stop, nearCrossing west stop, .crossing⟩]
  | .cluster y =>
    if x % 16 = y % 16 then (if f.pos x = 16 then across else f.alongColumn r b)
    else if y / 16 = r then [⟨r, stop, f.pos y + 1, .cluster y⟩] else across
  | _ => if x % 16 = (colOf b) && f.pos x ≠ 16 then f.alongColumn r b else across

/-- The rings a packet takes from a port or an HBM half-stack group (R242, R252). -/
def Fuses.fromColumn (f : Fuses) (west : Bool) (a b : RingPlace) : List RingLeg :=
  let node := fun (r : Nat) => (⟨10 + (colOf a), (colStopOf a), r, .turn⟩ : RingLeg)
  match b with
  | .control => [node ((colOf a) % 10), ⟨(colOf a) % 10, (colOf a) + 1, nearCrossing west ((colOf a) + 1), .crossing⟩]
  | .cluster y =>
    if y % 16 = (colOf a) then f.alongColumn (colStopOf a) b
    else [node (y / 16), ⟨y / 16, (colOf a) + 1, f.pos y + 1, .cluster y⟩]
  | _ =>
    if (colOf a) = (colOf b) then f.alongColumn (colStopOf a) b
    else
      let r := ((colOf a) + (colOf b)) % 10
      node r :: ⟨r, (colOf a) + 1, (colOf b) + 1, .turn⟩ :: f.alongColumn r b

/-- The rings a packet takes from the control complex: the crossing stop nearer to its node, of the destination's row, or of row
b mod 10 (R242). -/
def Fuses.fromControl (f : Fuses) (west : Bool) (b : RingPlace) : List RingLeg :=
  match b with
  | .control => []
  | .cluster y => [⟨y / 16, nearCrossing west (f.pos y + 1), f.pos y + 1, .cluster y⟩]
  | _ =>
    let r := (colOf b) % 10
    ⟨r, nearCrossing west ((colOf b) + 1), (colOf b) + 1, .turn⟩ :: f.alongColumn r b

/-- The path of a packet through the rings (R242, R252): none between the control complex and itself, and none from a cluster to
itself. -/
def Fuses.ringPath (f : Fuses) (west : Bool) (a b : RingPlace) : List RingLeg :=
  match a with
  | .cluster x => if b = a then [] else f.fromCluster west x b
  | .control => f.fromControl west b
  | _ => f.fromColumn west a b

/-! ### Counters and books (R249, R254) -/

/-- Count on a ring and direction (R254). -/
def State.ringCount (s : State) (ring : Nat) (dir : RingDir) (i : Nat) : State :=
  let k := 2 * ring + (match dir with | .asc => 0 | .desc => 1)
  { s with rings := { s.rings with counters := modAt s.rings.counters k fun r => modAt r i (satSucc (2 ^ 64 - 1)) } }

/-- Change what a stop counts for a quire (R249). -/
def State.updBook (s : State) (q : QuireId) (ring stop : Nat) (f : RingBook → RingBook) : State :=
  let bs := s.rings.books
  let mine := fun (b : RingBook) => b.quire = q && b.ring = ring && b.stop = stop
  let new := if bs.any mine then modWhere bs mine f
    else bs ++ [f { quire := q, ring := ring, stop := stop, entered := 0, ejected := 0, retired := 0 }]
  { s with rings := { s.rings with books := new } }

/-- Where ring packets are held: the quire, ring and stop of each packet in a transit buffer, a turn queue or an eject queue (R249). -/
def Rings.holding (r : Rings) : List (QuireId × Nat × Nat) :=
  (r.transit.map fun x => (x.1.quire, x.1.ring, x.2)) ++ r.ejectQ.map fun p => (p.quire, p.ring, p.dst)

/-- What the stops latch: their counts, and the packets they hold (R249). -/
def Rings.latched (r : Rings) : List RingLatch :=
  let held := r.holding
  let keys := ((r.books.map fun b => (b.quire, b.ring, b.stop)) ++ held).foldl (fun l k => if l.contains k then l else l ++ [k]) []
  keys.map fun k =>
    let b := (r.books.find? fun b => (b.quire, b.ring, b.stop) = k).getD
      { quire := k.1, ring := k.2.1, stop := k.2.2, entered := 0, ejected := 0, retired := 0 }
    { quire := k.1, entered := b.entered, ejected := b.ejected, retired := b.retired, held := held.count k }

/-- At the first reference cycle of the seal phase all stops latch (R249). -/
def State.latchRings (s : State) : State := { s with rings := { s.rings with latch := s.rings.latched } }

/-- A quire's ring-slot book balances (R249). -/
def State.ringBalances (s : State) (q : QuireId) : Bool :=
  let l := s.rings.latch.filter (·.quire = q)
  total (l.map (·.entered)) = total (l.map (·.ejected)) + total (l.map (·.retired)) + total (l.map (·.held))

/-! ### Eject queues and their agents (R226, R231, R244, R251) -/

/-- The depth of an agent's eject queue (R244). -/
def ejectDepth : Agent → Nat
  | .turn => 8
  | _ => 16

/-- Two packets share an eject port; an HBM half-stack group has one a direction (R244). -/
def sameEject (p x : RingPkt) : Bool := x.ring = p.ring && x.dst = p.dst && x.agent = p.agent && (p.agent ≠ .hbm || x.dir = p.dir)

/-- Packets in the eject queue an eject port fills. -/
def State.ejectHeld (s : State) (p : RingPkt) : Nat := (s.rings.ejectQ.filter (sameEject p)).length

/-- An agent is in reset, not yet started, or held out of service (R251). -/
def State.agentOut (s : State) (a : Agent) : Bool :=
  match a with
  | .cluster rc =>
    let c := s.clusters.getD rc Cluster.init
    !c.powered || !c.passed || s.stg.led.retiredRc.contains rc ||
      s.stg.led.quires.any fun q => q.clusters.contains rc && (s.stg.vol.quire q.id).inReset
  | .hbm => match s.boot.stage with
    | .held | .rotRom | .fwVerify | .controlStart | .clusterWaves | .hbmTrain => true
    | _ => false
  | .port d => !(s.port d).vis.data
  | _ => false

/-- A port's egress holds, reassembling fragments included (R226). -/
def State.egressUsed (s : State) (d : Nat) : Nat :=
  (s.port d).egressSlots + total ((s.rings.fabric.filter fun f => f.dst = .port d && !f.dead).map fun f => 4 * f.ended.length)

/-- The limit of a shaped quire's slots on a port (R231). -/
def State.shapedFull (s : State) (d : Nat) (q : QuireId) (n : Nat) : Bool :=
  match s.vis.led.shaper q d with
  | (none, _) => false
  | (some _, b) => (b + 2112 + 63) / 64 < (s.port d).quireSlots q + slotsOf n

/-- A fabric packet whose fragments have all come to a port stands in its egress buffer, or is discarded by its quire's limit (R231). -/
def State.assembled (s : State) (f : FabricPkt) : State :=
  match f.dst with
  | .port d =>
    if s.shapedFull d f.quire f.bytes.length then s.count d 10 1
    else s.updPort d fun x => { x with egress := x.egress ++ [({ quire := f.quire, bytes := f.bytes } : EgressPkt)] }
  | _ => s

/-- A port sees the occupancy of its egress buffer (R232). -/
def State.seeDepth (s : State) : RingPlace → State
  | .port d => s.updPort d fun x => { x with depthMax := max x.depthMax (s.egressUsed d) }
  | _ => s

/-- A fragment has ended: it came to its agent, or was lost. The agent reassembles by the fragment index (R239); a packet that lost a
fragment is discarded, its other fragments as they come (R240, R248, R251). -/
def State.fragEnded (s : State) (id : RingId) (lost : Bool) : State :=
  match s.rings.fabric.find? (·.uid = id.fabric) with
  | none => s
  | some f =>
    let f := { f with ended := f.ended ++ [id.frag], dead := f.dead || lost }
    let whole := (List.range f.frags).all f.ended.contains
    let fs := if whole then s.rings.fabric.filter (·.uid ≠ f.uid) else modWhere s.rings.fabric (·.uid = f.uid) fun _ => f
    let s := { s with rings := { s.rings with fabric := fs } }
    (if whole && !f.dead then s.assembled f else s).seeDepth f.dst

/-- A packet leaves its eject queue for its agent. -/
def State.takeEjected (s : State) (p : RingPkt) : State :=
  let s := { s with rings := { s.rings with ejectQ := s.rings.ejectQ.filter (·.id ≠ p.id) } }
  (s.updBook p.quire p.ring p.dst fun b => { b with ejected := b.ejected + 1 }).fragEnded p.id false

/-- Drain a port's eject queue while its egress buffer has room (R226, R244). -/
def State.drainPort (s : State) (d : Nat) : List RingPkt → State
  | [] => s
  | p :: l => if s.egressUsed d + 4 ≤ 8192 then (s.takeEjected p).drainPort d l else s

/-- The fragment belongs to a fabric packet that lost another one. -/
def State.ofDead (s : State) (p : RingPkt) : Bool := s.rings.fabric.any fun f => f.uid = p.id.fabric && f.dead

/-- Drain what a port's eject queue holds: the fragments of a discarded packet in any case. -/
def State.drainEgress (s : State) (d : Nat) : State :=
  let q := s.rings.ejectQ.filter (·.agent = .port d)
  let dead := q.filter s.ofDead
  (dead.foldl State.takeEjected s).drainPort d (q.filter fun p => !s.ofDead p)

/-! ### Retirement, deflection and ejection (R240, R244-R248, R251) -/

/-- A ring packet is retired at a stop (R240, R248, R251): it leaves the rings, and its fabric packet is discarded. The count may be on
another ring than its own: that which a packet in a turn queue was about to enter. -/
def State.retireRing (s : State) (p : RingPkt) (ring : Nat) (dir : RingDir) (stop counter : Nat) : State :=
  let s := { s with rings := { s.rings with transit := s.rings.transit.filter (·.1.id ≠ p.id)
                                            ejectQ := s.rings.ejectQ.filter (·.id ≠ p.id) } }
  ((s.updBook p.quire ring stop fun b => { b with retired := b.retired + 1 }).ringCount ring dir counter).fragEnded p.id true

/-- A port charges the discard of a fabric packet to SHAPER, once (R248). -/
def State.chargeLap (s : State) (d uid : Nat) : State :=
  if s.rings.fabric.any fun f => f.uid = uid && !f.charged then
    let fs := modWhere s.rings.fabric (·.uid = uid) fun f => { f with charged := true }
    ({ s with rings := { s.rings with fabric := fs } }).count d 10 1
  else s

/-- A packet whose lap count has reached 64 is retired at its destination stop (R248): a port discards what it holds of the fabric packet
and charges one discard; at a turn queue no port is concerned yet (DEDUCED). -/
def State.retireLap (s : State) (p : RingPkt) : State :=
  match p.agent with
  | .port d => ((s.chargeLap d p.id.fabric).retireRing p p.ring p.dir p.dst 4).drainEgress d
  | _ => s.retireRing p p.ring p.dir p.dst 4

/-- A packet that does not eject is deflected (R246): it stays on the ring in the same direction, one lap later, and a port's DEFLECT
counts it wherever it was to leave the ring; with the 64th lap it is retired at once (R248, DEDUCED). -/
def State.deflect (s : State) (p : RingPkt) : State :=
  let s := s.ringCount p.ring p.dir 2
  let s := match p.final with
    | .port d => s.count d 11 1
    | _ => s
  if 64 ≤ p.lap + 1 then s.retireLap p
  else
    let moved := s.rings.transit.filter (·.1.id ≠ p.id) ++ [({ p with lap := p.lap + 1 }, p.dst)]
    { s with rings := { s.rings with transit := moved } }

/-- A packet leaves the ring into its agent's eject queue (R244). -/
def State.ejectRing (s : State) (p : RingPkt) : State :=
  let s := { s with rings := { s.rings with transit := s.rings.transit.filter (·.1.id ≠ p.id), ejectQ := s.rings.ejectQ ++ [p] } }
  let s := s.ringCount p.ring p.dir 1
  let s := if 3 ≤ p.lap then s.ringCount p.ring p.dir 3 else s
  match p.agent with
  | .port d => s.drainEgress d
  | _ => s

/-- A packet reaches its destination stop (R244-R251): retired at 64 laps or when the agent is out of service; ejected where
the queue has room, three entries or, when urgent, one; else deflected. -/
def State.arrive (s : State) (p : RingPkt) : State :=
  if 64 ≤ p.lap then s.retireLap p
  else if s.agentOut p.agent then s.retireRing p p.ring p.dir p.dst 5
  else
    let free := ejectDepth p.agent - s.ejectHeld p
    if (if 3 ≤ p.lap then 1 else 3) ≤ free then s.ejectRing p else s.deflect p

/-- Which of two packets an eject port takes first (R247). -/
def firstToEject (a b : RingPkt) : Bool :=
  b.lap < a.lap || (a.lap = b.lap && (a.src < b.src || (a.src = b.src && a.dir = .asc)))

/-- Two packets reach one eject port in one ring cycle, the first of precedence given first (R247): the loser is deflected; retirements
come before (R248, R251). -/
def State.arriveTwo (s : State) (w l : RingPkt) : State :=
  if s.agentOut w.agent || 64 ≤ w.lap || 64 ≤ l.lap then (s.arrive w).arrive l else (s.arrive w).deflect l

/-! ### A ring cycle (R238, R241, R243) -/

/-- Ring packets in the transit buffer of a stop and direction (R243). -/
def State.transitAt (s : State) (ring : Nat) (dir : RingDir) (stop : Nat) : Nat :=
  (s.rings.transit.filter fun x => x.1.ring = ring && x.1.dir = dir && x.2 = stop).length

/-- A packet may enter at a stop in a direction (R243): two entries of the transit buffer are free, and none has entered there in this
ring cycle. -/
def State.mayEnter (s : State) (ring : Nat) (dir : RingDir) (stop : Nat) : Bool :=
  s.transitAt ring dir stop ≤ 2 && !s.rings.entries.contains (ring, dir, stop)

/-- A packet on the first ring of its way, or on the next after a turn: by the shorter direction (R239, R241). -/
def RingPkt.onLeg (p : RingPkt) (l : RingLeg) (rest : List RingLeg) : RingPkt :=
  { p with ring := l.ring, dir := shorterDir l.ring l.src l.dst, src := l.src, dst := l.dst, agent := l.agent, path := rest }

/-- A ring packet enters its ring at its source stop. -/
def State.enterRing (s : State) (p : RingPkt) : State :=
  let s := { s with rings := { s.rings with transit := s.rings.transit ++ [(p, p.src)], entries := s.rings.entries ++ [(p.ring, p.dir, p.src)] } }
  (s.updBook p.quire p.ring p.src fun b => { b with entered := b.entered + 1 }).ringCount p.ring p.dir 0

/-- The heads of the turn queues, each with the leg it is to enter (R237, R243). -/
def Rings.turnHeads (r : Rings) : List (RingPkt × RingLeg × List RingLeg) :=
  let heads := r.ejectQ.foldl (fun (hs : List RingPkt) p => if p.agent ≠ .turn || hs.any (sameEject p) then hs else hs ++ [p]) []
  heads.filterMap fun p => match p.path with | l :: rest => some (p, l, rest) | [] => none

/-- A turn queue's head enters the ring it feeds, keeping its lap count, or waits (R243, R246, R249). -/
def State.turnEnter (s : State) (x : RingPkt × RingLeg × List RingLeg) : State :=
  let p := x.1.onLeg x.2.1 x.2.2
  if s.mayEnter p.ring p.dir p.src then
    let s := { s with rings := { s.rings with ejectQ := s.rings.ejectQ.filter (·.id ≠ p.id) } }
    (s.updBook x.1.quire x.1.ring x.1.dst fun b => { b with ejected := b.ejected + 1 }).enterRing p
  else s.ringCount p.ring p.dir 8

/-- Two packets stand in one transit buffer. -/
def sameBuffer (x y : RingPkt × Nat) : Bool := x.1.ring = y.1.ring && x.1.dir = y.1.dir && x.2 = y.2

/-- The packets at the heads of the transit buffers: one slot a link and direction moves in a ring cycle (R238, R243). -/
def Rings.heads (r : Rings) : List (RingPkt × Nat) :=
  r.transit.foldl (fun hs x => if hs.any (sameBuffer x) then hs else hs ++ [x]) []

/-- A packet at the head of its buffer is about to reach its destination stop. -/
def arriving (x : RingPkt × Nat) : Bool := nextStop x.1.ring x.1.dir x.2 = x.1.dst

/-- A head advances to the next stop's transit buffer. -/
def State.advance (s : State) (x : RingPkt × Nat) : State :=
  let moved := s.rings.transit.filter (·.1.id ≠ x.1.id) ++ [(x.1, nextStop x.1.ring x.1.dir x.2)]
  { s with rings := { s.rings with transit := moved } }

/-- One of the packets that reach their destinations in a ring cycle, with its rival for the eject port if there is one: the pair is
treated once, with the first to eject (R247). -/
def State.arrival (s : State) (all : List (RingPkt × Nat)) (x : RingPkt × Nat) : State :=
  match all.find? fun y => y.1.id ≠ x.1.id && sameEject x.1 y.1 with
  | none => s.arrive x.1
  | some y => if firstToEject x.1 y.1 then s.arriveTwo x.1 y.1 else s

/-- The heads of the eject queues of clusters, crossing stops and HBM half-stack groups. -/
def Rings.agentHeads (r : Rings) : List RingPkt :=
  r.ejectQ.foldl (fun (hs : List RingPkt) p => match p.agent with
    | .turn => hs
    | .port _ => hs
    | _ => if hs.any (sameEject p) then hs else hs ++ [p]) []

/-- An agent takes the head of its eject queue, or does not: the spec gives no rate (a free value). -/
def State.agentTakes (s : State) (p : RingPkt) : State :=
  let (b, s) := s.freeBool
  if b then s.takeEjected p else s

/-- A ring cycle passes on every ring (R238, R241, R243): turn queues enter first, the head of every transit buffer advances one stop, and
what reaches its destination ejects, is deflected or is retired. -/
def State.ringCycle (s : State) : State :=
  let s := s.rings.turnHeads.foldl State.turnEnter s
  let hs := s.rings.heads
  let at_ := hs.filter arriving
  let s := (hs.filter (!arriving ·)).foldl State.advance s
  let s := at_.foldl (fun s x => s.arrival at_ x) s
  let s := s.rings.agentHeads.foldl State.agentTakes s
  { s with rings := { s.rings with entries := [] } }

/-- Ring cycles pass until the packet of a name has met its destination stop, or is on no ring. -/
def State.untilArrived (id : RingId) : Nat → State → State
  | 0, s => s
  | n + 1, s =>
    match s.rings.transit.find? (·.1.id = id) with
    | none => s
    | some x => if arriving x && s.rings.heads.contains x then s.ringCycle else untilArrived id n s.ringCycle

/-! ### The ring rows -/

/-- The fabric packet of a waiting fragment: one the rings know, or one a cluster, an HBM half-stack group or the control complex begins
for another of these; packets for a port are known from the start. -/
def State.offered (s : State) (o : RingOffer) : Option FabricPkt :=
  match s.rings.fabric.find? (·.uid = o.id.fabric), o.src, o.dst with
  | some f, _, _ => some f
  | none, .port _, _ => none
  | none, _, .port _ => none
  | none, _, _ =>
    if o.id.fabric < s.rings.nextUid then none
    else some { uid := o.id.fabric, quire := o.quire, bytes := [], src := o.src, dst := o.dst, frags := o.frags, entered := [],
                ended := [], dead := false, charged := false }

/-- A fabric packet's fragment has entered. -/
def State.fragEntered (s : State) (f : FabricPkt) (frag : Nat) : State :=
  let g := { f with entered := f.entered ++ [frag] }
  let known := s.rings.fabric.any (·.uid = f.uid)
  { s with rings := { s.rings with
      fabric := if known then modWhere s.rings.fabric (·.uid = f.uid) fun _ => g else s.rings.fabric ++ [g]
      nextUid := max s.rings.nextUid (f.uid + 1) } }.countSlots f.quire f.src 0 (f.slotsHeld - g.slotsHeld)

/-- The head of the turn queue that feeds a ring waits to enter it at a stop and direction, before every other agent of the stop
(R243). -/
def Rings.turnWaits (r : Rings) (p : RingPkt) : Bool :=
  r.turnHeads.any fun x => let y := x.1.onLeg x.2.1 x.2.2; y.ring = p.ring && y.dir = p.dir && y.src = p.src

/-- A waiting agent's fragment enters the rings (R241-R243, R246): on the first ring of its path, by the shorter direction, with lap
count 0, where the transit buffer has two free entries and no turn queue comes first; else it waits, counted, while a ring cycle
passes. A stop has one agent beside its turn queue, so no round robin arises. -/
def execRingEntry (o : RingOffer) (s : State) : Host.Outcome State Fault Refusal :=
  match s.offered o with
  | none => .next s
  | some f =>
    if f.frags ≤ o.id.frag || f.entered.contains o.id.frag then .next s
    else
      let (west, s) := s.freeBool
      match s.fuses.ringPath west f.src f.dst with
      | [] => .next s
      | l :: rest =>
        let p : RingPkt := { id := o.id, quire := f.quire, ring := l.ring, dir := shorterDir l.ring l.src l.dst, src := l.src,
                             dst := l.dst, agent := l.agent, lap := 0, path := rest, final := f.dst }
        if s.mayEnter p.ring p.dir p.src && !s.rings.turnWaits p then .next ((s.fragEntered f o.id.frag).enterRing p)
        else .next (s.ringCount p.ring p.dir 8).ringCycle

/-- A ring packet reaches its destination stop, after the ring cycles it takes (R241, R244-R248, R251). A packet waits behind at most
three others at each of at most nineteen stops. -/
def execRingEjectArrival (fabric frag : Nat) (s : State) : Host.Outcome State Fault Refusal :=
  .next (State.untilArrived { fabric := fabric, frag := frag } 80 s)

/-- An ECC error in a slot (R240): a single-bit error is corrected and counted; else the packet is removed at the stop and retired. A
packet in a turn queue is counted and recorded on the ring it was about to enter. -/
def execSlotEccError (ring : Nat) (dir : RingDir) (stop : Nat) (id : RingId) (double : Bool) (s : State) :
    Host.Outcome State Fault Refusal :=
  if 25 < ring then .next s
  else if !double then .next (s.ringCount ring dir 6)
  else match (s.rings.transit.find? fun x => x.1.id = id && x.1.ring = ring && x.1.dir = dir && x.2 = stop).map (·.1) with
  | some p => .next (s.retireRing p ring dir stop 7)
  | none =>
    match s.rings.ejectQ.find? fun x => x.id = id && x.agent = .turn &&
        (match x.path with | l :: _ => l.ring = ring && l.src = stop && shorterDir l.ring l.src l.dst = dir | [] => false) with
    | some p => .next (s.retireRing p ring dir stop 7)
    | none => .next s

/-- Packets in the eject queue of an agent that goes out of service are retired (R251). -/
def State.retireEject (s : State) : State :=
  (s.rings.ejectQ.filter fun p => s.agentOut p.agent).foldl (fun s p => s.retireRing p p.ring p.dir p.dst 5) s

/-! ### Sending (R227, R229) -/

/-- Whether a quire's oldest packet may start (R229). -/
def State.eligible (s : State) (d : Nat) (q : QuireId) : Bool :=
  match (s.vis.led.shaper q d).1 with
  | none => true
  | some r => 0 < r && 0 < (s.bucket q d).level

/-- The quires with packets waiting on a port, ascending from after the one served last (R227). -/
def Port.turn (p : Port) : List QuireId :=
  let qs := p.egress.foldl (fun l e => insertSorted e.quire l) []
  qs.filter (p.lastServed < ·) ++ qs.filter (· ≤ p.lastServed)

/-- The control packets a port may send (R156, R227, R370): link beacons where its state sends them, every kind where its link is up;
after a fatal fault link beacons alone. -/
def State.maySend (s : State) (p : Port) (c : List Byte) : Bool :=
  let beacon := field c 1 1 = 1
  let up := p.vis.status = 2 && !p.heldDown
  (up || (p.vis.beacon && beacon)) && (s.faults.fatal.isNone || beacon)

/-- The sender of a port is free (R227): the oldest control packet, else the next eligible quire's oldest data packet, starts;
a port whose link is not up sends nothing, but for the beacons of a state that sends them. -/
def execPortSend (port : Nat) (s : State) : Host.Outcome State Fault Refusal :=
  let p := s.port port
  if slotsPerTick s.clk.period ≤ p.slots.length then .next s
  else match p.ctl.find? (s.maySend p) with
  | some c =>
    .next (((s.updPort port fun p => { p with ctl := p.ctl.erase c, slots := p.slots ++ slotBytes c }).count port 2 1).count port 3 64)
  | none =>
    if p.vis.status ≠ 2 || p.heldDown || s.faults.fatal.isSome then .next s
    else match p.turn.find? (s.eligible port) with
    | none => .next s
    | some q =>
      match p.egress.find? (·.quire = q) with
      | none => .next s
      | some e =>
        let s := s.updPort port fun p => { p with egress := p.egress.erase e, lastServed := q, slots := p.slots ++ slotBytes e.bytes }
        let b := s.bucket q port
        let s := match (s.vis.led.shaper q port).1 with
          | none => s
          | some _ => s.putBucket { b with level := b.level - e.bytes.length, spent := b.spent + e.bytes.length }
        .next (((s.count port 2 1).count port 3 e.bytes.length).drainEgress port)

end Sys2Proof.Machine
end

