-- ==== Sys2Proof/Machine/Collect.lean ====
section
/-! DEFINITION. Descriptors, operations and tiles as commands: red.define, coll.launch, coll.status, coll.cancel, tile.read,
tile.write; contributor sets, contributions, work items, legs and the retry horizon (R270-R279, R306-R336, R552-R557). -/
namespace Sys2Proof.Machine

/-! ### Descriptors (R270-R275, R552) -/

/-- The descriptor 128 bytes spell (R270). -/
def parseDesc (b : List Byte) : Desc where
  kind := field b 0 1
  mode := field b 1 1 % 4
  rne := bit (field b 1 1) 2
  optSeed := bit (field b 2 1) 0
  optAccOut := bit (field b 2 1) 1
  optBias := bit (field b 2 1) 2
  optAct := bit (field b 2 1) 3
  optPair := bit (field b 2 1) 4
  optStats := bit (field b 2 1) 5
  optWeights := bit (field b 2 1) 6
  fan := field b 3 1
  fmtA := field b 4 1
  fmtB := field b 5 1
  fmtY := field b 6 1
  curve := field b 7 1
  m := field b 8 4
  n := field b 12 4
  k := field b 16 4
  scaleA := BitVec.ofNat 32 (field b 20 4)
  scaleB := BitVec.ofNat 32 (field b 24 4)
  scaleY := BitVec.ofNat 32 (field b 28 4)
  addrA := field b 32 8
  addrB := field b 40 8
  addrSeed := field b 48 8
  addrAcc := field b 56 8
  addrBias := field b 64 8
  addrY := field b 72 8
  addrYlo := field b 80 8
  addrStats := field b 88 8

/-- A descriptor's bytes with its addresses zeroed (R331). -/
def Desc.bare (d : Desc) : List Byte :=
  le 1 d.kind ++ le 1 (d.mode + 4 * b2n d.rne) ++
  le 1 (b2n d.optSeed + 2 * b2n d.optAccOut + 4 * b2n d.optBias + 8 * b2n d.optAct + 16 * b2n d.optPair +
    32 * b2n d.optStats + 64 * b2n d.optWeights) ++
  le 1 d.fan ++ le 1 d.fmtA ++ le 1 d.fmtB ++ le 1 d.fmtY ++ le 1 d.curve ++ le 4 d.m ++ le 4 d.n ++ le 4 d.k ++
  le 4 d.scaleA.toNat ++ le 4 d.scaleB.toNat ++ le 4 d.scaleY.toNat ++ le 96 0

/-- A format code is one of R282. -/
def fmtOk (f : Nat) : Bool := 1 ≤ f && f ≤ 6

/-- A scale may not be zero, subnormal, infinite or NaN (R273). -/
def scaleBad (w : Word32) : Bool := w.toNat % 2 ^ 31 < 0x00800000 || 0x7F800000 ≤ w.toNat % 2 ^ 31

/-- An address is unusable: reserved bits, or off its alignment (R262, R267, R268). -/
def addrWrong (a al : Nat) : Bool := addrBad a || a % al ≠ 0

/-- The fields a kind does not use are zero, and the used ones are in range (R272, R291). -/
def Desc.fieldsBad (d : Desc) : Bool :=
  let dim := fun (x hi : Nat) => x < 1 || hi < x
  let z := fun (x : Nat) => x ≠ 0
  let noPair := d.optPair || d.optStats
  match d.kind with
  | 0 =>
    d.optWeights || dim d.m 1048576 || dim d.n 1048576 || dim d.k 1048576 || (d.mode = 3 && z d.fan) || 3 < d.fan ||
    !fmtOk d.fmtA || !fmtOk d.fmtB || !fmtOk d.fmtY || scaleBad d.scaleB ||
    (d.mode = 1 && d.fmtA ≠ 6 && d.fmtB ≠ 6) || (d.mode = 2 && (d.fmtA ≠ 6 || d.fmtB ≠ 6)) ||
    addrWrong d.addrA (tileBytes d.fmtA) || addrWrong d.addrB (tileBytes d.fmtB)
  | 1 =>
    noPair || d.mode = 1 || d.mode = 2 || d.m ≠ 1 || dim d.n 268435456 || dim d.k 1048576 || (d.mode = 3 && z d.fan) ||
    3 < d.fan || !fmtOk d.fmtB || !fmtOk d.fmtY || scaleBad d.scaleB || z d.addrB ||
    (if d.optWeights then d.fmtA ≠ 6 || addrWrong d.addrA 64 else z d.fmtA || z d.addrA)
  | 2 =>
    noPair || d.optSeed || d.optAccOut || d.optBias || d.optWeights || z d.mode || z d.fan || dim d.m 1048576 ||
    dim d.n 1048576 || z d.k || z d.fmtB || z d.addrB || d.scaleB ≠ 0 || !fmtOk d.fmtA || !fmtOk d.fmtY ||
    addrWrong d.addrA (tileBytes d.fmtA)
  | _ => true

/-- What red.define answers with BAD_PARAM (R273). -/
def Desc.bad (d : Desc) : Bool :=
  let opt := fun (on : Bool) (a al : Nat) => if on then addrWrong a al else a ≠ 0
  d.fieldsBad || scaleBad d.scaleA || scaleBad d.scaleY || (d.optPair && d.fmtY = 6) ||
  (if d.optAct then 15 < d.curve else d.curve ≠ 0) || addrWrong d.addrY (tileBytes d.fmtY) ||
  opt d.optSeed d.addrSeed (tileBytes fp32) || opt d.optAccOut d.addrAcc (tileBytes fp32) || opt d.optBias d.addrBias 64 ||
  opt d.optPair d.addrYlo (tileBytes d.fmtY) || opt d.optStats d.addrStats 64

/-- Two ranges of a list overlap. -/
def rangesClash : List (Nat × Nat) → Bool
  | [] => false
  | x :: l => l.any (fun y => overlap x.1 x.2 y.1 y.2) || rangesClash l

/-- What red.define answers with NOT_PERMITTED (R274): outside the grant, overlapping outputs, no cluster. The written
accumulators may stand where the seed does. -/
def Desc.refused (d : Desc) (q : QuireRec) : Bool :=
  let reads := if d.optSeed && d.optAccOut && d.addrSeed = d.addrAcc then
    d.reads.erase (d.addrSeed, d.outBytes fp32) else d.reads
  (d.writes ++ d.reads).any (fun x => !inGrant q.leaves.length x.1 x.2) || rangesClash d.writes ||
  d.writes.any (fun x => reads.any fun y => overlap x.1 x.2 y.1 y.2) || q.clusters = []

/-- The cases in which red.define is refused (R273-R275, R550, R552). Reserved bits of the mode and the options are ignored (R9). -/
def redDefineRefusal (c : Taken) (s : State) : Option Status :=
  let d := parseDesc (c.pkt.params.drop 16)
  if 255 < c.u16 0 || d.bad then some .badParam
  else match quireGate s c.pkt.quire, s.val.quire c.pkt.quire with
  | some st, _ => some st
  | none, none => some .badParam
  | none, some q =>
    if (s.stg.vol.liveOps q.id).any (fun o => o.descId = c.u16 0 && o.desc.isSome) then some .busyTick
    else if d.refused q then some .notPermitted else none

/-- red.define (R270, R552). -/
def hRedDefine : Handler := fun c s =>
  match redDefineRefusal c s with
  | some st => refuse s st
  | none =>
    let d := parseDesc (c.pkt.params.drop 16)
    volatileOk c (s.updQuireVol c.pkt.quire fun v =>
      { v with descs := v.descs.filter (·.1 ≠ c.u16 0) ++ [(c.u16 0, d)] }) []

def execRedDefine (p : Pkt) (s : State) : Host.Outcome State Fault Refusal := .next (s.present 0x0701 hRedDefine p)

/-! ### Sets (R310, R311) -/

/-- The accelerators of a quire in every volume it spans (R184, R310). -/
def State.allMembers (s : State) (q : QuireRec) : List Coord :=
  q.members ++ ((s.stg.vol.quire q.id).announced.filter fun a => !a.released && a.volume ≠ s.volume).flatMap (·.members)

/-- The set a launch names, ascending (R310): or the status that refuses it. A set of mode 0, and one that names other volumes, is refused
while the quire is incomplete or split (R184). -/
def State.launchSet (s : State) (q : QuireRec) (mode f rc addr count : Nat) : Except Status (List Coord) :=
  let all := s.allMembers q
  let v := s.volume
  let w := s.stg.vol.quire q.id
  let loose := q.others v ≠ [] && (incomplete v q w || splitQuire q w)
  let judge := fun (cs : List Coord) =>
    if cs.any (fun c => !s.presentIn s.stg c || !all.contains (c - cFun c) || (loose && cVol c ≠ v)) then .error .notPermitted
    else .ok cs
  let sort := fun (cs : List Coord) => cs.foldl (fun l c => insertSorted c l) []
  match mode with
  | 0 => if loose then .error .notPermitted else judge (sort (all.map (· + f)))
  | 1 => judge (((List.range 32).map fun g => mkCoord v g rc f).filter fun c => s.presentIn s.stg c)
  | 2 => judge (((List.range 16).map fun sl => mkCoord v rc sl f).filter fun c => s.presentIn s.stg c)
  | _ =>
    if !inGrant q.leaves.length addr (4 * count) then .error .notPermitted
    else
      let cs := (List.range count).map fun i => fromLe (hbmRead s.stg.vol.hbm q.leaves (addr + 4 * i) 4) % 2 ^ 20
      if !rising cs || cs.any (reservedCoord s.val.map v) then .error .badParam
      else if cs.any (fun c => cGath c = 63) then .error .notPermitted else judge cs

/-! ### Chunks (R312-R314) -/

/-- The elements of a chunk (R312). -/
def chunkElems (f : Nat) : Nat := 12288 / fmtWidth f

/-- The number of chunks of n elements (R312). -/
def chunkCount (f n : Nat) : Nat := (n + chunkElems f - 1) / chunkElems f

/-- The elements of chunk c (R312). -/
def chunkLen (f n c : Nat) : Nat := min ((c + 1) * chunkElems f) n - c * chunkElems f

/-- The contributors of this volume, with their indices (R311, R313). -/
def State.locals (s : State) (o : Op) : List (Nat × Coord) :=
  (o.set.mapIdx fun i c => (i, c)).filter fun x => cVol x.2 = s.volume

/-- The length and format of an operation's contributions. -/
def Op.inFmt (o : Op) : Nat := match o.desc with | some d => d.fmtB | none => 6
def Op.elems (o : Op) : Nat := match o.desc with | some d => d.n | none => o.bCount
def Op.chunks (o : Op) : Nat := if o.kind = 1 || o.kind = 2 then chunkCount o.inFmt o.elems else 0

/-- The set is a row or a column (R318). -/
def Op.multicast (o : Op) : Bool := (o.setMode = 1 || o.setMode = 2) && o.kind ≠ 0

/-! ### coll.launch (R306-R313, R323, R330, R553, R554) -/

/-- The retry horizon a launch gives (R323). -/
def horizonOf (h : Nat) : Option Nat := if h = 0 then some 64 else if 16 ≤ h && h ≤ 4096 then some h else none

/-- A grant-space address of a command whose rule lists no answer for reserved bits: they are ignored (R9, R262). -/
def Taken.addr (c : Taken) (off : Nat) : Nat := c.u64 off % 2 ^ 40

/-- Parameter values no launch may have (R306, R307, R323, R330, R553). -/
def launchBad (c : Taken) : Bool :=
  let kind := c.u8 0
  let red := kind = 1 || kind = 2
  let cast := kind = 3
  let sm := c.u8 2
  let setUsed := red || cast
  3 < kind || c.u32 8 = 0 || (horizonOf (c.u16 6)).isNone || (if red then 1 < c.u8 1 else c.u8 1 ≠ 0) ||
  (if setUsed then 3 < sm || 15 < c.u8 3 else sm ≠ 0 || c.u8 3 ≠ 0) ||
  (if cast then c.u16 4 ≠ 0 else 255 < c.u16 4) ||
  (if setUsed && sm = 1 then 15 < c.u16 12 else if setUsed && sm = 2 then 31 < c.u16 12 else c.u16 12 ≠ 0) ||
  (if red then c.addr 16 % 1536 ≠ 0 else c.u64 16 ≠ 0 || c.u64 24 ≠ 0) ||
  (if setUsed && sm = 3 then c.addr 32 % 4 ≠ 0 || c.u32 40 < 1 || 32768 < c.u32 40
   else c.u64 32 ≠ 0 || c.u32 40 ≠ 0) ||
  (if cast then !fmtOk (c.u8 44) || c.u32 56 < 1 || 268435456 < c.u32 56
   else c.u8 44 ≠ 0 || c.u64 48 ≠ 0 || c.u32 56 ≠ 0)

/-- A tag is live, or closed and not yet free (R307). -/
def Op.holdsTag (o : Op) : Bool := o.state ≠ .ended || 0 < o.closing

/-- The descriptor a launch names, where its kind fits (R306, R308). -/
def launchDesc (c : Taken) (s : State) : Option (Option Desc) :=
  if c.u8 0 = 3 then some none
  else match ((s.stg.vol.quire c.pkt.quire).descs.find? (·.1 = c.u16 4)).map (·.2) with
  | some d => if (c.u8 0 = 0 && d.kind ≠ 1) || (c.u8 0 ≠ 0 && d.kind = 1) then some (some d) else none
  | none => none

/-- The operation a launch starts. -/
def launchOp (c : Taken) (s : State) (d : Option Desc) (set : List Coord) : Op :=
  let v := s.volume
  let kv := (set.filter fun x => cVol x = v).length
  let lib := (c.u8 0 = 1 || c.u8 0 = 2) && set.any fun x => cVol x ≠ v
  let n := match d with | some d => d.n | none => 0
  let f := match d with | some d => d.fmtB | none => 6
  let red := c.u8 0 = 1 || c.u8 0 = 2
  let ch := if red then chunkCount f n else 0
  { quire := c.pkt.quire, tag := c.u32 8, kind := c.u8 0, libMode := c.u8 1, setMode := c.u8 2, func := c.u8 3
    descId := c.u16 4, desc := d, horizon := (horizonOf (c.u16 6)).getD 64, set := set, stBase := c.addr 16
    stLen := c.u64 24, window := if kv = 0 then 64 else min 64 (c.u64 24 / (kv * 1536)), bFmt := c.u8 44, bSrc := c.addr 48
    bCount := c.u32 56, accTick := c.tick, progress := c.tick, state := if lib then .awaiting else .live, final := none
    held := [], received := 0, expected := kv * ch, cLow := 0, reported := [], missing := []
    items := if red then List.range ch else match d with | some d => List.range d.runItems | none => []
    retriedItems := [], legs := [], retries := 0, retriedAny := false, rejected := 0, dups := 0, saturated := 0, nanFp4 := 0
    closing := 0, matched := [], task := s.nextTask, tell := true, library := lib, far := [], passed := [], farLegs := [] }

/-- What a launch answers with BAD_PARAM once its set is known (R311, R313, R330). -/
def opBad (s : State) (o : Op) : Bool :=
  let kv := (s.locals o).length
  match o.desc with
  | some d =>
    if o.kind = 1 || o.kind = 2 then d.k ≠ o.set.length || o.stLen < 2 * kv * 1536 || (o.library && d.fan ≠ 0) else false
  | none => false

/-- What a launch answers with NOT_PERMITTED (R274, R307, R308, R319, R554). -/
def opRefused (s : State) (q : QuireRec) (o : Op) : Bool :=
  let live := s.stg.vol.liveOps q.id
  s.stg.vol.ops.any (fun x => x.quire = q.id && x.tag = o.tag && x.holdsTag) || 16 ≤ live.length ||
  64 ≤ (s.stg.vol.ops.filter fun x => x.state ≠ .ended).length ||
  (match o.desc with | some d => d.refused q | none => false) ||
  o.ranges.any (fun x => !inGrant q.leaves.length x.1 x.2) ||
  (match o.desc with | some d => (d.writes ++ d.reads).any fun x => overlap x.1 x.2 o.stBase o.stLen | none => false) ||
  live.any (fun x => x.writes.any fun a => o.writes.any fun b => overlap a.1 a.2 b.1 b.2) ||
  (o.kind = 3 && o.set.any fun x => cVol x ≠ s.volume)

/-- Judge a launch (R554): the status that refuses it, or its operation. -/
def judgeLaunch (c : Taken) (s : State) : Except Status Op :=
  match s.val.quire c.pkt.quire with
  | none => .error .badParam
  | some q =>
    if launchBad c then .error .badParam
    else
      let setOf := if c.u8 0 = 0 then .ok [] else s.launchSet q (c.u8 2) (c.u8 3) (c.u16 12) (c.addr 32) (c.u32 40)
      let early : Option Status := match setOf, launchDesc c s with
        | .error .badParam, _ => some .badParam
        | .ok set, some d => if opBad s (launchOp c s d set) then some .badParam else none
        | _, _ => none
      match early, quireGate s q.id with
      | some st, _ => .error st
      | none, some st => .error st
      | none, none =>
        if !(s.stg.vol.quire q.id).admitted then .error .busyTick
        else match setOf, launchDesc c s with
        | .error st, _ => .error st
        | .ok _, none => .error .notPermitted
        | .ok set, some d =>
          let o := launchOp c s d set
          if opRefused s q o then .error .notPermitted else .ok o

/-- The weight vector's CRC-32C (R331). -/
def State.weightCrc (s : State) (q : QuireRec) (o : Op) : Word32 :=
  match o.desc with
  | some d => if d.optWeights then crc32c (hbmRead s.stg.vol.hbm q.leaves d.addrA (4 * d.k)) else 0
  | none => 0

/-- The claim of a library-wide launch (R331). -/
def State.launchClaim (s : State) (q : QuireRec) (o : Op) : Claim :=
  .launch s.volume o.accTick o.quire o.tag o.kind o.setMode o.func o.libMode o.horizon
    (match o.desc with | some d => crc32c d.bare | none => 0) (s.weightCrc q o) o.set

/-- coll.launch (R306, R553). -/
def hCollLaunch : Handler := fun c s =>
  match judgeLaunch c s, s.val.quire c.pkt.quire with
  | .error st, _ => refuse s st
  | .ok o, some q =>
    let s := s.updVol fun v => { v with ops := v.ops.filter (fun x => !(x.quire = o.quire && x.tag = o.tag)) ++ [o] }
    let r := multi c s (.launch o.tag)
    if o.library then (r.1.queueClaim (s.otherVolumes o) (s.launchClaim q o), r.2) else r
  | .ok _, none => refuse s .badParam

def execCollLaunch (p : Pkt) (s : State) : Host.Outcome State Fault Refusal := .next (s.present 0x0702 hCollLaunch p)

/-! ### coll.status and coll.cancel (R327-R329, R555, R557) -/

/-- The failed-leg mask of a row or column, or the lowest failed target of a list (R555). -/
def Op.failedMask (o : Op) : Nat :=
  let bad := (o.legs.filter (·.failed)).map (·.dst)
  if o.setMode = 1 then mask (bad.map cGath) else if o.setMode = 2 then mask (bad.map cSlot) else 0

/-- The state code of R555. -/
def OpState.code : OpState → Nat
  | .awaiting => 0
  | .live => 1
  | .ended => 2

/-- A retry of the operation is in flight (R324, R555). -/
def Op.retrying (o : Op) : Bool :=
  o.state ≠ .ended && (o.missing.any (·.retried) || (o.legs ++ o.farLegs).any fun l => l.retried && !l.acked && !l.failed)

/-- The result of coll.status (R555). -/
def Op.status (o : Op) : List Byte :=
  let bad := (o.legs.filter (·.failed)).foldl (fun l x => insertSorted x.dst l) []
  le 4 o.tag ++ le 1 o.kind ++ le 1 o.state.code ++ le 2 (match o.final with | some st => st.code | none => 0xFFFF) ++
  le 6 o.accTick ++ le 6 o.progress ++ le 4 o.expected ++ le 4 o.received ++ le 4 o.legs.length ++
  le 4 (o.legs.filter (·.acked)).length ++ le 4 (o.legs.filter (·.failed)).length ++ le 4 o.retries ++ le 4 o.rejected ++
  le 4 o.dups ++ le 4 o.saturated ++ le 4 o.nanFp4 ++ le 4 o.cLow ++ le 4 o.failedMask ++
  le 4 (if o.setMode = 3 then bad.headD 0 else 0)

/-- coll.status (R555). -/
def hCollStatus : Handler := fun c s =>
  match s.vis.vol.op c.pkt.quire (c.u32 0) with
  | some o => if o.holdsTag then (s, .reply (if o.retrying then .retryPending else .ok) o.status) else refuse s .badParam
  | none => refuse s .badParam

def execCollStatus (p : Pkt) (s : State) : Host.Outcome State Fault Refusal := .next (s.present 0x0703 hCollStatus p)

/-- coll.cancel (R328, R329, R557). -/
def hCollCancel : Handler := fun c s =>
  match s.stg.vol.op c.pkt.quire (c.u32 0) with
  | none => refuse s .badParam
  | some o =>
    if !o.holdsTag then refuse s .badParam
    else match quireGate s c.pkt.quire with
    | some st => refuse s st
    | none => if o.state = .ended then refuse s .notPermitted else volatileOk c (s.failOp o .cancelled) []

def execCollCancel (p : Pkt) (s : State) : Host.Outcome State Fault Refusal := .next (s.present 0x0706 hCollCancel p)

/-! ### tile.read and tile.write (R342, R556) -/

/-- tile.read (R556); a rebind of the quire bars it (R342). -/
def hTileRead : Handler := fun c s =>
  let n := c.u32 8
  if addrBad (c.u64 0) || n < 1 || 4072 < n then refuse s .badParam
  else if s.rebinding c.pkt.quire then refuse s .busyTick
  else match s.val.quire c.pkt.quire, s.vis.led.quire c.pkt.quire with
  | some q, some v =>
    if !inGrant q.leaves.length (c.u64 0) n then refuse s .notPermitted
    else (s, .reply .ok (hbmRead s.vis.vol.hbm v.leaves (c.u64 0) n))
  | _, _ => refuse s .badParam

def execTileRead (p : Pkt) (s : State) : Host.Outcome State Fault Refusal := .next (s.present 0x0704 hTileRead p)

/-- tile.write (R556): a live operation's tensors, list and staging area are barred. -/
def hTileWrite : Handler := fun c s =>
  let n := c.pkt.params.length - 8
  if addrBad (c.u64 0) then refuse s .badParam
  else match quireGate s c.pkt.quire, s.val.quire c.pkt.quire with
  | some st, _ => refuse s st
  | none, none => refuse s .badParam
  | none, some q =>
    if !inGrant q.leaves.length (c.u64 0) n ||
        (s.stg.vol.liveOps q.id).any (fun o => o.ranges.any fun x => overlap x.1 x.2 (c.u64 0) n) then refuse s .notPermitted
    else volatileOk c (s.updVol fun v => { v with hbm := hbmWrite v.hbm q.leaves (c.u64 0) (c.pkt.params.drop 8) }) []

def execTileWrite (p : Pkt) (s : State) : Host.Outcome State Fault Refusal := .next (s.present 0x0705 hTileWrite p)

/-! ### Contributions (R313, R315, R320) -/

/-- A chunk's place in the staging area (R313). -/
def Op.stagingAt (o : Op) (kv k' c : Nat) : Nat := o.stBase + (c % o.window * kv + k') * 1536

/-- A contribution at the director (R315): the checks in order, then staging. -/
def State.contribution (s : State) (q : QuireId) (src : Coord) (h data : List Byte) : State :=
  let tag := field h 4 4
  let k := field h 8 4
  let c := field h 12 4
  let reject := fun (s : State) => s.updOp q tag fun o => { o with rejected := o.rejected + 1 }
  match (s.stg.vol.liveOps q).find? (·.tag = tag), s.stg.led.quire q with
  | some o, some r =>
    let ls := s.locals o
    if !(o.kind = 1 || o.kind = 2) || !ls.contains (k, src) then reject s
    else if field h 18 1 ≠ o.inFmt || o.chunks ≤ c || field h 16 2 ≠ chunkLen o.inFmt o.elems c ||
        bit (field h 19 1) 0 ≠ decide (c + 1 = o.chunks) then reject s
    else if o.cLow + o.window ≤ c then reject s
    else if o.held.contains (k, c) || !o.items.contains c then s.updOp q tag fun o => { o with dups := o.dups + 1 }
    else
      let k0 := (ls.map (·.1)).headD 0
      let at_ := o.stagingAt ls.length (k - k0) c
      let retry := o.missing.any fun m => m.contributor = k && m.chunk = c && m.retried
      let s := s.updVol fun v => { v with hbm := hbmWrite v.hbm r.leaves at_ data }
      s.updOp q tag fun o =>
        { o with held := o.held ++ [(k, c)], received := o.received + 1
                 missing := o.missing.filter fun m => !(m.contributor = k && m.chunk = c)
                 retriedAny := o.retriedAny || retry
                 progress := if retry then s.now else o.progress }
  | _, _ => s.updQuireVol q fun v => { v with stale := v.stale + 1 }

/-! ### Legs (R200, R318, R319) -/

/-- A collective header (R216). -/
def collHdr (kind tag chunk count f : Nat) (last : Bool) (data : List Byte) : List Byte :=
  le 1 0xFF ++ le 1 kind ++ le 2 data.length ++ le 4 tag ++ le 4 0 ++ le 4 chunk ++ le 2 count ++ le 1 f ++ le 1 (b2n last) ++
  le 12 0 ++ data

/-- The bytes of an outgoing chunk of an operation (R312, R318, R319). -/
def State.outChunk (s : State) (o : Op) (leaves : List Nat) (r : Nat) : List Byte :=
  let (f, base, n, kind) := match o.desc with
    | some d => (d.fmtY, d.addrY, d.n, 1)
    | none => (o.bFmt, o.bSrc, o.bCount, 2)
  let cnt := chunkLen f n r
  let data := hbmRead s.stg.vol.hbm leaves (base + 1536 * r) ((cnt * fmtWidth f + 7) / 8)
  collHdr kind o.tag r cnt f (r + 1 = chunkCount f n) data

/-- The next multicast sequence of the director for a quire. -/
def State.castSeq (s : State) (q : QuireId) : Nat × State :=
  let f := s.sendFlow q s.dataEnd
  (f.next, s.putFlow { f with next := (f.next + 1) % 2 ^ 32 })

/-- Send one chunk to every target of this volume (R318, R319): one multicast on a row or column, else a leg each. -/
def State.sendChunk (s : State) (q : QuireRec) (tag r : Nat) : State :=
  match s.stg.vol.op q.id tag with
  | none => s
  | some o =>
    let body := s.outChunk o q.leaves r
    let dsts := (s.locals o).map (·.2)
    if o.multicast then
      let (m, s) := s.castSeq q.id
      let c : Multicast :=
        { quire := q.id, seq := m, row := o.setMode = 1, index := 0, func := o.func,
          legs := dsts, acked := [], resent := false, tag := tag, chunk := r, sent := s.now }
      let s := { s with casts := s.casts ++ [c] }
      let s := dsts.foldl (fun s d =>
        (s.originate q.id d m true 4 body).updQuireVol q.id fun v => { v with originated := v.originated + 1 }) s
      s.updOp q.id tag fun o => { o with legs := o.legs ++ dsts.map fun d =>
        { dst := d, chunk := r, seq := m, acked := false, failed := false, age := 0, retried := false : Leg } }
    else
      dsts.foldl (fun s d =>
        let f := s.sendFlow q.id d
        let s := s.sendBody q.id d 4 body
        s.updOp q.id tag fun o => { o with legs := o.legs ++
          [{ dst := d, chunk := r, seq := (f.next + f.queue.length) % 2 ^ 32, acked := false, failed := false, age := 0,
             retried := false : Leg }] }) s

/-- The chunks this director passed on whose outputs another participant has not sent yet (R332-R334). -/
def Op.pendingFar (o : Op) : List Nat :=
  (o.passed.filter fun x => !x.last).foldl (fun l x => insertNew x.chunk l) []

/-- The result chunks whose every element is written and that were not sent (R318). -/
def Op.readyChunks (o : Op) : List Nat :=
  match o.desc with
  | none => []
  | some d =>
    if o.kind ≠ 2 then []
    else (List.range (chunkCount d.fmtY d.n)).filter fun r =>
      !o.legs.any (·.chunk = r) &&
      (o.items ++ o.pendingFar).all fun c => c * chunkElems d.fmtB + chunkLen d.fmtB d.n c ≤ r * chunkElems d.fmtY ||
        r * chunkElems d.fmtY + chunkLen d.fmtY d.n r ≤ c * chunkElems d.fmtB

/-- Send the result chunks that are ready. -/
def State.sendReady (s : State) (q : QuireRec) (tag : Nat) : State :=
  match s.stg.vol.op q.id tag with
  | some o => if (s.locals o) = [] then s else o.readyChunks.foldl (fun s r => s.sendChunk q tag r) s
  | none => s

/-! ### Work items (R276-R279, R304, R316, R332, R333) -/

/-- The weight of contributor k, prepared for the array (R271). -/
def Desc.weight (d : Desc) (m : List Host.Cell) (leaves : List Nat) (k : Nat) : Operand :=
  if d.optWeights then d.operand 6 (fromLe (hbmRead m leaves (d.addrA + 4 * k) 4)) else { hi := .fin false 1 0, lo := .zero false }

/-- The code that local contributor k staged for element e of chunk c (R313). -/
def Op.rawCode (o : Op) (d : Desc) (m : List Host.Cell) (leaves : List Nat) (kv k0 c e k : Nat) : Nat :=
  readCode m leaves (o.stagingAt kv (k - k0) c) d.fmtB ((e - c * chunkElems d.fmtB) * fmtWidth d.fmtB)

/-- Weights and contributions of consecutive contributors from k on, prepared for the array (R271). -/
def Desc.pairs (d : Desc) (m : List Host.Cell) (leaves : List Nat) (k : Nat) (codes : List Nat) : List (Operand × Operand) :=
  codes.mapIdx fun i x => (d.weight m leaves (k + i), d.operand d.fmtB x)

/-- The starting value of a reduction's element (R289). -/
def seedOf (d : Desc) (m : List Host.Cell) (leaves : List Nat) (e : Nat) : Fp :=
  if d.optSeed then (f32.decode (readCode m leaves d.addrSeed fp32 (vecBit fp32 e))).to32 (d.mode ≠ 3) else .zero false

/-- The volumes that hold a contributor, ascending: the participants (R330). -/
def Op.participants (o : Op) : List Nat := o.set.foldl (fun l c => insertSorted (cVol c) l) []

/-- The participant that applies the epilogue: the last of a chain, the lowest of a fan (R332, R333). -/
def Op.finisher (o : Op) : Nat := if o.libMode = 1 then o.participants.getLastD 0 else o.participants.headD 0

/-- The participants whose far accumulators volume v needs: in a chain the one before it, at the combiner of a fan every other. -/
def Op.feeders (o : Op) (v : Nat) : List Nat :=
  if o.libMode = 1 then ((o.participants.filter (· < v)).getLast?).toList
  else if v = o.finisher then o.participants.filter (· ≠ v) else []

/-- The participants volume v passes to: the finisher sends y to every other (R332, R333). -/
def Op.fed (o : Op) (v : Nat) : List Nat :=
  if v = o.finisher then o.participants.filter (· ≠ v)
  else if o.libMode = 1 then ((o.participants.filter (v < ·)).head?).toList else [o.finisher]

/-- What volume v passed of element i of chunk c, if it has arrived. -/
def Op.farElem (o : Op) (last : Bool) (v c i : Nat) : Option (Nat × List Nat) :=
  (o.far.find? fun x => x.vol = v && x.chunk = c && x.last = last && x.first ≤ i && i < x.first + x.vals.length).map fun x =>
    (x.vals.getD (i - x.first) 0, x.raw.getD (i - x.first) [])

/-- All that volume v passes of chunk c has arrived. -/
def Op.hasFar (o : Op) (last : Bool) (v c : Nat) : Bool :=
  (List.range (chunkLen o.inFmt o.elems c)).all fun i => (o.farElem last v c i).isSome

/-- Every participant that volume v waits for has passed chunk c (R332, R333). -/
def Op.fedFor (o : Op) (v c : Nat) : Bool := !o.library || (o.feeders v).all fun u => o.hasFar false u c

/-- What participant v makes of element i of a chunk (R316, R332, R333): its far accumulator and the contributions of a block it does not
complete. Codes are those its own contributors staged, the first of them of contributor k0. -/
def Op.share (o : Op) (d : Desc) (m : List Host.Cell) (leaves : List Nat) (v k0 c i : Nat) (codes : List Nat) : Fp × List Nat :=
  let fast := d.mode ≠ 3
  let far := fun (u : Nat) => ((o.farElem false u c i).getD (0, []))
  let seed := seedOf d m leaves (c * chunkElems d.fmtB + i)
  if o.library && o.libMode = 0 then
    let p := reduceElem d (.zero false) (d.pairs m leaves k0 codes)
    if v = o.finisher then
      ((o.feeders v).foldl (fun f u => add32 fast f ((f32.decode (far u).1).to32 fast)) (add32 fast seed p), [])
    else (p, [])
  else
    let (f0, raw) := match (if o.library then o.feeders v else []) with
      | u :: _ => ((f32.decode (far u).1).to32 fast, (far u).2)
      | [] => (seed, [])
    let all := raw ++ codes
    let n := if !o.library || v = o.finisher then all.length else all.length / 8 * 8
    (reduceElem d f0 (d.pairs m leaves (k0 - raw.length) (all.take n)), all.drop n)

/-- The elements of a message between directors, of the model's own choosing (the layout is internal, R331). -/
def farRun : Nat := 16

/-- The messages that carry the elements of a chunk. -/
def farChunks (v c : Nat) (last : Bool) (xs : List (Nat × List Nat)) : List FarChunk :=
  (List.range ((xs.length + farRun - 1) / farRun)).map fun j =>
    let ys := (xs.drop (farRun * j)).take farRun
    { vol := v, chunk := c, first := farRun * j, last := last, vals := ys.map (·.1), raw := ys.map (·.2) }

/-- The padding of the last chunk's tiles (R267). -/
def Desc.padVec (d : Desc) (leaves : List Nat) (c : Nat) (w : ItemOut) : ItemOut :=
  if c + 1 = chunkCount d.fmtB d.n then
    (List.range (roundUp d.n 4096 - d.n)).foldl (fun w i => d.putPad leaves (vecBit d.fmtY (d.n + i)) (vecBit fp32 (d.n + i)) w) w
  else w

/-- Promote one chunk of a reduction whose contributions are all held (R316, R318): what is written, and what a library-wide
operation passes to other participants (R332, R333). -/
def Op.promoteChunk (o : Op) (d : Desc) (curve : Option (List (Fp × Fp × Fp))) (v : Nat) (ls : List (Nat × Coord))
    (m : List Host.Cell) (leaves : List Nat) (c : Nat) : ItemOut × List FarChunk :=
  let k0 := (ls.map (·.1)).headD 0
  let xs := (List.range (chunkLen d.fmtB d.n c)).map fun i =>
    let e := c * chunkElems d.fmtB + i
    (e, o.share d m leaves v k0 c i (ls.map fun l => o.rawCode d m leaves ls.length k0 c e l.1))
  let none_ : ItemOut := { mem := m, saturated := 0, nanFp4 := 0 }
  if o.library && v ≠ o.finisher then (none_, farChunks v c false (xs.map fun x => (x.2.1.bits32, x.2.2)))
  else
    let ys := xs.map fun x => (x.1, x.2.1, epilogue d curve x.2.1 (d.biasOf m leaves x.1))
    let w := ys.foldl (fun w y => d.putElem leaves y.2.2 y.2.1 (vecBit d.fmtY y.1) (vecBit fp32 y.1) w) none_
    (d.padVec leaves c w, if o.library then farChunks v c true (ys.map fun y => (y.2.2.y, [y.2.1.bits32])) else [])

/-- Write the outputs of a chunk that the finisher sent (R334). -/
def Op.writeFar (o : Op) (d : Desc) (u : Nat) (m : List Host.Cell) (leaves : List Nat) (c : Nat) : ItemOut :=
  d.padVec leaves c ((List.range (chunkLen d.fmtB d.n c)).foldl (fun (w : ItemOut) i =>
    let e := c * chunkElems d.fmtB + i
    let x := (o.farElem true u c i).getD (0, [])
    let m := writeCode w.mem leaves d.addrY d.fmtY (vecBit d.fmtY e) x.1
    { w with mem := if d.optAccOut then writeCode m leaves d.addrAcc fp32 (vecBit fp32 e) (x.2.headD 0) else m })
    { mem := m, saturated := 0, nanFp4 := 0 })

/-! ### Passing between participants (R331, R334) -/

/-- A message between the directors of a library-wide operation: what one passes, or that it was taken. -/
structure FarMsg where
  quire : QuireId
  tag   : Nat
  src   : Nat
  dst   : Nat
  taken : Bool
  body  : FarChunk
  deriving DecidableEq, Repr

/-- The fields of a message in order. -/
def FarMsg.fields (m : FarMsg) : List Nat :=
  [m.quire, m.tag, m.src, m.dst, b2n m.taken, m.body.vol, m.body.chunk, m.body.first, b2n m.body.last] ++
  (m.body.vals.zip m.body.raw).flatMap fun p => p.1 :: p.2.length :: p.2

/-- Elements from their fields: a value, how many contributions follow, and those. -/
def farElems : Nat → List Nat → List (Nat × List Nat)
  | n + 1, x :: k :: l => (x, l.take k) :: farElems n (l.drop k)
  | _, _ => []

/-- A message from its fields. -/
def farMsg : List Nat → Option FarMsg
  | q :: t :: a :: b :: k :: v :: c :: f :: z :: l =>
    let xs := farElems l.length l
    some { quire := q, tag := t, src := a, dst := b, taken := k = 1,
           body := { vol := v, chunk := c, first := f, last := z = 1, vals := xs.map (·.1), raw := xs.map (·.2) } }
  | _ => none

/-- The data endpoint of another volume's director. -/
def dataEndOf (v : Nat) : Coord := mkCoord v 63 0 1

/-- Send a message toward its director (R40, R334, R398): in a data packet of the house quire to the next director on the way, and only
over a library link that holds a house session. -/
def State.sendFar (s : State) (m : FarMsg) : State :=
  match s.libraryWay m.dst with
  | some (v, _) =>
    if (s.houseKey (mkCoord v 63 0 0)).isSome then
      s.sendBody 0 (dataEndOf v) 4 (collHdr 1 m.tag m.body.chunk m.body.vals.length 0 m.body.last (Config.farBytes m.fields))
    else s
  | none => s

/-- Pass the messages of a chunk to a participant. -/
def State.passFar (s : State) (o : Op) (xs : List FarChunk) (u : Nat) : State :=
  xs.foldl (fun s x => s.sendFar { quire := o.quire, tag := o.tag, src := s.volume, dst := u, taken := false, body := x }) s

/-- A chunk was promoted in a library-wide operation: it is passed, and kept until it is known to be taken. -/
def State.chunkPassed (s : State) (o : Op) (c : Nat) (xs : List FarChunk) : State :=
  let us := if xs = [] then [] else o.fed s.volume
  let s := us.foldl (fun s u => s.passFar o xs u) s
  s.updOp o.quire o.tag fun o =>
    { o with passed := o.passed ++ xs
             farLegs := o.farLegs ++ us.map fun u =>
               { dst := dataEndOf u, chunk := c, seq := 0, acked := false, failed := false, age := 0, retried := false : Leg } }

/-- Another participant has taken a chunk. -/
def Op.farTaken (o : Op) (u c : Nat) : Op :=
  { o with farLegs := modWhere o.farLegs (fun l => l.dst = dataEndOf u && l.chunk = c) fun l => { l with acked := true }
           retriedAny := o.retriedAny || o.farLegs.any fun l => l.dst = dataEndOf u && l.chunk = c && l.retried && !l.acked }

/-- The finisher's outputs of a chunk have all arrived: they are written, and the chunk goes to the own contributors (R334). -/
def State.finishFar (s : State) (q : QuireRec) (o : Op) (c : Nat) : State :=
  match o.desc with
  | none => s
  | some d =>
    if !o.pendingFar.contains c then s
    else
      let w := o.writeFar d o.finisher s.stg.vol.hbm q.leaves c
      let s := s.updVol fun v => { v with hbm := w.mem }
      let s := s.updOp o.quire o.tag fun o =>
        { o with passed := o.passed.filter fun x => x.chunk ≠ c
                 farLegs := modWhere o.farLegs (·.chunk = c) (fun l => { l with acked := true }), progress := s.now }
      s.sendReady q o.tag

/-- A message between directors arrives (R331, R334): it is sent on where it is for another director; else what is passed is kept and,
once a chunk has come whole, acknowledged. -/
def State.farRx (s : State) (data : List Byte) : State :=
  match (Config.farFields data).bind farMsg with
  | none => s
  | some m =>
    if m.dst ≠ s.volume then s.sendFar m
    else match (s.stg.vol.liveOps m.quire).find? (·.tag = m.tag), s.stg.led.quire m.quire with
    | some o, some r =>
      if !o.library then s
      else if m.taken then s.updOp m.quire m.tag fun o => o.farTaken m.src m.body.chunk
      else if !(m.body.vol = m.src && (if m.body.last then m.src = o.finisher else (o.feeders s.volume).contains m.src)) then s
      else
        let o := if o.far.contains m.body then o else { o with far := o.far ++ [m.body] }
        let s := s.updOp m.quire m.tag fun _ => o
        if !o.hasFar m.body.last m.src m.body.chunk then s
        else
          let s := s.sendFar { m with src := s.volume, dst := m.src, taken := true, body := { m.body with vals := [], raw := [] } }
          if m.body.last then s.finishFar r o m.body.chunk else s
    | _, _ => s

/-- Retire a cluster (R258, R265): its record is ledgered, and the lowest free cluster takes its place. -/
def State.retireCluster (s : State) (rc : Nat) : State :=
  let l := s.val
  let objs : List Obj := match l.quires.find? (·.clusters.contains rc) with
    | none => []
    | some q =>
      let new := match s.freeClusters l with
        | x :: _ => q.clusters.map fun y => if y = rc then x else y
        | [] => q.clusters.filter (· ≠ rc)
      [.quire q.id (some { q with clusters := new })]
  let s := match l.quires.find? (·.clusters.contains rc), s.freeClusters l with
    | some _, x :: _ => s.zeroTiles [x]
    | _, _ => s
  let s := s.setDegraded 0x04 true
  s.stageOwn (.retireRc rc :: objs)

/-- A fault entry of an operation (R363). -/
def State.opFault (s : State) (cls fn object : Nat) (o : Op) (st : Nat) : State :=
  s.addFault { FaultEntry.plain s.now cls fn st object with tag := o.tag, retry := sat 0xFFFF o.retries }

/-- A work item of an operation ran (R278): a rerun that succeeded is a transient fault, and no retry of the operation's own (R279,
R365, DEDUCED). -/
def State.itemRan (s : State) (o : Op) (item rc : Nat) (w : ItemOut) : State :=
  let rerun := o.retriedItems.contains item
  let s := if rerun then s.opFault 1 0x04 rc o 0 else s
  let s := s.updVol fun v => { v with hbm := w.mem }
  s.updOp o.quire o.tag fun o =>
    let items := o.items.filter (· ≠ item)
    let low := if o.kind = 1 || o.kind = 2 then items.headD o.chunks else 0
    { o with items := items, saturated := o.saturated + w.saturated, nanFp4 := o.nanFp4 + w.nanFp4
             held := if o.kind = 0 then o.held else o.held.filter (·.2 ≠ item)
             progress := if o.kind = 0 then o.progress else s.now
             cLow := low, tell := o.tell || low ≠ o.cLow }

/-- An operation reads an address with a recurring uncorrectable error (R367). -/
def Op.readsBad (o : Op) (v : Vol) (leaves : List Nat) : Bool :=
  (match o.desc with | some d => d.reads | none => []).any fun x => v.rangeBad leaves x.1 x.2

/-- A work item ends (R276-R279): its outputs are written; after a failure it runs once more, and a second failure is lasting
and retires the cluster. A reduction's item is a chunk, promoted when every contribution of it is held (R316) and, in a library-wide
operation, what other participants pass for it (R332, R333). -/
def execWorkItemDone (q : QuireId) (tag item rc : Nat) (outcome : ItemOutcome) (s : State) :
    Host.Outcome State Fault Refusal :=
  match s.stg.vol.op q tag, s.stg.led.quire q with
  | some o, some r =>
    match o.desc with
    | none => .next s
    | some d =>
      let ls := s.locals o
      let ready := o.kind = 0 || ((ls.all fun l => o.held.contains (l.1, item)) && o.fedFor s.volume item)
      if s.faults.fatal.isSome || o.state ≠ .live || !o.items.contains item || !ready || !r.clusters.contains rc || r.quarantined || (s.stg.vol.quire q).inReset then .next s
      else if o.readsBad s.stg.vol r.leaves then .next (s.failOp o .lastingFault)
      else match outcome with
      | .ok =>
        let curve := if d.optAct then actCurve s.vis.led s.fw.ver d.curve else none
        let m := s.stg.vol.hbm
        if o.kind = 0 then
          let w := d.runItem curve m r.leaves item
          let w := if d.optStats && o.items = [item] then { w with mem := d.writeStats curve w.mem r.leaves } else w
          .next (s.itemRan o item rc w)
        else
          let w := o.promoteChunk d curve s.volume ls m r.leaves item
          .next (((s.itemRan o item rc w.1).chunkPassed o item w.2).sendReady r tag)
      | _ =>
        let s := if outcome = .retired then s.retireCluster rc else s
        if o.retriedItems.contains item then
          let s := if outcome = .retired then s else s.retireCluster rc
          let s := s.opFault 2 0x04 rc o Status.lastingFault.code
          .next (s.failOp o .lastingFault)
        else .next (s.updOp q tag fun o => { o with retriedItems := o.retriedItems ++ [item], retries := o.retries + 1 })
  | _, _ => .next s

/-! ### The retry horizon (R201, R324-R326) -/

/-- Mark an element suspect and schedule its measurement (R366). -/
def State.suspect (s : State) (e : Element) : State :=
  if s.faults.suspects.contains e then s
  else ({ s with faults := { s.faults with suspects := s.faults.suspects ++ [e],
                                           scheduled := insertNew e s.faults.scheduled } }).raiseNext 13

/-- The elements of a bore's end. -/
def PortRef.element (v : Nat) : PortRef → Element
  | .dport d => .port d
  | .uplink g sl p => .uplink (mkCoord v g sl 0) p

/-- The slot at which the bore of a name ends in a gathering. -/
def boreSlot (bores : List Bore) (n g : Nat) : Option Nat :=
  (bores.find? (·.name = n)).bind fun b =>
    if b.a.gath = g then some b.a.side.1 else if b.b.gath = g then some b.b.side.1 else none

/-- The electrical hop inside a gathering between an accelerator and the slot at which a bore ends, if the two differ (R187). -/
def hopElement (bores : List Bore) (n : Nat) (c : Coord) : List Element :=
  match boreSlot bores n (cGath c) with
  | some sl => if cGath c < 32 && sl ≠ cSlot c then [Element.elec (cGath c) (cSlot c) sl] else []
  | none => []

/-- The links of a path from one coordinate to another (R187, R325): its bores' ends and the electrical hops in the source's, the middle
and the destination's gathering. -/
def pathElements (v : Nat) (bores : List Bore) (p : Path) (src dst : Coord) : List Element :=
  let ends := fun (n : Nat) => match bores.find? (·.name = n) with
    | some b => [b.a.element v, b.b.element v]
    | none => []
  hopElement bores p.bore1 src ++ ends p.bore1 ++
    (if p.twoBore then Element.elec p.mid (arriveSlot bores p) p.exitSlot :: (ends p.bore2 ++ hopElement bores p.bore2 dst)
     else hopElement bores p.bore1 dst)

/-- Mark suspect the path a sequence of a pair takes (R192, R325). -/
def State.suspectPath (s : State) (q : QuireId) (src dst : Coord) (g h seq : Nat) : State :=
  match (s.stg.vol.quire q).installed, s.stg.led.quire q with
  | some x, some r =>
    let ps := x.paths g h
    let bores := match r.installed with | some i => i.2 | none => r.bores
    match placePath ((s.stg.vol.quire q).maskOf g h) ps.length ((seq + flowHash r.seed src dst) % (max 1 ps.length)) with
    | some i => match ps[i]? with
      | some p => (pathElements s.volume bores p src dst).foldl (fun s e => s.suspect e) s
      | none => s
    | none => s
  | _, _ => s

/-- A contributor did not deliver a chunk it was asked for again (R325): the operation ends; the path is the one of the flow
sequence the contributor resent under, which the director does not know (a free choice). -/
def State.lostChunk (s : State) (o : Op) (k : Nat) : State :=
  let c := o.set.getD k 0
  let (seq, s) := s.freeNat
  let s := s.suspectPath o.quire c s.dataEnd (cGath c) 32 seq
  (s.opFault 2 0x0B c o Status.lastingFault.code).failOp o .lastingFault

/-- A leg failed after its retry (R201, R325). -/
def State.lostLeg (s : State) (o : Op) (l : Leg) : State :=
  let s := s.updOp o.quire o.tag fun o =>
    let ls := modWhere o.legs (fun x => x.dst = l.dst && x.chunk = l.chunk) (fun x => { x with failed := true })
    { o with legs := ls }
  let s := s.suspectPath o.quire s.dataEnd l.dst 32 (cGath l.dst) l.seq
  s.opFault 2 0x0B l.dst o 0

/-- A horizon of a chunk passed to another director passes (R324, R334): it is passed once more; a second horizon is lasting, ends the
operation on every participant and marks the library link suspect. -/
def State.retryFar (s : State) (o : Op) (dst c : Nat) : State :=
  match o.farLegs.find? fun l => l.dst = dst && l.chunk = c && !l.acked with
  | none => s
  | some l =>
    if l.age < o.horizon + b2n (!l.retried) then s
    else if l.retried then
      let s := (s.opFault 2 0x08 dst o Status.lastingFault.code).failOp o .lastingFault
      match s.libraryPort (cVol dst) with | some p => s.suspect (.port p) | none => s
    else
      let s := s.passFar o (o.passed.filter fun x => x.chunk = c) (cVol dst)
      s.updOp o.quire o.tag fun o =>
        { o with retries := o.retries + 1
                 farLegs := modWhere o.farLegs (fun l => l.dst = dst && l.chunk = c) fun l => { l with retried := true, age := 0 } }

/-- A horizon of an outstanding item passes (R324, R325): the chunk is asked for once more, or the leg resent; a second horizon
is lasting. -/
def execRetryHorizon (q : QuireId) (tag : Nat) (item : RetryItem) (s : State) : Host.Outcome State Fault Refusal :=
  match (s.stg.vol.liveOps q).find? (·.tag = tag), s.stg.led.quire q with
  | some o, some r =>
    match item with
    | .chunk k c =>
      match o.missing.find? fun m => m.contributor = k && m.chunk = c with
      | none => .next s
      | some m =>
        if m.age < o.horizon then .next s
        else if m.retried then .next (s.lostChunk o k)
        else
          let s := s.updOp q tag fun o =>
            let ms := modWhere o.missing (fun x => x.contributor = k && x.chunk = c) (fun x => { x with retried := true, age := 0 })
            { o with retries := o.retries + 1, missing := ms }
          .next (s.sendCtl 0x0D (o.set.getD k 0) (windowNotice q tag o.cLow o.window false (some c)))
    | .leg dst c =>
      if cGath dst = 63 then .next (s.retryFar o dst c)
      else match o.legs.find? fun l => l.dst = dst && l.chunk = c && !l.acked && !l.failed with
      | none => .next s
      | some l =>
        if o.multicast || l.age < o.horizon + b2n (!l.retried) then .next s
        else if l.retried then .next (s.lostLeg o l)
        else
          let f := s.sendFlow q dst
          let s := s.sendBody q dst 4 (s.outChunk o r.leaves c)
          .next (s.updOp q tag fun o =>
            let ls := modWhere o.legs (fun x => x.dst = dst && x.chunk = c) (fun x =>
              { x with retried := true, age := 0, seq := (f.next + f.queue.length) % 2 ^ 32 })
            { o with retries := o.retries + 1, legs := ls })
  | _, _ => .next s

/-- A horizon of a multicast passes (R201): the legs not acknowledged are sent again under the same sequence; at the second
horizon they failed, and the multicast is over. -/
def execMulticastHorizon (q : QuireId) (seq : Nat) (s : State) : Host.Outcome State Fault Refusal :=
  match s.casts.find? fun c => c.quire = q && c.seq = seq with
  | none => .next s
  | some c =>
    let op := (s.stg.vol.liveOps q).find? (·.tag = c.tag)
    let h := match op with | some o => o.horizon | none => 64
    let open_ := c.legs.filter fun d => !c.acked.contains d
    let drop := { s with casts := s.casts.filter fun x => !(x.quire = q && x.seq = seq) }
    match op, s.stg.led.quire q with
    | some o, some r =>
      if open_ = [] then .next drop
      else if !c.resent then
        if s.since c.sent < h then .next s
        else
          let body := s.outChunk o r.leaves c.chunk
          let s := { s with casts := modWhere s.casts (fun x => x.quire = q && x.seq = seq) fun x => { x with resent := true } }
          let s := open_.foldl (fun s d => s.originate q d seq true 4 body) s
          .next (s.updOp q c.tag fun o =>
            { o with retries := o.retries + open_.length
                     legs := modWhere o.legs (fun l => l.chunk = c.chunk && open_.contains l.dst) fun l =>
                       { l with retried := true } })
      else if s.since c.sent < 2 * h then .next s
      else .next ((o.legs.filter fun l => l.chunk = c.chunk && open_.contains l.dst).foldl (fun s l => s.lostLeg o l) drop)
    | _, _ => .next drop

/-- A leg is acknowledged (R200, R324, R327). -/
def State.ackLegs (s : State) (q : QuireId) (tag : Nat) (f : Leg → Bool) : State :=
  s.updOp q tag fun o =>
    let new := o.legs.filter fun l => f l && !l.acked && !l.failed
    if new = [] then o
    else { o with legs := o.legs.map fun l => if f l && !l.failed then { l with acked := true } else l
                  retriedAny := o.retriedAny || new.any (·.retried)
                  progress := s.now }

/-- A closed tag is free again (R307): after twice its horizon. -/
def execTagCloseEnd (q : QuireId) (tag : Nat) (s : State) : Host.Outcome State Fault Refusal :=
  .next (s.updVol fun v => { v with ops := v.ops.filter fun o =>
    !(o.quire = q && o.tag = tag && o.state = .ended && o.closing = 0) })

/-- A library-wide launch lacks matching launches after 2 × h ticks (R331). -/
def execLaunchMatchTimeout (q : QuireId) (tag : Nat) (s : State) : Host.Outcome State Fault Refusal :=
  match s.stg.vol.op q tag with
  | some o => if o.state = .awaiting && 2 * o.horizon ≤ s.since o.accTick then .next (s.endOp o .opTimeout) else .next s
  | none => .next s

/-! ### Boundaries and seals (R309, R314, R320, R321, R326) -/

/-- A boundary's notices of an operation (R314, R328): its window while it is live, or that its tag is closed; a BROADCAST sends
its chunks at the boundary at which it becomes live. -/
def State.tellOp (s : State) (o : Op) : State :=
  if !o.tell || o.state = .awaiting then s
  else
    let s := s.updOp o.quire o.tag fun o => { o with tell := false }
    let dsts := (s.locals o).map (·.2)
    let s := if o.kind = 1 || o.kind = 2 then
        s.sendCtls 0x0D dsts (windowNotice o.quire o.tag o.cLow o.window (o.state = .ended) none)
      else s
    match s.stg.led.quire o.quire with
    | some r =>
      if o.kind = 3 && o.state = .live && o.legs = [] then
        (List.range (chunkCount o.bFmt o.bCount)).foldl (fun s c => s.sendChunk r o.tag c) s
      else s
    | none => s

/-- Every operation's part of a boundary: notices, and the closing of tags. -/
def State.boundaryOps (s : State) : State :=
  let s := s.stg.vol.ops.foldl (fun s o => s.tellOp o) s
  s.updVol fun v => { v with ops := v.ops.map fun o => if o.state = .ended then { o with closing := o.closing - 1 } else o }

/-- The chunks a contributor counts as sent and the director lacks (R324). -/
def Op.lacking (o : Op) (ls : List (Nat × Coord)) : List (Nat × Nat) :=
  ls.flatMap fun l =>
    let n := ((o.reported.find? (·.1 = l.1)).map (·.2)).getD 0
    (o.items.filter fun c => c < n && !o.held.contains (l.1, c)).map (l.1, ·)

/-- The director has sent a leg: no flow window holds it back (R324, R506). -/
def State.legSent (s : State) (o : Op) (l : Leg) : Bool :=
  o.multicast || (let d := ((s.sendFlow o.quire l.dst).next + 2 ^ 32 - l.seq) % 2 ^ 32; 0 < d && d < 2 ^ 31)

/-- A seal of one operation: absent parties (R326), outstanding items (R324), completion (R321). -/
def State.sealOp (s : State) (o : Op) : State :=
  let ls := s.locals o
  let gone := (o.set.filter fun c => !s.presentIn s.stg c)
  if o.state ≠ .live then s
  else if (o.kind = 1 || o.kind = 2) && gone ≠ [] then
    (s.opFault 2 0x0B (gone.headD 0) o Status.lastingFault.code).failOp o .lastingFault
  else
    let lack := o.lacking ls
    let old := o.missing.map fun m => { m with age := m.age + 1 }
    let new := (lack.filter fun x => !old.any fun m => m.contributor = x.1 && m.chunk = x.2).map fun x =>
      { contributor := x.1, chunk := x.2, age := 0, retried := false : Missing }
    let o' := { o with
      missing := old ++ new
      legs := o.legs.map fun l => if l.acked || l.failed then l
        else if gone.contains l.dst then { l with failed := true }
        else if s.legSent o l then { l with age := l.age + 1 } else l
      farLegs := o.farLegs.map fun l => if l.acked then l else { l with age := l.age + 1 } }
    let s := s.updOp o.quire o.tag fun _ => o'
    let sent := if o.kind = 2 then o'.readyChunks = [] || ls = []
      else if o.kind = 3 then !o'.tell else true
    if o'.items = [] && o'.pendingFar = [] && sent && o'.farLegs.all (·.acked) && o'.legs.all (fun l => l.acked || l.failed) then
      s.endOp o' (if o'.legs.any (·.failed) then .partialLegs else if o'.retriedAny then .retriedOk else .ok)
    else s

/-- Every operation's part of a seal. -/
def State.sealOps (s : State) : State := s.stg.vol.ops.foldl (fun s o => s.sealOp o) s

/-- The completion book of an operation (R320): what was received is held or released, and not beyond what is expected. -/
def Op.balances (o : Op) (kv : Nat) : Bool :=
  o.state ≠ .live || o.kind = 0 || o.kind = 3 ||
  (o.received = o.held.length + kv * (o.chunks - o.items.length) && o.received ≤ o.expected)

end Sys2Proof.Machine
end

