-- ==== Sys2Proof/Machine/Drains.lean ====
section
/-! DEFINITION. Drains as ticks carry them (R195-R198, R222, R301, R343, R547), and the activation of the tables that drain. -/
namespace Sys2Proof.Machine

/-! ### Activations (R222, R301, R547) -/

/-- Store what an activation has become. -/
def State.setActivate (s : State) (t : Task) (k : TaskKind) : State := s.updTask t.id fun x => { x with kind := k }

/-- The record of an activation: loaded and active change places (R547). -/
def State.stageSwap (s : State) (t : Task) (k : Nat) : State := s.stageTask t 1 [.table k ((s.val.table k).swap k s.fw.ver)] none

/-- The endpoints a PFT activation writes: every endpoint of the volume (R222). -/
def State.allEndpoints (s : State) : List Coord := s.endpoints 0

/-- The drains of an activation have ended: an ACT is journaled; a PFT is first written to every endpoint (R222, R301). -/
def State.activateDrained (s : State) (t : Task) (k : Nat) (d : Drain) (qs : List QuireId) : State :=
  if k = 2 then s.setActivate t (.activate k { d with count := d.bound } qs true [] s.allEndpoints)
  else (s.setActivate t (.activate k d qs true [] [])).stageSwap t k

/-- The admission of several quires resumes at a tick. -/
def State.resumeAll (s : State) (qs : List QuireId) (eff : Tick) : State := qs.foldl (fun s q => s.resumeAdmission q eff) s

/-- A failed activation installs nothing (R222, R301). -/
def State.failActivate (s : State) (t : Task) (qs : List QuireId) (st : Status) : State :=
  (s.failTask t st []).resumeAll qs (s.now + 1)

/-- The write job of a PFT at an endpoint (R222, R494 kind 0x07). -/
def State.pftJob (s : State) (img : List Byte) (c : Coord) : ShadowJob where
  coord := c
  table := 3
  index := 0
  image := img
  unacked := (List.range ((img.length + 19) / 20)).map fun k => { off := 20 * k, tick := s.now, resent := false }
  again := []

/-- Write the PFT to endpoints, one a step (R59, R222). -/
def State.writePfts (s : State) (img : List Byte) : List Coord → List ShadowJob → Nat → State × List ShadowJob × List Coord × Nat
  | [], js, left => (s, js, [], left)
  | c :: cs, js, left =>
    match s.schedule 0x0F03 64 left with
    | none => (s, js, c :: cs, left)
    | some n =>
      let j := s.pftJob img c
      (s.sendWrites 0xFFFF j (j.unacked.map (·.off))).writePfts img cs (js ++ [j]) n

/-- The work phase of a PFT activation (R222): when every write is acknowledged the change is journaled. -/
def State.workActivate (s : State) (t : Task) (k : Nat) (d : Drain) (qs : List QuireId) (js : List ShadowJob)
    (todo : List Coord) (left : Nat) : State × Nat :=
  if k ≠ 2 || s.ledger.pendingRecs.any (fun r => r.task = some t.id) then (s, left)
  else
    match (s.val.table 2).loaded with
    | none => (s.failActivate t qs .cancelled, left)
    | some img =>
      let (s, js) := s.writeAgain 0xFFFF js
      let (s, js, todo, left) := s.writePfts img todo js left
      let s := s.setActivate t (.activate k d qs true js todo)
      if todo = [] && jobsDone js then
        match s.durableRefusal with
        | some st => (s.failActivate t qs st, left)
        | none => (s.stageSwap t k, left)
      else (s, left)

/-- The record of an activation is sealed (R166, R222, R301): endpoints switch their PFT at the next boundary, and drained
quires are admitted again. -/
def State.activateSealed (s : State) (t : Task) (k : Nat) (qs : List QuireId) (js : List ShadowJob) : State :=
  let eff := s.now + 1
  let s := if k = 2 then js.foldl (fun s j =>
      s.sendCtl 0x09 j.coord (le 1 8 ++ le 1 0 ++ le 2 0xFFFF ++ le 6 eff)) s else s
  let s := if k = 1 then s.updVol fun v => { v with lstActs := v.lstActs + 1 } else s
  (s.resumeAll qs eff).endTask t s.sealedOk []

/-! ### Drains at boundaries and seals (R195, R196) -/

/-- A task's drain at a boundary: admission of its quires stops. -/
def State.boundaryDrain (s : State) (t : Task) : State :=
  match t.kind with
  | .install x d .draining js todo p =>
    let (s, d) := s.beginDrain t.quire d
    s.updTask t.id fun y => { y with kind := .install x d .draining js todo p }
  | .drainHold d =>
    let (s, d) := s.beginDrain t.quire d
    s.updTask t.id fun y => { y with kind := .drainHold d }
  | .activate k d qs false js todo =>
    if d.started then s
    else
      let s := qs.foldl (fun s q => s.stopAdmission q s.now) s
      s.updTask t.id fun y => { y with kind := .activate k { d with started := true, since := s.now } qs false js todo }
  | _ => s

/-- A task's drain at a seal: a settled quire ends it, any other tick counts (R195). -/
def State.sealDrain (s : State) (t : Task) : State :=
  match t.kind with
  | .install x d .draining js todo p =>
    if !d.started then s
    else
      let step : InstallStep := if s.settled t.quire d.since then .writing else .draining
      s.updTask t.id fun y => { y with kind := .install x { d with count := d.count + 1 } step js todo p }
  | .drainHold d =>
    if !d.started then s
    else if s.settled t.quire d.since then
      (s.updQuireVol t.quire fun v => { v with drainHold := true }).sealTask t .ok []
    else s.updTask t.id fun y => { y with kind := .drainHold { d with count := d.count + 1 } }
  | .activate k d qs false js todo =>
    if !d.started then s
    else if qs.all (s.settled · d.since) then s.activateDrained t k d qs
    else s.updTask t.id fun y => { y with kind := .activate k { d with count := d.count + 1 } qs false js todo }
  | _ => s

/-- A drain whose bound ends in this seal ends with DRAIN_TIMEOUT (R195): nothing is installed or begun, and admission resumes
at the next boundary. -/
def State.drainOut (s : State) (q : QuireId) (t : Task) : State :=
  match t.kind with
  | .install _ d .draining _ _ p => if t.quire = q && d.expired then s.failInstall t p .drainTimeout else s
  | .drainHold d =>
    if t.quire = q && d.expired then (s.failTask t .drainTimeout []).resumeAdmission q (s.now + 1) else s
  | .activate _ d qs false _ _ => if qs.contains q && d.expired then s.failActivate t qs .drainTimeout else s
  | .rebind r =>
    if t.quire = q && r.step = .draining && r.drain.expired then s.rebindAbort t .drainTimeout else s
  | _ => s

/-- The bound of a quire's drain passes (R195). -/
def execDrainTimeout (q : QuireId) (s : State) : Host.Outcome State Fault Refusal :=
  .next (s.tasks.foldl (fun s t => s.drainOut q t) s)

end Sys2Proof.Machine
end

