-- ==== Sys2Proof/Machine/Receive.lean ====
section
/-! DEFINITION. What arrives at optical ports (R20, R185-R225, R234, R346, R379, R398, R408, R494-R515): data packets, and the
control packets of endpoints but those of discovery. -/
namespace Sys2Proof.Machine

/-! ### Data packets (R223) -/

/-- A good packet at a port: it is counted, and the port parses (R208, R223). -/
def State.rxGood (s : State) (d n : Nat) : State := (s.rxCount d n).updPort d fun p => { p with parsing := true }

/-- The receiver still knows where the next packet begins: the codeword was good, the class is not reserved, and no body length is
out of range (R207-R209, R223). -/
def framed (uncorrectable : Bool) (pkt : List Byte) : Bool :=
  let cls := field pkt 0 1
  !uncorrectable && (cls = 0x00 || cls = 0xC0 || (cls = 0x40 && field pkt 2 2 ≤ 2048))

/-- A discarded packet: charged to a counter, and the port parses on only where framing stands. -/
def State.rxDrop (s : State) (d : Nat) (uncorrectable : Bool) (pkt : List Byte) (counter : Nat) : State :=
  (s.count d counter 1).updPort d fun p => { p with parsing := framed uncorrectable pkt }

/-- The effect of a data packet addressed to the director (R194, R219, R315, R408). While its quire is in reset none is taken, so that its
flows start from 0 after it (R194; DEDUCED, log entry 181). -/
def State.consume (s : State) (q : QuireId) (src : Coord) (seq fmt : Nat) (hdr data : List Byte) (tenant : Bool) : State :=
  let k := s.vis.led.slot (s.vis.led.slotOf q)
  if s.faults.fatal.isSome then s
  else if k.state = .keyed && !tenant then s.updQuireVol q fun v => { v with plainRefused := v.plainRefused + 1 }
  else if (s.stg.vol.quire q).inReset then s
  else
    match s.acceptSeq q src seq with
    | none => s
    | some s =>
      if fmt = 3 then s.transfer q src hdr data
      else if fmt = 4 && q = 0 then if tenant && src = dataEndOf (cVol src) && cVol src ≠ s.volume then s.farRx data else s
      else if fmt = 4 && field hdr 1 1 = 0 then s.contribution q src hdr data
      else s

/-- A data packet at a port (R42, R223): a port held down forwards none, and one under a loopback test discards it (R575). -/
def State.dataRx (s : State) (d : Nat) (uncorrectable : Bool) (pkt : List Byte) : State :=
  if !s.clk.running || (s.port d).heldDown then s
  else if !uncorrectable && (field pkt 0 1 = 0xC0 || field pkt 0 1 = 0x00) then s
  else if (s.port d).looping then s.count d 10 1
  else
    let h := parseLink pkt
    let q := (s.vis.led.quireOfKey h.key).getD 0
    match s.rxChecks d uncorrectable pkt with
    | .drop c => s.rxDrop d uncorrectable pkt c
    | .forward => (s.rxGood d pkt.length).forwardPkt d q pkt
    | .consume fmt hdr data tenant => (s.rxGood d pkt.length).consume q h.src h.seq fmt hdr data tenant

def execDataPacketRx (port : Nat) (uncorrectable : Bool) (pkt : List Byte) (s : State) : Host.Outcome State Fault Refusal :=
  .next (s.dataRx port uncorrectable pkt)

/-! ### Control packets (R210-R212, R223, R398) -/

/-- What the checks of a control packet find. -/
inductive CtlVerdict where
  | drop (counter : Nat)
  | forward (dst : Coord)
  | take (src : Coord) (body : List Byte)
  /-- accepted, and of no use to its receiver: a beacon that is not link-local, or a control packet for the data endpoint -/
  | unused
  /-- a packet of another row: it is not this event -/
  | other
  deriving DecidableEq, Repr

/-- The house key requires the tag of R212 from this source; without one the packet is accepted as it is (R398). -/
def State.ctlAuthOk (s : State) (pkt : List Byte) : Bool :=
  match s.houseKey (field pkt 4 4 % 2 ^ 20) with
  | some k => bit (field pkt 2 2) 0 && (Config.gmac k (slice pkt 4 4 ++ slice pkt 12 8) (pkt.take 52)).take 8 = slice pkt 52 8
  | none => true

/-- The checks of R223 that control packets pass, R211 and R212, for a packet of a kind; link-local for a beacon. Kind 0x00 stands in no row of the table of kinds: it is treated as a
reserved one (DESIGN CHOICE, log entry 187). -/
def State.ctlChecks (s : State) (uncorrectable : Bool) (pkt : List Byte) (kind : Nat) (isLocal : Bool) : CtlVerdict :=
  let cls := field pkt 0 1
  let k := field pkt 1 1
  let loc := bit (field pkt 2 2) 1
  let dst := field pkt 8 4 % 2 ^ 20
  if uncorrectable then .drop 4
  else if cls ≠ 0xC0 then (if cls = 0x40 || cls = 0 then .other else .drop 8)
  else if pkt.length ≠ 64 || crc32c (pkt.take 60) ≠ BitVec.ofNat 32 (field pkt 60 4) then .drop 5
  else if k = 0 || 0x10 ≤ k || (loc && 2 < k) then .drop 8
  else if !loc && !s.present18 dst then .drop 6
  else if !loc && dst ≠ s.self && dst ≠ s.dataEnd then .forward dst
  else if k ≠ kind then .other
  else if !loc && dst = s.dataEnd then .unused
  else if !loc && !s.ctlAuthOk pkt then .drop 5
  else if loc ≠ isLocal then .unused
  else .take (field pkt 4 4 % 2 ^ 20) (slice pkt 20 32)

/-- Forward a control packet (R210, R227): it waits with the port's own control packets. -/
def State.forwardCtl (s : State) (d : Nat) (dst : Coord) (pkt : List Byte) : State :=
  match s.ctlPort dst with
  | some o => s.updPort o fun p => { p with ctl := p.ctl ++ [pkt] }
  | none => s.count d 10 1

/-- A control packet of a kind at a port: its handler answers the state after it, or none where a field holds a reserved value
(R494), which is charged to PARSE_DEPTH. -/
def State.ctlRx (s : State) (d : Nat) (uncorrectable : Bool) (pkt : List Byte) (kind : Nat) (isLocal : Bool)
    (h : State → Coord → List Byte → Option State) : State :=
  if !s.clk.running then s
  else
    match s.ctlChecks uncorrectable pkt kind isLocal with
    | .drop c => s.rxDrop d uncorrectable pkt c
    | .other => s
    | .unused => s.rxGood d 64
    | .forward dst => (s.rxGood d 64).forwardCtl d dst pkt
    | .take src body =>
      match h (s.rxGood d 64) src body with
      | some s => s
      | none => s.count d 8 1

/-! ### Acknowledgements and reports (R200, R506, R508, R510, R515) -/

/-- A leg acknowledgement (R200): the multicast of the director with this sequence; the leg is its sender. -/
def State.legAck (s : State) (src : Coord) (b : List Byte) : Option State :=
  if 1 < field b 0 1 then none
  else if field b 4 4 % 2 ^ 20 ≠ s.dataEnd then some s
  else
    let q := field b 2 2
    let m := field b 8 4
    match s.casts.find? fun c => c.quire = q && c.seq = m && c.legs.contains src with
    | none => some s
    | some c =>
      let s := { s with casts := modWhere s.casts (fun x => x.quire = q && x.seq = m) (fun x =>
        { x with acked := insertNew src x.acked }) }
      some (s.ackLegs q c.tag fun l => l.dst = src && l.seq = m && l.chunk = c.chunk)

def execLegAckRx (port : Nat) (uncorrectable : Bool) (pkt : List Byte) (s : State) : Host.Outcome State Fault Refusal :=
  .next (s.ctlRx port uncorrectable pkt 0x0A false fun s src b => s.legAck src b)

/-- A quire summary (R510 kind 1, R511): the latest of each endpoint is kept. -/
def State.quireSummary (s : State) (src : Coord) (b : List Byte) : State :=
  let x : Summary := { coord := src, pending := bit (field b 1 1) 0, originated := field b 4 8, accepted := field b 12 8,
                       givenUp := field b 20 8, tick := s.now }
  let rc := match s.stg.led.quire (field b 2 2) with | some r => r.resetCount | none => field b 28 4
  if (s.stg.led.quire (field b 2 2)).isSome || field b 2 2 = 0 then
    if rc = field b 28 4 then
      s.updQuireVol (field b 2 2) fun v => { v with summaries := v.summaries.filter (·.coord ≠ src) ++ [x] }
    else s
  else s

/-- An operation report (R324, R510 kind 2): what a contributor counts as sent, and the result chunks a target holds. -/
def State.opReport (s : State) (src : Coord) (b : List Byte) : State :=
  let q := field b 2 2
  let tag := field b 4 4
  match (s.stg.vol.liveOps q).find? (·.tag = tag) with
  | none => s
  | some o =>
    let k := (s.locals o).find? (·.2 = src)
    let s := match k with
      | some x => s.updOp q tag fun o => { o with reported := o.reported.filter (·.1 ≠ x.1) ++ [(x.1, field b 8 4)] }
      | none => s
    let n := field b 12 4
    let map := field b 16 8
    if o.multicast then s
    else s.ackLegs q tag fun l => l.dst = src && (l.chunk < n || (l.chunk < n + 64 && bit map (l.chunk - n)))

/-- A confirmed reset (R379 step 4, R510 kind 4): the endpoint is taken from those that owe one, and admitted again. -/
def State.resetConfirm (s : State) (src : Coord) (b : List Byte) : State :=
  let q := field b 2 2
  let count := match s.stg.led.quire q with | some r => r.resetCount | none => 0
  let s := { s with tasks := s.tasks.map fun (t : Task) =>
    if t.quire = q && field b 4 4 = count + 1 then
      match t.kind with
      | .reset f .confirming cs left => { t with kind := .reset f .confirming (cs.filter (· ≠ src)) left }
      | .release f bd .confirming cs left => { t with kind := .release f bd .confirming (cs.filter (· ≠ src)) left }
      | _ => t
    else t }
  s.updQuireVol q fun v => { v with excluded := v.excluded.filter (· ≠ src) }

/-- A completion report (R510): kinds 1 to 4. -/
def State.completionReport (s : State) (src : Coord) (b : List Byte) : Option State :=
  match field b 0 1 with
  | 1 => some (s.quireSummary src b)
  | 2 => some (s.opReport src b)
  | 3 =>
    if bit (field b 1 1) 0 || field b 4 4 % 2 ^ 20 ≠ s.dataEnd then some s
    else some (s.flowAcked (field b 2 2) src (field b 8 4))
  | 4 => some (s.resetConfirm src b)
  | _ => none

def execCompletionReportRx (port : Nat) (uncorrectable : Bool) (pkt : List Byte) (s : State) :
    Host.Outcome State Fault Refusal :=
  .next (s.ctlRx port uncorrectable pkt 0x0B false fun s src b => s.completionReport src b)

/-- A counter report (R234, R515): three counters of one link of an endpoint. -/
def State.counterReport (s : State) (src : Coord) (b : List Byte) : Option State :=
  let link := field b 0 1
  let i := field b 1 1
  if (3 < link && link < 16) || 31 < link || 18 < i || i % 3 ≠ 0 then none
  else
    let set := fun (vs : List Nat) => (List.range 3).foldl (fun vs k =>
      modAt vs (i + k) fun _ => if i + k = 20 then 0 else field b (8 + 8 * k) 8) vs
    let old := (s.links.find? fun x => x.coord = src && x.link = link).getD
      { coord := src, link := link, vals := List.replicate 21 0, fresh := false, shown := List.replicate 21 0, stale := true }
    some { s with links := (s.links.filter fun x => !(x.coord = src && x.link = link)) ++
      [{ old with vals := set old.vals, fresh := true }] }

def execCounterReportRx (port : Nat) (uncorrectable : Bool) (pkt : List Byte) (s : State) :
    Host.Outcome State Fault Refusal :=
  .next (s.ctlRx port uncorrectable pkt 0x0C false fun s src b => s.counterReport src b)

/-- A retrain request for a director port (R163 event 12, R494 kind 0x0E). -/
def State.retrainAsked (s : State) (b : List Byte) : Option State :=
  if 63 < field b 0 1 || field b 1 1 < 1 || 3 < field b 1 1 then none else some (s.latch (field b 0 1) 12)

def execRetrainRequestRx (port : Nat) (uncorrectable : Bool) (pkt : List Byte) (s : State) :
    Host.Outcome State Fault Refusal :=
  .next (s.ctlRx port uncorrectable pkt 0x0E false fun s _ b => s.retrainAsked b)

/-! ### Shadow-table writes (R197, R346, R496, R535) -/

/-- A task's kind with other jobs. -/
def TaskKind.withJobs (k : TaskKind) (js : List ShadowJob) : TaskKind :=
  match k with
  | .install x d st _ todo p => .install x d st js todo p
  | .rebind r => .rebind { r with jobs := js }
  | .activate k d qs b _ todo => .activate k d qs b js todo
  | .rewrite x _ todo => .rewrite x js todo
  | k => k

/-- A task whose shadow writes failed twice (R535): LASTING_FAULT, a fault of the endpoint, and nothing is installed. -/
def State.shadowFailed (s : State) (t : Task) (c : Coord) : State :=
  let s := match t.kind with
    | .rewrite .. => s.fault 2 0x0C c
    | _ => s.addFault (taskEntry t s.now 2 0x0C c (some .lastingFault))
  match t.kind with
  | .install _ _ _ _ _ p => s.failInstall t p .lastingFault
  | .rebind r => s.setRebind t { r with fail := some (r.fail.getD .lastingFault) }
  | .activate _ _ qs _ _ _ => s.failActivate t qs .lastingFault
  | .rewrite x js todo =>
    s.updTask t.id fun y => { y with kind := .rewrite x (js.filter (·.coord ≠ c)) (todo.filter (· ≠ c)) }
  | _ => s

/-- The header quire of a task's shadow writes: a PFT names none. -/
def Task.writeQuire (t : Task) : QuireId := match t.kind with | .activate .. => 0xFFFF | _ => t.quire

/-- Change the jobs of a task that a test names. -/
def State.updJobs (s : State) (t : Task) (p : ShadowJob → Bool) (f : ShadowJob → ShadowJob) : State :=
  s.updTask t.id fun x => { x with kind := x.kind.withJobs (modWhere x.kind.jobs p f) }

/-- An acknowledgement for one job of a task (R496): 0 written; 1 and 2 once more, then failed; 3 again after the switch. -/
def State.jobAck (s : State) (t : Task) (j : ShadowJob) (off status : Nat) : State :=
  let same := fun (x : ShadowJob) => x.coord = j.coord && x.table = j.table && x.index = j.index
  match j.unacked.find? (·.off = off) with
  | none => s
  | some w =>
    if status = 0 then s.updJobs t same fun x => { x with unacked := x.unacked.filter (·.off ≠ off) }
    else if status = 3 then s.updJobs t same fun x => { x with again := insertNew off x.again }
    else if w.resent then s.shadowFailed t j.coord
    else
      let s := s.updJobs t same fun x =>
        { x with unacked := modWhere x.unacked (·.off = off) fun w => { w with resent := true, tick := s.now } }
      s.sendWrites t.writeQuire j [off]

/-- A table-write acknowledgement (R494 kind 0x08, R496). -/
def State.tableAck (s : State) (src : Coord) (b : List Byte) : Option State :=
  if field b 0 1 < 1 || 3 < field b 0 1 || 3 < field b 9 1 then none
  else
    let q := field b 2 2
    some (s.tasks.foldl (fun s t =>
      match (t.kind.jobs.find? fun j => j.coord = src && j.table = field b 0 1 && j.index = field b 1 1) with
      | some j => if t.writeQuire = q then s.jobAck t j (field b 4 4) (field b 9 1) else s
      | none => s) s)

def execTableWriteAckRx (port : Nat) (uncorrectable : Bool) (pkt : List Byte) (s : State) :
    Host.Outcome State Fault Refusal :=
  .next (s.ctlRx port uncorrectable pkt 0x08 false fun s src b => s.tableAck src b)

/-- Writes of one job that are 64 ticks old (R535): sent once more, or failed. -/
def State.jobRetry (s : State) (t : Task) (j : ShadowJob) : State :=
  let due := j.unacked.filter fun w => 64 ≤ s.since w.tick && !j.again.contains w.off
  if due = [] then s
  else if due.any (·.resent) then s.shadowFailed t j.coord
  else
    let offs := due.map (·.off)
    let s := s.updJobs t (fun x => x.coord = j.coord && x.table = j.table && x.index = j.index) fun x =>
      { x with unacked := modWhere x.unacked (fun w => offs.contains w.off) fun w => { w with resent := true, tick := s.now } }
    s.sendWrites t.writeQuire j offs

/-- Shadow-table writes to an endpoint for a quire stay unacknowledged for 64 ticks (R535). -/
def execShadowWriteRetry (c : Coord) (q : QuireId) (s : State) : Host.Outcome State Fault Refusal :=
  .next ((s.tasks.filter fun t => t.writeQuire = q).foldl (fun s t =>
    (t.kind.jobs.filter (·.coord = c)).foldl (fun s j => if (s.task t.id).isSome then s.jobRetry t j else s) s) s)

end Sys2Proof.Machine
end

