-- ==== Sys2Proof/Machine/Discovery.lean ====
section
/-! DEFINITION. Discovery (R153-R167, R213, R492-R494): link beacons, peer reports, coordinate confirmations, silence and
completion. -/
namespace Sys2Proof.Machine

/-! ### What is expected, and what is seen (R156-R160) -/

/-- The gathering number the manifest gives a board (R153). -/
def Manifest.gatheringOf (m : Manifest) (board : Nat) : Option Nat :=
  (List.range 32).find? fun g => match m.gatherings.getD g none with | some e => e.board = board | none => false

/-- An accelerator's uplink as a port reference; gathering 63 stands for a board the manifest does not list. -/
def seenUplink (m : Option Manifest) (board slot uplink : Nat) : PortRef :=
  .uplink ((m.bind (·.gatheringOf board)).getD 63) (slot % 16) (uplink % 4)

/-- A party outside this volume's listed uplinks and ports. -/
def foreignRef : PortRef := .uplink 63 0 0

/-- The other ends that bores lead to from a port. -/
def otherEnds (bs : List (PortRef × PortRef)) (r : PortRef) : List PortRef :=
  bs.filterMap fun x => if x.1 = r then some x.2 else if x.2 = r then some x.1 else none

/-- The standing bores: of the house quire and of quires (R35, R158). -/
def State.standing (s : State) : List (PortRef × PortRef) := s.houseWanted ++ s.stg.led.bores.map fun b => (b.a, b.b)

/-- The index of a patch connection (R150, R160). -/
def patchIndex (m : Option Manifest) (a b : PortRef) : Option Nat :=
  m.bind fun x => x.patches.findIdx? (sameJoin (a, b))

/-- Record the state of an uplink. -/
def DiscMap.mark (x : DiscMap) (r : PortRef) (u : UplinkState) : DiscMap :=
  match r with
  | .uplink g sl p => if g < 32 then
      { x with uplinks := modAt x.uplinks (uplinkIndex g sl p) fun o => if o = .notListed then o else u } else x
  | .dport _ => x

/-- A mismatch of a port. -/
def portMismatch (code : Nat) (r : PortRef) : Mismatch :=
  { code := code, plane := some r.plane, object := r.code, found := none, second := none }

/-- A mismatch of a coordinate. -/
def coordMismatch (code : Nat) (c : Coord) : Mismatch :=
  { code := code, plane := none, object := c, found := none, second := none }

/-- What a patch plane's port shows (R160): a listed connection stands; any other is a PATCH mismatch. Before any manifest every plane is a
patch plane with no listed connection (R152): what a port sees is on record as that mismatch, and no peer contradicts a map that does not
exist, so event 10 is latched and not event 4 (DESIGN CHOICE, log entry 173). -/
def DiscMap.patchSeen (x : DiscMap) (m : Option Manifest) (me peer : PortRef) : DiscMap × Bool :=
  match patchIndex m me peer with
  | some i =>
    let x := x.clearMismatch fun y => y.code = 0x07 && (y.object = me.code || y.object = peer.code) && y.plane = some me.plane
    (({ x with patchOk := insertSorted i x.patchOk }.mark me .verified).mark peer .verified, false)
  | none =>
    let gone := fun (i : Nat) => match m.bind (·.patches[i]?) with | some c => c.1 = me || c.2 = me | none => true
    (({ x with patchOk := x.patchOk.filter fun i => !gone i }.mark me .misLanded).report (portMismatch 0x07 me), m.isSome)

/-- What a port on a switched plane shows (R159): an uplink on a standing bore is verified or mis-landed by its live beacons, and
a director port by any bore. -/
def State.switchedSeen (s : State) (x : DiscMap) (me peer : PortRef) : DiscMap × Bool :=
  let st := otherEnds s.standing me
  let all := st ++ otherEnds (s.ocs.scanBores ++ s.opening) me
  if all = [] then (x, false)
  else if all.contains peer then
    if st.contains peer then
      (((x.clearMismatch fun y => y.code = 0x06 && y.object = me.code && y.object < 2 ^ 15).mark me .verified).mark peer .verified, false)
    else (x, false)
  else match me with
    | .dport d =>
      let x := { x with dMis := insertSorted d x.dMis }.report (portMismatch 0x06 me)
      (st.foldl (fun x e => match e with
        | .uplink .. => (x.mark e .misLanded).report (portMismatch 0x06 e)
        | .dport _ => x) x, true)
    | .uplink .. => if st = [] then (x, false) else ((x.mark me .misLanded).report (portMismatch 0x06 me), true)

/-- What a port shows of its far end. -/
def State.seen (s : State) (x : DiscMap) (me peer : PortRef) : DiscMap × Bool :=
  if switchedPlane s.val.manifest me.plane then s.switchedSeen x me peer else x.patchSeen s.val.manifest me peer

/-! ### Link beacons (R153, R154, R156, R213) -/

/-- Two accelerators of one board declare the same slot (R162, DEDUCED): another port, or another uplink's fresh report, shows
the same uplink. -/
def State.slotTwice (s : State) (d board slot uplink : Nat) (me : PortRef) : Bool :=
  ((List.range 64).any fun e => e ≠ d && (s.port e).vis.status = 2 &&
    match (s.port e).peer with
    | some (.accel _ u sl _ b _) => u = uplink && sl = slot && b = board
    | _ => false) ||
  s.disc.peers.any fun x => x.2.2.1 = some me && x.2.2.2 < 64

/-- Send the coordinate assignments of a gathering's board (R154). -/
def State.assignAll (s : State) (g : Nat) (e : Board) : State :=
  (List.range e.cap).foldl (fun s sl => s.assignCoord g sl e.board) s

/-- Every switched plane is to be scanned once (R161). -/
def State.scanAll (s : State) : State :=
  let due := (List.range 4).filter fun p => switchedPlane s.val.manifest p && !s.ocs.scanDue.any (·.1 = p)
  { s with ocs := { s.ocs with scanDue := s.ocs.scanDue ++ due.map (·, none) } }

/-- What a beacon of a listed board makes of its gathering (R22, R153, R162): admission through the house port. -/
def State.boardSeen (s : State) (x : DiscMap) (d g slot cap board uplink : Nat) : DiscMap × Bool :=
  let me := PortRef.uplink g slot uplink
  let listed := match s.val.manifest.bind (fun m => m.gatherings.getD g none) with | some e => e.cap | none => 0
  let sized := (cap = 8 || cap = 16) && cap = listed
  let twice := s.slotTwice d board slot uplink me
  let b := x.board g
  let own := fun (code sl : Nat) => coordMismatch code (mkCoord s.volume g sl 0)
  let put := fun (x : DiscMap) (b : Board) => { x with boards := modAt x.boards g fun _ => b }
  let x := if sized then x.clearMismatch fun y => y = own 0x03 0 else x.report (own 0x03 0)
  let x := if twice then x.report (own 0x0C slot) else x.clearMismatch fun y => y = own 0x0C slot
  let stillTwice := x.mismatch.any fun y => y.code = 0x0C && cGath y.object = g
  if !sized || twice || stillTwice then
    (put x { b with board := board, cap := cap, state := 3,
                    live := if twice then b.live.filter (· ≠ slot) else b.live,
                    awaiting := if twice then b.awaiting.filter (· ≠ slot) else b.awaiting }, false)
  else if d ≠ housePort g then (x, false)
  else
    let x := x.clearMismatch fun y => y = own 0x05 0 || y = own 0x0B 0
    if b.state = 1 && b.board = board then (x, false)
    else if b.admitted && b.board = board then (put x { b with state := 1, house := some slot }, false)
    else (put x { board := board, cap := cap, state := 1, house := some slot, live := [], awaiting := List.range cap }, true)

/-- The house path of a gathering works again (R367): its degraded mode ends with the last unreachable gathering's. -/
def State.reachReturns (s : State) (g : Nat) (old : Board) : State :=
  if old.state = 4 && (s.val.map.board g).state = 1 then
    (s.setDegraded 9 (s.val.map.boards.any (·.state = 4))).fault 5 0x09 g
  else s

/-- A board was seen at its gathering's house port: for the first time since the restore, its accelerators are assigned their coordinates
(R154, R167). -/
def State.boardJudged (s : State) (g : Nat) (new : Bool) : State :=
  let first := !s.disc.judged.contains g
  let s := { s with disc := { s.disc with judged := insertSorted g s.disc.judged } }
  let s := if (new || first) && (s.val.map.board g).admitted then s.assignAll g (s.val.map.board g) else s
  if new then s.scanAll else s

/-- An accelerator's link beacon at a director port (R153-R162). -/
def State.accelBeacon (s : State) (d : Nat) (src : Coord) (b : List Byte) : State :=
  let uplink := field b 1 1 % 4
  let locked := bit (field b 1 1) 7
  let slot := field b 2 1 % 16
  let cap := field b 3 1
  let board := field b 4 8
  let m := s.val.manifest
  let me := PortRef.dport d
  let peer := seenUplink m board slot uplink
  let (x, bad) := s.seen s.val.map me peer
  let s := s.updPort d fun p => { p with peer := some (.accel src uplink slot cap board locked) }
  let s := (s.latch d (if bad then 4 else 10)).verifyEnd me peer ((s.port d).vis.status = 2)
  match m.bind (·.gatheringOf board) with
  | none => s.mapTo (if m.isSome then x.report (portMismatch 0x04 me) else x)
  | some g =>
    let x := x.clearMismatch fun y => y = portMismatch 0x04 me || y = coordMismatch 0x08 src
    let s := if d = housePort g then
        { s with disc := { s.disc with noBoard := s.disc.noBoard.filter (·.1 ≠ g) ++ [(g, 0)] } } else s
    let c := mkCoord s.volume g slot 0
    let x := if locked && src ≠ c then x.report (coordMismatch 0x08 c) else x.clearMismatch fun y => y = coordMismatch 0x08 c
    let old := s.val.map.board g
    let (x, new) := s.boardSeen x d g slot cap board uplink
    let s := (s.mapTo x).reachReturns g old
    if d = housePort g then s.boardJudged g new else s

/-- A director's link beacon at a director port (R156, R213). -/
def State.directorBeacon (s : State) (d : Nat) (src : Coord) (b : List Byte) : State :=
  let s := s.updPort d fun p => { p with peer := some (.director src (field b 1 1 % 64)) }
  if portLibrary s.boot s.vis.led d then s.latch d 10
  else
    let peer := if src = s.self then PortRef.dport (field b 1 1 % 64) else foreignRef
    let (x, bad) := s.seen s.val.map (.dport d) peer
    (s.latch d (if bad then 4 else 10)).mapTo x

/-- A link beacon (R213). -/
def State.linkBeacon (s : State) (d : Nat) (src : Coord) (b : List Byte) : Option State :=
  match field b 0 1 with
  | 1 => some (s.directorBeacon d src b)
  | 2 => some (s.accelBeacon d src b)
  | _ => none

def execLinkBeaconRx (port : Nat) (uncorrectable : Bool) (pkt : List Byte) (s : State) : Host.Outcome State Fault Refusal :=
  .next (s.ctlRx port uncorrectable pkt 0x01 true fun s src b => s.linkBeacon port src b)

/-! ### Peer reports (R157, R493, R494) -/

/-- The peer a report names: none, a port of this director, a listed uplink, or a foreign party. -/
def State.reportedPeer (s : State) (b : List Byte) : Option PortRef :=
  match field b 1 1 with
  | 0 => none
  | 1 => if field b 4 4 % 2 ^ 20 = s.self && field b 8 1 < 64 then some (.dport (field b 8 1)) else some foreignRef
  | _ => some (seenUplink s.val.manifest (field b 12 8) (field b 9 1) (field b 8 1))

/-- A peer report (R157-R160, R347). -/
def State.peerReport (s : State) (src : Coord) (b : List Byte) : Option State :=
  let u := field b 0 1
  if 3 < u || 2 < field b 1 1 then none
  else if cVol src ≠ s.volume || 32 ≤ cGath src then some s
  else
    let c := src - cFun src
    let me := PortRef.uplink (cGath src) (cSlot src) u
    let peer := s.reportedPeer b
    let s := { s with disc := { s.disc with
      peers := (s.disc.peers.filter fun x => !(x.1 = c && x.2.1 = u)) ++ [(c, u, peer, 0)] } }
    match peer with
    | none => some s
    | some r => some ((s.mapTo (s.seen s.val.map me r).1).verifyEnd me r true)

def execPeerReportRx (port : Nat) (uncorrectable : Bool) (pkt : List Byte) (s : State) : Host.Outcome State Fault Refusal :=
  .next (s.ctlRx port uncorrectable pkt 0x03 false fun s src b => s.peerReport src b)

/-! ### Coordinate confirmations (R154, R155, R492) -/

/-- The slot of an accelerator of a board that reports a coordinate, as a link beacon gave it. -/
def State.slotAt (s : State) (board : Nat) (c : Coord) : Option Nat :=
  (List.range 64).findSome? fun d => match (s.port d).peer with
    | some (.accel x _ sl _ b _) => if x = c && b = board then some sl else none
    | _ => none

/-- A confirmation of an assigned coordinate is taken (R155): the accelerator is live and its functions are those declared, from the next
boundary; a lower slot than the house accelerator's draws the house bore to it (R35). -/
def State.confirmed (s : State) (c : Coord) (b : List Byte) : State :=
  let x := s.val.map
  let g := cGath c
  let sl := cSlot c
  let x := { x with
    boards := modAt x.boards g fun e => { e with live := insertSorted sl e.live, awaiting := e.awaiting.filter (· ≠ sl) }
    spdm := if bit (field b 4 1) 1 then insertNew c x.spdm else x.spdm.filter (· ≠ c) }
  let s := s.mapTo (x.clearMismatch fun y => y = coordMismatch 0x08 c)
  let s := { s with disc := { s.disc with elec := (s.disc.elec.filter fun (x : Coord × Nat) => x.1 ≠ c) ++ [(c, field b 8 2)] } }
  let s := s.updVol fun v => { v with functions := (v.functions.filter fun (x : Coord × Nat) => x.1 ≠ c) ++ [(c, field b 6 2)] }
  if s.houseTarget g ≠ (s.val.map.board g).house then
    { s with ocs := { s.ocs with houseMoves := insertSorted g s.ocs.houseMoves } }
  else s

/-- A coordinate confirmation that arrives at a port (R154, R155): an accelerator of an admitted gathering under its assigned coordinate is
live, where the house path reaches it; one held elsewhere by its strap lock is a STRAP_COORD mismatch: under its assigned coordinate where
a link beacon showed its slot, and else under the one it reports (DESIGN CHOICE, log entry 177). -/
def State.confirmation (s : State) (d : Nat) (src : Coord) (b : List Byte) : State :=
  let c := field b 0 4 % 2 ^ 20
  let g := cGath c
  let sl := cSlot c
  let x := s.val.map
  let e := x.board g
  if cVol c = s.volume && g < 32 && e.admitted && (e.state = 1 || e.live.contains sl) && sl < e.cap && c = src && cFun c = 0 &&
      !x.mismatch.any (fun y => y.code = 0x0C && y.object = c) then s.confirmed c b
  else
    match houseGathering d with
    | some h =>
      let want := (s.slotAt (x.board h).board c).map fun sl => mkCoord s.volume h sl 0
      if bit (field b 4 1) 0 && (x.board h).admitted && want ≠ some c then s.mapTo (x.report (coordMismatch 0x08 (want.getD c)))
      else s
    | none => s

def execCoordinateConfirmationRx (port : Nat) (uncorrectable : Bool) (pkt : List Byte) (s : State) :
    Host.Outcome State Fault Refusal :=
  .next (s.ctlRx port uncorrectable pkt 0x05 false fun s src b => some (s.confirmation port src b))

/-! ### Silence (R157, R162) -/

/-- The age of an uplink's last report. -/
def State.reportAge (s : State) (c : Coord) (u : Nat) : Option Nat :=
  (s.disc.peers.find? fun x => x.1 = c && x.2.1 = u).map (·.2.2.2)

/-- An uplink without a report for 256 ticks is silent (R157, R159); an accelerator all of whose uplinks are silent is live no longer
(DEDUCED from R155), but one of a gathering without management reach stays as last reported (R37, R367). -/
def execUplinkSilent (c : Coord) (uplink : Nat) (s : State) : Host.Outcome State Fault Refusal :=
  let g := cGath c
  let sl := cSlot c
  if 3 < uplink || 32 ≤ g || cVol c ≠ s.volume || cFun c ≠ 0 || (s.reportAge c uplink).elim true (· < 256) then .next s
  else
    let me := PortRef.uplink g sl uplink
    let x := s.val.map.mark me .silent
    let gone := fun (i : Nat) => match s.val.manifest.bind (·.patches[i]?) with | some p => p.1 = me || p.2 = me | none => true
    let x := if switchedPlane s.val.manifest uplink then x
      else
        let lost := x.patchOk.filter gone
        let x := { x with patchOk := x.patchOk.filter fun i => !gone i }
        if lost = [] then x else x.report (portMismatch 0x07 me)
    let dead := (List.range 4).all fun u => x.uplinks.getD (uplinkIndex g sl u) .silent = .silent
    let gone := dead && (x.board g).state ≠ 4 && (x.board g).live.contains sl
    let x := if gone then
        { x with boards := modAt x.boards g fun b => { b with live := b.live.filter (· ≠ sl), awaiting := insertSorted sl b.awaiting } }
      else x
    let s := { s with disc := { s.disc with peers := s.disc.peers.map fun (y : Coord × Nat × Option PortRef × Nat) =>
      if y.1 = c && y.2.1 = uplink then (y.1, y.2.1, none, y.2.2.2) else y } }
    let s := if gone then s.updVol fun v => { v with functions := v.functions.filter fun (x : Coord × Nat) => x.1 ≠ c } else s
    .next (s.mapTo x)

/-- A listed gathering whose house path shows no board for 256 ticks (R162). Where a library link occupies its house port it is unreachable
for management instead (R37); where its house accelerator is absent and others are live, its house bore is to move (R37). -/
def execBoardMissing (g : Nat) (s : State) : Host.Outcome State Fault Refusal :=
  let listed := (s.val.manifest.bind fun m => m.gatherings.getD g none).isSome
  let b := s.val.map.board g
  let lost := b.admitted && b.live ≠ [] && b.house.elim true fun h => !b.live.contains h
  if !listed || (s.disc.noBoard.find? (·.1 = g)).elim true (·.2 < 256) then .next s
  else
    let s := { s with disc := { s.disc with judged := insertSorted g s.disc.judged } }
    if portLibrary s.boot s.val (housePort g) then .next (s.loseReach g)
    else if lost then execHouseBoreMove g s
    else
      let x := s.val.map.report (coordMismatch 0x05 (mkCoord s.volume g 0 0))
      let x := { x with boards := modAt x.boards g fun b =>
        if b.state = 4 then b else { b with state := 2, live := [], awaiting := b.awaiting ++ b.live } }
      .next { s.mapTo x with ocs := { s.ocs with houseMoves := insertSorted g s.ocs.houseMoves } }

/-! ### Completion (R160, R167, R465) -/

/-- The patch connections that discovery has not found (R160). -/
def State.missingPatches (s : State) : List PortRef :=
  match s.val.manifest with
  | none => []
  | some m => (List.range m.patches.length).filterMap fun i =>
      if s.val.map.patchOk.contains i then none else (m.patches[i]?).map (·.1)

/-- Discovery may complete (R167): every listed gathering was seen and is admitted, or was reported missing, since the restore, and every
switched plane was scanned. A gathering without management reach shows no board and counts as missing; the bench role scans nothing
(R144; both DEDUCED, log entry 174). -/
def State.discoveryDone (s : State) : Bool :=
  match s.val.manifest with
  | none => true
  | some m =>
    ((List.range 32).all fun g => (m.gatherings.getD g none).isNone ||
      (s.disc.judged.contains g && (s.val.map.board g).state ≠ 0 && (s.val.map.board g).state ≠ 3)) &&
    (List.range 4).all fun p => s.boot.straps.bench || !m.switched.getD p false || s.ocs.scanned.contains p

/-- Discovery completes (R167, R465): the director is in service from the next boundary. -/
def execDiscoveryComplete (s : State) : Host.Outcome State Fault Refusal :=
  if (s.boot.stage ≠ .discovery && s.boot.stage ≠ .inService) || s.disc.complete || !s.discoveryDone then .next s
  else
    let x := s.missingPatches.foldl (fun x r => x.report (portMismatch 0x07 r)) s.val.map
    .next { s.mapTo x with disc := { s.disc with due := true } }

end Sys2Proof.Machine
end

