-- ==== Sys2Proof/Machine/Spdm.lean ====
section
/-! DEFINITION. The root of trust's identity and its answers (R390, R392-R394, R401, R524): what the RoT core derives from the device
unique secret, wrapped handles, the SPDM responder, and the end of ident.attest. -/
namespace Sys2Proof.Machine

/-! ### What is derived from the device unique secret (R390, R392) -/

/-- Change what the RoT core derived. -/
def State.updDice (s : State) (f : Dice → Dice) : State := { s with rot := { s.rot with dice := f s.rot.dice } }

/-- The ROM derives the DICE unique device secret, the wrapping key and the device identity key pair (R390, R392 layer 0). -/
def State.deriveDevice (s : State) : State :=
  let k := Config.identityKey s.fuses.dus
  s.updDice fun x => { x with
    uds := Config.diceSecret s.fuses.dus, wrap := Config.wrappingKey s.fuses.dus, device := { secret := k.1, open_ := k.2 } }

/-- The RoT core derives the alias key pair from the digest of the image it verified, and issues the alias certificate (R392 layer 1). -/
def State.deriveLayer (s : State) (image : List Byte) : State :=
  let d := Config.sha384 image
  let k := Config.layerKey s.fuses.dus d
  s.updDice fun x => { x with
    layer1 := { secret := k.1, open_ := k.2 }, image := d
    chain := [Config.rootCert, Config.deviceCaCert, Config.identityCert x.device.open_, Config.layerCert x.device.secret k.2] }

/-- The house memory key of slot 0, under the reservation H in force at this restore (R390). -/
def State.deriveHouse (s : State) : State :=
  s.updDice fun x => { x with house := Config.houseMemoryKey s.fuses.dus s.ledger.anchor.h }

/-! ### Wrapped handles (R401) -/

/-- The wrapped handle of a link key: its first four bytes, the nonce, the encrypted key and the tag. -/
def wrapHandle (wrap : List Byte) (n e : Nat) (nonce key : List Byte) : List Byte :=
  let aad := le 1 n ++ le 1 1 ++ le 2 e
  aad ++ slice nonce 0 12 ++ slice (Config.gcmSeal wrap (slice nonce 0 12) aad (slice key 0 32)) 0 48

/-- The link key a wrapped handle holds; none where its kind is reserved, it names another slot, or its tag fails. -/
def unwrapHandle (wrap : List Byte) (n : Nat) (b : List Byte) : Option (List Byte) :=
  if field b 0 1 = n && field b 1 1 = 1 then Config.gcmOpen wrap (slice b 4 12) (slice b 0 4) (slice b 16 48) else none

/-! ### The SPDM responder (R393, R394) -/

/-- The SPDM 1.3 request codes served as responder (R393): GET_DIGESTS, GET_CERTIFICATE, CHALLENGE, GET_VERSION, GET_MEASUREMENTS,
GET_CAPABILITIES, NEGOTIATE_ALGORITHMS, KEY_EXCHANGE, FINISH, KEY_UPDATE, the two requests of the encapsulated flows, and END_SESSION. -/
def spdmServed : List Nat := [0x81, 0x82, 0x83, 0x84, 0xE0, 0xE1, 0xE3, 0xE4, 0xE5, 0xE9, 0xEA, 0xEB, 0xEC]

/-- An SPDM ERROR response with its error code and data. -/
def spdmError (code data : Nat) : List Byte := [0x13, 0x7F] ++ le 1 code ++ le 1 data

/-- The content of a measurement block (R394): a raw value, or a digest; none for a reserved index. -/
def State.measurement (s : State) (i : Nat) : Option (Bool × List Byte) :=
  let l := s.vis.led
  match i with
  | 1 => some (false, Config.romDigest)
  | 2 => some (false, s.rot.dice.image)
  | 3 => some (true, le 4 s.fw.ver ++ le 4 s.ledger.sealedA.floor ++ le 1 s.fuses.otp)
  | 4 => some (false, Config.sha384 ([1, 2, 3, 4].flatMap fun k => activeTable l k s.fw.ver))
  | 5 => some (false, Config.sha384 s.fuses.colophon)
  | 6 => some (true, le 1 s.volume ++ le 1 (b2n s.boot.straps.lock))
  | _ => none

/-- A measurement block of the record: index, DMTF specification, and the value with its type and size. -/
def State.measurementBlock (s : State) (i : Nat) : List Byte :=
  match s.measurement i with
  | none => []
  | some (raw, v) =>
    let v := if raw then v else slice v 0 48
    le 1 i ++ le 1 1 ++ le 2 (v.length + 3) ++ le 1 (i - 1 + (if raw then 0x80 else 0)) ++ le 2 v.length ++ v

/-- The answer to GET_MEASUREMENTS (R394): the count of blocks, every block, or one block; a reserved index gets an SPDM error; signed with
the alias key when the request asks for it. -/
def State.measurements (s : State) (req nonce : List Byte) : List Byte :=
  let signed := bit (field req 2 1) 0
  let i := field req 3 1
  let ctx := slice req (if signed then 37 else 4) 8
  if i ≠ 0 && i ≠ 0xFF && (s.measurement i).isNone then spdmError 0x01 0
  else
    let ids := if i = 0 then [] else if i = 0xFF then [1, 2, 3, 4, 5, 6] else [i]
    let rec_ := ids.flatMap s.measurementBlock
    let body := [0x13, 0x60] ++ le 1 (if i = 0 then 6 else 0) ++ le 1 0 ++ le 1 ids.length ++ le 3 rec_.length ++ rec_ ++
      slice nonce 0 32 ++ le 2 0 ++ ctx
    if signed then body ++ slice (Config.spdmSign s.rot.dice.layer1.secret (req ++ body)) 0 96 else body

/-- The certificate chain of slot 0 as SPDM carries it (R392): its length, the digest of the root, and the four certificates. -/
def State.certChain (s : State) : List Byte :=
  let certs := s.rot.dice.chain.flatten
  le 2 (certs.length + 52) ++ le 2 0 ++ slice (Config.sha384 (s.rot.dice.chain.headD [])) 0 48 ++ certs

/-- A portion of the chain: only slot 0 is served (R393), and no portion exceeds what a reply carries (R524). -/
def State.certificate (s : State) (req : List Byte) : List Byte :=
  let off := field req 4 2
  let c := s.certChain
  if field req 2 1 % 16 ≠ 0 || c.length < off then spdmError 0x01 0
  else
    let n := min (min (field req 6 2) (c.length - off)) 4064
    [0x13, 0x02, 0, 0] ++ le 2 n ++ le 2 (c.length - off - n) ++ (c.drop off).take n

/-- The RoT core's answer to an SPDM request, where the spec settles it: a request it does not serve, the version, the digest and the
certificates of slot 0, and measurements. Of the other requests the answer is the session protocol's own, given as `rsp`. -/
def State.spdmAnswer (s : State) (req nonce rsp : List Byte) : List Byte :=
  let code := field req 1 1
  if !spdmServed.contains code then spdmError 0x07 code
  else if code = 0x84 then [0x10, 0x04, 0, 0, 0, 1, 0, 0x13]
  else if code = 0x81 then [0x13, 0x01, 1, 1] ++ slice (Config.sha384 s.certChain) 0 48
  else if code = 0x82 then s.certificate req
  else if code = 0xE0 then s.measurements req nonce
  else rsp

/-! ### The end of ident.attest (R524) -/

/-- The RoT core answers the ident.attest of a task: the SPDM response under OK; a session that is up or down from the boundary after the
reply (R137, R138), an established one under keys of its own. -/
def State.attested (s : State) (t : Task) (req rsp : List Byte) (sessionUp sessionDown : Bool) (peerCert : Option (List Byte)) : State :=
  let (nonce, s) := s.drew.freeBytes 32
  let s := s.sealTask t .ok ((s.spdmAnswer req nonce rsp).take 4072)
  match t.ident with
  | none => s
  | some i =>
    if sessionDown then { s with rot := { s.rot with sessionNext := some none } }
    else if sessionUp then
      let (k, s) := s.freeNat
      { s with rot := { s.rot with sessionNext := some (some ⟨i.transport, i.ip, i.port, peerCert, k⟩) } }
    else s

/-- The RoT core's response to the oldest ident.attest in progress (R524): OK with the SPDM response, ATTEST_FAIL when the exchange failed,
OP_TIMEOUT when no response came within 256 ticks. -/
def execSpdmResponse (rsp : Option (List Byte)) (failed sessionUp sessionDown : Bool)
    (peerCert : Option (List Byte)) (s : State) : Host.Outcome State Fault Refusal :=
  match s.tasks.find? (fun t => match t.kind with | .attest _ => true | _ => false) with
  | none => .next s
  | some t =>
    let age := t.ident.elim 0 fun i => s.since i.accTick
    if 256 < age then .next (s.failTask t .opTimeout [])
    else .next (match rsp, t.kind with
      | some r, .attest req => if failed then s.failTask t .attestFail [] else s.attested t req r sessionUp sessionDown peerCert
      | _, _ => if age < 256 then s else s.failTask t .opTimeout [])

end Sys2Proof.Machine
end

