-- ==== Sys2Proof/Machine/Tenants.lean ====
section
/-! DEFINITION. Tenants, keys and memory protection (R389-R425, R516, R517, R558-R561): tenant.open and tenant.evict, key.install,
mem.scrub and the scrubber, house sessions and key messages. -/
namespace Sys2Proof.Machine

/-! ### What the RoT core sends (R396, R516, R517) -/

/-- A message of the RoT core to a peer: to an endpoint as transfer kind 0 of the house quire, to its SPDM mailbox (R503, R516);
to a director its carriage is internal (R396). -/
def State.rotSend (s : State) (peer : Coord) (msg : List Byte) : State :=
  let s := { s with rot := { s.rot with sent := s.rot.sent ++ [(peer, msg)] } }
  if cGath peer = 63 then s
  else s.sendBody 0 peer 3 (le 1 0xFF ++ le 1 0 ++ le 2 msg.length ++ le 4 0 ++ le 8 0x8000000000000001 ++ le 16 0 ++ msg)

/-- A key message (R517). -/
def keyMessage (op : Nat) (q : QuireId) (epoch : Nat) (key : List Byte) : List Byte :=
  le 1 op ++ le 1 0 ++ le 2 q ++ le 2 epoch ++ le 2 0 ++ (if op = 1 then slice key 0 32 else [])

/-- Send a key message to every member endpoint of a quire that is present (R517). -/
def State.sendKeys (s : State) (q op epoch : Nat) (key : List Byte) : State :=
  (s.endpoints q).foldl (fun s c =>
    let s := s.rotSend c (keyMessage op q epoch key)
    { s with rot := { s.rot with keyMsgs := s.rot.keyMsgs ++ [{ peer := c, quire := q, op := op, epoch := epoch, sent := s.now }] } }) s

/-! ### Requester digests (R404) -/

/-- The present session is that of the certificate a slot records (R404). -/
def State.digestOk (s : State) (k : KeySlot) : Bool :=
  match k.digest with
  | none => true
  | some d => match s.rot.session with
    | some { cert := some c, .. } => Config.sha384 c = d
    | _ => false

/-! ### tenant.open (R403, R558) -/

/-- The lowest free tenant slot (R403). -/
def Led.freeSlot (l : Led) : Option Nat := ((List.range 63).find? fun i => (l.slots.getD i KeySlot.init).state = .free).map (· + 1)

/-- The cases in which tenant.open is refused (R376, R403, R419, R550, R558). An evicted hold does not bar it. -/
def tenantOpenRefusal (c : Taken) (s : State) : Option Status :=
  let q := c.pkt.quire
  let n := s.val.slotOf q
  if 1 < c.u8 0 then some .badParam
  else if s.quarantined q then some .booksImbalance
  else if n ≠ 0 && (s.vis.led.slot n).state = .revoking then some .keyRevoked
  else if s.held q || s.stg.vol.liveOps q ≠ [] then some .busyTick
  else if n ≠ 0 then some .notPermitted
  else if s.val.freeSlot.isNone then some .keySlotFull
  else s.durableRefusal

/-- A slot as tenant.open leaves it (R400, R403). -/
def openedSlot (q : QuireId) (clear quick : Bool) (cert : Option (List Byte)) : KeySlot :=
  { KeySlot.init with state := .opened, quire := q, clear := clear, quick := quick && !clear, digest := cert.map Config.sha384 }

/-- tenant.open (R403, R411, R558): a memory key is drawn, every leaf is scrubbed, and the slot's record is journaled. -/
def hTenantOpen : Handler := fun c s =>
  match tenantOpenRefusal c s, s.val.freeSlot, s.val.quire c.pkt.quire with
  | some st, _, _ => refuse s st
  | none, some n, some q =>
    let clear := c.u8 0 = 1
    let quick := bit (c.u8 1) 0
    let id := s.nextTask
    let cert := match s.rot.session with | some x => x.cert | none => none
    let s := s.startTask (some c.ident) q.id (.tenantOpen n clear quick false false)
    let s := if clear then s else { s.drew with rot := { s.drew.rot with memKeys := insertSorted n s.rot.memKeys } }
    let s := s.soil q.leaves
    match s.task id with
    | some t => (s.stageTask t 1 [.slot n (openedSlot q.id clear quick cert), .quire q.id (some { q with evicted := false })] (some q.id),
        .accepted)
    | none => (s, .accepted)
  | none, _, _ => refuse s .keySlotFull

def execTenantOpen (p : Pkt) (s : State) : Host.Outcome State Fault Refusal := .next (s.present 0x0801 hTenantOpen p)

/-- A tenant slot is open: its result is the slot number (R558); the quire is admitted again if an eviction held it. -/
def State.tenantOpened (s : State) (t : Task) (n : Nat) : State :=
  (s.resumeAdmission t.quire (s.now + 1)).endTask t s.sealedOk (le 1 n ++ le 3 0)

/-! ### key.install (R395, R405, R559) -/

/-- A key.install of the quire awaits the answers of its endpoints (R517). -/
def State.keying (s : State) (q : QuireId) : Bool :=
  s.tasks.any fun t => t.quire = q && match t.kind with | .keyInstall .. => true | _ => false

/-- The cases in which operations 0 and 1 are refused (R404, R405, R521, R550, R559). -/
def keySlotRefusal (c : Taken) (s : State) : Option Status :=
  let q := c.pkt.quire
  let n := s.val.slotOf q
  let k := s.val.slot n
  if q = 0 then some .notPermitted
  else if !quireExists s 0x0802 q || (c.u8 0 = 0 && c.u16 4 ≤ k.cur) then some .badParam
  else match quireGate s q with
  | some st => some st
  | none =>
    if s.awaiting (.slot n) || s.keying q then some .busyTick
    else if n = 0 || !s.digestOk k || (c.u8 0 = 1 && k.prev = 0) then some .notPermitted
    else s.durableRefusal

/-- The cases in which operations 2 and 3 are refused (R395, R405, R559). -/
def trustRefusal (c : Taken) (s : State) : Option Status :=
  let d := slice c.pkt.params 8 48
  if c.pkt.quire ≠ 0xFFFF || (c.u8 0 = 3 && !s.val.trust.contains d) then some .badParam
  else if s.awaiting .trust then some .busyTick
  else if c.u8 0 = 2 && 8 ≤ s.val.trust.length then some .notPermitted
  else s.durableRefusal

/-- A slot after an epoch is installed (R400, R401, R405, R409). -/
def KeySlot.install (k : KeySlot) (e : Nat) (handle : List Byte) : KeySlot :=
  { k with
    state := .keyed, cur := e, prev := k.cur
    handles := (k.handles.filter fun h => h.1 = k.cur && k.cur ≠ 0) ++ [(e, handle)]
    reserve := (k.reserve.filter fun h => h.1 = k.cur && k.cur ≠ 0) ++ [(e, 2 ^ 40)] }

/-- A slot without its previous epoch (R405). -/
def KeySlot.retire (k : KeySlot) : KeySlot :=
  { k with prev := 0, handles := k.handles.filter (·.1 = k.cur), reserve := k.reserve.filter (·.1 = k.cur) }

/-- The endpoints of a key.install have answered or are late: its group is built (R517, R559). -/
def State.keyReady (s : State) (t : Task) (n e : Nat) (key : List Byte) : State :=
  if s.revoked t.quire || s.val.slotOf t.quire ≠ n then s.failTask t .keyRevoked []
  else match s.durableRefusal with
  | some st => s.failTask t st []
  | none =>
    let (nonce, s) := s.drew.freeBytes 12
    let k := (s.val.slot n).install e (wrapHandle s.rot.dice.wrap n e nonce key)
    let s := { s with rot := { s.rot with keys := s.rot.keys ++ [({ slot := n, epoch := e, key := slice key 0 32, nonce := 0 } : LinkKey)] } }
    (s.dropTask t.id).stage
      { ident := t.ident, kind := 1, objs := [.slot n k], hist := [], task := none, result := some [], quire := some t.quire,
        tick := s.now, folios := 1 }

/-- The keying tasks of a quire whose messages are all answered go on. -/
def State.keysAnswered (s : State) (q : QuireId) : State :=
  if s.rot.keyMsgs.any (fun m => m.quire = q && m.op = 1) then s
  else s.tasks.foldl (fun s t => match t.kind with
    | .keyInstall n e key => if t.quire = q then s.keyReady t n e key else s
    | _ => s) s

/-- key.install operation 0 (R405, R517, R559). -/
def installKey (c : Taken) (s : State) : State × Verdict :=
  let q := c.pkt.quire
  let key := slice c.pkt.params 8 32
  let n := s.val.slotOf q
  let r := multi c s (.keyInstall n (c.u16 4) key)
  ((r.1.sendKeys q 1 (c.u16 4) key).keysAnswered q, r.2)

/-- key.install (R405, R559). -/
def hKeyInstall : Handler := fun c s =>
  let n := s.val.slotOf c.pkt.quire
  let d := slice c.pkt.params 8 48
  match c.u8 0 with
  | 0 => match keySlotRefusal c s with
    | some st => refuse s st
    | none => installKey c s
  | 1 => match keySlotRefusal c s with
    | some st => refuse s st
    | none =>
      durable c (s.sendKeys c.pkt.quire 2 (s.val.slot n).prev []) [.slot n (s.val.slot n).retire] (some c.pkt.quire) []
  | 2 => match trustRefusal c s with
    | some st => refuse s st
    | none => durable c s [.trust (insertNew d s.val.trust)] none []
  | 3 => match trustRefusal c s with
    | some st => refuse s st
    | none => durable c s [.trust (s.val.trust.filter (· ≠ d))] none []
  | _ => refuse s .badParam

def execInstallLinkKey (p : Pkt) (s : State) : Host.Outcome State Fault Refusal := .next (s.present 0x0802 hKeyInstall p)
def execRetirePrevious (p : Pkt) (s : State) : Host.Outcome State Fault Refusal := .next (s.present 0x0802 hKeyInstall p)
def execAddTrustRoot (p : Pkt) (s : State) : Host.Outcome State Fault Refusal := .next (s.present 0x0802 hKeyInstall p)
def execRemoveTrustRoot (p : Pkt) (s : State) : Host.Outcome State Fault Refusal := .next (s.present 0x0802 hKeyInstall p)

/-- Zeroise the link keys that no slot's record holds any more (R391, R405): at the boundary at which a record is visible. -/
def State.zeroiseOld (s : State) : State :=
  let stands := fun (k : LinkKey) =>
    [s.stg.led, s.val].any fun l => let x := l.slot k.slot; x.state ≠ .free && (k.epoch = x.cur || k.epoch = x.prev)
  let waits := fun (k : LinkKey) => s.tasks.any fun t => match t.kind with
    | .keyInstall n e _ => n = k.slot && e = k.epoch
    | _ => false
  { s with rot := { s.rot with keys := s.rot.keys.filter fun k => stands k || waits k } }

/-- Raise the nonce reservation of a slot whose counter nears it (R409). -/
def State.raiseNonces (s : State) : State :=
  s.rot.keys.foldl (fun s k =>
    let x := s.val.slot k.slot
    let r := ((x.reserve.find? (·.1 = k.epoch)).map (·.2)).getD 0
    if x.state = .keyed && x.cur = k.epoch && r ≤ k.nonce + 2 ^ 39 && r + 2 ^ 40 ≤ 2 ^ 64 - 2 ^ 40 && !s.ledgerFaulted &&
        !s.awaiting (.slot k.slot) then
      let y := { x with reserve := modWhere x.reserve (·.1 = k.epoch) fun h => (h.1, r + 2 ^ 40) }
      s.stageOwn [.slot k.slot y]
    else s) s

/-! ### tenant.evict (R417-R420, R560) -/

/-- The cases in which tenant.evict is refused (R404, R417, R550, R560). -/
def tenantEvictRefusal (c : Taken) (s : State) : Option Status :=
  let q := c.pkt.quire
  let n := s.val.slotOf q
  if (drainBound (c.u16 0)).isNone then some .badParam
  else match quireGate s q with
  | some st => some st
  | none =>
    if n ≠ 0 && s.awaiting (.slot n) then some .busyTick
    else if n = 0 || !s.digestOk (s.val.slot n) then some .notPermitted
    else s.durableRefusal

/-- tenant.evict (R417 steps 1 and 2): operations end with KEY_REVOKED, and the revoking record is journaled. -/
def hTenantEvict : Handler := fun c s =>
  match tenantEvictRefusal c s with
  | some st => refuse s st
  | none =>
    let q := c.pkt.quire
    let n := s.val.slotOf q
    let id := s.nextTask
    let s := s.endOps q .keyRevoked
    let s := s.startTask (some c.ident) q (.evict n ((drainBound (c.u16 0)).getD Config.defaultDrain) .revoke 0)
    match s.task id with
    | some t => (s.stageTask t 1 [.slot n { s.val.slot n with state := .revoking }] (some q), .accepted)
    | none => (s, .accepted)

def execTenantEvict (p : Pkt) (s : State) : Host.Outcome State Fault Refusal := .next (s.present 0x0803 hTenantEvict p)

/-- Set the step of an eviction. -/
def State.setEvict (s : State) (t : Task) (n b : Nat) (st : EvictStep) (left : Nat) : State :=
  s.updTask t.id fun x => { x with kind := .evict n b st left }

/-- The boundary of an eviction (R417 step 1): admission stops from the tick after acceptance. -/
def State.boundaryEvict (s : State) (t : Task) (n b : Nat) (st : EvictStep) (left : Nat) : State :=
  if st = .revoke && left = 0 then (s.stopAdmission t.quire s.now).setEvict t n b .revoke 1 else s

/-- Steps 4 and 5 of an eviction (R417, R418): every key of the slot is zeroised, endpoints are told, and the leaves are scrubbed. -/
def State.evictZero (s : State) (t : Task) (n b : Nat) : State :=
  let s := ((s.endUses n).zeroiseSlot n).sendKeys t.quire 3 0 []
  let ls := match s.val.quire t.quire with | some q => q.leaves | none => []
  (s.soil ls).setEvict t n b .scrubbing 0

/-- Step 6 of an eviction: the final record (R417, R419); it cannot seal on a faulted ledger (R560). -/
def State.evictFinish (s : State) (t : Task) (n b : Nat) : State :=
  match s.val.quire t.quire with
  | none => s.failTask t .cancelled []
  | some q =>
    if s.ledgerFaulted then s.failTask t .ledgerFault []
    else (s.setEvict t n b .finishing 0).stageTask t 1 [.slot n KeySlot.init, .quire q.id (some { q with evicted := true })] none

/-- The seal phase of an eviction (R417 steps 4 and 6). -/
def State.sealEvict (s : State) (t : Task) (n b : Nat) (st : EvictStep) (left : Nat) : State :=
  match st with
  | .waiting =>
    let s := s.lessRefs n
    if s.slotRefs n = 0 then s.evictZero t n b else s.setEvict t n b .waiting (left + 1)
  | .scrubbing =>
    let ls := match s.val.quire t.quire with | some q => q.leaves | none => []
    if ls.any s.stg.vol.dirty.contains then s else s.evictFinish t n b
  | _ => s

/-- The bound of an eviction or of a release that revokes passes (R417 step 4, R418, R421): zeroisation is forced. -/
def execEvictBound (q : QuireId) (s : State) : Host.Outcome State Fault Refusal :=
  .next (s.tasks.foldl (fun s t =>
    if t.quire ≠ q then s else match t.kind with
    | .evict n b .waiting left => if b ≤ left then s.evictZero t n b else s
    | .release _ b .waiting _ left =>
      match s.val.quire q with
      | some r => if b ≤ left then
          let n := s.val.slotOf q
          ((s.endUses n).zeroiseSlot n).releaseScrub t r n else s
      | none => s
    | _ => s) s)

/-- A record of an eviction is sealed (R417): the slot is revoking, or the eviction ends. -/
def State.evictSealed (s : State) (t : Task) (n b : Nat) (st : EvictStep) : State :=
  match st with
  | .revoke => ((s.setEvict t n b .waiting 0).announceQuire t.quire false (s.now + 1)).takeRefs n
  | .finishing => (s.announceQuire t.quire false (s.now + 1)).endTask t s.sealedOk []
  | _ => s

/-! ### Scrubbing (R411-R416, R561) -/

/-- The range a mem.scrub names. -/
def scrubRange (c : Taken) (q : QuireRec) : Nat × Nat :=
  if bit (c.u8 0) 0 then (0, q.leaves.length * 2 ^ 30) else (c.u64 8, c.u64 16)

/-- The cases in which mem.scrub is refused (R415, R550, R561). -/
def memScrubRefusal (c : Taken) (s : State) (q : QuireRec) : Option Status :=
  let (a, n) := scrubRange c q
  if (bit (c.u8 0) 0 && (c.u64 8 ≠ 0 || c.u64 16 ≠ 0)) || a % 64 ≠ 0 || n % 64 ≠ 0 || addrBad a ||
      !inGrant q.leaves.length a n then some .badParam
  else match quireGate s q.id with
  | some st => some st
  | none =>
    if (s.stg.vol.liveOps q.id).any (fun o => o.ranges.any fun r => overlap a n r.1 r.2) then some .notPermitted
    else none

/-- mem.scrub (R415, R561). -/
def hMemScrub : Handler := fun c s =>
  match s.val.quire c.pkt.quire with
  | none => refuse s .busyTick
  | some q =>
    match memScrubRefusal c s q with
    | some st => refuse s st
    | none => let (a, n) := scrubRange c q; multi c s (.scrub a n n)

def execMemScrub (p : Pkt) (s : State) : Host.Outcome State Fault Refusal := .next (s.present 0x0804 hMemScrub p)

/-- The leaves a range of a quire's grant touches. -/
def touched (leaves : List Nat) (a n : Nat) : List Nat :=
  if n = 0 then [] else (leaves.drop (a / 2 ^ 30)).take ((a + n - 1) / 2 ^ 30 + 1 - a / 2 ^ 30)

/-- Bytes the scrubber writes for a command that names its leaves: those that await a scrub, and the ranges of the mem.scrubs they end. -/
def State.scrubCost (s : State) (dirty leaves : List Nat) : Nat :=
  dirty.eraseDups.length * 2 ^ 30 + total (s.tasks.map fun t => match t.kind with
    | .scrub a n _ =>
      let own := match s.stg.led.quire t.quire with | some q => q.leaves | none => []
      if (touched own a n).all leaves.contains then n else 0
    | _ => 0)

/-- The scrubber's writes to leaves end (R412-R415), at the rate of R414: leaves that awaited a scrub hold zeros and are clean; a mem.scrub whose
leaves are all written ends at the next boundary. -/
def execScrubDone (leaves : List Nat) (s : State) : Host.Outcome State Fault Refusal :=
  let ls := leaves.filter s.stg.vol.dirty.contains
  let cost := s.scrubCost ls leaves
  if s.stg.vol.scrubbed < cost then .next s else
  let s := s.updVol fun v => { v with hbm := zeroLeaves v.hbm ls, dirty := v.dirty.filter (fun x => !ls.contains x)
                                      scrubbed := v.scrubbed - cost }
  .next (s.tasks.foldl (fun s t => match t.kind with
    | .scrub a n _ =>
      let own := match s.stg.led.quire t.quire with | some q => q.leaves | none => []
      if (touched own a n).all leaves.contains then
        (s.updVol fun v => { v with hbm := zeroGrant v.hbm own a n }).endTask t .ok []
      else s
    | _ => s) s)

/-- The patrol scrubber corrects single-bit errors (R416): no stored value changes. -/
def execPatrolScrub (_corrected : Nat) (s : State) : Host.Outcome State Fault Refusal := .next s

/-- An uncorrectable error recurs at an address of a leaf (R367, R416): a lasting fault; the leaf is retired, at once when free and
at its release when a quire holds it; operations that read the address end with LASTING_FAULT. -/
def execHbmEccError (leaf addr : Nat) (s : State) : Host.Outcome State Fault Refusal :=
  if 384 ≤ leaf || 2 ^ 30 ≤ addr then .next s
  else
    let s := s.lasting 0x05 leaf
    let s := s.updVol fun v => { v with bad := insertSorted (leaf * 2 ^ 30 + addr) v.bad }
    let s := if s.val.retiredLeaf.contains leaf then s
      else s.stageOwn [.retireLeaf leaf]
    .next (match s.stg.led.quires.find? (·.leaves.contains leaf) with
      | none => s
      | some q => ((s.stg.vol.liveOps q.id).filter fun o => o.readsBad s.stg.vol q.leaves).foldl
          (fun s o => s.failOp o .lastingFault) s)

/-! ### House sessions (R396, R397) -/

/-- A peer the director keeps a house session with (R396): the director at a live library link, or a live endpoint that declares
an SPDM responder. -/
def State.sessionPeer (s : State) (c : Coord) : Bool :=
  cFun c = 0 &&
  (if cGath c = 63 then cSlot c = 0 && cVol c ≠ s.volume && s.directorLive (cVol c) && s.libPorts ≠ []
   else presentOwn s.vis.led.map [] c && cVol c = s.volume && s.vis.led.map.spdm.contains c)

/-- The first SPDM request of an establishment, GET_VERSION (R393), where the director is the requester (R396). -/
def State.requestSession (s : State) (peer : Coord) : State :=
  if cGath peer = 63 && cVol peer < s.volume then s else s.rotSend peer [0x10, 0x84, 0, 0]

/-- A house session's establishment begins (R396). -/
def execHouseSessionStart (peer : Coord) (s : State) : Host.Outcome State Fault Refusal :=
  if !s.sessionPeer peer || !s.entropyReady || s.rot.house.any (·.peer = peer) then .next s
  else
    let h : HouseSession := { peer := peer, up := false, tries := 0, since := s.now, key := 0 }
    .next (({ s with rot := { s.rot with house := s.rot.house ++ [h] } }).requestSession peer)

/-- Change a house session. -/
def State.updHouse (s : State) (peer : Coord) (f : HouseSession → HouseSession) : State :=
  { s with rot := { s.rot with house := modWhere s.rot.house (·.peer = peer) f } }

/-- An establishment failed a second time (R396): a lasting fault of the link or the endpoint. -/
def State.sessionLost (s : State) (peer : Coord) : State :=
  let s := s.updHouse peer fun h => { h with tries := 2, up := false }
  if cGath peer = 63 then s.fault 2 0x08 (cVol peer) else s.fault 2 0x0C peer

/-- A failed establishment is retried 1,024 ticks later (R396). -/
def execHouseSessionRetry (peer : Coord) (s : State) : Host.Outcome State Fault Refusal :=
  match s.rot.house.find? (·.peer = peer) with
  | none => .next s
  | some h =>
    if h.up || 2 ≤ h.tries || s.since h.since < 1024 then .next s
    else if h.tries = 1 then .next (s.sessionLost peer)
    else .next ((s.updHouse peer fun h => { h with tries := 1, since := s.now }).requestSession peer)

/-- An SPDM message of a house session (R393, R396, R397): the RoT core answers a request, or goes on with the exchange it requests, or the
exchange is complete and a new house key stands. What the spec does not settle of a message is free. -/
def execSpdmMessageRx (peer : Coord) (msg : List Byte) (done good : Bool) (s : State) : Host.Outcome State Fault Refusal :=
  match s.rot.house.find? (·.peer = peer) with
  | none => .next s
  | some h =>
    if 2 ≤ h.tries then .next s
    else if !done then
      let (n, s) := s.freeNat
      let (bs, s) := s.freeBytes (n % (msg.length + 1024))
      let (nonce, s) := s.drew.freeBytes 32
      .next (s.rotSend peer (if 0x80 ≤ field msg 1 1 then s.spdmAnswer msg nonce bs else bs))
    else if good then
      let (k, s) := s.freeNat
      let s := s.updHouse peer fun h => { h with up := true, tries := 0, key := k }
      .next (if cGath peer = 63 then s.announceAll else s)
    else if h.tries = 1 then .next (s.sessionLost peer)
    else .next (s.updHouse peer fun h => { h with up := false, since := s.now })

/-- Sessions end with their peers (R148, R396, R397): a peer the director keeps none with has none. -/
def State.endSessions (s : State) : State :=
  { s with rot := { s.rot with house := s.rot.house.filter fun h => s.sessionPeer h.peer } }

/-- An endpoint answers a key message with its bytes 0 to 7 (R517). -/
def execKeyMessageAnswerRx (peer : Coord) (msg : List Byte) (s : State) : Host.Outcome State Fault Refusal :=
  let hit := fun (m : KeyMsg) => m.peer = peer && m.op = field msg 0 1 && m.quire = field msg 2 2 && m.epoch = field msg 4 2
  if s.rot.keyMsgs.any hit then
    .next (({ s with rot := { s.rot with keyMsgs := s.rot.keyMsgs.filter fun m => !hit m } }).keysAnswered (field msg 2 2))
  else .next s

/-- An endpoint does not answer within 1,024 ticks (R517): a lasting fault of it, and the command proceeds. -/
def execKeyMessageTimeout (peer : Coord) (q : QuireId) (s : State) : Host.Outcome State Fault Refusal :=
  let late := fun (m : KeyMsg) => m.peer = peer && m.quire = q && 1024 ≤ s.since m.sent
  if s.rot.keyMsgs.any late then
    let s := { s with rot := { s.rot with keyMsgs := s.rot.keyMsgs.filter fun m => !late m } }
    .next ((s.fault 2 0x0C peer).keysAnswered q)
  else .next s

/-- Reference cycles of the 8,192 cluster cycles a zeroing takes, at the cluster clock of this tick (R263, R441). -/
def State.zeroCycles (s : State) : Nat :=
  let mhz := if s.grade = 2 then 1600 else 1800
  (8192 * 100 * 16 + mhz * s.power.clkN - 1) / (mhz * max 1 s.power.clkN)

/-- A zeroing that began with the tick of a reference cycle is over by the end of this tick (R263). -/
def State.zeroOver (s : State) (start : Nat) : Bool := decide (start + s.zeroCycles ≤ s.clk.cycles + s.clk.period)

/-- The tile stores of a quire's clusters whose 8,192 cluster cycles end in this tick are zero (R263). -/
def execTileZeroDone (q : QuireId) (s : State) : Host.Outcome State Fault Refusal :=
  let of_ := fun (l : Led) => match l.quire q with | some r => r.clusters | none => []
  let waiting := (s.ledger.groups.flatMap (·.recs) ++ s.ledger.unbuilt ++ s.ledger.late).flatMap fun r =>
    r.objs.flatMap fun o => match o with
      | .quire i (some x) => if i = q then x.clusters else []
      | _ => []
  let cs := of_ s.val ++ of_ s.stg.led ++ waiting
  .next { s with clusters := s.clusters.mapIdx fun i x =>
    if cs.contains i && x.zeroing.any s.zeroOver then { x with zeroing := none } else x }

end Sys2Proof.Machine
end

