-- ==== Sys2Proof/Machine/Status.lean ====
section
/-! DEFINITION. The ledger, telemetry and power commands that read (R562, R564, R567, R569, R570), and those that set a
checkpoint request, a subscription or a power cap (R442, R563, R568). -/
namespace Sys2Proof.Machine

/-! ### ledger.status, ledger.checkpoint, ledger.read -/

/-- Folios of reserved kind in the chain (R86). -/
def Ledger.reserved (g : Ledger) : Nat :=
  (g.ring.filter fun f => match f.body with | .unknown => true | _ => false).length

/-- Whole seconds of reference time. -/
def seconds (cycles : Nat) : Nat := cycles / Config.hz

/-- The result of ledger.status (R562); `since` is the seconds since the last checkpoint started. -/
def Ledger.statusResult (g : Ledger) (since : Nat) : List Byte :=
  le 1 (mirrorCode g.devA.failed g.devB.failed) ++ le 1 (mirrorCode g.arcA.failed g.arcB.failed) ++
  le 1 (b2n g.notGuaranteed + 2 * b2n (g.reserved ≠ 0) + 4 * b2n g.ckRun.isSome + 8 * b2n g.held) ++ le 1 0 ++
  le 4 g.credits ++ le 8 g.tip ++ le 8 g.anchorSeq ++ le 8 g.sealedA.h ++ le 8 g.sealedA.ckNum ++ le 8 g.sealedA.ckCovers ++
  le 8 g.anchor.written ++ le 8 g.anchor.dropped ++ le 2 g.hist.length ++ le 2 g.live.length ++ le 4 (sat 0xFFFFFFFF since) ++
  le 4 g.reserved ++ le 12 0

/-- The status ledger.status answers under (R93, R94, R562). -/
def Ledger.statusCode (g : Ledger) : Status :=
  if g.devA.failed && g.devB.failed then .ledgerFault else if g.devA.failed || g.devB.failed then .ledgerDegraded else .ok

/-- ledger.status (R562). Where no checkpoint has started since reset, the seconds since one are a free value. -/
def hLedgerStatus : Handler := fun _ s =>
  let g := s.shown.ledger
  match g.ckStart with
  | some c => (s, .reply g.statusCode (g.statusResult (seconds ((s.clk.cycles : Int) - c).toNat)))
  | none => let (n, s) := s.freeNat; (s, .reply g.statusCode (g.statusResult n))

def execLedgerStatus (p : Pkt) (s : State) : Host.Outcome State Fault Refusal :=
  .next (s.present 0x0901 hLedgerStatus p)

/-- 1,024 s have not passed since the last checkpoint started (R106). -/
def State.ckptTooSoon (s : State) : Bool :=
  match s.ledger.ckStart with | some c => (s.clk.cycles : Int) < c + 1024 * Config.hz | none => false

/-- ledger.checkpoint (R106, R563). -/
def hLedgerCheckpoint : Handler := fun c s =>
  if s.ckptTooSoon then refuse s .notPermitted
  else match s.durableRefusal with
  | some st => refuse s st
  | none =>
    let id := s.nextTask
    let r := multi c s .checkpoint
    (r.1.updLedger fun g => { g with ckWanted := true, ckTasks := g.ckTasks ++ [id] }, r.2)

def execLedgerCheckpoint (p : Pkt) (s : State) : Host.Outcome State Fault Refusal :=
  .next (s.present 0x0902 hLedgerCheckpoint p)

/-- Bytes of the result that entries may fill (R118, R564). -/
def readRoom : Nat := 4056

/-- The shaper settings that differ from a new bucket's (R228, R564 section 5), by quire, then port. -/
def Led.shaperEntries (l : Led) : List (List Byte) :=
  let on := l.shapers.filter fun x => x.rate.isSome || x.burst ≠ 65536
  let keys := on.foldl (fun ks x => insertSorted (64 * x.quire + x.port) ks) []
  keys.flatMap fun k => (on.filter fun x => 64 * x.quire + x.port = k).map fun x =>
    le 2 x.quire ++ le 1 x.port ++ le 1 (b2n x.rate.isNone) ++ le 4 (x.rate.getD 0) ++ le 4 x.burst ++ le 4 0

/-- The entries of a section that pages by index, and their size (R564). -/
def State.readSection (s : State) (sec : Nat) : Nat × List (List Byte) :=
  let g := s.shown.ledger
  match sec with
  | 0 => (16, g.directory.map fun d =>
      le 1 d.1 ++ le 1 0 ++ le 2 d.2.1 ++ le 4 (Config.objectBytes d.1 d.2.1 d.2.2) ++ le 8 d.2.2)
  | 1 => (32, g.faultEntries.map (·.encode))
  | 2 => (24, g.powerEntries.map (·.encode))
  | 3 => (3096, g.laneEntries.map fun x => laneRecord x.1 x.2)
  | _ => (16, s.vis.led.shaperEntries)

/-- The header of a ledger.read result (R564). -/
def readHeader (sec n all first : Nat) : List Byte := le 1 sec ++ le 1 0 ++ le 2 n ++ le 4 all ++ le 8 first

/-- Section 4 of ledger.read (R564): bytes of a folio. A count of 0 means as many bytes as fit; a count or an end beyond the
limits is BAD_PARAM (DEDUCED). -/
def State.readFolio (s : State) (seq off count : Nat) : Option (List Byte) :=
  let g := s.shown.ledger
  let n := if count = 0 then min 4056 (4096 - off) else count
  if 4056 < n || 4096 < off + n || n = 0 || !g.window.contains seq then none
  else (g.folioAt seq).map fun f => readHeader 4 1 (min 960 g.tip) seq ++ slice f.bytes off n

/-- ledger.read (R564). -/
def hLedgerRead : Handler := fun c s =>
  let sec := c.u8 0
  let first := c.u64 4
  if 5 < sec || (sec ≠ 4 && c.u32 12 ≠ 0) then refuse s .badParam
  else if sec = 4 then
    match s.readFolio first (c.u32 12) (c.u16 2) with
    | some b => (s, .reply .ok b)
    | none => refuse s .badParam
  else
    let (size, es) := s.readSection sec
    if es.length ≤ first then refuse s .badParam
    else
      let pg := pageOf es size readRoom first (c.u16 2)
      (s, .reply .ok (readHeader sec pg.length es.length first ++ pg.flatten))

def execLedgerRead (p : Pkt) (s : State) : Host.Outcome State Fault Refusal := .next (s.present 0x0903 hLedgerRead p)

/-! ### fw.status (R567) -/

/-- The result of fw.status (R567). -/
def State.fwResult (s : State) : List Byte :=
  let a := s.shown.ledger.sealedA
  let f := s.shown.fw
  let j := fun (x : Nat) => if s.shown.ledger.restored then x else 0xFFFFFFFF
  le 1 f.running ++ le 1 a.fw.boot ++ le 1 (a.fw.confirmed.getD 0xFF) ++ le 1 s.fuses.otp ++ le 4 a.floor ++
  a.fw.slotA.encode ++ a.fw.slotB.encode ++ le 4 (j s.vis.led.fwMark) ++ le 4 (j s.vis.led.fwLen) ++
  le 4 (match f.windowEnd with | some e => seconds (e - s.clk.cycles) | none => 0xFFFFFFFF) ++ le 2 a.fw.window ++ le 10 0

/-- fw.status (R567). -/
def hFwStatus : Handler := fun _ s => (s, .reply .ok s.fwResult)

def execFwStatus (p : Pkt) (s : State) : Host.Outcome State Fault Refusal := .next (s.present 0x0A05 hFwStatus p)

/-! ### Telemetry (R568, R569) -/

/-- The entries of a telem.subscribe (R568). -/
def subEntries (c : Taken) : List (Coord × Nat) :=
  (List.range (c.u16 0)).map fun i => (field c.pkt.params (4 + 8 * i) 4 % 2 ^ 20, c.u8 (8 + 8 * i))

/-- telem.subscribe (R568): volatile, replaces any earlier subscription. -/
def hTelemSubscribe : Handler := fun c s =>
  if 128 < c.u16 0 || (subEntries c).any (fun x => !linkOk x.2 || !s.presentIn s.stg x.1 || cGath x.1 = 63) then
    refuse s .badParam
  else volatileOk c (s.updVol fun v => { v with subs := subEntries c }) []

def execTelemSubscribe (p : Pkt) (s : State) : Host.Outcome State Fault Refusal :=
  .next (s.present 0x0B01 hTelemSubscribe p)

/-- The die summary (R569 section 0), from what the mirror sampled. -/
def Mirror.dieEntry (m : Mirror) : List Byte :=
  let d := fun (i : Nat) => m.die.getD i 0
  leInt 2 m.tj ++ le 1 (d 0) ++ le 1 (d 1) ++ le 4 (d 2) ++ le 2 (d 3) ++ le 2 (d 4) ++ le 2 (d 5) ++ le 2 (d 6) ++ le 16 0

/-- A list of counters of eight bytes each. -/
def counterBytes (n : Nat) (l : List Nat) : List Byte := (List.range n).flatMap fun i => le 8 (l.getD i 0)

/-- The lane entries of the sample: entry 8d + l. -/
def Mirror.laneEntry (m : Mirror) (i : Nat) : LaneEntry := (m.lanes.getD (i / 8) []).getD (i % 8) laneZero

/-- The entries of a section, and their size (R569). -/
def Mirror.telemSection (m : Mirror) (sec : Nat) : Nat × List (List Byte) :=
  match sec with
  | 0 => (32, [m.dieEntry])
  | 1 => (128, (List.range 52).map fun e => counterBytes 16 (m.rings.getD e []))
  | 2 => (256, (List.range 128).map fun i => counterBytes 32 (m.links.getD i []))
  | 3 => (32, m.faults.map (·.encode))
  | _ => (6, (List.range 512).map fun i => laneBytes (m.laneEntry i))

/-- telem.snapshot (R569). -/
def hTelemSnapshot : Handler := fun c s =>
  let (size, es) := s.mirror.telemSection (c.u8 0)
  if 4 < c.u8 0 || es.length ≤ c.u16 2 then refuse s .badParam
  else
    let pg := pageOf es size 4064 (c.u16 2) (c.u16 4)
    (s, .reply .ok (le 6 s.mirror.tick ++ le 2 pg.length ++ pg.flatten))

def execTelemSnapshot (p : Pkt) (s : State) : Host.Outcome State Fault Refusal :=
  .next (s.present 0x0B02 hTelemSnapshot p)

/-! ### Power (R442, R443, R570) -/

/-- The grade's maximum power in watts (R448). -/
def State.gradeMax (s : State) : Nat := if s.grade = 2 then 1500 else 1850

/-- The cap in effect (R442). -/
def State.capNow (s : State) : Nat := s.vis.led.cap.getD s.gradeMax

/-- The averaged package power in 0.1 W (R442). -/
def Power.average (p : Power) : Nat := total p.samples / max 1 p.samples.length

/-- Milliseconds left in the resumption window (R435, R570). -/
def State.windowMs (s : State) (p : Power) : Nat :=
  match p.window with
  | some c => (c + msCycles 100 - s.clk.cycles) / msCycles 1
  | none => 0xFFFFFFFF

/-- The result of power.status (R570). -/
def State.powerResult (s : State) : List Byte :=
  let p := s.shown.power
  let es := (lastN 16 p.events).reverse
  le 1 (b2n p.warn + 2 * b2n p.window.isSome + 4 * b2n p.unattainable) ++ le 1 (mask (p.shelves.map fun x => x.unit)) ++ le 2 0 ++
  le 4 (sat 0xFFFFFFFF p.pulses) ++ le 4 p.average ++ le 2 s.capNow ++ leInt 2 p.tj ++ le 1 p.budgetN ++ le 1 p.thermalN ++
  le 1 p.clkN ++ le 1 es.length ++ le 4 (s.windowMs p) ++ slice (es.flatMap (·.encode)) 0 384

/-- power.status (R570). -/
def hPowerStatus : Handler := fun _ s => (s, .reply .ok s.powerResult)

def execPowerStatus (p : Pkt) (s : State) : Host.Outcome State Fault Refusal := .next (s.present 0x0C01 hPowerStatus p)

/-- power.budget (R442): from 600 W to the grade's maximum. -/
def hPowerBudget : Handler := fun c s =>
  if c.u16 0 < 600 || s.gradeMax < c.u16 0 then refuse s .badParam
  else if s.awaiting .cap then refuse s .busyTick
  else durable c s [.cap (c.u16 0)] none []

def execPowerBudget (p : Pkt) (s : State) : Host.Outcome State Fault Refusal := .next (s.present 0x0C02 hPowerBudget p)

end Sys2Proof.Machine
end

