-- ==== Sys2Proof/Machine/Firmware.lean ====
section
/-! DEFINITION. Firmware update (R471-R486, R565, R566): download, verify, activate, confirm and reject, the confirm window,
and the burning of OTP increments. -/
namespace Sys2Proof.Machine

/-! ### Slots -/

/-- The record of a slot: 0 A, 1 B (R473). -/
def FwState.slot (f : FwState) (k : Nat) : FwSlot := if k = 0 then f.slotA else f.slotB

/-- Change the record of a slot. -/
def FwState.updSlot (f : FwState) (k : Nat) (g : FwSlot → FwSlot) : FwState :=
  if k = 0 then { f with slotA := g f.slotA } else { f with slotB := g f.slotB }

/-- The slot a download may write. -/
def State.inactive (s : State) : Nat := 1 - s.fw.running

/-- The staged firmware slot state (R57). -/
def State.fwState (s : State) : FwState := s.ledger.anchor.fw

/-- Change the anchored firmware slot state; an anchor carries it (R98). -/
def State.setFw (s : State) (f : FwState → FwState) : State :=
  s.updLedger fun g => { g with anchor := { g.anchor with fw := f g.anchor.fw }, anchorDue := true }

/-- The running slot's status is trial (R473). -/
def State.inTrial (s : State) : Bool := (s.fwState.slot s.fw.running).status = 6

/-- A firmware command in progress. -/
def TaskKind.isFw : TaskKind → Bool
  | .download .. | .verify .. | .activateFw .. | .confirmFw _ | .rejectFw => true
  | _ => false

/-- A firmware change of an earlier tick still awaits its seal (R90). -/
def State.fwBusy (s : State) : Bool :=
  s.awaiting .fw || s.tasks.any fun t => t.kind.isFw && (match t.ident with | some i => i.accTick ≠ s.now | none => true)

/-- fw.verify runs on a slot (R475). -/
def State.verifying (s : State) (k : Nat) : Bool :=
  s.tasks.any fun t => match t.kind with | .verify x _ => x = k | _ => false

/-! ### fw.download (R475, R565) -/

/-- The staged high-water mark and image length (R57, R475). -/
def State.stagedMark (s : State) : Nat × Nat :=
  ((s.tasks.filterMap fun t => match t.kind with
    | .download _ l o d => some (o + d.length, l)
    | _ => none).getLast?).getD (s.val.fwMark, s.val.fwLen)

/-- A download of the inactive slot is in progress. -/
def State.downloading (s : State) : Bool := (s.fwState.slot s.inactive).status = 1

/-- The cases in which fw.download is refused (R90, R475, R565). -/
def fwDownloadRefusal (c : Taken) (s : State) : Option Status :=
  let off := c.u32 0
  let len := c.u32 4
  let n := c.pkt.params.length - 8
  if (off = 0 && (len < 8192 || 16777216 < len)) || (off ≠ 0 && s.downloading && len ≠ s.stagedMark.2) then some .badParam
  else if s.fwBusy || s.verifying s.inactive then some .busyTick
  else if (off ≠ 0 && (!s.downloading || off ≠ s.stagedMark.1)) || len < off + n || s.inTrial then some .notPermitted
  else match s.durableRefusal with
    | some st => some st
    | none => if s.ledger.arcA.failed && s.ledger.arcB.failed then some .lastingFault else none

/-- Queue a chunk for the archive devices that have not failed (R475). -/
def State.queueChunk (s : State) (task slot off : Nat) (data : List Byte) : State :=
  let first : Dev := if s.ledger.arcA.failed then .b else .a
  s.updLedger fun g => { g with jobs := g.jobs ++ [.chunk task slot off data first false false false] }

/-- fw.download (R475): a chunk at offset 0 starts a download, with the slot downloading and a high-water mark of 0. -/
def hFwDownload : Handler := fun c s =>
  match fwDownloadRefusal c s with
  | some st => refuse s st
  | none =>
    let off := c.u32 0
    let len := c.u32 4
    let data := c.pkt.params.drop 8
    let k := s.inactive
    let id := s.nextTask
    let s :=
      if off = 0 then
        (s.setFw (·.updSlot k fun _ => { FwSlot.init with status := 1, len := len })).stage
          { durRec c [.fwProgress 0 len] none none none with result := none }
      else if (s.fwState.slot k).status = 1 then s
      else s.setFw (·.updSlot k fun x => { x with status := 1 })
    let r := multi c s (.download k len off data)
    (r.1.queueChunk id k off data, r.2)

def execFwDownload (p : Pkt) (s : State) : Host.Outcome State Fault Refusal := .next (s.present 0x0A01 hFwDownload p)

/-- A chunk's progress is sealed (R475): at the image length the slot is complete. -/
def State.downloadSealed (s : State) (t : Task) (slot len off n : Nat) : State :=
  let s := if off + n = len then s.setFw (·.updSlot slot fun x => { x with status := 2 }) else s
  s.endTask t s.sealedOk []

/-! ### fw.verify (R476) -/

/-- The cases in which fw.verify is refused (R476, R566). -/
def fwVerifyRefusal (c : Taken) (s : State) : Option Status :=
  let k := c.u8 0
  let st := (s.fwState.slot k).status
  if 1 < k then some .badParam
  else if s.fwBusy then some .busyTick
  else if k = s.fw.running || (st ≠ 2 && st ≠ 4) then some .notPermitted
  else s.durableRefusal

/-- fw.verify (R476): the slot is sealed verifying first. -/
def hFwVerify : Handler := fun c s =>
  match fwVerifyRefusal c s with
  | some st => refuse s st
  | none => multi c (s.setFw (·.updSlot (c.u8 0) fun x => { x with status := 3 })) (.verify (c.u8 0) none)

def execFwVerify (p : Pkt) (s : State) : Host.Outcome State Fault Refusal := .next (s.present 0x0A02 hFwVerify p)

/-- The sections of an image lie between byte 256 and the signature, and the reserved one is zero (R471, R472). -/
def imageSections (b : List Byte) (len : Nat) : Bool :=
  (List.range 3).all (fun i =>
    let o := field b (32 + 8 * i) 4
    let n := field b (36 + 8 * i) 4
    256 ≤ o && o + n ≤ len - 96) && field b 56 8 = 0

/-- An image is valid (R472): its signature verifies, and its header is as R471 requires. -/
def imageValid (b : List Byte) : Bool :=
  let len := field b 4 4
  field b 0 2 = 0x4946 && field b 2 1 = 1 && field b 3 1 = 0 && 8192 ≤ len && len ≤ 16777216 && len ≤ b.length &&
  field b 17 15 = 0 && field b 64 192 = 0 && field b 12 4 ≤ field b 8 4 && field b 16 1 ≤ 64 && imageSections b len &&
  Config.imageSigned (b.take len)

/-- An image is admissible (R472): valid, and above the version floor and the OTP count. -/
def imageAdmissible (b : List Byte) (floor otp : Nat) : Bool :=
  imageValid b && floor ≤ field b 8 4 && otp ≤ field b 16 1

/-- The bytes of a slot in an archive device. -/
def ADev.slot (d : ADev) (k : Nat) : List Byte := if k = 0 then d.slotA else d.slotB

/-- The image of a slot (R476): the good copy, where the archive devices' copies differ. -/
def Ledger.image (g : Ledger) (k : Nat) : List Byte :=
  let cs := (if g.arcA.failed || !g.arcA.answers then [] else [g.arcA.slot k]) ++
    (if g.arcB.failed || !g.arcB.answers then [] else [g.arcB.slot k])
  (cs.find? imageValid).getD (cs.headD [])

/-- The verdict on a downloaded image (R476). -/
def State.imageVerdict (s : State) (k : Nat) : Status :=
  let b := s.ledger.image k
  if imageAdmissible b s.ledger.anchor.floor s.fuses.otp then .ok
  else if imageValid b then .fwRollback else .fwVerifyFail

/-- What a verdict makes of the slot record (R476). -/
def FwSlot.judged (x : FwSlot) (b : List Byte) (v : Status) : FwSlot :=
  if v = .ok then { x with status := 4, epoch := field b 16 1, ver := field b 8 4, floor := field b 12 4 }
  else { x with status := 2 }

/-- The RoT core ends its check of an image whose verifying anchor is sealed (R476): the slot is to be sealed verified, with the
command's identity, or complete. -/
def execImageCheckDone (s : State) : Host.Outcome State Fault Refusal :=
  match s.tasks.find? fun t => t.sealed && match t.kind with | .verify _ none => true | _ => false with
  | none => .next s
  | some t =>
    match t.kind with
    | .verify k _ =>
      let v := s.imageVerdict k
      if s.ledgerFaulted then .next (s.failTask t .ledgerFault [])
      else
        let b := s.ledger.image k
        let s := s.setFw fun f =>
          let f := f.updSlot k fun x => x.judged b v
          if v = .ok then { f with ident := t.ident } else f
        .next (s.updTask t.id fun t => { t with kind := .verify k (some v), sealed := false })
    | _ => .next s

/-! ### fw.activate (R477, R478) -/

/-- The cases in which fw.activate is refused (R477, R566). -/
def fwActivateRefusal (c : Taken) (s : State) : Option Status :=
  let k := c.u8 0
  let w := c.u16 2
  if 1 < k || 1 < c.u8 1 || (w ≠ 0 && (w < 5 || 240 < w)) then some .badParam
  else if s.fwBusy then some .busyTick
  else if k = s.fw.running || (s.fwState.slot k).status ≠ 4 || s.inTrial then some .notPermitted
  else s.durableRefusal

/-- fw.activate (R477). -/
def hFwActivate : Handler := fun c s =>
  match fwActivateRefusal c s with
  | some st => refuse s st
  | none =>
    let k := c.u8 0
    let w := if c.u16 2 = 0 then 30 else c.u16 2
    let s := s.setFw fun f =>
      { f.updSlot k (fun x => { x with status := 5, boots := 0 }) with boot := k, window := w, ident := some c.ident }
    multi c s (.activateFw k w (c.u8 1 = 1))

def execFwActivate (p : Pkt) (s : State) : Host.Outcome State Fault Refusal := .next (s.present 0x0A03 hFwActivate p)

/-! ### fw.confirm (R481-R483) -/

/-- The slot state after a confirm (R481). -/
def FwState.confirm (f : FwState) (run : Nat) : FwState :=
  let other := 1 - run
  { (f.updSlot run fun x => { x with status := 7 }).updSlot other (fun x =>
      if x.status = 7 then { x with status := 4 } else x) with confirmed := some run }

/-- The slot state after a revert (R482). -/
def FwState.revert (f : FwState) (run : Nat) : FwState :=
  { f.updSlot run (fun x => { x with status := 4 }) with boot := f.confirmed.getD (1 - run) }

/-- The cases in which fw.confirm is refused (R481, R566). -/
def fwConfirmRefusal (c : Taken) (s : State) : Option Status :=
  if 1 < c.u8 0 then some .badParam
  else if s.fwBusy then some .busyTick
  else if !s.inTrial then some .notPermitted
  else s.durableRefusal

/-- fw.confirm (R481): confirm, or reject. Once applied, the window stops (R483). -/
def hFwConfirm : Handler := fun c s =>
  match fwConfirmRefusal c s with
  | some st => refuse s st
  | none =>
    let run := s.fw.running
    let fl := (s.fwState.slot run).floor
    let s := { s with fw := { s.fw with windowEnd := none, stopped := true } }
    if c.u8 0 = 0 then
      let s := s.setFw fun f => { f.confirm run with ident := some c.ident }
      let s := s.updLedger fun g => { g with anchor := { g.anchor with floor := max g.anchor.floor fl } }
      multi c s (.confirmFw false)
    else multi c (s.setFw fun f => { f.revert run with ident := some c.ident }) .rejectFw

def execFwConfirm (p : Pkt) (s : State) : Host.Outcome State Fault Refusal := .next (s.present 0x0A04 hFwConfirm p)
def execFwReject (p : Pkt) (s : State) : Host.Outcome State Fault Refusal := .next (s.present 0x0A04 hFwConfirm p)

/-- The increments a confirm still has to burn (R481). -/
def State.epochWanted (s : State) : Nat := (s.fwState.slot s.fw.running).epoch

/-- A confirm's burning has ended (R481, R485). -/
def State.endBurn (s : State) : State :=
  let s := { s with fw := { s.fw with burning := none } }
  match s.tasks.find? fun t => match t.kind with | .confirmFw true => true | _ => false with
  | some t => s.endTask t s.sealedOk []
  | none => s

/-- One fuse was programmed, or could not be (R481, R485). -/
def execOtpBurnDone (programmed : Bool) (s : State) : Host.Outcome State Fault Refusal :=
  match s.fw.burning with
  | none => .next s
  | some e =>
    if !programmed then .next (s.fault 2 0x0F 0).endBurn
    else
      let n := min 64 (s.fuses.otp + 1)
      let s := { s with fuses := { s.fuses with otp := n } }
      .next (if e ≤ n then s.endBurn else s)

/-! ### Anchors that carry a change (R476-R482) -/

/-- The anchor that carries a task's firmware change is sealed. -/
def State.fwSealed (s : State) (t : Task) : State :=
  match t.kind with
  | .verify _ none => s.updTask t.id fun t => { t with sealed := true }
  | .verify _ (some st) => if st = .ok then s.endTask t s.sealedOk [] else s.failTask t st []
  | .activateFw _ _ now =>
    let s := s.endTask t s.sealedOk []
    if now then { s with fw := { s.fw with reset := some (.awaitReply t.ident) } } else s
  | .confirmFw false =>
    if s.fuses.otp < s.epochWanted then
      { s.updTask t.id fun t => { t with kind := .confirmFw true } with
        fw := { s.fw with burning := some s.epochWanted } }
    else s.endTask t s.sealedOk []
  | .rejectFw =>
    let s := s.endTask t s.sealedOk []
    { s with fw := { s.fw with reset := some (.awaitReply t.ident) } }
  | _ => s

/-- A sealed anchor completes the firmware changes it carries; a revert without a command goes on to its reset (R482). -/
def State.fwAnchor (s : State) (a : Anchor) : State :=
  if a.fw = s.ledger.anchor.fw then
    let s := s.tasks.foldl (fun s t => s.fwSealed t) s
    if s.fw.reverting then { s with fw := { s.fw with reverting := false, reset := some (.posted 0) } } else s
  else s

/-- The anchor that carries a task's firmware change cannot be sealed (R483, R626). -/
def State.fwUnsealed (s : State) (t : Task) : State :=
  match t.kind with
  | .confirmFw false | .rejectFw =>
    let s := s.failTask t .ledgerFault []
    { s with fw := { s.fw with reset := some .atOnce } }
  | .verify .. | .activateFw .. | .download .. => s.failTask t .ledgerFault []
  | _ => s

/-- No anchor can be sealed any more: what was anchored stands, and the changes that waited end (R94, R482, R483). -/
def State.fwLost (s : State) : State :=
  let s := s.updLedger fun g =>
    { g with anchor := { g.anchor with fw := g.sealedA.fw, floor := g.sealedA.floor } }
  let s := s.tasks.foldl (fun s t => s.fwUnsealed t) s
  if s.fw.reverting then { s with fw := { s.fw with reverting := false, reset := some .atOnce } } else s

/-! ### The confirm window (R480, R482, R484) -/

/-- The window ends without a confirm (R482): the director reverts, by a reset at once where no anchor can
be sealed; while PWR_WARN_N holds the ledger it is extended (R484). -/
def execConfirmWindowExpiry (s : State) : Host.Outcome State Fault Refusal :=
  match s.fw.windowEnd with
  | none => .next s
  | some e =>
    if s.clk.cycles < e || s.fw.stopped then .next s
    else if s.ledger.held || s.power.holdup then .next { s with fw := { s.fw with windowEnd := none, extend := true } }
    else
      let s := { s with fw := { s.fw with windowEnd := none, stopped := true } }
      if s.ledgerFaulted || s.faults.fatal.isSome then .next { s with fw := { s.fw with reset := some .atOnce } }
      else
        let s := s.setFw fun f => f.revert s.fw.running
        .next { s with fw := { s.fw with reverting := true } }

end Sys2Proof.Machine
end

