-- ==== Sys2Proof/Machine/Commit.lean ====
section
/-! DEFINITION. Commits (R88-R98, R105, R626): groups built in the drone phase, writes to the two journal devices, seals, the
records that join the staged state, anchors, and what a lost journal ends. -/
namespace Sys2Proof.Machine

/-! ### Building groups and anchors (R91, R98) -/

/-- An object whose image may need more than one folio; how many is internal to the director (R84). -/
def Obj.large : Obj → Bool
  | .manifest _ => true
  | .map _ => true
  | .quire .. => true
  | .table .. => true
  | _ => false

/-- The most folios a record may take so that state records stay within their 384 (R97), at least one. -/
def Ledger.recRoom (g : Ledger) : Nat :=
  max 1 (min 16 (stateRoom - g.stateLive.length - total (g.pendingRecs.map (·.folios))))

/-- The folios of a record: free, from 1 to 16 and within the room of R97, where an image may need several (R88). -/
def State.sizeRec (s : State) (r : DurRec) : DurRec × State :=
  if r.objs.any (·.large) then
    let (n, s) := s.freeNat
    ({ r with folios := 1 + n % s.ledger.recRoom }, s)
  else ({ r with folios := max 1 (min 16 r.folios) }, s)

/-- Size a list of records. -/
def State.sizeRecs (s : State) : List DurRec → List DurRec × State
  | [] => ([], s)
  | r :: l =>
    let (r, s) := s.sizeRec r
    let (l, s) := s.sizeRecs l
    (r :: l, s)

/-- Place a record in the last of the new groups where it fits, else in a further one (R91). -/
def addRec (nb : Tick) (gs : List Group) (r : DurRec) : List Group :=
  match gs.getLast? with
  | some g =>
    if g.folios + r.folios ≤ 16 then gs.dropLast ++ [{ g with recs := g.recs ++ [r], folios := g.folios + r.folios }]
    else gs ++ [{ recs := [r], folios := r.folios, notBefore := nb }]
  | none => [{ recs := [r], folios := r.folios, notBefore := nb }]

/-- The journal takes no new groups: faulted, held, or after a fatal fault (R94, R370, R433). -/
def State.journalShut (s : State) : Bool :=
  s.ledgerFaulted || s.ledger.held || s.power.holdup || s.faults.fatal.isSome || !s.ledger.restored

/-- The drone phase builds groups of every durable change staged since the last ones were built (R91). -/
def State.buildGroups (s : State) : State :=
  if s.journalShut then s
  else
    let (rs, s) := s.sizeRecs s.ledger.unbuilt
    s.updLedger fun g => { g with groups := g.groups ++ rs.foldl (addRec (s.now + 1)) [], unbuilt := [] }

/-- The drone phase builds an anchor of changed values (R98); one that still waits is built anew. -/
def State.buildAnchor (s : State) : State :=
  if s.journalShut || !(s.ledger.anchorDue || s.ledger.anchorBuilt.isSome) then s
  else s.updLedger fun g =>
    { g with anchorBuilt := some ({ g.anchor with tip := g.tip }, s.now + 1), anchorDue := false }

/-! ### Folio images (R84, R88, R89) -/

/-- An image before its place in the series is known. -/
def blankFolio (kind : Nat) (body : FolioBody) : Folio where
  seq := 0
  kind := kind
  more := false
  carry := false
  tick := 0
  prevCrc := 0
  crc := 0
  good := true
  body := body
  origin := 0

/-- The folios of a record; the first takes over the records given (R97). -/
def DurRec.images (r : DurRec) (old : List DurRec) : List Folio :=
  blankFolio r.kind (.recs (r :: old)) :: List.replicate (r.folios - 1) (blankFolio r.kind (.cont r))

/-- The folios of a group's records; its first state record takes over the records given. -/
def groupImages : List DurRec → List DurRec → List Folio
  | [], _ => []
  | r :: rs, old => if r.kind = 2 then r.images [] ++ groupImages rs old else r.images old ++ rs.flatMap (·.images [])

/-- The folios of state records in a group. -/
def Group.stateFolios (x : Group) : Nat := total ((x.recs.filter (·.kind ≠ 2)).map (·.folios))

/-- Give a group's folios consecutive sequences and the CRC chain (R84, R85, R88, R89). -/
def chainFolios (tick : Tick) : Nat → Word32 → List Folio → List Folio
  | _, _, [] => []
  | tip, prev, f :: l =>
    let seq := tip + 1
    let x := ({ f with seq := seq, tick := tick, prevCrc := prev, more := !l.isEmpty,
                       origin := if f.carry then f.origin else seq } : Folio).sealed
    x :: chainFolios tick seq x.crc l

/-- The copies of live folios (R96). -/
def carryImages (fs : List Folio) : List Folio := fs.map fun f => { f with carry := true }

/-- The folio of an anchor (R84, R98). -/
def Ledger.anchorFolio (g : Ledger) (a : Anchor) (tick : Tick) : Folio :=
  let seq := g.anchorSeq + 1
  ({ blankFolio 0x0100 (.anchor a) with seq := seq, tick := tick, prevCrc := g.anchorCrc, origin := seq } : Folio).sealed

/-- The sequence of a change of the discovery map goes into it (R528). -/
def DurRec.at_ (r : DurRec) (seq : Nat) : DurRec :=
  { r with objs := r.objs.map fun o => match o with
      | .map m => .map { m with changeSeq := seq }
      | o => o }

/-- A group whose folios follow the sequence `tip`. -/
def Group.placed (x : Group) (tip : Nat) : Group :=
  { x with recs := (x.recs.foldl (fun (y : List DurRec × Nat) r => (y.1 ++ [r.at_ y.2], y.2 + r.folios)) ([], tip + 1)).1 }

/-- The position a folio is written to (R87). -/
def Folio.position (f : Folio) : Nat := if f.kind = 0x0100 then 960 + f.seq % 64 else ringPos f.seq

/-! ### Starting a write (R91, R95, R96, R98) -/

/-- The first device that has not failed, in the order of R92. -/
def Ledger.firstDev (g : Ledger) : Dev := if g.devA.failed then .b else .a

/-- Start a write; a folio of the journal ring spends a credit unless the write is exempt (R95, R105). -/
def Ledger.startWrite (g : Ledger) (what : WriteWhat) (fs : List Folio) (free : Bool) : Ledger :=
  { g with writing := some { what := what, folios := fs, dev := g.firstDev, second := false, reading := false }
           writeNoCredit := free
           credits := if free then g.credits else g.credits - 1 }

/-- An anchor may start: one a second on average over any 64 seconds (R98). Four of the 64 are kept for anchors that raise the tick
reservation, which R99 wants sealed in time, and for the power seal (DESIGN CHOICE, log entry 165). -/
def State.anchorRate (s : State) (a : Anchor) : Bool :=
  (s.ledger.anchorTimes.filter fun c => s.clk.cycles < c + 64 * Config.hz).length < (if a.h ≠ s.ledger.sealedA.h then 64 else 60)

/-- Start an anchor write. -/
def State.startAnchor (s : State) (a : Anchor) (tick : Tick) : State :=
  s.updLedger fun g =>
    let times := (g.anchorTimes.filter fun c => s.clk.cycles < c + 64 * Config.hz) ++ [s.clk.cycles]
    ({ g with anchorBuilt := none, anchorTimes := times }).startWrite (.anchor a) [g.anchorFolio a tick] true

/-- Start the next group, or the copies that must be carried forward before it (R95, R96). -/
def State.startGroup (s : State) (x : Group) (rest : List Group) (free : Bool) : State :=
  let g := s.ledger
  match g.carryFor x.folios with
  | c :: _ =>
    if free || c.length ≤ g.credits then
      s.updLedger fun g => g.startWrite .carry (chainFolios s.now g.tip g.tipCrc (carryImages c)) free
    else s
  | [] =>
    if free || x.folios ≤ g.credits then
      s.updLedger fun g =>
        let x := x.placed g.tip
        ({ g with groups := rest }).startWrite (.group x)
          (chainFolios (x.notBefore - 1) g.tip g.tipCrc (groupImages x.recs (g.takenOver x.stateFolios))) free
    else s

/-- What the first free interval starts (R91): under a power seal the final group, then the anchor (R105); after a fatal fault its
final group (R370); else an anchor that is due, then the next group. -/
def State.startNext (s : State) : State :=
  match s.ledger.pseal with
  | .group => match s.ledger.groups with
    | x :: rest => s.startGroup x rest true
    | [] => (s.updLedger fun g => { g with pseal := .anchor }).startAnchor { s.ledger.anchor with tip := s.ledger.tip } s.now
  | .anchor => s.startAnchor { s.ledger.anchor with tip := s.ledger.tip } s.now
  | .held => s
  | .idle =>
    if s.faults.fatal.isSome then
      match s.ledger.groups with
      | x :: rest => s.startGroup x rest true
      | [] => s
    else match s.ledger.anchorBuilt with
    | some (a, nb) =>
      if nb ≤ s.now && s.anchorRate a then s.startAnchor a (nb - 1)
      else match s.ledger.groups with
        | x :: rest => if x.notBefore ≤ s.now then s.startGroup x rest false else s
        | [] => s
    | none => match s.ledger.groups with
      | x :: rest => if x.notBefore ≤ s.now then s.startGroup x rest false else s
      | [] => s

def execJournalWriteStart (s : State) : Host.Outcome State Fault Refusal :=
  .next (if s.ledger.writing.isSome || s.ledgerFaulted || !s.ledger.restored then s else s.startNext)

/-! ### Records that join the staged state (R59, R90) -/

/-- A quarantine stands through a record staged before it; a reset's record ends it (R378). -/
def keepQuarantine (l : Led) : Obj → Obj
  | .quire q (some x) =>
    match l.quire q with
    | some o => .quire q (some { x with quarantined := x.quarantined || (o.quarantined && x.resetCount = o.resetCount) })
    | none => .quire q (some x)
  | o => o

/-- The ledgered state with a record's objects. -/
def DurRec.applyTo (r : DurRec) (l : Led) : Led := r.objs.foldl (fun l o => l.apply (keepQuarantine l o)) l

/-- A record may join (R263, R411): the tile stores of the clusters concerned are zero, and the leaves of a quire with a tenant
slot are scrubbed. -/
def State.recReady (s : State) (r : DurRec) : Bool :=
  let l := r.applyTo s.stg.led
  r.objs.all fun o => match o with
    | .quire q x =>
      let cs := (match x with | some y => y.clusters | none => []) ++ (match s.stg.led.quire q with | some y => y.clusters | none => [])
      let ls := match x with | some y => y.leaves | none => []
      cs.all (fun c => (s.clusters.getD c Cluster.init).zeroing = none) &&
        (l.slotOf q = 0 || ls.all fun x => !s.stg.vol.dirty.contains x)
    | _ => true

/-- Quires that a record carves start with nothing volatile (R530) but the announcements that other directors made of their parts (R184). -/
def State.freshQuires (s : State) (r : DurRec) : State :=
  r.objs.foldl (fun s o => match o with
    | .quire q (some _) =>
      if (s.stg.led.quire q).isSome then s
      else s.updQuireVol q fun _ => { QuireVol.init q with announced := s.stg.vol.parts.filter (·.quire = q) }
    | _ => s) s

/-- A multi-tick command hears that its record is sealed. -/
def State.taskSealed (s : State) (t : Task) (old : Led) : State :=
  match t.kind with
  | .scan m => s.endTask t s.sealedOk (s.scanResult m)
  | .install x _ .sealing js _ _ => s.installSealed t x js
  | .boreOpen a b _ => s.endTask t s.sealedOk (le 2 ((boreName s.stg.led.manifest a b).getD 0))
  | .rebind r => s.rebindSealed t r (old.quire t.quire)
  | .release .. => s.resetSealed t (old.quire t.quire)
  | .reset .. => s.resetSealed t (old.quire t.quire)
  | .activate k _ qs true js _ => s.activateSealed t k qs js
  | .tenantOpen n .. => s.tenantOpened t n
  | .evict n b st _ => s.evictSealed t n b st
  | .download k len off data => s.downloadSealed t k len off data.length
  | .roleClaim .. => s.endTask t s.sealedOk []
  | .shaperClaim .. => s.endTask t s.sealedOk []
  | _ => s

/-- The command or task of a record that joined hears of it: OK, in the next intake (R90, R135). -/
def State.recDone (s : State) (r : DurRec) (old : Led) : State :=
  match r.task with
  | some id => match s.task id with
    | some t => s.taskSealed t old
    | none => s
  | none => match r.result with
    | some res => s.completeCmd r.ident s.sealedOk res 0
    | none => s

/-- A sealed record joins the staged state. -/
def State.joinRec (s : State) (r : DurRec) : State :=
  let old := s.stg.led
  let s := (s.freshQuires r).updLed r.applyTo
  (s.recDone r old).closeSealed

/-- A record waits behind an earlier one of the same object. -/
def behind (held : List DurRec) (r : DurRec) : Bool :=
  held.any fun h => h.objs.any fun o => o.key ≠ .none && r.objs.any fun p => p.key = o.key

/-- Join what of a list of sealed records can join, in order. -/
def State.joinList (s : State) : List DurRec → List DurRec → State
  | [], held => s.updLedger fun g => { g with late := held }
  | r :: l, held =>
    if s.recReady r && !behind held r then
      ((s.updLedger fun g => { g with late := held ++ l }).joinRec r).joinList l held
    else s.joinList l (held ++ [r])

/-- Join the records that were sealed in a seal phase, or wait for a zeroing or scrub (R90, R263); nothing joins after a fatal fault
(R370). -/
def State.joinLate (s : State) : State := if s.faults.fatal.isSome then s else s.joinList s.ledger.late []

/-- A group is sealed: its records join the staged state, those of a seal phase in the following tick (R90). -/
def State.groupSealed (s : State) (x : Group) : State :=
  let s := s.updLedger fun g => { g with late := g.late ++ x.recs }
  let s := if s.clk.running && s.clk.phase = .seal then s else s.joinLate
  s.updLedger fun g => if g.pseal = .group && g.writeNoCredit && g.groups = [] then { g with pseal := .anchor } else g

/-! ### Changes that cannot seal (R626) -/

/-- What a task undoes whose record is withdrawn or cannot seal. -/
def State.taskDropped (s : State) (t : Task) (st : Status) : State :=
  match t.kind with
  | .boreOpen a b _ =>
    match boreName s.val.manifest a b with
    | some n => (s.dropBores [{ name := n, a := a, b := b }]).failTask t st []
    | none => s.failTask t st []
  | .install _ _ _ _ _ p => s.failInstall t p st
  | .rebind r => s.rebindStop t r st
  | .activate _ _ qs _ _ _ => s.failActivate t qs st
  | .release .. | .reset .. =>
    let s := s.updQuireVol t.quire fun v => { v with inReset := false }
    (s.failTask t st []).resumeAdmission t.quire (s.now + 1)
  | .tenantOpen n .. =>
    let s := { s with rot := { s.rot with memKeys := s.rot.memKeys.filter (· ≠ n) } }
    s.failTask t st []
  | _ => s.failTask t st []

/-- A record that does not seal: its command ends with the status of the cause. -/
def State.dropRec (s : State) (r : DurRec) (st : Status) : State :=
  let s := match r.task with
    | some id => match s.task id with
      | some t => s.taskDropped t st
      | none => s
    | none => if r.result.isSome then s.failCmd r.ident st [] 0 else s
  s.closeDropped r.ident

/-- Uncheckpointed history of 128 folios asks for a checkpoint while none runs (R97, R106). -/
def Ledger.histWant (g : Ledger) : Ledger := { g with ckWanted := g.ckWanted || (128 ≤ g.hist.length && g.ckRun.isNone) }

/-- The checkpoint in progress is abandoned (R109). -/
def State.dropCkpt (s : State) (st : Status) : State :=
  let ts := s.ledger.ckTasks
  let s := s.updLedger fun g => { g with ckRun := none, ckTasks := [] }.histWant
  ts.foldl (fun s id => match s.task id with
    | some t => s.failTask t st []
    | none => s) s

/-- Both journal devices have failed (R94): every change that waits ends LEDGER_FAULT. -/
def State.journalLost (s : State) : State :=
  let rs := s.ledger.inWrite ++ s.ledger.groups.flatMap (·.recs) ++ s.ledger.unbuilt
  let s := s.updLedger fun g =>
    { g with writing := none, groups := [], unbuilt := [], anchorBuilt := none, anchorDue := false, ckWanted := false,
             pseal := if g.pseal = .idle then .idle else .held }
  let s := rs.foldl (fun s r => s.dropRec r .ledgerFault) s
  s.fwLost.dropCkpt .ledgerFault

/-- A journal device fails (R92, R93): a lasting fault, reported in an anchor. -/
def State.failDev (s : State) (d : Dev) : State :=
  let s := s.updLedger fun g => match d with
    | .a => { g with devA := { g.devA with failed := true } }
    | .b => { g with devB := { g.devB with failed := true } }
  let s := s.updLedger fun g =>
    { g with anchor := { g.anchor with mirror := mirrorCode g.devA.failed g.devB.failed }, anchorDue := true }
  (s.lasting 0x06 (if s.ledgerFaulted then 2 else match d with | .a => 0 | .b => 1)).raiseNext 11

/-! ### Anchors and checkpoints that seal (R98-R100, R107, R108) -/

/-- The bytes of a history record in the log. -/
def HistRec.size : HistRec → Nat
  | .fault _ => 32
  | .power _ => 24
  | .lane .. => 3096

/-- A history record that may give way (R108). -/
def HistRec.yields : HistRec → Bool
  | .lane .. => false
  | _ => true

/-- The bytes of a block's records. -/
def blockSize (b : List HistRec) : Nat := total (b.map (·.size))

/-- Split a log at its first block that holds a record which yields: the blocks before it, its records that stay, and the blocks after. -/
def yieldBlock : List (List HistRec) → Option (List (List HistRec) × List HistRec × List (List HistRec))
  | [] => none
  | b :: l =>
    if b.any (·.yields) then some ([], b.filter (!·.yields), l)
    else (yieldBlock l).map fun x => (b :: x.1, x.2.1, x.2.2)

/-- Write records at the end of the history log (R108): a ring of 64 KiB blocks, 511 of them (R79). A record that does not fit its last
block opens the next; when none is left, the oldest block with fault or power entries is erased for it, and its lane records are written
again behind it. -/
def logWrite : Nat → List (List HistRec) → List HistRec → List (List HistRec)
  | _, bs, [] => bs
  | 0, bs, _ => bs
  | n + 1, bs, h :: hs =>
    match bs.getLast? with
    | some b =>
      if blockSize b + h.size ≤ 65536 then logWrite n (bs.dropLast ++ [b ++ [h]]) hs
      else if bs.length < 511 then logWrite n (bs ++ [[h]]) hs
      else match yieldBlock bs with
        | some (before, keep, after) => logWrite n (before ++ after ++ [[h]]) (keep ++ hs)
        | none => bs
    | none => logWrite n [[h]] hs

/-- The history log with further records; lane records that are written again count toward the work. -/
def ADev.logged (d : ADev) (hs : List HistRec) : ADev :=
  if d.failed then d else { d with blocks := logWrite (hs.length * 22 + total (d.blocks.map List.length)) d.blocks hs }

/-- A checkpoint seals (R107, R108): its history goes to the log, its commands complete, and the next position is erased
(R595). -/
def State.ckptSealed (s : State) (x : Checkpoint) : State :=
  let ts := s.ledger.ckTasks
  let hs := (s.ledger.hist.filter (·.1 ≤ x.covers)).map (·.2)
  let s := s.updLedger fun g =>
    { g with hist := g.hist.filter (x.covers < ·.1), arcA := g.arcA.logged hs, arcB := g.arcB.logged hs, ckRun := none, ckTasks := [],
             notGuaranteed := false, jobs := g.jobs ++ [ArchiveJob.eraseCkpt ((x.number + 1) % 8)] }.histWant
  ts.foldl (fun s id => match s.task id with
    | some t => s.endTask t s.sealedOk (le 8 x.number ++ le 8 x.covers)
    | none => s) s

/-- The reservation records that an anchor makes needless are erased (R100). -/
def ADev.clearReserve (d : ADev) (h : Tick) : ADev :=
  if d.failed || h < d.reserved then d else { d with reserve := [] }

/-- An anchor is sealed. The first one of the part sets the marker (R103). -/
def State.anchorSealed (s : State) (a : Anchor) (f : Folio) : State :=
  let s := { s with fuses := { s.fuses with marker := true } }
  let s := s.updLedger fun g =>
    { g with sealedA := a, anchorSeq := f.seq, anchorCrc := f.crc, arcA := g.arcA.clearReserve a.h,
             arcB := g.arcB.clearReserve a.h, pseal := if g.pseal = .anchor then .held else g.pseal }
  let s := match s.ledger.ckRun with
    | some r => if r.sealing && a.ckNum = r.image.number then s.ckptSealed r.image else s
    | none => s
  s.fwAnchor a

/-! ### Folio writes (R92-R95) -/

/-- A journal folio is sealed: the tip moves, history records count as uncheckpointed, checkpoints fall due (R97, R106), and an anchored
value has changed (R98). -/
def Ledger.sealFolio (g : Ledger) (f : Folio) : Ledger :=
  let hs := if f.first && !f.carry then (match f.rec_ with | some r => r.hist.map (f.seq, ·) | none => []) else []
  let hist := g.hist ++ hs
  { g with tip := f.seq, tipCrc := f.crc, hist := hist, ckFolios := g.ckFolios + 1
           anchor := { g.anchor with written := g.anchor.written + 1 }, anchorDue := true
           ckWanted := g.ckWanted || 65536 ≤ g.ckFolios + 1 }.histWant

/-- A folio is sealed on the devices that stand: the next folio of the write starts, or the write has ended. -/
def State.folioSealed (s : State) (w : Writing) (f : Folio) (rest : List Folio) : State :=
  match w.what with
  | .anchor a => (s.updLedger fun g => { g with writing := none }).anchorSealed a f
  | _ =>
    let s := s.updLedger (·.sealFolio f)
    match rest, w.what with
    | _ :: _, _ => s.updLedger fun g => g.startWrite w.what rest g.writeNoCredit
    | [], .group x => (s.updLedger fun g => { g with writing := none }).groupSealed x
    | [], _ => s.updLedger fun g => { g with writing := none }

/-- A device is done with a folio: the next device takes it, or it is sealed, or both have failed (R92). -/
def State.deviceDone (s : State) (w : Writing) (f : Folio) (rest : List Folio) : State :=
  if w.dev = .a && !s.ledger.devB.failed then
    s.updLedger fun g => { g with writing := some { w with dev := .b, second := false, reading := false } }
  else if s.ledgerFaulted then s.journalLost
  else s.folioSealed w f rest

/-- Put a folio into a device at its position. -/
def Ledger.putFolio (g : Ledger) (d : Dev) (f : Folio) : Ledger :=
  match d with
  | .a => { g with devA := g.devA.put f.position f }
  | .b => { g with devB := g.devB.put f.position f }

/-- A transfer of a folio ends (R92): a write is followed by its read-back; a read-back that differs causes one rewrite, then the
failure of the device. What a device holds after a read-back that differs is free (R104). -/
def execFolioWriteDone (matched : Bool) (s : State) : Host.Outcome State Fault Refusal :=
  match s.ledger.writing with
  | some w =>
    match w.folios with
    | [] => .next s
    | f :: rest =>
      if !w.reading then
        .next (s.updLedger fun g => { g.putFolio w.dev f with writing := some { w with reading := true } })
      else if matched then .next (s.deviceDone w f rest)
      else
        let (b, s) := s.freeBool
        let s := s.updLedger fun g => g.putFolio w.dev { f with good := b }
        if !w.second then
          .next (s.updLedger fun g => { g with writing := some { w with second := true, reading := false } })
        else .next ((s.failDev w.dev).deviceDone w f rest)
  | none => .next s

/-- Reference cycles between two commit credits: 15.625 ms (R95). -/
def creditStep : Nat := 1562500

/-- The commit credits due by now are added, one for every 15.625 ms since the last, up to 448 (R95); credits stand through a hold
(R435). -/
def execCreditRefill (s : State) : Host.Outcome State Fault Refusal :=
  .next (if s.ledger.restored && !s.ledger.held then
    s.updLedger fun g =>
      let n := (s.clk.cycles - g.refillAt) / creditStep
      { g with credits := min Config.creditMax (g.credits + n), refillAt := g.refillAt + n * creditStep }
    else s)

/-! ### The tick reservation (R99, R100) -/

/-- H in force. -/
def State.reservation (s : State) : Tick := s.ledger.sealedA.h

/-- A reservation record is being written to the archive. -/
def Ledger.reserving (g : Ledger) : Bool := g.jobs.any fun j => match j with | .reserve .. => true | _ => false

/-- The highest index known to be ahead: this tick's, one to be joined, or an agreed one (R51, R68). -/
def State.indexAhead (s : State) : Tick :=
  let bs := if s.lib.align = 1 then s.lib.beacons.map (·.tick) else []
  (bs ++ (match s.lib.jump with | some (_, v) => [v] | none => [])).foldl max s.now

/-- TICK_NOW reaches H − 2^20 (R99): an anchor raises H; on a faulted ledger an archive record does (R100). After a fatal fault no
anchor is written (R370). -/
def execTickReservationRaise (s : State) : Host.Outcome State Fault Refusal :=
  let h := s.indexAhead + Config.reserveStep
  if !s.clk.running || s.indexAhead + Config.reserveLead < s.reservation || s.faults.fatal.isSome then .next s
  else if !s.ledgerFaulted then
    if s.ledger.anchor.h ≠ s.reservation then .next s
    else .next (s.updLedger fun g => { g with anchor := { g.anchor with h := h }, anchorDue := true })
  else if s.ledger.reserving || (s.ledger.arcA.failed && s.ledger.arcB.failed) then .next s
  else
    let d : Dev := if s.ledger.arcA.failed then .b else .a
    .next (s.updLedger fun g => { g with jobs := g.jobs ++ [.reserve h d false false] })

/-! ### Archive transfers (R475, R100, R595) -/

/-- Write bytes into a slot's contents at an offset; an erased byte reads 0xFF. -/
def putBytes (l : List Byte) (off : Nat) (d : List Byte) : List Byte :=
  let l := l ++ List.replicate (off - l.length) 0xFF
  l.take off ++ d ++ l.drop (off + d.length)

/-- Change an archive device. -/
def Ledger.updArc (g : Ledger) (d : Dev) (f : ADev → ADev) : Ledger :=
  match d with
  | .a => { g with arcA := f g.arcA }
  | .b => { g with arcB := f g.arcB }

/-- An archive device. -/
def Ledger.arc (g : Ledger) : Dev → ADev
  | .a => g.arcA
  | .b => g.arcB

/-- An archive device is marked failed (R109): a lasting fault. -/
def State.failArc (s : State) (d : Dev) : State :=
  let s := s.updLedger fun g => g.updArc d fun x => { x with failed := true }
  let both := s.ledger.arcA.failed && s.ledger.arcB.failed
  (s.lasting 0x07 (if both then 2 else match d with | .a => 0 | .b => 1)).raiseNext 11

/-- A chunk stands in a slot of a device. -/
def ADev.putChunk (x : ADev) (slot off : Nat) (data : List Byte) : ADev :=
  let f := fun (l : List Byte) => putBytes (if off = 0 then [] else l) off data
  if slot = 0 then { x with slotA := f x.slotA } else { x with slotB := f x.slotB }

/-- A chunk's transfers have ended (R475): its progress is journaled where a copy verified. -/
def State.chunkEnded (s : State) (task off : Nat) (data : List Byte) (ok : Bool) : State :=
  match s.task task with
  | none => s
  | some t =>
    match t.kind with
    | .download _ len _ _ =>
      if !ok then s.failTask t .lastingFault []
      else match s.durableRefusal with
        | some st => s.failTask t st []
        | none => s.stageTask t 1 [.fwProgress (off + data.length) len] none
    | _ => s

/-- Whether the second archive device takes its turn. -/
def Ledger.nextArc (g : Ledger) (d : Dev) : Bool := d = .a && !g.arcB.failed

/-- A reservation record at the end of the block's 1,024 records starts the block anew (R100). -/
def ADev.reserveIn (x : ADev) (h now : Tick) : ADev :=
  let r := reserveRecord h now
  { x with reserve := if 1024 ≤ x.reserve.length then [r] else x.reserve ++ [r] }

/-- An archive transfer ends (R475, R100, R595): the oldest job goes on. -/
def execArchiveWriteDone (dev : Dev) (verified : Bool) (s : State) : Host.Outcome State Fault Refusal :=
  match s.ledger.jobs with
  | [] => .next s
  | .chunk t k off data d second a b :: js =>
    if d ≠ dev then .next s
    else if verified then
      let a := a || d = .a
      let b := b || d = .b
      let s := s.updLedger fun g => g.updArc d (·.putChunk k off data)
      if s.ledger.nextArc d then
        .next (s.updLedger fun g => { g with jobs := .chunk t k off data .b false a b :: js })
      else .next ((s.updLedger fun g => { g with jobs := js }).chunkEnded t off data true)
    else if !second then .next (s.updLedger fun g => { g with jobs := .chunk t k off data d true a b :: js })
    else
      let s := s.failArc d
      if s.ledger.nextArc d then .next (s.updLedger fun g => { g with jobs := .chunk t k off data .b false a b :: js })
      else .next ((s.updLedger fun g => { g with jobs := js }).chunkEnded t off data (a || b))
  | .reserve h d a b :: js =>
    if d ≠ dev then .next s
    else
      let s := if verified then
          s.updLedger fun g => { g.updArc d (·.reserveIn h s.now) with
            anchor := { g.anchor with h := max h g.anchor.h }, sealedA := { g.sealedA with h := max h g.sealedA.h } }
        else s
      if s.ledger.nextArc d then
        .next (s.updLedger fun g => { g with jobs := .reserve h .b (a || verified) b :: js })
      else .next (s.updLedger fun g => { g with jobs := js })
  | .eraseCkpt p :: js =>
    .next (s.updLedger fun g =>
      let e := fun (x : ADev) => if x.failed then x else { x with ckpts := x.ckpts.filter (·.1 ≠ p) }
      { g with jobs := js, arcA := e g.arcA, arcB := e g.arcB,
               anchor := { g.anchor with erases := modAt g.anchor.erases p (· + 1) }, anchorDue := true })

/-! ### Checkpoints (R106-R109) -/

/-- 24 hours since the last checkpoint started (R106). -/
def execCheckpointTimer (s : State) : Host.Outcome State Fault Refusal :=
  if s.ledger.restored && 24 * 3600 * (Config.hz : Int) ≤ s.clk.cycles - s.ledger.ckStart.getD 0 then
    .next (s.updLedger fun g => { g with ckWanted := true })
  else .next s

/-- The newest verified checkpoint with a number that an archive device which has not failed holds. -/
def Ledger.ckptOf (g : Ledger) (n : Nat) : Option Checkpoint :=
  ((if g.arcA.failed then [] else g.arcA.ckpts) ++ (if g.arcB.failed then [] else g.arcB.ckpts)).findSome? fun x =>
    if x.2.good && x.2.number = n then some x.2 else none

/-- The image of a checkpoint of the tip (R107): all ledgered state as of that sequence, every history record, and the identities the
journal holds. Checkpoint headers form the series of their numbers (DEDUCED, log entry 166). -/
def State.ckptImage (s : State) : Checkpoint where
  number := s.ledger.sealedA.ckNum + 1
  covers := s.ledger.tip
  tick := s.now
  h := s.reservation
  prevCrc := match s.ledger.ckptOf s.ledger.sealedA.ckNum with | some c => c.crc | none => 0
  led := s.ledger.late.foldl (fun l r => r.applyTo l) s.stg.led
  hist := s.ledger.hist.map (·.2)
  idents := s.ledger.idents
  anchor := s.ledger.anchor
  good := true

/-- An image whose write has begun stands at its position without being whole. -/
def ADev.beginCkpt (d : ADev) (c : Checkpoint) : ADev :=
  let p := c.number % 8
  { d with ckpts := d.ckpts.filter (·.1 ≠ p) ++ [(p, { c with good := false })] }

/-- A requested checkpoint starts, once 1,024 s have passed since the last one started (R106, R107). -/
def execCheckpointStart (s : State) : Host.Outcome State Fault Refusal :=
  let g := s.ledger
  if !g.ckWanted || s.ckptTooSoon || g.ckRun.isSome || s.journalShut || (g.arcA.failed && g.arcB.failed) ||
      g.writing.isSome then .next s
  else
    let d : Dev := if g.arcA.failed then .b else .a
    .next (s.updLedger fun g =>
      { g.updArc d (·.beginCkpt s.ckptImage) with
        ckWanted := false, ckFolios := 0, ckStart := some s.clk.cycles
        ckRun := some { image := s.ckptImage, dev := d, doneA := false, doneB := false, sealing := false } })

/-- Both copies are verified: an anchor that points to the checkpoint is due (R98, R107). -/
def State.ckptAnchor (s : State) (r : CkptRun) : State :=
  let n := r.image.number
  s.updLedger fun g =>
    { g with ckRun := some { r with sealing := true }, anchorDue := true
             anchor := { g.anchor with ckNum := n, ckCovers := r.image.covers, ckPos := n % 8,
                                       ckLen := r.image.image.length, digest := r.image.digest } }

/-- A copy fails its verification (R109): the checkpoint is abandoned and its request stands; a device that failed twice is marked
failed, and with both failed the commands end. -/
def State.ckptFailed (s : State) (d : Dev) : State :=
  let twice := 1 ≤ (s.ledger.arc d).fails
  let s := s.updLedger fun g => { g.updArc d (fun x => { x with fails := x.fails + 1 }) with ckRun := none, ckWanted := true }
  let s := if twice then s.failArc d else s
  if s.ledger.arcA.failed && s.ledger.arcB.failed then
    (s.updLedger fun g => { g with ckWanted := false }).dropCkpt .lastingFault
  else s

/-- A checkpoint copy is written and verified (R107, R109). -/
def execCheckpointCopyDone (dev : Dev) (verified : Bool) (s : State) : Host.Outcome State Fault Refusal :=
  match s.ledger.ckRun with
  | none => .next s
  | some r =>
    if r.sealing || r.dev ≠ dev then .next s
    else if !verified then .next (s.ckptFailed dev)
    else
      let p := r.image.number % 8
      let s := s.updLedger fun g => g.updArc dev fun x =>
        { x with ckpts := x.ckpts.filter (·.1 ≠ p) ++ [(p, r.image)], fails := 0 }
      let r := match dev with | .a => { r with doneA := true } | .b => { r with doneB := true }
      if s.ledger.nextArc dev then
        .next (s.updLedger fun g => { g.updArc .b (·.beginCkpt r.image) with ckRun := some { r with dev := .b } })
      else .next (s.ckptAnchor r)

/-! ### Lane-margin history (R111, R112) -/

/-- The last 30 values of a FAU's input power. -/
def elsHistory (rs : List (Tick × LaneSample)) (f : Nat) : List Int := lastN 30 (rs.map fun r => r.2.els.getD f 0)

/-- The least-squares line through the last 30 daily records reaches the limit within 90 days (R112): x counts days, 0 to 29. -/
def projects (ys : List Int) (limit : Int) : Bool :=
  ys.length = 30 &&
    let sy := ys.foldl (· + ·) 0
    let sxy := ((List.range 30).zip ys).foldl (fun (a : Int) p => a + p.1 * p.2) 0
    let num := 30 * sxy - 435 * sy
    let den : Int := 30 * 8555 - 435 * 435
    sy * den + num * (30 * 119 - 435) ≤ limit * 30 * den

/-- The FAUs whose source is marked "retirement advised" by a record (R112). -/
def retiring (ref : List (Option Int)) (rs : List (Tick × LaneSample)) : List Nat :=
  (List.range 8).filter fun f =>
    let ys := elsHistory rs f
    match ref.getD f none, ys.getLast? with
    | some r, some y => y ≤ r - 200 || projects ys (r - 200)
    | _, _ => false

/-- The lane records journaled so far, those that wait included. -/
def State.laneHistory (s : State) : List (Tick × LaneSample) :=
  s.ledger.laneEntries ++ (s.ledger.pendingRecs.flatMap (·.hist)).filterMap fun h => match h with
    | .lane t x => some (t, x)
    | _ => none

/-- 24 hours have passed since the lanes were last sampled (R111). -/
def State.laneDue (s : State) : Bool :=
  match s.ledger.laneAt with
  | some c => c + 24 * 3600 * Config.hz ≤ s.clk.cycles
  | none => true

/-- Once in 24 hours, in the drone phase, every lane and laser input is sampled and journaled, and retirement is advised where R112 finds
it. -/
def execLaneMarginSample (sample : LaneSample) (s : State) : Host.Outcome State Fault Refusal :=
  if !s.ledger.restored || !s.clk.running || s.clk.phase ≠ .drone || !s.laneDue then .next s
  else
    let l := s.val
    let ref := (List.range 8).map fun f => some ((l.laserRef.getD f none).getD (sample.els.getD f 0))
    let adv := retiring ref (s.laneHistory ++ [(s.now, sample)])
    let new := adv.filter fun f => !l.advised.contains f
    let ps := s.ports.mapIdx fun d (p : Port) =>
      { p with lanes := (List.range 8).map fun i => sample.lanes.getD (8 * d + i) laneZero }
    let s := { s with ports := ps }
    let s := (s.updLedger fun g => { g with laneAt := some s.clk.cycles }).stageHist (.lane s.now sample) 1
    let s := new.foldl (fun s f => s.fault 1 0x02 (8 * f)) s
    let all := new.foldl (fun a f => insertSorted f a) l.advised
    .next (if ref = l.laserRef && new = [] then s else s.stageOwn [.laser ref all])

end Sys2Proof.Machine
end

