-- ==== Sys2Proof/Machine/Mains.lean ====
section
/-! DEFINITION. Power, the shelf and heat (R432-R447, R596): the power seal, the hold and resumption, mains events over PMBus,
the ceilings and the cluster clock. -/
namespace Sys2Proof

/-- The kinds of event a reading shows (R440). -/
def ShelfReading.kinds (r : ShelfReading) (nominal : Option Nat) (read : Bool) : List Nat :=
  let off : Bool := match nominal with
    | some n => n + 300 < r.freq || r.freq + 300 < n
    | none => false
  (if r.vinUvWarn then [2] else []) ++ (if r.vinUvFault || r.offLow then [3] else []) ++ (if r.vinOv then [4] else []) ++
  (if read && off then [5] else [])

/-- The INPUT bit of STATUS_WORD is set. -/
def ShelfReading.input (r : ShelfReading) : Bool := r.vinUvWarn || r.vinUvFault || r.offLow || r.vinOv

end Sys2Proof

namespace Sys2Proof.Machine

/-! ### Power events (R440) -/

/-- Journal a power event; while PWR_WARN_N holds it is kept for resumption (R440). -/
def State.powerEvent (s : State) (e : PowerEvent) : State :=
  let s := { s with power := { s.power with events := lastN 16 (s.power.events ++ [e]) } }
  if s.power.holdup then { s with power := { s.power with kept := s.power.kept ++ [e] } }
  else s.stageHist (.power e) 1

/-- A power event that concerns no unit (R440). -/
def State.plainEvent (s : State) (kind us : Nat) : PowerEvent where
  tick := s.now
  kind := kind
  unit := 0xFF
  vin := 0
  duration := us
  freq := 0

/-! ### The power seal (R105, R432-R434) -/

/-- A task's durable change is staged. -/
def State.hasRecord (s : State) (t : Task) : Bool := s.ledger.pendingRecs.any (·.task = some t.id)

/-- A task whose durable change is not staged when PWR_WARN_N is recognised ends with POWER_HOLDUP (R432). One that changes nothing
durable goes on; so do an eviction or release whose revoking record is staged, and a rebind, which waits for resumption (R355). -/
def State.holdTask (s : State) (t : Task) : State :=
  if s.hasRecord t then s
  else match t.kind with
  | .scan _ => s.taskDropped t .powerHoldup
  | .install .. => s.taskDropped t .powerHoldup
  | .boreOpen .. => s.taskDropped t .powerHoldup
  | .activate .. => s.taskDropped t .powerHoldup
  | .reset .. => s.taskDropped t .powerHoldup
  | .release _ _ .revoke _ _ => s
  | .release _ _ .waiting _ _ => s
  | .release _ _ .scrubbing _ _ => if s.val.slotOf t.quire = 0 then s.taskDropped t .powerHoldup else s
  | .release .. => s.taskDropped t .powerHoldup
  | .keyInstall .. => s.taskDropped t .powerHoldup
  | .download .. => s.taskDropped t .powerHoldup
  | .roleClaim .. => s.taskDropped t .powerHoldup
  | .shaperClaim .. => s.taskDropped t .powerHoldup
  | _ => s

/-- The checkpoint in progress is abandoned (R109): the anchor keeps pointing to the previous one. -/
def State.holdCkpt (s : State) : State :=
  let s := s.dropCkpt .powerHoldup
  s.updLedger fun g =>
    { g with anchor := { g.anchor with ckNum := g.sealedA.ckNum, ckCovers := g.sealedA.ckCovers, ckPos := g.sealedA.ckPos,
                                       ckLen := g.sealedA.ckLen, digest := g.sealedA.digest } }

/-- The final group (R105): every durable change staged so far, but the begin group of a rebind (R355). -/
def State.finalGroup (s : State) : State :=
  let keep := fun (r : DurRec) => r.kind ≠ 3
  let (rs, s) := s.sizeRecs s.ledger.unbuilt
  let rs := (s.ledger.groups.flatMap (·.recs) ++ rs).filter keep
  s.updLedger fun g => { g with groups := rs.foldl (addRec (s.now + 1)) [], unbuilt := [] }

/-- The steps of R105 begin: the final group is built at once. A faulted or halted director writes none, and during bring-up the
journal is left alone (R94, R370, R437). -/
def State.powerSeal (s : State) : State :=
  if s.faults.fatal.isSome then s
  else
    let s := s.tasks.foldl (fun s t => s.holdTask t) s
    let s := { s with lib := { s.lib with own := s.lib.own.filter fun o => o.task.elim true fun id => (s.task id).isSome } }
    let s := s.updLedger fun g =>
      { g with jobs := g.jobs.filter fun j => match j with | .chunk t .. => (s.task t).isSome | _ => true }
    let s := s.holdCkpt
    if s.ledgerFaulted || !s.ledger.restored then s.updLedger fun g => { g with pseal := .held }
    else
      let s := s.stageHist (.power (s.plainEvent 1 0)) 1
      (s.finalGroup).updLedger fun g => { g with pseal := if g.groups = [] then .anchor else .group, anchorBuilt := none }

/-- PWR_WARN_N is recognised asserted (R432): the power seal begins and durable commands are held. A further assertion before
resumption only counts and stops the resumption window (R433). -/
def execPwrWarnRecognised (s : State) : Host.Outcome State Fault Refusal :=
  if s.power.warn then .next s
  else
    let first := !s.power.holdup
    let w := { s.power with warn := true, window := none, warnings := s.power.warnings + 1,
                            warnAt := if first then s.clk.cycles else s.power.warnAt }
    let s := ({ s with power := w }).raiseNext 14
    if !first then .next s
    else
      let s := { s with power := { s.power with events := lastN 16 (s.power.events ++ [s.plainEvent 1 0]) } }
      let s := s.powerSeal
      .next { s with power := { s.power with holdup := true } }

/-- A shorter low pulse is ignored and counted (R432). -/
def execPwrWarnPulseIgnored (s : State) : Host.Outcome State Fault Refusal :=
  .next { s with power := { s.power with pulses := s.power.pulses + 1 } }

/-- A recognised deassertion starts the resumption window (R434, R435). -/
def execPwrWarnDeassert (s : State) : Host.Outcome State Fault Refusal :=
  if !s.power.warn then .next s
  else .next { s with power := { s.power with warn := false, window := some s.clk.cycles,
                                              lastWarn := (s.clk.cycles - s.power.warnAt) / usCycles 1 } }

/-- Every quire's admission stops at the boundary after recognition (R432). -/
def State.holdAdmission (s : State) : State :=
  if s.power.holdup then
    (0 :: s.stg.led.quires.map (·.id)).foldl (fun s q =>
      if (s.stg.vol.quire q).admitted then s.stopAdmission q s.now else s) s
  else s

/-- The rebinds that the hold stopped roll back (R355). -/
def State.resumeRebinds (s : State) : State :=
  s.tasks.foldl (fun s t => match t.kind with
    | .rebind r => s.rebindStop t r .powerHoldup
    | _ => s) s

/-- Resumption (R435), after 100 ms without warning or input faults: durable commands and admission resume, the events kept are
journaled with a resumption entry, and the power source is raised. A confirm window that ended meanwhile has 60 s more (R484). -/
def execResumption (s : State) : Host.Outcome State Fault Refusal :=
  match s.power.window with
  | none => .next s
  | some c =>
    if !s.power.holdup || s.power.warn || s.clk.cycles < c + msCycles 100 || s.clk.phase ≠ .intake || s.ledger.pseal = .group ||
        s.ledger.pseal = .anchor then .next s
    else
      let kept := s.power.kept
      let s := { s with power := { s.power with holdup := false, window := none, kept := [] } }
      let s := s.updLedger fun g => { g with pseal := .idle, refillAt := s.clk.cycles }
      let s := kept.foldl (fun s e => s.stageHist (.power e) 1) s
      let s := (s.powerEvent (s.plainEvent 6 s.power.lastWarn)).resumeRebinds
      let s := s.resumeAll (0 :: s.stg.led.quires.map (·.id)) s.now
      let s := if s.fw.extend then
          { s with fw := { s.fw with extend := false, windowEnd := some (s.clk.cycles + 60 * Config.hz) } }
        else s
      .next (s.raiseNow (BitVec.ofNat 64 (2 ^ 14)))

/-! ### PMBus (R438-R440, R596) -/

/-- An event goes on, or begins (R440): its lowest voltage, and 10 ms for each poll that shows it. -/
def State.seeEvent (s : State) (r : ShelfReading) (k : Nat) : State :=
  let u := 0x58 + r.unit
  let p := s.power
  let open_ := if p.open_.any (fun e => e.unit = u && e.kind = k) then
      modWhere p.open_ (fun e => e.unit = u && e.kind = k) fun e =>
        { e with vin := min e.vin r.vin, duration := e.duration + 10000 }
    else p.open_ ++ [{ tick := s.now, kind := k, unit := u, vin := r.vin, duration := 10000, freq := r.freq }]
  { s with power := { p with open_ := open_ } }

/-- A poll that shows an event no more ends it: it is recorded (R440). -/
def State.endEvents (s : State) (u : Nat) (ks : List Nat) : State :=
  let gone := fun (e : PowerEvent) => e.unit = 0x58 + u && !ks.contains e.kind
  let ended := s.power.open_.filter gone
  ended.foldl (fun s e => s.powerEvent e) { s with power := { s.power with open_ := s.power.open_.filter fun e => !gone e } }

/-- The nominal frequency (R439): 50 Hz or 60 Hz, whichever the first reading lies nearer to; midway it is free. -/
def State.setNominal (s : State) (f : Nat) : State :=
  if s.power.nominal.isSome then s
  else
    let (b, s) := if f = 5500 then s.freeBool else (f < 5500, s)
    { s with power := { s.power with nominal := some (if b then 5000 else 6000) } }

/-- An answer of a unit (R435, R439): CLEAR_FAULTS follows an event, and an input fault restarts the resumption window. -/
def State.shelfAnswer (s : State) (r : ShelfReading) : State :=
  let read := r.input || s.power.warn
  let s := if read then s.setNominal r.freq else s
  let ks := r.kinds s.power.nominal read
  let s := ks.foldl (fun s k => s.seeEvent r k) s
  let s := s.endEvents r.unit ks
  let s := if ks = [] then s else { s with power := { s.power with clears := s.power.clears ++ [r.unit] } }
  if r.vinUvFault || r.offLow then
    { s with power := { s.power with window := s.power.window.map fun _ => s.clk.cycles } }
  else s

/-- Change a shelf unit. -/
def State.updShelf (s : State) (u : Nat) (f : Shelf → Shelf) : State :=
  { s with power := { s.power with shelves := modWhere s.power.shelves (·.unit = u) f } }

/-- A unit that did not answer: three polls in a row are a lasting fault (R439). -/
def State.shelfSilent (s : State) (u : Nat) : State :=
  match s.power.shelves.find? (·.unit = u) with
  | none => s
  | some x =>
    let s := s.updShelf u fun x => { x with missed := x.missed + 1 }
    if x.missed = 2 then (s.updShelf u fun x => { x with lost := true, probeAt := s.clk.cycles }).fault 2 0x0E 0 else s

/-- A round of polling (R439, R596), every 10 ms, and one more in a drone phase where PMB_ALERT_N asked for it. The units that answer in
the first round are the shelf units (R438). -/
def execPmbusPoll (readings : List ShelfReading) (s : State) : Host.Outcome State Fault Refusal :=
  let due := s.reached s.power.pollAt
  if !due && !(s.power.alert && s.clk.phase = .drone) then .next s else
  let s := if due then { s with power := { s.power with pollAt := s.clk.cycles + msCycles 10 } } else s
  let found := if s.power.probed then s.power.shelves else
    (readings.filter fun r => r.answered && r.unit < 8).map fun r => ({ unit := r.unit, missed := 0, lost := false, probeAt := 0 } : Shelf)
  let s := { s with power := { s.power with probed := true, shelves := found, alert := false } }
  .next (readings.foldl (fun s r =>
    match s.power.shelves.find? (·.unit = r.unit) with
    | none => s
    | some x =>
      if x.lost then s
      else if r.answered then (s.updShelf r.unit fun x => { x with missed := 0 }).shelfAnswer r
      else s.shelfSilent r.unit) s)

/-- A lost unit is probed again every second (R439). -/
def execPmbusReprobe (unit : Nat) (answered : Bool) (s : State) : Host.Outcome State Fault Refusal :=
  .next (s.updShelf unit fun x =>
    if !x.lost || !s.reached (x.probeAt + Config.hz) then x
    else if answered then { x with lost := false, missed := 0 }
    else { x with probeAt := s.clk.cycles })

/-- PMB_ALERT_N asks for one extra polling round in the next drone phase (R596). -/
def execPmbAlert (s : State) : Host.Outcome State Fault Refusal := .next { s with power := { s.power with alert := true } }

/-! ### Ceilings and the cluster clock (R441-R446) -/

/-- The highest used point of a TTC at or below a temperature (R444). -/
def ttcPoint (ps : List (Int × Nat)) (tj : Int) : Option Nat :=
  ((List.range ps.length).filter fun i => (ps.getD i (0, 16)).1 ≤ tj).getLast?

/-- The ceiling of a point. -/
def ttcN (ps : List (Int × Nat)) : Option Nat → Nat
  | some i => (ps.getD i (0, 16)).2
  | none => 16

/-- Whether one point lies above another; none lies below every point. -/
def pointAbove (a b : Option Nat) : Bool :=
  match a, b with
  | some x, some y => y < x
  | some _, none => true
  | none, _ => false

/-- The thermal ceiling in the drone phase (R444): it falls at once; ticks at least 1.0 °C below the point in effect count towards
a rise. -/
def State.senseHeat (s : State) (tj : Int) : State :=
  let ps := ttcPoints s.vis.led
  let p := s.power
  let now := ttcPoint ps tj
  let cool : Bool := match p.thermalPt with
    | some i => decide (tj + 10 ≤ (ps.getD i (0, 16)).1)
    | none => false
  if pointAbove now p.thermalPt then
    { s with power := { p with tj := tj, thermalPt := now, thermalN := ttcN ps now, coolFor := 0 } }
  else { s with power := { p with tj := tj, coolFor := if cool then p.coolFor + 1 else 0 } }

/-- The ceiling under a newly activated TTC applies from its boundary (R445). -/
def State.newTtc (s : State) : State :=
  let ps := ttcPoints s.vis.led
  let i := ttcPoint ps s.power.tj
  { s with power := { s.power with thermalPt := i, thermalN := ttcN ps i, coolFor := 0 } }

/-- The budget ceiling in the drone phase (R442): an average over the last 64 ticks above the cap takes it down one step; ticks below
95 % of the cap count towards a rise. -/
def State.sensePower (s : State) (w : Nat) : State :=
  let p := { s.power with samples := lastN 64 (s.power.samples ++ [w]) }
  let cap := 10 * s.capNow
  let high := cap < p.average
  let low := 100 * p.average < 95 * cap
  { s with power := { p with budgetN := if high then max 4 (p.budgetN - 1) else p.budgetN
                             unattainable := high && p.budgetN = 4
                             lowFor := if low then p.lowFor + 1 else 0 } }

/-- After 1,024 ticks below 95 % of the cap the budget ceiling rises one step (R442). -/
def execBudgetCeilingRise (s : State) : Host.Outcome State Fault Refusal :=
  .next (if 1024 ≤ s.power.lowFor && s.power.budgetN < 16 then
    { s with power := { s.power with budgetN := s.power.budgetN + 1, lowFor := 0 } } else s)

/-- After 1,024 ticks at least 1.0 °C below the point in effect the thermal ceiling rises to the point below, or to 16 (R444). -/
def execThermalCeilingRise (s : State) : Host.Outcome State Fault Refusal :=
  match s.power.thermalPt with
  | none => .next s
  | some i =>
    if s.power.coolFor < 1024 then .next s
    else
      let j := if i = 0 then none else some (i - 1)
      .next { s with power := { s.power with thermalPt := j, thermalN := ttcN (ttcPoints s.vis.led) j, coolFor := 0 } }

/-- CLUSTER_WAVES has ended: the cluster clock may rise (R457). -/
def State.wavesOver (s : State) : Bool :=
  match s.boot.stage with
  | .held | .rotRom | .fwVerify | .controlStart | .clusterWaves | .halted => false
  | .hbmTrain | .memTest | .leafZero | .laneTrain | .discovery | .inService => true

/-- The cluster clock moves one step toward the lower ceiling (R441): down at most one step a tick, up one step in 16 ticks and only
after CLUSTER_WAVES (R457). -/
def execClusterClockStep (s : State) : Host.Outcome State Fault Refusal :=
  let p := s.power
  let want := min p.budgetN p.thermalN
  if want < p.clkN && !p.stepped then .next { s with power := { p with clkN := p.clkN - 1, stepped := true } }
  else if p.clkN < want && !p.stepped && 16 ≤ p.sinceUp && s.wavesOver then
    .next { s with power := { p with clkN := p.clkN + 1, stepped := true, sinceUp := 0 } }
  else .next s

/-- A new tick for the cluster clock (R441). -/
def Power.newTick (p : Power) : Power := { p with stepped := false, sinceUp := p.sinceUp + 1 }

end Sys2Proof.Machine
end

