-- ==== Sys2Proof/Machine/Eth.lean ====
section
/-! DEFINITION. The management Ethernet ports (R125-R127, R583, R623): ARP, discarded frames and link-up. -/
namespace Sys2Proof.Machine

/-- A management port: 0 ETH0, 1 ETH1. -/
def State.eth (s : State) (k : Nat) : EthPort := if k = 0 then s.eth0 else s.eth1

/-- Change a management port. -/
def State.updEth (s : State) (k : Nat) (f : EthPort → EthPort) : State :=
  if k = 0 then { s with eth0 := f s.eth0 } else if k = 1 then { s with eth1 := f s.eth1 } else s

/-- The IPv4 address of a port (R126, R150): ETH0's until a manifest sets it is 169.254.(64 + v).1; ETH1 has none before one. -/
def State.ownIp (s : State) (k : Nat) : Option Ip :=
  match s.vis.led.manifest with
  | some m => some (if k = 0 then m.ip0 else m.ip1)
  | none => if k = 0 then some (0xA9FE0001 + (64 + s.volume) * 256) else none

/-- Send a frame of ARP. -/
def EthPort.put (e : EthPort) (x : EthOut) : EthPort := { e.count 2 arpBytes with sent := e.sent ++ [x] }

/-- A management port works (R452, R453): not while the director is held in reset. -/
def State.ethLive (s : State) (k : Nat) : Bool := s.boot.stage ≠ .held && k < 2

/-- One more of a counter. -/
def EthPort.one (e : EthPort) (i : Nat) : EthPort := { e with counters := modAt e.counters i (· + 1) }

/-- One gratuitous ARP request for the port's address (R127). -/
def State.announceIp (s : State) (k : Nat) : State :=
  match s.ownIp k with
  | some ip => if (s.eth k).up then s.updEth k fun e => e.put (.announce ip) else s
  | none => s

/-- An ARP request: one for the port's own address is answered; any other is ignored (R127). -/
def execArpRequestRx (port : Nat) (target sender : Ip) (mac : Nat) (s : State) : Host.Outcome State Fault Refusal :=
  if !s.ethLive port then .next s
  else
    let s := s.updEth port (·.count 0 arpBytes)
    .next (if s.ownIp port = some target then s.updEth port fun e => (e.one 12).put (.arpAnswer sender mac) else s)

/-- Send the OCS messages that waited for an address (R127). -/
def State.sendHeld (s : State) (ip : Ip) : State :=
  let ms := s.ocs.hold.filter fun m => s.unitIp m.unit = ip
  ms.foldl (fun s m => s.putOcs m)
    { s with ocs := { s.ocs with hold := s.ocs.hold.filter fun m => s.unitIp m.unit ≠ ip } }

/-- An ARP reply: one to a request of the port's own that is unanswered resolves the address; at most 64 are held (R127). -/
def execArpReplyRx (port : Nat) (sender : Ip) (mac : Nat) (s : State) : Host.Outcome State Fault Refusal :=
  if !s.ethLive port then .next s
  else
    let s := s.updEth port (·.count 0 arpBytes)
    if (s.eth port).asks.contains sender then
      .next ((s.updEth port fun e =>
        { e.one 12 with arp := lastN 64 (e.arp.filter (·.1 ≠ sender) ++ [(sender, mac, s.clk.cycles)]), asks := e.asks.filter (· ≠ sender) }).sendHeld sender)
    else .next s

/-- The counter of a discarded frame (R623). -/
def discardIndex : EthDiscard → Nat
  | .fcs => 5
  | .other => 6
  | .fragment => 7
  | .oversize => 8
  | .format => 9
  | .source => 10
  | .pause => 11
  | .secured => 4

/-- A frame is discarded and counted (R125, R583, R623); ETH0 has no DISC_SOURCE, which reads zero. A secured message of channel 0 that
fails its session's checks was delivered, and is counted in SEC_DISCARD (R138, R614). -/
def execEthFrameDiscard (port : Nat) (why : EthDiscard) (bytes : Nat) (s : State) : Host.Outcome State Fault Refusal :=
  if !s.ethLive port then .next s
  else
    let t := s.updEth port fun e =>
      let e := if why = .fcs then e else e.count 0 bytes
      if port = 0 && why = .source then e else e.one (discardIndex why)
    .next (if why = .secured && port = 0 && s.rot.session.isSome then
        t.updChan 0 fun ch => { ch with secDiscard := satSucc 0xFFFFFFFF ch.secDiscard }
      else t)

/-- A port's link comes up (R127). -/
def execEthLinkUp (port : Nat) (s : State) : Host.Outcome State Fault Refusal :=
  if !s.ethLive port || (s.eth port).up then .next s
  else .next ((s.updEth port fun e => { e with up := true }).announceIp port)

/-- A resolved address is 300 s old: it is dropped, and a unit's is asked for again (R127). -/
def execArpEntryExpiry (port : Nat) (addr : Ip) (s : State) : Host.Outcome State Fault Refusal :=
  if !(s.eth port).arp.any (fun x => x.1 = addr && s.reached (x.2.2 + 300 * Config.hz)) then .next s
  else
    let used := match s.vis.led.manifest with | some m => m.unitsInUse.any (s.unitIp · = addr) | none => false
    let s := s.updEth port fun e => { e with arp := e.arp.filter (·.1 ≠ addr) }
    .next (if used then s.updEth port fun e => { e.put (.arpAsk addr) with asks := e.asks.filter (· ≠ addr) ++ [addr] } else s)

end Sys2Proof.Machine
end

