-- ==== Sys2Proof/Machine/Lst.lean ====
section
/-! DEFINITION. Optical ports (R42, R156, R163-R166, R193, R213, R233, R366, R367, R575, R576, R589): the link state table, link
beacons, and lane and loopback measurements. -/
namespace Sys2Proof.Machine

/-! ### Events -/

/-- The events a port's PMD, CDR and FEC report (R163): signal lost and detected, CDR lock, FEC alignment lock, SNR margin below its
threshold. -/
def phyEvent (ev : Nat) : Bool := [0, 7, 8, 9, 11].contains ev

/-- A PMD, CDR or FEC event is latched (R165). -/
def execPortLinkEvent (port event : Nat) (s : State) : Host.Outcome State Fault Refusal :=
  .next (if s.boot.stage = .held || !phyEvent event then s else s.latch port event)

/-- The timer of a port's state has run out: event 13 (R165). A timer holds one more than the ticks left. -/
def execLstTimerExpiry (port : Nat) (s : State) : Host.Outcome State Fault Refusal :=
  .next (if (s.port port).timer = 1 then (s.updPort port fun p => { p with timer := 0 }).latch port 13 else s)

/-- An external laser input below its alarm level: event 2 on every port of its FAU (R589). -/
def execElsAlarm (fau : Nat) (s : State) : Host.Outcome State Fault Refusal :=
  .next (if s.boot.stage = .held || 7 < fau then s
    else (List.range 8).foldl (fun s i => s.latch (8 * fau + i) 2) s)

/-! ### Link beacons (R156, R213) -/

/-- The director's link beacon on a port. -/
def State.sendBeacon (s : State) (d : Nat) : State :=
  s.ctlOn d 0x01 true 0 (le 1 1 ++ le 1 d ++ le 1 s.boot.straps.role ++ le 1 0 ++ le 8 s.now)

/-- The link beacons of a tick: every tick where the state's flag says so, else every 64 ticks on a link that is up. -/
def State.linkBeacons (s : State) : State :=
  (List.range 64).foldl (fun s d =>
    let v := (s.port d).vis
    if v.beacon || (v.status = 2 && s.now % 64 = 0) then s.sendBeacon d else s) s

/-! ### The link state table (R163-R166) -/

/-- A state's timer as it starts. -/
def lstTimer (l : Led) (fw st : Nat) : Nat :=
  let t := (lstState l fw st).2.2
  if t = 0 then 0 else t + 1

/-- What a port shows: a degraded port carries no data (R165, R367). -/
def State.portView (s : State) (p : Port) : LinkView :=
  let v := lstView s.vis.led s.fw.ver p.lst
  { v with data := v.data && !p.degraded }

/-- A port enters its degraded mode (R367). -/
def State.degradePort (s : State) (d : Nat) : State :=
  (s.updPort d fun p => { p with degraded := true }).setDegraded 2 true

/-- A transition to another state: its timer starts, and a failed state degrades the port (R165, R367). -/
def State.enterLst (s : State) (d st : Nat) : State :=
  let s := s.updPort d fun p => { p with lst := st, timer := lstTimer s.vis.led s.fw.ver st }
  if (lstState s.vis.led s.fw.ver st).1 = 4 then s.degradePort d else s

/-- Apply an event's cell to a port's state, with its actions (R163, R165). -/
def State.lstApply (s : State) (d ev : Nat) : State :=
  let old := (s.port d).lst
  let c := lstCell s.vis.led s.fw.ver old ev
  let s := if c.1 = old then s else s.enterLst d c.1
  let s := if bit c.2 2 then s.sendBeacon d else s
  let s := if bit c.2 3 then s.count d 19 1 else s
  let s := if bit c.2 4 then s.suspect (.port d) else s
  let s := if bit c.2 5 then s.fault 2 0x02 d else s
  if bit c.2 6 then s.raiseNext 12 else s

/-- Apply latched events in ascending order, at most four transitions; the others stay latched (R165). -/
def State.lstRun (s : State) (d : Nat) : List Nat → Nat → State
  | [], _ => s.updPort d fun p => { p with latched := [] }
  | ev :: l, 0 => s.updPort d fun p => { p with latched := ev :: l }
  | ev :: l, n + 1 => (s.lstApply d ev).lstRun d l n

/-- A degraded port whose state admits data and that nothing marks suspect leaves its degraded mode (R367). -/
def State.recoverPort (s : State) (d : Nat) : State :=
  let p := s.port d
  let v := lstView s.vis.led s.fw.ver p.lst
  if p.degraded && v.data && !v.suspect && !s.faults.suspects.contains (.port d) then
    let s := s.updPort d fun p => { p with degraded := false }
    (s.setDegraded 2 (s.ports.any (·.degraded))).fault 5 0x02 d
  else s

/-- A port's part of a work phase (R165). The bench role holds every port with event 1 latched (R144). -/
def State.lstPort (s : State) (d : Nat) : State :=
  let evs := (s.port d).latched
  let s := (s.lstRun d (if s.boot.straps.bench then insertSorted 1 evs else evs) 4).recoverPort d
  let v := s.portView (s.port d)
  let s := if v.suspect = (s.port d).stg.suspect then s else s.raiseNext 13
  s.updPort d fun p => { p with stg := v }

/-- Every port's part of a work phase, from LANE_TRAIN on (R465). -/
def State.lstAll (s : State) : State :=
  match s.boot.stage with
  | .laneTrain | .discovery | .inService => (List.range 64).foldl (fun s d => s.lstPort d) s
  | _ => s

/-- A port's boundary: what it showed in staging is visible, and its timer counts (R163, R165). -/
def Port.boundary (p : Port) : Port := { p with vis := p.stg, timer := if 1 < p.timer then p.timer - 1 else p.timer }

/-- The boundary at which an activated LST is visible (R166): states stay, timers restart with the new descriptors, and a port whose
state admits data no more stops. -/
def State.newLst (s : State) : State :=
  { s with ports := s.ports.map fun p =>
      let v := s.portView p
      { p with timer := lstTimer s.vis.led s.fw.ver p.lst, stg := v, vis := v } }

/-- A port enters state 0 when it is disabled (R163), whatever its LST's cell of event 1 says. -/
def State.disablePort (s : State) (d : Nat) : State :=
  s.updPort d fun p =>
    let v := s.portView { p with lst := 0 }
    { p with lst := 0, timer := lstTimer s.vis.led s.fw.ver 0, stg := v, vis := v }

/-- A change of a port's enable bit that became visible latches event 14 or 1 (R541), and a disabled port enters state 0 (R163); under the
bench role event 1 stays. -/
def State.enableEvents (s : State) (old : Led) : State :=
  (List.range 64).foldl (fun s d =>
    let on := portEnabled s.vis.led d
    if on = portEnabled old d || s.boot.straps.bench then s
    else if on then s.latch d 14 else (s.latch d 1).disablePort d) s

/-- A port whose link is not up discards the data packets whose paths are masked (R193, R227). -/
def State.dropMasked (s : State) : State :=
  (List.range 64).foldl (fun s d =>
    let p := s.port d
    let gone := if p.vis.status = 2 then [] else p.egress.filter (·.quire ≠ 0)
    if gone = [] then s
    else (s.updPort d fun p => { p with egress := p.egress.filter (·.quire = 0) }).count d 10 gone.length) s

/-- A tick whose uncorrectable codewords exceed the port's threshold latches event 3 (R233). -/
def State.fecEvents (s : State) : State :=
  (List.range 64).foldl (fun s d =>
    let p := s.port d
    let n := p.counters.getD 18 0
    let s := if (portDefault s s.vis.led d).fec < n - p.uncorrMark then s.latch d 3 else s
    s.updPort d fun p => { p with uncorrMark := n }) s

/-! ### diag.loop (R575) -/

/-- A loopback test runs on a port. -/
def State.looped (s : State) (d : Nat) : Bool := s.tasks.any fun t => match t.kind with | .loop e _ => e = d | _ => false

/-- diag.loop. A second test of a port in progress is BUSY_TICK (R58). -/
def hDiagLoop : Handler := fun c s =>
  let d := c.u8 0
  let n := c.u32 4
  if 63 < d || 1 < c.u8 1 || n < 64 || 1048576 < n then refuse s .badParam
  else if s.looped d then refuse s .busyTick
  else if portEnabled s.val d && !s.boot.straps.bench then refuse s .notPermitted
  else multi c (s.updPort d fun p => { p with looping := true }) (.loop d n)

def execDiagLoop (p : Pkt) (s : State) : Host.Outcome State Fault Refusal := .next (s.present 0x0E01 hDiagLoop p)

/-- A loopback test at a boundary: at its end it reports what it measured (free values). -/
def State.boundaryLoop (s : State) (t : Task) : State :=
  match t.kind with
  | .loop d left =>
    if 1 < left then s.updTask t.id fun t => { t with kind := .loop d (left - 1) }
    else
      let (b, s) := s.freeBytes 29
      (s.updPort d fun p => { p with looping := false }).endTask t .ok (b ++ le 3 0)
  | _ => s

/-! ### diag.lane (R366, R576) -/

/-- The element a diag.lane names, or none where a field is out of range. -/
def laneElement (c : Taken) (s : State) : Option Element :=
  let x := c.u32 4 % 2 ^ 20
  if c.u8 0 = 0 then (if c.u8 1 < 64 then some (.port (c.u8 1)) else none)
  else if c.u8 0 = 1 && c.u8 1 ≤ 3 && s.presentIn s.stg x && cGath x ≠ 63 then some (.uplink (x - cFun x) (c.u8 1))
  else none

/-- A measured value of 16 bits with a sign. -/
def signed16 (n : Nat) : Int := (n % 65536 : Nat) - 32768

/-- A sample of every lane and laser input, taken at once: measured values, which are free. -/
def State.freeSample (s : State) : LaneSample × State :=
  let f := fun (i : Nat) => Config.freeNat (s.freeCtr + i)
  ({ els := (List.range 8).map fun i => signed16 (f i)
     lanes := (List.range 512).map fun i =>
       { rxPower := signed16 (f (8 + 4 * i)), txMon := signed16 (f (9 + 4 * i)), snr := f (10 + 4 * i) % 256,
         ber := f (11 + 4 * i) % 256 } },
   { s with freeCtr := s.freeCtr + 2056 })

/-- The laser source of a FAU has a new reference, and its retirement is advised no more (R112, R576). -/
def newReference (l : Led) (f : Nat) (x : LaneSample) : Obj :=
  .laser ((List.range 8).map fun i => if i = f then some (x.els.getD f 0) else l.laserRef.getD i none)
    (l.advised.filter (· ≠ f))

/-- diag.lane with action 1: durable, for a director port. -/
def resetReference (c : Taken) (s : State) : State × Verdict :=
  match s.durableRefusal with
  | some st => refuse s st
  | none =>
    let (x, s) := s.freeSample
    durable c (s.stageHist (.lane s.now x) 1) [newReference s.val (c.u8 1 / 8) x] none []

/-- diag.lane (R576). -/
def hDiagLane : Handler := fun c s =>
  match laneElement c s with
  | none => refuse s .badParam
  | some e =>
    if 1 < c.u8 2 || (c.u8 2 = 1 && c.u8 0 ≠ 0) then refuse s .badParam
    else if s.faults.measuring.any (·.1 = e) then refuse s .busyTick
    else if c.u8 2 = 1 then resetReference c s
    else
      let f := { s.faults with measuring := s.faults.measuring ++ [(e, some s.nextTask, s.now)] }
      multi c { s with faults := f } (.lane e)

def execDiagLaneMeasure (p : Pkt) (s : State) : Host.Outcome State Fault Refusal := .next (s.present 0x0E02 hDiagLane p)
def execDiagLaneResetReference (p : Pkt) (s : State) : Host.Outcome State Fault Refusal :=
  .next (s.present 0x0E02 hDiagLane p)

/-- The director starts the scheduled measurement of a suspect element (R366). -/
def execScheduledDiagLane (e : Element) (s : State) : Host.Outcome State Fault Refusal :=
  if !s.faults.scheduled.contains e || s.faults.measuring.any (·.1 = e) then .next s
  else
    let f := { s.faults with scheduled := s.faults.scheduled.filter (· ≠ e), measuring := s.faults.measuring ++ [(e, none, s.now)] }
    .next { s with faults := f }

/-- A measurement passes (R366, R576). -/
def State.lanePasses (s : State) (e : Element) (lanes : List LaneEntry) (uncorrectable missing : Bool) : Bool :=
  match e with
  | .port d => !uncorrectable &&
      (List.range 8).all fun i => (portDefault s s.vis.led d).snr ≤ (lanes.getD i laneZero).snr
  | _ => !uncorrectable && !missing

/-- A failed measurement is a lasting fault of the port or endpoint (R366, R367). -/
def State.laneFailed (s : State) (e : Element) : State :=
  match e with
  | .port d => (s.fault 2 0x02 d).degradePort d
  | .uplink c _ => s.fault 2 0x0C c
  | .elec g x _ => s.fault 2 0x0C (mkCoord s.volume g x 0)

/-- The result of a measurement (R576). -/
def laneResult (e : Element) (pass : Bool) (lanes : List LaneEntry) : List Byte :=
  le 1 (b2n pass) ++ le 7 0 ++ (match e with
    | .port _ => (List.range 8).flatMap fun i => laneBytes (lanes.getD i laneZero)
    | _ => le 48 0)

/-- A measurement ends after 4,096 ticks (R366): a pass clears the suspect mark, a fail keeps it. -/
def execDiagLaneEnd (e : Element) (lanes : List LaneEntry) (uncorrectable reportsMissing : Bool) (s : State) :
    Host.Outcome State Fault Refusal :=
  match s.faults.measuring.find? (·.1 = e) with
  | none => .next s
  | some (_, task, start) =>
    if s.since start < 4096 then .next s else
    let pass := s.lanePasses e lanes uncorrectable reportsMissing
    let marked := s.faults.suspects.contains e
    let f := { s.faults with measuring := s.faults.measuring.filter (·.1 ≠ e)
                             suspects := if pass then s.faults.suspects.filter (· ≠ e) else s.faults.suspects }
    let s := { s with faults := f }
    let s := match e with
      | .port d => s.updPort d fun p => { p with lanes := (List.range 8).map fun i => lanes.getD i laneZero }
      | _ => s
    let s := if pass then (if marked then s.raiseNext 13 else s) else s.laneFailed e
    match task.bind s.task with
    | some t => .next (s.endTask t .ok (laneResult e pass lanes))
    | none => .next s

end Sys2Proof.Machine
end

