-- ==== Sys2Proof/Machine/LibraryTick.lean ====
section
/-! DEFINITION. Library alignment and claims (R42, R48, R64-R73, R214, R331, R334): tick beacons, leaders, join steps, index jumps,
period changes, FSYNC, and the claims that directors exchange. -/
namespace Sys2Proof

/-- A claim as numbers: its layout is internal to directors (R210). -/
def Claim.code : Claim → List Nat
  | .linkRole v t p l => [0, v, t, p, if l then 1 else 0]
  | .launch v t q tag k m f x h c w set => [1, v, t, q, tag, k, m, f, x, h, c.toNat, w.toNat] ++ set
  | .cancel v t q tag => [2, v, t, q, tag]
  | .failed v t q tag => [3, v, t, q, tag]
  | .bandwidth v t p q r b => [4, v, t, p, q, match r with | some x => x + 1 | none => 0, b]
  | .quiet v t => [5, v, t]

/-- A heard claim that is kept: a launch that may still be matched within 2 × h ticks of the boundaries that passed since a tick (R331,
R53). -/
def Claim.waits (since : Tick → Nat) : Claim → Bool
  | .launch _ t _ _ _ _ _ _ h _ _ _ => since t ≤ 2 * h
  | _ => false

/-- The tick of a claim. -/
def Claim.tick : Claim → Tick
  | .linkRole _ t _ _ => t
  | .launch _ t _ _ _ _ _ _ _ _ _ _ => t
  | .cancel _ t _ _ => t
  | .failed _ t _ _ => t
  | .bandwidth _ t _ _ _ _ => t
  | .quiet _ t => t

/-- The volume of a claim's sender. -/
def Claim.vol : Claim → Nat
  | .linkRole v _ _ _ => v
  | .launch v _ _ _ _ _ _ _ _ _ _ _ => v
  | .cancel v _ _ _ => v
  | .failed v _ _ _ => v
  | .bandwidth v _ _ _ _ _ => v
  | .quiet v _ => v

end Sys2Proof

namespace Sys2Proof.Machine

/-! ### Beacons and leaders (R64, R65, R214) -/

/-- A beacon gives alignment: not too old, not too far, its state neither joining nor reserved, its link in the graph (R65, R214). -/
def State.usable (s : State) (b : Beacon) : Bool :=
  b.age < 256 && b.hops < 63 && b.align ≠ 1 && b.align ≤ 3 && s.libPorts.contains b.port

/-- The usable beacons that lead to a leader, the fewest hops first, then the lowest volume (R65). -/
def State.sourceFor (s : State) (leader : Nat) : Option Beacon :=
  let bs := s.lib.beacons.filter fun b => s.usable b && b.leader = leader
  bs.find? fun b => bs.all fun c => b.hops < c.hops || (b.hops = c.hops && b.volume ≤ c.volume)

/-- The neighbour the director takes its alignment from. -/
def State.source (s : State) : Option Beacon := if s.lib.leader = s.volume then none else s.sourceFor s.lib.leader

/-- The lowest volume whose beacons reach this director, itself included (R65). -/
def State.electedLeader (s : State) : Nat := (s.lib.beacons.filter s.usable).foldl (fun l b => min l b.leader) s.volume

/-- Announce a period change and its switch index, to the endpoints too (R48, R509 subtype 4). -/
def State.announcePeriod (s : State) (p : Nat) (t : Tick) : State :=
  { s with clk := { s.clk with announced := some (p, t) } }.sendCtls 0x0D (s.endpoints 0) (periodNotice p t)

/-- A director that leads announces the period of its manifest at least 1,024 ticks ahead (R48); how far ahead is free. A manifest that
names the period in effect withdraws an announcement that is pending, of which the manual says nothing (DESIGN CHOICE, log entry 183). -/
def State.newPeriod (s : State) (p : Nat) : State :=
  if s.lib.leader ≠ s.volume then s
  else if p = s.clk.period then { s with clk := { s.clk with announced := none } }
  else
    let (n, s) := s.freeNat
    s.announcePeriod p (s.now + 1024 + n % 2 ^ 16)

/-- The director is part of a library that stands: a follower that hears its leader, or a leader with a follower (R69). -/
def State.inPart (s : State) : Bool :=
  if s.lib.leader = s.volume then s.lib.beacons.any fun b => s.usable b && b.leader = s.volume
  else (s.lib.align = 2 || s.lib.align = 3) && (s.sourceFor s.lib.leader).isSome

/-- The part joins that of a lower leader as a whole (R69): the director that hears it announces the boundary of the join steps and the
larger of the two indices there; how far ahead is free, at least 128 ticks, so that the other part hears it 64 ticks ahead (DESIGN CHOICE,
log entry 184). -/
def State.announceMerge (s : State) (v : Nat) : State :=
  match s.sourceFor v with
  | some b =>
    if s.lib.jump.isSome then s
    else
      let (n, s) := s.freeNat
      let k := 128 + n % 2 ^ 16
      { s with lib := { s.lib with jump := some (s.now + k, max (s.now + k) (b.tick + k)) } }
  | none => s

/-- A director that has just become leader announces its own manifest's period (R48). -/
def State.leads (s : State) : State :=
  match s.vis.led.manifest with | some m => s.newPeriod m.period | none => s

/-- Choose the leader and the hop count. A lower leader's part is joined by a join step; a part of several directors keeps its leader until
the boundary at which it joins as a whole; when a leader is lost, a follower is aligned already (R65, R68, R69). -/
def State.elect (s : State) : State :=
  let v := s.electedLeader
  if v < s.lib.leader && s.inPart then s.announceMerge v
  else
    let hops := if v = s.volume then 0 else (match s.sourceFor v with | some b => b.hops + 1 | none => 0)
    let align := if v = s.volume then 0
      else if v < s.lib.leader || s.lib.align = 0 then 1 else s.lib.align
    let was := s.lib.leader
    let s := { s with lib := { s.lib with leader := v, hops := hops, align := align } }
    if v = s.volume && was ≠ s.volume then s.leads else s

/-- A joined follower (R66). -/
def Library.joined (l : Library) : Bool := l.align = 2 || l.align = 3

/-- The error of a joined follower (R66): it is locked while that is at most 4 cycles. -/
def Library.measure (l : Library) (e : Int) : Library :=
  if l.joined then { l with error := e, align := if -4 ≤ e && e ≤ 4 then 3 else 2 } else l

/-- The manifest's period differs from the leader's (R48, R162). -/
def State.periodDiffers (s : State) : State :=
  let m : Mismatch := { code := 0x02, plane := none, object := s.self, found := none, second := none }
  let differs : Bool := match s.val.manifest, s.source with
    | some x, some b => decide (x.period ≠ b.period)
    | _, _ => false
  s.mapTo (if differs then s.val.map.report m else s.val.map.clearMismatch (· = m))

/-- What a follower adopts of its source's announcements: a period change, and the period its source runs at where none is announced
(R48, R214). -/
def State.adopt (s : State) (b : List Byte) (tick : Tick) : State :=
  let p := field b 10 2
  let t := tick + field b 12 4
  if p ≠ 0 then (if p ≠ s.clk.period && s.clk.announced ≠ some (p, t) then s.announcePeriod p t else s)
  else if s.lib.joined && s.now ≤ tick && field b 8 2 ≠ s.clk.period && s.clk.nextPeriod.isNone then
    { s with clk := { s.clk with nextPeriod := some (field b 8 2) } }.sendCtls 0x0D (s.endpoints 0) (periodNotice (field b 8 2) (s.now + 1))
  else s

/-- What every joined director and the leader adopt of the announcement of a forward jump that a neighbour's beacon carries, of their own
part or of a part that joins it (R68, R69). Of two announcements the larger index stands (DEDUCED, log entry 184). -/
def State.adoptJump (s : State) (x : Beacon) (b : List Byte) : State :=
  let t := s.now + field b 20 4
  let v := field b 24 8
  let stands : Bool := match s.lib.jump with | some j => decide (v ≤ j.2) | none => false
  if field b 20 4 = 0 || s.lib.align = 1 || stands || x.leader < s.lib.leader || (s.lib.leader < x.leader && v ≤ t) then s
  else { s with lib := { s.lib with jump := some (t, v) } }

/-- A joined director or the leader that hears a joiner with a larger index announces a forward jump at least 64 ticks ahead; how far ahead is
free (R68). -/
def State.meetJoiner (s : State) (b : Beacon) : State :=
  if b.align = 1 && s.now < b.tick && s.lib.align ≠ 1 && s.lib.jump.isNone then
    let (n, s) := s.freeNat
    let k := 64 + n % 2 ^ 16
    { s with lib := { s.lib with jump := some (s.now + k, b.tick + k) } }
  else s

/-- A tick beacon on a library link (R42, R64-R68). -/
def State.tickBeacon (s : State) (d : Nat) (src : Coord) (phase : Int) (b : List Byte) : State :=
  let v := cVol src
  let dup := portMismatch 0x01 (.dport d)
  if !portLibrary s.boot s.vis.led d then s
  else if v = s.volume then
    let s := (s.updPort d fun p => { p with heldDown := true }).mapTo (s.val.map.report dup)
    ({ s with lib := { s.lib with beacons := s.lib.beacons.filter fun (y : Beacon) => y.port ≠ d } }).elect
  else
    let s := (s.updPort d fun p => { p with heldDown := false }).mapTo (s.val.map.clearMismatch (· = dup))
    let x : Beacon := { port := d, volume := v, tick := field b 0 8, period := field b 8 2, leader := field b 16 1 % 64,
                        hops := field b 17 1, align := field b 18 1, phase := phase, age := 0 }
    let s := ({ s with lib := { s.lib with beacons := (s.lib.beacons.filter fun (y : Beacon) => y.port ≠ d) ++ [x] } }).elect.meetJoiner x
    let s := if x.align = 1 || 3 < x.align then s else s.adoptJump x b
    if s.source = some x then
      ({ s with lib := s.lib.measure phase }.adopt b x.tick).periodDiffers
    else s

def execTickBeaconRx (port : Nat) (uncorrectable : Bool) (phaseError : Int) (pkt : List Byte) (s : State) :
    Host.Outcome State Fault Refusal :=
  .next (s.ctlRx port uncorrectable pkt 0x02 true fun s src b => some (s.tickBeacon port src phaseError b))

/-- The director's tick beacon (R214). -/
def State.beaconBody (s : State) : List Byte :=
  let c := s.clk
  let (p, pt) := match c.announced with | some (p, t) => (p, t - c.now) | none => (0, 0)
  let (jt, jv) := match s.lib.jump with | some (t, v) => (t - c.now, v) | none => (0, 0)
  le 8 c.now ++ le 2 c.period ++ le 2 p ++ le 4 pt ++ le 1 s.lib.leader ++ le 1 s.lib.hops ++ le 1 s.lib.align ++ le 1 0 ++
  le 4 jt ++ le 8 jv

/-- Every live library link carries one tick beacon a tick (R64). -/
def State.tickBeacons (s : State) : State := s.libPorts.foldl (fun s d => s.ctlOn d 0x02 true 0 s.beaconBody) s

/-- After 256 ticks without the leader's beacons a new leader is chosen (R65). -/
def execLeaderTimeout (s : State) : Host.Outcome State Fault Refusal :=
  .next (if s.lib.leader = s.volume || (s.sourceFor s.lib.leader).isSome then s else s.elect)

/-! ### Joining, jumping, changing period (R48, R68-R70) -/

/-- Back in the library: the alignment's degraded mode ends (R367). -/
def State.rejoined (s : State) : State :=
  if s.lib.lost then
    (({ s with lib := { s.lib with lost := false } }).setDegraded 8 false).fault 5 0x08 s.lib.leader
  else s

/-- The next boundary is the one announced for the join steps of the director's part (R69). -/
def State.mergeDue (s : State) (leader : Nat) : Option Tick :=
  if leader < s.lib.leader && s.inPart then (s.lib.jump.filter fun j => decide (j.1 ≤ s.now + 1)).map (·.2) else none

/-- The join step itself: the drone phase is lengthened, the next boundary takes the index and the leader's period (R48, R68). The
neighbours of the director's own part take the same step (R69). -/
def State.joinStep (s : State) (leader i delta : Nat) : State :=
  let was := s.lib.leader
  let s := { s with lib := { s.lib with
    leader := leader, jump := none
    beacons := s.lib.beacons.map fun (b : Beacon) => if b.leader = was then { b with leader := leader } else b } }
  let p := match s.source with | some b => if b.period = s.clk.period then none else some b.period | none => none
  let hops := match s.source with | some b => b.hops + 1 | none => s.lib.hops
  let s := { s with lib := { s.lib with align := 2, hops := hops, badFor := 0, error := 0 }
                    clk := { s.clk with slew := delta, nextIndex := some i, nextPeriod := p, announced := none } }
  let s := match p with
    | some p => s.sendCtls 0x0D (s.endpoints 0) (periodNotice p i)
    | none => s
  s.rejoined.announceAll

/-- A join step (R68, R69): one drone phase is lengthened by Δ, and at the next boundary the index is the larger of the leader's and the
joiner's own plus one, or that announced for the whole part. An index is reserved before it is held (R51). -/
def execJoinStep (leader : Nat) (leaderIndex : Tick) (delta : Nat) (s : State) : Host.Outcome State Fault Refusal :=
  let single := s.lib.align = 1 && s.lib.leader = leader
  let i := max (max leaderIndex ((s.mergeDue leader).getD 0)) (s.now + 1)
  if !s.clk.running || !(single || (s.mergeDue leader).isSome) || s.clk.period ≤ delta || s.reservation ≤ i then .next s
  else .next (s.joinStep leader i delta)

/-- The boundary of an announced forward jump is the next one (R68): it takes the agreed index. -/
def execIndexJump (s : State) : Host.Outcome State Fault Refusal :=
  match s.lib.jump with
  | none => .next s
  | some (t, v) =>
    if s.clk.running && s.lib.align ≠ 1 && t ≤ s.now + 1 && v < s.reservation then
      .next { s with lib := { s.lib with jump := none }, clk := { s.clk with nextIndex := some (max v (s.now + 1)) } }
    else .next s

/-- The boundary that carries the announced switch index is the next one (R48): the period changes there. -/
def execPeriodSwitch (s : State) : Host.Outcome State Fault Refusal :=
  match s.clk.announced with
  | none => .next s
  | some (p, t) =>
    if s.clk.running && t ≤ s.clk.nextIndex.getD (s.now + 1) then
      .next { s with clk := { s.clk with announced := none, nextPeriod := some p } }
    else .next s

/-- A joined follower whose error exceeded 64 cycles for 64 ticks leaves the library (R70): a lasting fault; its library-wide
operations end, and the library link it was aligned by is suspect (R334). -/
def execAlignmentLost (s : State) : Host.Outcome State Fault Refusal :=
  if !s.lib.joined || s.lib.badFor < 64 then .next s
  else
    let near := s.source
    let s := s.lasting 0x08 (match near with | some b => b.volume | none => s.lib.leader)
    let s := (s.stg.vol.ops.filter fun o => o.library && o.state ≠ .ended).foldl (fun s o => s.failOp o .lastingFault) s
    let s := match near with | some b => s.suspect (.port b.port) | none => s
    .next ({ s with lib := { s.lib with lost := true, leader := s.volume, hops := 0, align := 0, badFor := 0, error := 0 } }).leads

/-- The edge falls at an expected boundary: k, 2k, … ticks after the last edge, but no more than 16 (R71). The first edge sets the beat
(DESIGN CHOICE, log entry 185). -/
def State.fsyncDue (s : State) : Bool :=
  match s.vis.led.manifest, s.clk.fsyncAt with
  | some m, some t => (s.clk.tickOut - t) % m.fsyncK = 0 && s.clk.tickOut - t ≤ 16
  | some _, none => true
  | none, _ => false

/-- A rising edge of FSYNC (R71): the leader takes its error, or ignores and counts an edge too far from its expected boundary. -/
def execFsyncEdge (error : Int) (s : State) : Host.Outcome State Fault Refusal :=
  let on := match s.vis.led.manifest with | some m => m.fsync | none => false
  if !s.clk.running || !on || s.lib.align ≠ 0 then .next s
  else
    let near := -64 ≤ error && error ≤ 64
    let c := { s.clk with fsyncAt := if near then some s.clk.tickOut else s.clk.fsyncAt }
    if near && s.fsyncDue then
      .next { s with clk := { c with fsyncAccepted := c.fsyncAccepted + 1 }, lib := { s.lib with error := error } }
    else .next { s with clk := { c with fsyncIgnored := c.fsyncIgnored + 1 } }

/-- The slew of a drone phase (R61, R66, R71): one cycle in each run of 16,384, against the error. A positive error is a boundary that
falls late (as in the worked case of R68). -/
def State.slewOnce (s : State) : State :=
  if s.clk.slew ≠ 0 || s.clk.sinceSlew < 16384 || s.lib.error = 0 || s.lib.align = 1 then s
  else
    let e : Int := if 0 < s.lib.error then -1 else 1
    { s with clk := { s.clk with slew := e, sinceSlew := 0 } }

/-- The library's part of a boundary: beacons age, and a joined follower's bad ticks count (R65, R70). -/
def Library.boundary (l : Library) : Library :=
  { l with beacons := (l.beacons.map fun b => { b with age := b.age + 1 }).filter (·.age < 256)
           badFor := if l.joined && (l.error < -64 || 64 < l.error) then l.badFor + 1 else 0 }

/-! ### Claims (R72, R73, R331, R334) -/

/-- A neighbour's claim arrives on a library link; it is resolved in the next work phase (R72). -/
def execLibraryClaimRx (port : Nat) (claim : Claim) (s : State) : Host.Outcome State Fault Refusal :=
  .next (if s.libPorts.contains port then
    { s with lib := { s.lib with heard := s.lib.heard ++ [(port, claim)] } } else s)

/-- Send a claim on a library link that holds a house session (R398). -/
def State.sendClaim (s : State) (d dest : Nat) (c : Claim) : State :=
  if s.linkHeld d then s.ctlOn d 0x0F false (mkCoord dest 63 0 0) (Config.claimBody c.code) else s

/-- The seal phase sends the claims of the tick (R72), and on each library link without one that there is none (R73); one for a shared link
stays until it is resolved. -/
def State.sendClaims (s : State) : State :=
  let due := s.lib.own.filter (!·.sent)
  let idle := s.neighbours.filter fun b => !due.any fun o => o.port = some b.port
  let s := due.foldl (fun s o =>
    match o.port.orElse fun _ => s.libraryPort o.dest with
    | some d => s.sendClaim d o.dest o.claim
    | none => s) s
  let s := idle.foldl (fun s b => s.sendClaim b.port b.volume (.quiet s.volume s.now)) s
  { s with lib := { s.lib with own := (s.lib.own.filter (·.task.isSome)).map fun o => { o with sent := true } } }

/-- The claims of a tick conflict (R72): on a link's role, or on the bandwidth of a quire on the link. -/
def claimConflict (mine theirs : Claim) : Bool :=
  mine.tick = theirs.tick && (match mine, theirs with
  | .linkRole _ _ _ l, .linkRole _ _ _ k => l ≠ k
  | .linkRole .., .bandwidth .. => true
  | .bandwidth .., .linkRole .. => true
  | .bandwidth _ _ _ q r b, .bandwidth _ _ _ q' r' b' => q = q' && !(r = r' && b = b')
  | _, _ => false)

/-- What a command whose claims were won changes. -/
def TaskKind.claimed : TaskKind → List Obj
  | .roleClaim d cfg => [.port d cfg]
  | .shaperClaim recs => recs.map .shaper
  | _ => []

/-- The quire of a command that claims bandwidth. -/
def TaskKind.claimQuire (q : QuireId) : TaskKind → Option QuireId
  | .shaperClaim _ => some q
  | _ => none

/-- Resolve the claims of one of the director's own commands against what its neighbours claimed in the same tick (R72): the lower volume
wins. None is resolved before every neighbour concerned has claimed (R73). -/
def State.resolveTask (s : State) (heard : List (Nat × Claim)) (id : Nat) : State :=
  let mine := s.lib.own.filter fun o => o.task = some id
  let theirs := fun (o : OwnClaim) => heard.filter fun h => some h.1 = o.port && h.2.tick = o.claim.tick
  if !mine.all fun o => o.sent && s.since o.claim.tick = 1 && theirs o ≠ [] then s
  else
    let s := { s with lib := { s.lib with own := s.lib.own.filter fun o => o.task ≠ some id } }
    match s.task id with
    | none => s
    | some t =>
      if mine.any fun o => o.dest < s.volume && (theirs o).any fun h => claimConflict o.claim h.2 then s.failTask t .notPermitted []
      else match s.durableRefusal with
        | some st => s.failTask t st []
        | none => s.stageTask t 1 t.kind.claimed (t.kind.claimQuire t.quire)

/-- A neighbour's claim on the shared link takes effect here too, unless a claim of the director's own won over it (R72). -/
def State.neighbourClaim (s : State) (mine : List OwnClaim) (d : Nat) (c : Claim) : State :=
  if s.since c.tick ≠ 1 || !s.linkHeld d ||
      (s.volume < c.vol && mine.any fun o => o.port = some d && claimConflict o.claim c) then s
  else match c with
  | .linkRole _ _ _ l =>
    let cfg := portDefault s s.val d
    if cfg.library = l then s else s.stageOwn [.port d { cfg with library := l }]
  | .bandwidth _ _ _ q r b =>
    if s.spansVolumes q then s.stageOwn [.shaper { quire := q, port := d, rate := r, burst := b }] else s
  | _ => s

/-- What another participant's claim does to an operation (R331, R334). -/
def State.opClaim (s : State) (d : Nat) : Claim → State
  | .launch v _ q tag k m f x h c w set =>
    match s.stg.vol.op q tag, s.stg.led.quire q with
    | some o, some r =>
      if o.state ≠ .awaiting || o.matched.contains v then s
      else
        let same := match s.launchClaim r o with
          | .launch _ _ _ _ k' m' f' x' h' c' w' set' =>
            k = k' && m = m' && f = f' && x = x' && h = h' && c = c' && w = w' && set = set'
          | _ => false
        if same then s.updOp q tag fun o => { o with matched := o.matched ++ [v] } else s.endOp o .notPermitted
    | _, _ => s
  | .cancel _ _ q tag =>
    match (s.stg.vol.liveOps q).find? (·.tag = tag) with
    | some o => if o.library then s.endOp o .cancelled else s
    | none => s
  | .failed _ _ q tag =>
    match (s.stg.vol.liveOps q).find? (·.tag = tag) with
    | some o => if o.library then (s.endOp o .lastingFault).suspect (.port d) else s
    | none => s
  | .linkRole .. => s
  | .bandwidth .. => s
  | .quiet .. => s

/-- A library-wide operation whose every other participant has a matching launch becomes live (R331). -/
def State.matchedOps (s : State) : State :=
  s.updVol fun v => { v with ops := v.ops.map fun o =>
    if o.state = .awaiting && (s.otherVolumes o).all o.matched.contains then { o with state := .live, tell := true } else o }

/-- The work phase resolves the claims (R72). -/
def State.resolveClaims (s : State) : State :=
  let heard := s.lib.heard
  let mine := s.lib.own
  let s := (mine.filterMap (·.task)).eraseDups.foldl (fun s id => s.resolveTask heard id) s
  let s := heard.foldl (fun s h => (s.neighbourClaim mine h.1 h.2).opClaim h.1 h.2) s
  { s with lib := { s.lib with heard := heard.filter fun h => h.2.waits s.since } }.matchedOps

/-- A tick's intake has ended without the neighbour's claims (R73): the command is refused with OP_TIMEOUT. -/
def execClaimTimeout (port : Nat) (s : State) : Host.Outcome State Fault Refusal :=
  let late := s.lib.own.filter fun o => o.port = some port && o.sent &&
    (1 < s.since o.claim.tick || (s.since o.claim.tick = 1 && s.clk.phase ≠ .intake))
  .next ((late.filterMap (·.task)).eraseDups.foldl (fun s id =>
    let s := { s with lib := { s.lib with own := s.lib.own.filter fun o => o.task ≠ some id } }
    match s.task id with
    | some t => s.failTask t .opTimeout []
    | none => s) s)

end Sys2Proof.Machine
end

