-- ==== Sys2Proof/Machine/Fatal.lean ====
section
/-! DEFINITION. Fatal faults (R100, R369, R370, R382, R383, R447) and the overruns and degraded mode of the tick step scheduler
(R60, R367). -/
namespace Sys2Proof.Machine

/-! ### Fatal faults -/

/-- The function code of a fatal fault's cause (R363, R369): the function that detects it, or whose fault it is. -/
def fatalFn : FatalCause → Nat
  | .controlMemory => 0x10
  | .rootOfTrust => 0x0F
  | .sealOverrun => 0x01
  | .houseBook => 0x0D
  | .refclk => 0x10
  | .thermTrip => 0x0E
  | .reservation => 0x01

/-- The final group of a halt (R370): what was staged in earlier ticks and the class 3 entry. None is written to a faulted ledger, or
while a power seal is in progress. -/
def State.haltGroup (s : State) (e : FaultEntry) : State :=
  let s := s.updLedger fun g =>
    { g with unbuilt := g.unbuilt.filter (·.tick ≠ s.now), anchorBuilt := none, anchorDue := false, ckRun := none, jobs := [] }
  if s.ledgerFaulted || !s.ledger.restored || s.ledger.held then s.updLedger fun g => { g with unbuilt := [] }
  else (s.stage (histRec s (.fault e) 1)).finalGroup

/-- What a channel loses at a halt: completions that were to be posted at the next boundary (R370). -/
def Channel.halt (ch : Channel) : Channel := { ch with intakeQ := [] }

/-- Commands in progress end without a reply; fences stand (R370). -/
def Task.outlives (t : Task) : Bool := match t.kind with | .fence .. => true | _ => false

/-- A fatal fault (R370): FAULT_N and the fatal indications at once, the staged state of the tick discarded, everything halted, and one
final group. A second fatal fault changes nothing more. -/
def State.fatal (s : State) (fn object : Nat) : State :=
  if s.faults.fatal.isSome || s.boot.stage = .held then s
  else
    let e := FaultEntry.plain s.now 3 fn 0 object
    let s := { s with pins := { s.pins with faultN := false }
                      faults := { s.faults with fatal := some fn, entries := lastN 256 (insertFault e s.faults.entries),
                                                measuring := [], scheduled := [] }
                      stg := s.vis
                      ports := s.ports.map fun (p : Port) => { p with stg := p.vis, latched := [] }
                      chans := s.chans.map Channel.halt
                      tasks := s.tasks.filter (·.outlives)
                      lib := { s.lib with own := [], heard := [], jump := none }
                      fw := if s.fw.reverting then { s.fw with reverting := false, reset := some .atOnce } else s.fw
                      clk := { s.clk with nextIndex := none, nextPeriod := none, announced := none } }
    ((s.fatalRegs fn).raiseNow 0x100).haltGroup e

/-- A fatal fault of a cause (R369). For the house quire's books, which book failed is free (R371). -/
def State.fatalOf (s : State) (c : FatalCause) : State :=
  match c with
  | .houseBook => let (n, s) := s.freeNat; s.fatal 0x0D (65536 * (1 + n % 7))
  | _ => s.fatal (fatalFn c) 0

/-- THERM_TRIP_N asserts, independently of firmware, and stays asserted until reset (R447). -/
def State.trip (s : State) : State :=
  if s.boot.stage = .held then s else { s with power := { s.power with thermTrip := true } }.fatalOf .thermTrip

/-- A fatal fault is detected (R369, R370). -/
def execFatalFault (cause : FatalCause) (s : State) : Host.Outcome State Fault Refusal :=
  .next (if cause = .thermTrip then s.trip else s.fatalOf cause)

/-- A sensor reads 110.0 °C or more (R447). -/
def execThermalTrip (s : State) : Host.Outcome State Fault Refusal := .next s.trip

/-- In the seal phase of tick H − 1 no reservation was taken (R100): a fatal fault before the tick's state is fixed. -/
def execReservationExhausted (s : State) : Host.Outcome State Fault Refusal :=
  .next (if s.clk.running && s.clk.phase = .seal && s.reservation ≤ s.now + 1 then s.fatalOf .reservation else s)

/-- FAULT_N at a boundary (R382): asserted, thus low, while a fatal fault stands or the ledger is faulted. -/
def State.driveFaultN (s : State) : State :=
  { s with pins := { s.pins with faultN := !(s.faults.fatal.isSome || s.ledgerFaulted) } }

/-! ### Overruns (R60, R367) -/

/-- The commands that run steps in the work phase, and so may overrun (R59, R60). -/
def TaskKind.stepped : TaskKind → Bool
  | .solve _ | .install .. | .planSolve .. | .rebind _ | .activate .. | .rewrite .. => true
  | .reset _ st _ _ => st = .transit
  | .release _ _ st _ _ => st = .transit
  | _ => false

/-- The step of this tick's work phase is still running at its end (R60): none of its work joins the staged state, and it runs once more;
a second overrun is lasting. The command stands before WORK_PHASE of its tick. -/
def execStepOverrun (task : Nat) (s : State) : Host.Outcome State Fault Refusal :=
  match s.task task with
  | none => .next s
  | some t =>
    if !t.kind.stepped || t.skip || s.faults.fatal.isSome then .next s
    else if !t.overran then .next (s.updTask task fun t => { t with overran := true, skip := true })
    else
      let s := (s.addFault (taskEntry t s.now 2 0x01 t.opcode (some .lastingFault))).setDegraded 1 true
      let s := { s with faults := { s.faults with slowStep := some (t.opcode, 0) } }
      .next (s.taskDropped t .lastingFault)

/-- A rerun step has completed: a transient fault, and one more retry of its command (R60). -/
def State.stepRan (s : State) (id : Nat) : State :=
  match s.task id with
  | some t =>
    if t.overran && !t.skip then
      (s.updTask id fun t => { t with overran := false, retries := t.retries + 1 }).addFault
        (taskEntry { t with retries := t.retries + 1 } s.now 1 0x01 t.opcode none)
    else s
  | none => s

/-- 1,048,576 ticks without another overrun of the failing kind (R367): the scheduler leaves its degraded mode. -/
def execDegradedModeLeft (s : State) : Host.Outcome State Fault Refusal :=
  match s.faults.slowStep with
  | none => .next s
  | some (op, n) =>
    if n < 1048576 then .next s
    else .next (({ s with faults := { s.faults with slowStep := none } }.setDegraded 1 false).fault 5 0x01 op)

end Sys2Proof.Machine
end

