-- ==== Sys2Proof/Machine/Boot.lean ====
section
/-! DEFINITION. Resets of the whole director and the stages of bring-up (R143, R423-R425, R449-R470), the selection of firmware
(R479), and the start of the control complex and of the tick (R456). -/
namespace Sys2Proof.Machine

/-! ### Resets of the whole director (R449, R104) -/

/-- What a cut leaves of the transfers in progress: a folio being written is torn, or on its second try torn or whole (R104); the bytes of
a chunk are open, and a reservation record stands whole or torn. -/
def State.tear (s : State) : State :=
  let s := match s.ledger.writing with
    | some w => match w.folios with
      | f :: _ =>
        if w.reading then s
        else if w.second then
          let (b, s) := s.freeBool
          s.updLedger fun g => g.putFolio w.dev { f with good := b }
        else s.updLedger fun g => g.putFolio w.dev { f with good := false }
      | [] => s
    | none => s
  match s.ledger.jobs with
  | .chunk _ k off data d .. :: _ =>
    let (bs, s) := s.freeBytes data.length
    s.updLedger fun g => g.updArc d (·.putChunk k off bs)
  | .reserve h d .. :: _ =>
    let (b, s) := s.freeBool
    let (bs, s) := s.freeBytes 64
    s.updLedger fun g => g.updArc d fun x => if b then x.reserveIn h s.now else { x with reserve := x.reserve ++ [bs] }
  | _ => s

/-- Every part of the director returns to its reset state (R449). The journal and archive devices, the fuses, the contacts driven from
outside and the commands that wait are not part of it. -/
def State.wholeReset (s : State) : State :=
  let s := s.tear
  let g := s.ledger
  { State.reset with
    pending := s.pending
    pins := { s.pins with faultN := true }
    fuses := s.fuses
    ledger := { Ledger.init with
      devA := { g.devA with failed := false }
      devB := { g.devB with failed := false }
      arcA := { g.arcA with failed := false, fails := 0 }
      arcB := { g.arcB with failed := false, fails := 0 } }
    irq := { Irq.init with perst := s.irq.perst }
    freeCtr := s.freeCtr }

/-- RST_N is asserted for `ns` nanoseconds: for 1 µs or more it is a reset, which holds while it stands (R449). -/
def execRstNAssert (ns : Nat) (s : State) : Host.Outcome State Fault Refusal :=
  .next (if ns < 1000 then s else
    let s := s.wholeReset
    { s with pins := { s.pins with rstN := false, xspi := List.replicate 4 .highZ } })

/-- The reset that PWR_GOOD causes. -/
def State.powerReset (s : State) : State :=
  let s := s.wholeReset
  { s with pins := { s.pins with rstN := false, pwrGood := false, xspi := List.replicate 4 .highZ } }

/-- PWR_GOOD is deasserted for `ns` nanoseconds: a reset (R429, R449); whether a pulse below 100 ns is recognised is free (R597). -/
def execPwrGoodDeassert (ns : Nat) (s : State) : Host.Outcome State Fault Refusal :=
  if 100 ≤ ns then .next s.powerReset
  else let (b, s) := s.freeBool; .next (if b then s.powerReset else s)

/-! ### Registers and interrupts that follow the stages (R604, R610, R611, R617) -/

/-- A change of BOOT_STAT.STAGE or of ENT_STAT.STATE becomes pending with it (R617). -/
def State.noteRegs (s : State) (old : Regs) : State :=
  let s := if old.bootStat.toNat % 256 ≠ s.regs.bootStat.toNat % 256 then s.raiseNow 0x10000 else s
  if old.entStat.toNat % 4 ≠ s.regs.entStat.toNat % 4 then s.raiseNow 0x20000 else s

/-- Before the first boundary the registers that live then follow their sources (R604). -/
def State.follow (s : State) : State := s.earlyRegs.noteRegs s.regs

/-- A stage of bring-up begins. -/
def State.toStage (s : State) (st : Stage) : State := { s with boot := { s.boot with stage := st } }

/-- A bring-up stops with an error (R467). -/
def State.haltBoot (s : State) (code : Nat) : State := { s.toStage .halted with boot := { s.boot with stage := .halted, error := code } }

/-- The stage in progress is `st` and bring-up has not been stopped. -/
def State.inStage (s : State) (st : Stage) : Bool := s.boot.stage = st && s.faults.fatal.isNone

/-- T₀ (R143, R450, R453, R580): RST_N is deasserted while PWR_GOOD stands; the straps are sampled, the buses of the xSPI devices are driven
and their devices reset, and ROT_ROM begins. -/
def execBringUpStart (straps : Straps) (s : State) : Host.Outcome State Fault Refusal :=
  if s.boot.stage ≠ .held then .next s
  else
    let s := { s with pins := { s.pins with rstN := true, pwrGood := true, xspi := List.replicate 4 Xspi.ready } }
    .next ({ s with boot := { s.boot with stage := .rotRom, straps := straps } }.follow)

/-! ### The root of trust (R454, R468, R469, R479) -/

/-- The colophon verifies (R469). -/
def colophonOk (b : List Byte) : Bool :=
  Config.colophonSigned b && field b 0 2 = 0x4C43 && field b 2 1 = 1 && field b 3 1 = 0 &&
  (slice b 4 7).all (fun x => (0x30 ≤ x.toNat && x.toNat ≤ 0x39) || (0x41 ≤ x.toNat && x.toNat ≤ 0x5A)) &&
  1 ≤ field b 11 1 && field b 11 1 ≤ 25 && (field b 16 1 = 1 || field b 16 1 = 2) && field b 17 1 = 0 &&
  (slice b 18 10).all (fun x => x.toNat ≤ 15 || x.toNat = 0xFF) && field b 28 4 = 0 && field b 160 64 = 0

/-- The better of two anchor folios: the higher sequence. -/
def newerFolio (a b : Option Folio) : Option Folio :=
  match a, b with
  | some x, some y => if x.seq < y.seq then some y else some x
  | some x, none => some x
  | none, y => y

/-- The newest valid anchor of a device that answers. -/
def JDev.anchor (d : JDev) : Option Folio :=
  if d.answers then (List.range 64).foldl (fun a i => newerFolio a (d.anchorAt i)) none else none

/-- The valid anchor with the highest sequence on either device (R101). -/
def Ledger.bestAnchor (g : Ledger) : Option Folio := newerFolio g.devA.anchor g.devB.anchor

/-- What an anchor folio holds. -/
def Folio.anchor (f : Folio) : Option Anchor := match f.body with | .anchor a => some a | _ => none

/-- Write an anchor to the devices that answer, before any group is written (R456, R479): where it does not verify, a torn folio stands
(R92, R104). -/
def Ledger.sealRaw (g : Ledger) (a : Anchor) (tick : Tick) (w : AnchorWrite) : Ledger :=
  let f := g.anchorFolio a tick
  let put := fun (d : JDev) (ok : Bool) => if d.answers then d.put f.position { f with good := ok } else d
  { g with devA := put g.devA w.a, devB := put g.devB w.b, anchor := a, sealedA := a, anchorSeq := f.seq, anchorCrc := f.crc }

/-- The ledger engine takes up the newest anchor; without one, what it holds stays. -/
def Ledger.readAnchor (g : Ledger) : Ledger :=
  match g.bestAnchor with
  | some f =>
    match f.anchor with
    | some a => { g with anchor := a, sealedA := a, anchorSeq := f.seq, anchorCrc := f.crc }
    | none => g
  | none => g

/-- The increments R479 burns before it selects an image: up to E of the confirmed slot. -/
def State.bootBurn (s : State) : Option Nat :=
  match s.ledger.bestAnchor.bind (·.anchor) with
  | some a =>
    match a.fw.confirmed with
    | some c => if c < 2 && s.fuses.otp < (a.fw.slot c).epoch then some (a.fw.slot c).epoch else none
    | none => none
  | none => none

/-- ROT_ROM ends (R392, R454): a failed self-test is fatal, a colophon that fails stops bring-up, and otherwise the ROM's keys are derived
and FW_VERIFY begins. -/
def execRotRomDone (romOk fusesOk : Bool) (s : State) : Host.Outcome State Fault Refusal :=
  if !s.inStage .rotRom then .next s
  else if !romOk || !fusesOk then .next ((s.haltBoot 1).fatalOf .rootOfTrust).follow
  else if !colophonOk s.fuses.colophon then .next (s.haltBoot 2).follow
  else .next ({ s.deriveDevice.toStage .fwVerify with fw := { s.fw with burning := s.bootBurn } }.follow)

/-- The image in a slot is admissible under a floor (R472). -/
def State.bootable (s : State) (floor : Nat) (k : Nat) : Bool :=
  k < 2 && imageAdmissible (s.ledger.image k) floor s.fuses.otp

/-- The image of a slot starts, with the alias key of its digest (R392); CONTROL_START follows. -/
def State.bootSlot (s : State) (k : Nat) : State :=
  let s := s.deriveLayer (s.ledger.image k)
  { s.toStage .controlStart with fw := { s.fw with running := k, ver := field (s.ledger.image k) 8 4 } }

/-- The record of a slot whose image was found without an anchor: confirmed where it boots, complete where it is valid. -/
def State.foundSlot (s : State) (k : Nat) (boots : Bool) : FwSlot :=
  let b := s.ledger.image k
  if imageValid b then
    { status := if boots then 7 else 2, boots := 0, epoch := field b 16 1, len := field b 4 4, ver := field b 8 4,
      floor := field b 12 4 }
  else FwSlot.init

/-- Without an anchor the admissible image of higher V boots, under the OTP count alone (R479). -/
def State.selectBlind (s : State) : State :=
  let v := fun k => field (s.ledger.image k) 8 4
  let k? : Option Nat :=
    if s.bootable 0 0 && s.bootable 0 1 then some (if v 0 < v 1 then 1 else 0)
    else if s.bootable 0 0 then some 0
    else if s.bootable 0 1 then some 1 else none
  match k? with
  | none => s.haltBoot 3
  | some k =>
    let fw : FwState := { boot := k, confirmed := some k, window := 0, slotA := s.foundSlot 0 (k = 0),
                          slotB := s.foundSlot 1 (k = 1), ident := none }
    (s.updLedger fun g => { g with anchor := { g.anchor with fw := fw } }).bootSlot k

/-- The slot a selection tries first, with the anchor of a trial boot or of its end (R479). -/
def trialChoice (f : FwState) (writable : Bool) : Option Nat × Option FwState :=
  let b := f.boot
  let x := f.slot b
  if x.status = 5 || x.status = 6 then
    if x.boots < 2 then
      if writable then (some b, some (f.updSlot b fun x => { x with boots := x.boots + 1, status := 6 }))
      else (f.confirmed, none)
    else (f.confirmed, if writable then some { f.updSlot b (fun x => { x with status := 4 }) with boot := f.confirmed.getD 0xFF }
      else none)
  else (some b, none)

/-- Some journal device that answers takes the anchors of FW_VERIFY. -/
def State.anchorsSeal (s : State) (w : AnchorWrite) : Bool := (w.a && s.ledger.devA.answers) || (w.b && s.ledger.devB.answers)

/-- Seal a change of the slot state (R479). -/
def State.sealBootFw (s : State) (f : FwState) (w : AnchorWrite) : State :=
  s.updLedger fun g => g.sealRaw { g.anchor with fw := f } s.now w

/-- The selection of R479 under an anchor. -/
def State.selectImage (s : State) (w : AnchorWrite) : State :=
  let f := s.ledger.anchor.fw
  let floor := s.ledger.anchor.floor
  let (b, chg) := trialChoice f (s.anchorsSeal w)
  let s := match chg with | some f => s.sealBootFw f w | none => s
  match b with
  | none => s.haltBoot 3
  | some b =>
    if s.bootable floor b then s.bootSlot b
    else match f.confirmed with
      | some c =>
        if b ≠ c && s.bootable floor c then
          let s := if s.anchorsSeal w then
              s.sealBootFw { s.ledger.anchor.fw.updSlot b (fun x => { x with status := 2 }) with boot := c } w
            else s
          s.bootSlot c
        else s.haltBoot 3
      | none => s.haltBoot 3

/-- FW_VERIFY ends (R455, R479), once the burning it may begin with is over: an image runs, or bring-up stops with NO_IMAGE. -/
def execFwVerifyStageDone (anchorWritable : AnchorWrite) (s : State) : Host.Outcome State Fault Refusal :=
  if !s.inStage .fwVerify || s.fw.burning.isSome then .next s
  else
    match s.ledger.bestAnchor with
    | none => .next s.selectBlind.follow
    | some _ => .next ((s.updLedger (·.readAnchor)).selectImage anchorWritable).follow

/-! ### CONTROL_START (R456) -/

/-- The device answers. -/
def busHeard (x : BusAnswer) : Bool := x ≠ .silent

/-- A journal device answers, or does not and is marked failed (R102). -/
def JDev.heard (d : JDev) (x : BusAnswer) : JDev := { d with answers := x ≠ .silent, failed := x = .silent }

/-- A valid folio at its position (R87). -/
def validAt (x : Nat × Folio) : Bool := x.2.good && x.2.position = x.1

/-- The valid folios of the devices that answer. -/
def Ledger.validFolios (g : Ledger) : List Folio :=
  ((if g.devA.answers then g.devA.folios else []) ++ (if g.devB.answers then g.devB.folios else [])).filter validAt |>.map (·.2)

/-- The newest checkpoint that verifies on an archive device that answers (R103). -/
def Ledger.newestCkpt (g : Ledger) : Option Checkpoint :=
  ((if g.arcA.answers then g.arcA.ckpts else []) ++ (if g.arcB.answers then g.arcB.ckpts else [])).foldl (fun b x =>
    if !x.2.good then b else match b with
    | some y => if y.number < x.2.number then some x.2 else b
    | none => some x.2) none

/-- The highest H of any valid reservation record (R100). -/
def Ledger.reserved100 (g : Ledger) : Tick :=
  max (if g.arcA.answers then g.arcA.reserved else 0) (if g.arcB.answers then g.arcB.reserved else 0)

/-- The safe starting index (R456): 2^40 above every index the devices tell of. -/
def Ledger.safeStart (g : Ledger) : Tick :=
  let c := match g.newestCkpt with | some c => max c.h c.tick | none => 0
  2 ^ 40 + g.validFolios.foldl (fun h f => max h f.tick) (max c g.reserved100)

/-- The journal is blank (R103). -/
def Ledger.blank (g : Ledger) : Bool := (g.devA.answers || g.devB.answers) && g.validFolios = []

/-- The index at which TICK_NOW starts (R456). -/
def State.startIndex (s : State) : Tick :=
  let g := s.ledger
  if g.blank then (if s.fuses.marker then g.safeStart else 0)
  else match g.bestAnchor.bind (·.anchor) with
    | some a => max a.h g.reserved100
    | none => g.safeStart

/-- The anchored values a run starts from: the anchor's, or factory values with the newest checkpoint's pointer (R456, R624). -/
def State.startAnchorVals (s : State) : Anchor :=
  let g := s.ledger
  match g.bestAnchor.bind (·.anchor) with
  | some a => a
  | none =>
    let a := { Anchor.init with fw := g.anchor.fw }
    match g.newestCkpt with
    | some c => { a with ckNum := c.number, ckCovers := c.covers, ckPos := c.number % 8, ckLen := c.image.length, digest := c.digest }
    | none => a

/-- An archive device that does not answer is marked failed. -/
def State.hearArcs (s : State) (a b : BusAnswer) : State :=
  let s := s.updLedger fun g => { g with arcA := { g.arcA with answers := a ≠ .silent, failed := false },
                                         arcB := { g.arcB with answers := b ≠ .silent, failed := false } }
  let s := if a ≠ .silent then s else s.failArc .a
  if b ≠ .silent then s else s.failArc .b

/-- What takes the reservation of a run (R456). -/
def anchorTaken (ledA ledB : BusAnswer) : Bool := ledA = .good || ledB = .good

/-- The reservation of the run is sealed before its first boundary (R51, R456): in an anchor, or where no journal device takes it in a
record of the archive; a device whose copy does not verify is marked failed (R92, R100). -/
def State.reserveRun (s : State) (start : Tick) (a : Anchor) (ledA ledB arcA arcB : BusAnswer) : State :=
  let h := start + Config.reserveStep
  let s := s.updLedger fun g => { g with devA := { g.devA with failed := ledA ≠ .good }, devB := { g.devB with failed := ledB ≠ .good } }
  if anchorTaken ledA ledB then
    let s := s.updLedger fun g =>
      let g := g.sealRaw { a with h := h } start { a := ledA = .good, b := ledB = .good }
      { g with arcA := g.arcA.clearReserve h, arcB := g.arcB.clearReserve h, anchorTimes := [0] }
    { s with fuses := { s.fuses with marker := true } }
  else
    let s := if arcA = .unwritable then s.failArc .a else s
    let s := if arcB = .unwritable then s.failArc .b else s
    let g := s.ledger
    let rec_ := fun (x : ADev) => if x.failed then x else x.reserveIn h start
    let a := if g.arcA.failed && g.arcB.failed then { a with h := start } else { a with h := h }
    s.updLedger fun g => { g with arcA := rec_ g.arcA, arcB := rec_ g.arcB, anchor := a, sealedA := a }

/-- CONTROL_START ends with the first boundary (R456): the devices are read, TICK_NOW is set, the run's indices are reserved, and restore
and the first cluster wave begin. A reservation that nothing takes is a fatal fault. -/
def execControlStart (ledA ledB arcA arcB : BusAnswer) (s : State) : Host.Outcome State Fault Refusal :=
  if !s.inStage .controlStart then .next s
  else
    let s := s.updLedger fun g => { g with devA := g.devA.heard ledA, devB := g.devB.heard ledB }
    let s := s.hearArcs arcA arcB
    let heard := busHeard ledA || busHeard ledB
    let start := s.startIndex
    let a := s.startAnchorVals
    let blank := s.ledger.blank
    let lost := !heard || (blank && s.fuses.marker) || (!blank && s.ledger.bestAnchor.isNone)
    let s := s.updLedger fun g =>
      { g.readAnchor with factory := blank && !s.fuses.marker, notGuaranteed := lost, restoring := true }
    let s := (s.reserveRun start a ledA ledB arcA arcB).deriveHouse
    let s := { s with clk := { s.clk with running := true, now := start } }
    let dead := !anchorTaken ledA ledB && s.ledger.arcA.failed && s.ledger.arcB.failed
    let s := if dead then s.fatalOf .reservation else s
    let s := { s with boot := { s.boot with stage := if dead then .controlStart else .clusterWaves, controlEnded := true }
                      power := { s.power with clkN := 4 } }
    let s := if s.inTrial then { s with fw := { s.fw with windowEnd := some (60 * Config.hz * s.fwState.window) } } else s
    let s := { s with shown := { ledger := s.ledger, power := s.power, fw := s.fw } }
    .next ((s.latchRegs.noteRegs s.regs).driveFaultN)

/-! ### Cluster waves (R457, R458) -/

/-- A cluster's part of the waves is over: it has passed, or failed twice. -/
def Cluster.over (c : Cluster) : Bool := c.passed || 2 ≤ c.tries

/-- The waves that have ended (R610). -/
def State.wavesEnded (s : State) : Nat :=
  ((List.range 10).filter fun w => (List.range 16).all fun i => (s.clusters.getD (16 * w + i) Cluster.init).over).length

/-- Wave w powers the logical clusters of its row, 250 µs × w after the first boundary (R457). -/
def execClusterWaveStart (w : Nat) (s : State) : Host.Outcome State Fault Refusal :=
  let order := w = 0 || (s.clusters.getD (16 * w - 16) Cluster.init).powered
  if !s.inStage .clusterWaves || 10 ≤ w || !order || !s.reached (usCycles 250 * w) then .next s
  else .next { s with clusters := s.clusters.mapIdx fun i (c : Cluster) => if i / 16 = w then { c with powered := true } else c }

/-- A cluster's microimage check and self-test end (R458): once repeated is a transient fault; a second failure retires it. -/
def execClusterSelftestDone (rc : Nat) (passed : Bool) (s : State) : Host.Outcome State Fault Refusal :=
  let c := s.clusters.getD rc Cluster.init
  if !s.inStage .clusterWaves || !c.powered || c.over then .next s
  else
    let s : State := if passed then
        let s := { s with clusters := modAt s.clusters rc fun (c : Cluster) => { c with passed := true } }
        if c.tries = 1 then s.fault 1 0x04 rc else s
      else
        let s := { s with clusters := modAt s.clusters rc fun (c : Cluster) => { c with tries := c.tries + 1 } }
        if c.tries = 0 then s
        else
          let s := (s.fault 2 0x04 rc).retireCluster rc
          { s with boot := { s.boot with rcRetired := s.boot.rcRetired + 1 } }
    let s : State := { s with boot := { s.boot with waves := s.wavesEnded } }
    .next (if s.boot.waves = 10 then s.toStage .hbmTrain else s)

/-! ### Entropy (R423-R425) -/

/-- Change the entropy source's state. -/
def State.updEntropy (s : State) (f : Entropy → Entropy) : State := { s with rot := { s.rot with entropy := f s.rot.entropy } }

/-- The start-up tests pass, `ms` milliseconds after PWR_GOOD: the DRBG is instantiated, and a degraded source is whole again. -/
def execEntropyReady (ms : Nat) (s : State) : Host.Outcome State Fault Refusal :=
  let e := s.rot.entropy
  if s.boot.stage = .held || (e.state ≠ 0 && e.state ≠ 2) then .next s
  else
    let s := if e.state = 2 then (s.setDegraded 0x0F false).fault 5 0x0F 0 else s
    .next (s.updEntropy fun e =>
      { e with state := 1, drbg := true, requests := 0, seededAt := s.clk.cycles, readyMs := if e.readyMs = 0 then max 1 ms else e.readyMs }).follow

/-- A continuous health test fails (R425): output stops and the start-up tests rerun; a third failure within 24 hours is lasting, and the
source stays stopped. -/
def execEntropyHealthFail (s : State) : Host.Outcome State Fault Refusal :=
  let e := s.rot.entropy
  if s.boot.stage = .held || e.state ≠ 1 then .next s
  else
    let at_ := (e.failAt.filter fun c => s.clk.cycles < c + 24 * 3600 * Config.hz) ++ [s.clk.cycles]
    let last := 3 ≤ at_.length
    let s := (s.fault (if last then 2 else 1) 0x0F 0).setDegraded 0x0F true
    .next (s.updEntropy fun e => { e with state := if last then 3 else 2, drbg := false, failAt := at_ }).follow

/-- The DRBG is reseeded after 65,536 generate requests, or after 24 hours (R423). -/
def execDrbgReseed (s : State) : Host.Outcome State Fault Refusal :=
  let e := s.rot.entropy
  .next (if e.drbg && (65536 ≤ e.requests || s.reached (e.seededAt + 24 * 3600 * Config.hz)) then
    s.updEntropy fun e => { e with requests := 0, seededAt := s.clk.cycles } else s)

/-! ### The reset of the RoT core (R478, R482) -/

/-- The RoT core may reset the director: 10 ms after the final reply, with every quire settled or after 2,048 ticks; at once where a
revert's anchor could not be sealed. -/
def State.resetReady (s : State) : Bool :=
  match s.fw.reset with
  | some .atOnce => true
  | some (.stopped c since) =>
    c + msCycles 10 ≤ s.clk.cycles &&
      (2048 ≤ s.since since || (0 :: s.stg.led.quires.map (·.id)).all fun q => s.settled q since)
  | _ => false

/-- The RoT core resets the whole director (R449, R478, R482); bring-up starts again at once with the straps as sampled. -/
def execFwReset (s : State) : Host.Outcome State Fault Refusal :=
  if !s.resetReady then .next s
  else
    let st := s.boot.straps
    let s := s.wholeReset
    let s := { s with pins := { s.pins with xspi := List.replicate 4 Xspi.ready } }
    .next ({ s with boot := { s.boot with stage := .rotRom, straps := st } }.follow)

end Sys2Proof.Machine
end

