-- ==== Sys2Proof/Machine/Restore.lean ====
section
/-! DEFINITION. Restore (R101-R104, R133, R147, R199, R353, R387, R413, R420, R486, R624), and the stages of bring-up that follow the
cluster waves (R459-R465). -/
namespace Sys2Proof.Machine

/-! ### Reading the journal (R101) -/

/-- The highest sequence of any valid journal folio of a device that answers. -/
def JDev.high (d : JDev) : Nat :=
  if d.answers then d.folios.foldl (fun h x => if validAt x && x.2.kind ≠ 0x0100 then max h x.2.seq else h) 0 else 0

/-- The valid copies of a sequence, LEDGER-A's first. -/
def Ledger.copies (g : Ledger) (seq : Nat) : List Folio :=
  (if g.devA.answers then (g.devA.valid seq).toList else []) ++ (if g.devB.answers then (g.devB.valid seq).toList else [])

/-- The walk of R101: each folio's previous CRC is the CRC of the one before; the first may be any valid copy. -/
def Ledger.walk (g : Ledger) : Nat → Nat → Option Word32 → List Folio
  | 0, _, _ => []
  | n + 1, seq, prev =>
    match (g.copies seq).find? fun f => prev.elim true fun c => f.prevCrc = c with
    | some f => f :: g.walk n (seq + 1) (some f.crc)
    | none => []

/-- Drop an incomplete group at the end (R88, R101). -/
def dropOpen (l : List Folio) : List Folio := (l.reverse.dropWhile (·.more)).reverse

/-- What restore reads: the folios up to the tip, the tip, the copies above it that do not count, and whether LEDGER_FAULT is reported. -/
structure Restored where
  folios : List Folio
  cut    : List Folio
  tip    : Nat
  fault  : Bool
  deriving DecidableEq, Repr

/-- The choice of the tip (R101). -/
def Ledger.restoreRead (g : Ledger) : Restored :=
  let h := max g.devA.high g.devB.high
  let low := max 1 (h - 959)
  match (List.range 960).find? fun i => low + i ≤ h && g.copies (low + i) ≠ [] with
  | none => { folios := [], cut := [], tip := 0, fault := false }
  | some i =>
    let q := low + i
    let all := g.walk 960 q none
    let end_ := q - 1 + all.length
    let fault := (List.range (h - end_)).any fun j => end_ + 1 + j < h && g.copies (end_ + 1 + j) = []
    let keep := dropOpen all
    { folios := keep, cut := all.drop keep.length, tip := q - 1 + keep.length, fault := fault }

/-- The folios that are not copied again later in the ring, in the order of what they copy. -/
def insertOrigin (f : Folio) : List Folio → List Folio
  | [] => [f]
  | x :: l => if f.origin < x.origin then f :: x :: l else if f.origin = x.origin then f :: l else x :: insertOrigin f l

/-- The ledgered state that the folios of a ring give (R101): every record in the order in which it was first journaled. -/
def ledOf (base : Led) (fs : List Folio) : Led :=
  ((fs.filter (·.first)).foldl (fun l f => insertOrigin f l) []).foldl (fun l f => f.objs.foldl Led.apply l) base

/-- Whether a ring holds the record that names the ledger's volume. -/
def volumeRecorded (fs : List Folio) : Bool :=
  fs.any fun f => f.objs.any fun o => match o with | .position .. => true | _ => false

/-- The uncheckpointed history of a ring (R96, R97). -/
def histOf (covers : Nat) (fs : List Folio) : List (Nat × HistRec) :=
  ((fs.filter fun f => f.first && f.kind = 2 && covers < f.origin).foldl (fun l f => insertOrigin f l) []).flatMap fun f =>
    match f.rec_ with | some r => r.hist.map (f.origin, ·) | none => []

/-- A device lacks one of the chosen copies. -/
def JDev.lacks (d : JDev) (fs : List Folio) : Bool := !d.failed && fs.any fun f => d.at_ f.position != some f

/-- A device after its healing (R102): it holds the chosen copies; or, where a write fails twice, it is marked failed. -/
def JDev.healed (d : JDev) (fs : List Folio) (ok : Bool) : JDev :=
  if d.failed || !d.lacks fs then d
  else if ok then fs.foldl (fun (d : JDev) f => d.put f.position f) d
  else { d with failed := true }

/-- Both devices that answer are healed (R102); whether the writes to one verify is free. -/
def State.heal (s : State) (fs : List Folio) : State :=
  let (a, s) := s.freeBool
  let (b, s) := s.freeBool
  s.updLedger fun g => { g with devA := g.devA.healed fs a, devB := g.devB.healed fs b }

/-- A folio holds the record of a power warning (R105). -/
def warned (f : Folio) : Bool :=
  match f.rec_ with
  | some r => r.hist.any fun h => match h with | .power e => e.kind = 1 | _ => false
  | none => false

/-- A power seal was cut (R387): its final group is incomplete, or stands at the tip without the anchor that follows it. -/
def Restored.sealCut (r : Restored) (a : Anchor) : Bool :=
  r.cut.any warned || (match r.folios.getLast? with | some f => warned f && a.tip < f.seq | none => false)

/-! ### Rebuilding state -/

/-- What of a quire restore rebuilds (R82, R199, R373, R377): its routes, from the bores its last install recorded. -/
def restoredQuire (v : Nat) (l : Led) (r : QuireRec) : QuireVol :=
  let x := r.installed.map fun (i : Tick × List Bore) => (solveStart l r i.2 i.1 (transitSet l r)).all v r
  let open_ := l.rebinds.any fun b => b.quire = r.id && !b.committed
  { QuireVol.init r.id with installed := x, admitted := !r.quarantined && !r.evicted && !open_ }

/-- The keys a slot's handles unwrap to (R401, R409); a handle that fails leaves none. -/
def slotKeys (wrap : List Byte) (n : Nat) (k : KeySlot) : List LinkKey :=
  k.handles.filterMap fun h => (unwrapHandle wrap n h.2).map fun b =>
    { slot := n, epoch := h.1, key := b, nonce := ((k.reserve.find? (·.1 = h.1)).map (·.2)).getD 0 }

/-- A slot that holds keys one of which fails to unwrap. -/
def slotLost (wrap : List Byte) (n : Nat) (k : KeySlot) : Bool :=
  k.state = .keyed && k.handles.any fun h => (unwrapHandle wrap n h.2).isNone

/-- The identity of the last journaled command of a kind on a quire. -/
def Ledger.identFor (g : Ledger) (ops : List Nat) (q : QuireId) : Option CmdIdent :=
  (g.idents.find? fun x => ops.contains x.1.opcode && x.1.quire = q).map (·.1)

/-- A slot that restore finds revoking, or whose keys are lost, is finished at once (R420, R421): the record that ends its eviction, or
the release that revoked it, carries that command's identity. -/
def State.finishRevoked (s : State) (n : Nat) : State :=
  let k := s.val.slot n
  let s := if k.state ≠ .revoking && slotLost s.rot.dice.wrap n k then s.fault 2 0x0F 0 else s
  let ident := if k.state = .revoking then s.ledger.identFor [0x0803, 0x0303] k.quire else none
  match s.val.quire k.quire with
  | none => s
  | some q =>
    let release : Bool := match ident with | some i => i.opcode = 0x0303 | none => false
    let objs : List Obj := if release then [.quire q.id none, .shapersGone q.id, .slot n KeySlot.init]
      else [.slot n KeySlot.init, .quire q.id (some { q with evicted := true })]
    if s.ledgerFaulted then s.stageOwn objs
    else
    let id := s.nextTask
    let kind : TaskKind := if release then .release true 0 .sealing [] 0 else .evict n 0 .finishing 0
    (s.startTask none q.id kind).stage
      { ident := ident, kind := 1, objs := objs, hist := [], task := some id, result := none, quire := none, tick := s.now,
        folios := 1 }

/-- A failure status for a rebind that a reset ended: the manual names none, so it is free. -/
def State.freeFailure (s : State) : Status × State :=
  let (n, s) := s.freeNat
  (([.drainTimeout, .opTimeout, .lastingFault, .cancelled, .powerHoldup] : List Status).getD (n % 5) .lastingFault, s)

/-- The run that ends a rebind which restore rolls back. -/
def rollbackRun (b : RebindRec) (st : Status) : RebindRun where
  plan := { tag := b.planTag, close := b.close, opens := b.opens.map fun o => (o.a, o.b), grant := b.keep, copies := [],
            routes := { tag := b.planTag, pairs := [], transit := [], members := [], bores := [], walled := false },
            members := [], bores := [], leaves := [], walled := false }
  record := b
  step := .rollingBack
  drain := Drain.start Config.defaultDrain
  jobs := []
  todo := []
  planes := []
  copied := false
  rerun := false
  wasHeld := false
  verify := []
  fail := some st

/-- A rebind that a cut left unfinished (R353, R354): without its commit folio it is rolled back, with it rolled forward. -/
def State.finishRebind (s : State) (b : RebindRec) : State :=
  let ident := s.ledger.identFor [0x0502] b.quire
  let note := fun (s : State) (st : Nat) (last : Option Status) =>
    s.updQuireVol b.quire fun v => { v with rebind :=
      { v.rebind with state := st, last := last, planTag := b.planTag, accTick := b.accTick, toSwitch := b.close.length + b.opens.length,
                      endTick := if last.isSome then s.now else 0 } }
  if b.committed then (note s 0 (some .ok)).stageOwn [.rebind b.quire none]
  else
    let (st, s) := s.freeFailure
    if s.ledgerFaulted then ((note s 0 (some st)).stageOwn [.rebind b.quire none]).resumeAdmission b.quire s.now
    else
      let id := s.nextTask
      ((note s 6 none).startTask none b.quire (.rebind (rollbackRun b st))).stage
        { ident := ident, kind := 1, objs := [.rebind b.quire none], hist := [], task := some id, result := none, quire := none,
          tick := s.now, folios := 1 }

/-- The volume reset of R147: every quire is released, with its memory keys (R412), and the map is cleared; the manifest stays. A
VOLUME_STRAP entry carries no port, and the manual does not say what its object and its OCS port hold: here the effective volume, and
where the straps differ the strapped one (DESIGN CHOICE, log entry 179). -/
def State.volumeReset (s : State) (eff : Nat) : State :=
  let l := s.val
  let s := ((List.range 63).filter fun i => (l.slot (i + 1)).state ≠ .free).foldl (fun s i => s.zeroiseSlot (i + 1)) s
  let objs : List Obj :=
    l.quires.flatMap (fun q => ([.quire q.id none, .shapersGone q.id, .rebind q.id none] : List Obj)) ++
    ((List.range 63).filter fun i => (l.slot (i + 1)).state ≠ .free).map (fun i => Obj.slot (i + 1) KeySlot.init) ++
    [.map ((l.map.cleared l.manifest).report { code := 0x09, plane := none, object := eff, found := none, second := none }),
     .position l.assigned eff l.softLock]
  s.stageOwn objs

/-- The volume that the straps and the assignment give against the ledgered one (R145, R147). -/
def State.checkVolume (s : State) (recorded : Bool) : State :=
  let l := s.val
  let eff := effVolume s.boot l
  if !recorded then s.stageOwn [.position l.assigned eff l.softLock]
  else if eff ≠ l.volume then s.volumeReset eff
  else if s.boot.straps.vol ≠ l.volume then
    s.mapTo (l.map.report { code := 0x09, plane := none, object := l.volume, found := some s.boot.straps.vol, second := none })
  else s.mapTo (l.map.clearMismatch (·.code = 0x09))

/-! ### Leaves and clusters that bring-up retired (R458, R464) -/

/-- Each grant index that holds a retired leaf takes the lowest free leaf (R464). -/
def mendLeaves (bad : List Nat) : List Nat → List Nat → List Nat
  | [], _ => []
  | x :: l, free =>
    if bad.contains x then match free with
      | y :: fs => y :: mendLeaves bad l fs
      | [] => x :: mendLeaves bad l []
    else x :: mendLeaves bad l free

/-- Retired leaves of restored quires are replaced where a leaf is free; one that stays leaves its function degraded (R464). -/
def State.mendQuire (s : State) (q : QuireRec) : State :=
  let l := s.val
  if !q.leaves.any l.retiredLeaf.contains then s
  else
    let new := mendLeaves l.retiredLeaf q.leaves (s.freeLeaves l)
    let s := if new.any l.retiredLeaf.contains then s.setDegraded 0x05 true else s
    if new = q.leaves then s
    else s.stageOwn [.quire q.id (some { q with leaves := new })]

/-- Replace what was retired before the quires were restored. -/
def State.mendAll (s : State) : State :=
  let s := s.val.quires.foldl (fun s q => s.mendQuire q) s
  s.val.retiredRc.foldl (fun s rc => if s.val.quires.any (·.clusters.contains rc) then s.retireCluster rc else s) s

/-! ### RESTORE_DONE -/

/-- The mirror state that restore finds, against the anchored one (R93, R101, R102, R367, R382). -/
def State.checkMirror (s : State) : State :=
  let g := s.ledger
  let was := if g.anchor.mirror ≤ 2 then g.anchor.mirror else 0
  let now := mirrorCode g.devA.failed g.devB.failed
  let s := if now ≠ was then
      (s.updLedger fun g => { g with anchor := { g.anchor with mirror := now }, anchorDue := true }).raiseNext 11
    else s
  let s := if now ≠ 0 && now ≠ was then s.fault 2 0x06 (now - 1) else s
  let s := if now = 0 && was ≠ 0 then s.fault 5 0x06 (was - 1) else s
  s.setDegraded 0x06 (now ≠ 0)

/-- The newest header in the archive's checkpoint positions, of a whole image or not: when a checkpoint last started (R106, R109). -/
def Ledger.lastStart (g : Ledger) : Option Checkpoint :=
  ((if g.arcA.answers then g.arcA.ckpts else []) ++ (if g.arcB.answers then g.arcB.ckpts else [])).foldl (fun b x =>
    match b with
    | some y => if y.tick < x.2.tick then some x.2 else b
    | none => some x.2) none

/-- The reference cycle count of a past tick, before zero where it lies in an earlier run (DEDUCED, log entry 167). -/
def State.cyclesAt (s : State) (t : Tick) (period : Nat) : Int := (s.clk.cycles : Int) - (s.since t * period : Nat)

/-- The images of all ledgered objects (R103). -/
def Led.objs (l : Led) : List Obj :=
  let table := fun (k : Nat) (t : TableRec) => if t = TableRec.init then [] else [Obj.table k t]
  [.position l.assigned l.volume l.softLock, .manifest l.manifest, .map l.map] ++
  l.quires.map (fun q => .quire q.id (some q)) ++
  ((List.range 63).filter fun i => (l.slot (i + 1)).state ≠ .free).map (fun i => .slot (i + 1) (l.slot (i + 1))) ++
  table 1 l.lst ++ table 2 l.pft ++ table 3 l.act ++ table 4 l.ttc ++
  ((List.range 64).filterMap fun d => (l.ports.getD d none).map (Obj.port d)) ++ l.shapers.map Obj.shaper ++
  [.trust l.trust] ++ l.cap.toList.map Obj.cap ++ [.fwProgress l.fwMark l.fwLen] ++
  l.rebinds.map (fun r => .rebind r.quire (some r)) ++ l.retiredRc.map Obj.retireRc ++ l.retiredLeaf.map Obj.retireLeaf ++
  [.deepTest l.deepReq l.deepHours, .laser l.laserRef l.advised]

/-- A checkpoint restores a lost journal (R103): its ledgered state is journaled anew, with the command identities it holds, its history
stands in the history log, and the anchored floor and counters are its own. -/
def State.fromCkpt (s : State) (c : Checkpoint) : State :=
  let missing := fun (d : ADev) => c.hist.filter fun h => !d.blocks.flatten.contains h
  let s := s.updLedger fun g =>
    { g with ckIdents := c.idents, arcA := g.arcA.logged (missing g.arcA), arcB := g.arcB.logged (missing g.arcB), anchorDue := true
             anchor := { g.anchor with floor := c.anchor.floor, written := c.anchor.written, erases := c.anchor.erases,
                                       dropped := c.anchor.dropped } }
  if s.ledgerFaulted then s
  else
    let s := c.led.objs.foldl (fun s o => s.stageOwn [o]) s
    c.idents.foldl (fun s i => s.stage { ident := some i.1, kind := i.2, objs := [], hist := [], task := none, result := none,
                                         quire := none, tick := s.now, folios := 1 }) s

/-- The ledgered state and the engine as restore rebuilds them (R101, R103): from the live folios, or on a journal that is lost from the
newest checkpoint. The counters of folios go on from the anchor with the folios sealed since (R110). -/
def State.rebuild (s : State) (r : Restored) : State :=
  let g := s.ledger
  let lost := r.folios = [] && r.cut = [] && g.notGuaranteed
  let from_ := if lost then g.newestCkpt else none
  let base := if lost then (match from_ with | some c => c.led | none => Led.factory) else ledOf Led.factory r.folios
  let early := s.stg.led
  let l := { base with map := base.map.unconfirm
                       retiredRc := early.retiredRc.foldl (fun l x => insertSorted x l) base.retiredRc
                       retiredLeaf := early.retiredLeaf.foldl (fun l x => insertSorted x l) base.retiredLeaf }
  let v := effVolume s.boot l
  let vol := { Vol.init with quires := l.quires.map (restoredQuire v l) }
  let anchors := match g.bestAnchor with | some f => [f] | none => []
  let keys := (List.range 63).flatMap fun i =>
    if (l.slot (i + 1)).state = .keyed then slotKeys s.rot.dice.wrap (i + 1) (l.slot (i + 1)) else []
  let mem := ((List.range 63).filter fun i => (l.slot (i + 1)).state = .opened || (l.slot (i + 1)).state = .keyed).map (· + 1)
  let s := s.heal (r.folios ++ anchors)
  let p : Nat := match l.manifest with | some m => m.period | none => s.clk.period
  let start := g.lastStart
  let tipCrc := match r.folios.getLast? with | some f => f.crc | none => 0
  let ckStart := start.map fun (c : Checkpoint) => s.cyclesAt c.tick p
  let s := s.updLedger fun g => Ledger.histWant { g with
    tip := r.tip, tipCrc := tipCrc, credits := Config.creditRestore, refillAt := s.clk.cycles
    anchor := { g.anchor with written := g.anchor.written + (r.tip - g.anchor.tip) }
    hist := histOf g.anchor.ckCovers r.folios
    ckStart := ckStart
    ckFolios := match start with | some c => r.tip - c.covers | none => 0
    ckWanted := match start with | some c => 65536 ≤ r.tip - c.covers | none => false
    restoring := false, restored := true, notGuaranteed := g.notGuaranteed || r.fault }
  let s := s.updLedger fun g => { g with laneAt := g.laneEntries.getLast?.map fun x => s.cyclesAt x.1 p }
  let s := { s with stg := { led := l, vol := vol }
                    rot := { s.rot with keys := keys, memKeys := mem } }
  match from_ with
  | some c => s.fromCkpt c
  | none => s

/-- What restore finishes of what a cut left open. -/
def State.settleCuts (s : State) : State :=
  let l := s.val
  let s := l.rebinds.foldl (fun s b => s.finishRebind b) s
  let s := (List.range 63).foldl (fun s i =>
    let k := s.val.slot (i + 1)
    if k.state = .revoking || slotLost s.rot.dice.wrap (i + 1) k then s.finishRevoked (i + 1) else s) s
  [0, 1].foldl (fun s k =>
    if (s.fwState.slot k).status = 3 then
      let id := s.nextTask
      (s.startTask none 0xFFFF (.verify k none)).updTask id fun t => { t with sealed := true }
    else s) s

/-- The entries that a restore without a guarantee, or after a cut power seal, records (R387, R624). -/
def State.restoreFaults (s : State) (cut : Bool) : State :=
  let s := if s.ledger.notGuaranteed then s.fault 3 0x06 (if s.ledgerFaulted then 2 else 0) else s
  if cut then s.fault 3 0x0E 0 else s

/-- The restored power events are the newest again, and the manifest's period follows at the next boundary (R456). -/
def State.restoreRest (s : State) : State :=
  let p : Nat := match s.stg.led.manifest with | some m => m.period | none => s.clk.period
  let ev := lastN 16 (s.ledger.powerEntries ++ s.power.events)
  { s with power := { s.power with events := ev }
           clk := { s.clk with nextPeriod := if p ≠ s.clk.period then some p else s.clk.nextPeriod } }

/-- Restore (R101): the tip is chosen, both devices healed and state rebuilt; what a cut left open is finished. -/
def State.restore (s : State) : State :=
  let r := s.ledger.restoreRead
  let cut := r.sealCut s.ledger.anchor
  let recorded := volumeRecorded r.folios || (r.folios = [] && s.ledger.notGuaranteed && s.ledger.newestCkpt.isSome)
  ((((((s.rebuild r).checkMirror).restoreFaults cut).settleCuts).checkVolume recorded).mendAll).restoreRest

/-- Restore ends (R101). Under a power warning its writes, and so its end, wait (R437). -/
def execRestoreDone (s : State) : Host.Outcome State Fault Refusal :=
  .next (if !s.ledger.restoring || s.ledger.held || s.power.holdup || s.faults.fatal.isSome || !s.clk.running then s else s.restore)

/-! ### HBM (R413, R459-R464) -/

/-- The ledgered state that decides the depth of the memory test, which restore may still be reading (R437, R460). -/
def State.testBasis (s : State) : Led × Bool :=
  if s.ledger.restored then (s.val, s.ledger.factory || s.ledger.notGuaranteed)
  else
    let r := s.ledger.restoreRead
    (ledOf Led.factory r.folios, s.ledger.factory || s.ledger.notGuaranteed || r.fault)

/-- The deep test is due (R460). -/
def State.deepDue (s : State) : Bool :=
  let (l, f) := s.testBasis
  f || l.deepReq || 8760 ≤ l.deepHours

/-- Training and identification of the eight stacks end (R459): bring-up stops, or the memory test's depth is chosen (R460). -/
def execHbmTrainDone (trained : List Bool) (ids : List (List Byte)) (s : State) : Host.Outcome State Fault Refusal :=
  if !s.inStage .hbmTrain then .next s
  else if !(List.range 8).all fun i => trained.getD i false then .next (s.haltBoot 5)
  else if !(List.range 8).all fun i => ids.getD i [] = slice s.fuses.colophon (32 + 16 * i) 16 then .next (s.haltBoot 4)
  else
    let deep := s.deepDue
    .next { s with boot := { s.boot with stage := .memTest, depthSet := true, deep := deep } }

/-- A finding of the memory test (R463): a repaired row is a transient fault; otherwise the leaf is retired. -/
def State.memFound (s : State) (f : MemFinding) : State :=
  if f.repaired then s.fault 1 0x05 f.leaf
  else if s.val.retiredLeaf.contains f.leaf || 384 ≤ f.leaf then s
  else
    let s := (s.fault 2 0x05 f.leaf).stageOwn [.retireLeaf f.leaf]
    { s with boot := { s.boot with leafRetired := s.boot.leafRetired + 1 } }

/-- The memory test ends (R461-R464). A warm test that found anything was followed by a deep one (R461); the completion of a deep test
clears its request and restarts the operating time (R460). -/
def execMemTestDone (findings : List MemFinding) (s : State) : Host.Outcome State Fault Refusal :=
  if !s.inStage .memTest then .next s
  else
    let deep := s.boot.deep || findings ≠ []
    let s := { s with boot := { s.boot with deep := deep } }
    let s := findings.foldl (fun s f => s.memFound f) s
    let s := if deep then s.stageOwn [.deepTest false 0] else s
    let s := if s.ledger.restored then s.mendAll else s
    .next (s.toStage .leafZero)

/-- Some leaf belongs to a quire with a tenant slot. -/
def Led.tenantLeaves (l : Led) : Bool := l.quires.any fun q => l.slotOf q.id ≠ 0 && q.leaves ≠ []

/-- Every grantable leaf is zeroed, at the scrubber's rate (R413, R414, R464): restore has ended, its substitutions have sealed, and the entropy source is ready where a
leaf belongs to a tenant slot. Every enabled port then runs its LST (R465). -/
def execLeafZeroDone (s : State) : Host.Outcome State Fault Refusal :=
  let wait := s.val.quires.any fun q => (s.stg.led.quire q.id).elim true fun o => o.leaves ≠ q.leaves
  let bytes := ((List.range 380).filter fun x => !s.val.retiredLeaf.contains x).length * 2 ^ 30
  if !s.inStage .leafZero || !s.ledger.restored || wait || (s.val.tenantLeaves && !s.entropyReady) || s.stg.vol.scrubbed < bytes then
    .next s
  else
    let s := s.updVol fun v => { v with hbm := [], dirty := [], scrubbed := 0 }
    let s := { s with boot := { s.boot with stage := .laneTrain, leafZeroEnded := true, laneAt := s.clk.cycles } }
    let on := if s.boot.straps.bench then [] else (List.range 64).filter (portEnabled s.stg.led)
    .next (on.foldl (fun s d => s.latch d 14) s)

/-- A port's training is over (R465): its LST state admits data, or is a failed state. -/
def State.trained (s : State) (d : Nat) : Bool :=
  let st := lstState s.vis.led s.fw.ver (s.port d).lst
  st.1 = 4 || (lstView s.vis.led s.fw.ver (s.port d).lst).data

/-- LANE_TRAIN ends (R453, R465), when every enabled port is trained, or after 3 s: discovery begins. Under the bench role no port's
LST leaves its state, so the stage lasts its 3 s (R144). -/
def execLaneTrainDone (s : State) : Host.Outcome State Fault Refusal :=
  let ended := ((List.range 64).filter (portEnabled s.stg.led)).all s.trained || s.reached (s.boot.laneAt + 3 * Config.hz)
  .next (if s.inStage .laneTrain && ended then { s with boot := { s.boot with stage := .discovery, laneEnded := true } } else s)

end Sys2Proof.Machine
end

