-- ==== Sys2Proof/Machine/Books.lean ====
section
/-! DEFINITION. The books the seal phase audits (R249, R264, R320, R371-R374, R511) and quarantine (R375, R377). -/
namespace Sys2Proof.Machine

/-! ### The books (R371) -/

/-- Book 3 for route and transfer traffic (R371, R511): with a summary of every present endpoint in this tick, what was accepted does not
exceed what was originated less what was given up. -/
def State.trafficOk (s : State) (q : QuireId) : Bool :=
  let v := s.stg.vol.quire q
  let es := s.endpoints q
  let sums := es.filterMap fun c => v.summaries.find? fun x => x.coord = c && x.tick = s.now
  es = [] || sums.length ≠ es.length ||
  v.accepted + total (sums.map (·.accepted)) + v.givenUp + total (sums.map (·.givenUp)) ≤
    v.originated + total (sums.map (·.originated))

/-- Book 6 (R229, R371). -/
def State.bucketOk (s : State) (b : Bucket) : Bool :=
  match s.vis.led.shaper b.quire b.port with
  | (none, _) => true
  | (some r, top) =>
    let r := min r (2000 * s.clk.period)
    let full : Int := if r = 0 then b.before else min top (b.before + r)
    b.level = full - b.spent && -2099 ≤ b.level && b.level ≤ top

/-- Book 7 (R194, R371). -/
def Flow.windowOk (f : Flow) : Bool := f.got.all fun x => (x + 2 ^ 32 - f.base) % 2 ^ 32 < 4096

/-- Book 4 of a quire (R264): the director holds each leaf of its grant once, and it is a grantable one. -/
def leavesOk (ls : List Nat) : Bool := !repeats ls && ls.all (· < 380)

/-- Book 4 of the director (R264): granted, free, house and retired leaves make 384, so no leaf is granted twice. -/
def Led.leavesOk (l : Led) : Bool := Machine.leavesOk (l.quires.flatMap (·.leaves))

/-- Book 2 of a quire and port (R371): the entries taken, less those released, are those its packets hold. -/
def State.slotsOk (s : State) (b : SlotBook) : Bool := decide (b.taken = b.released + s.ingressOf b.quire b.port)

/-- Book 2 of a port (R371): what all quires hold by their books is the port's occupancy, and at most 4,096. -/
def State.portSlotsOk (s : State) (d : Nat) : Bool :=
  let bs := s.rings.slots.filter (·.port = d)
  decide (total (bs.map (·.taken)) = total (bs.map (·.released)) + s.ingressSlots d) && decide (s.ingressSlots d ≤ 4096)

/-- Book 5 (R371, R402): a slot's count is of its uses in flight themselves, so it equals them and is never negative; a revoking slot's
has not risen since the last audit. -/
def State.refsOk (s : State) (n : Nat) : Bool :=
  (s.rot.refsAt.filter (·.1 = n)).all fun x => s.slotRefs n ≤ x.2

/-- The counts of the revoking slots, for the next audit. -/
def State.markRefs (s : State) : State :=
  let ns := (List.range s.stg.led.slots.length).filter fun n => (s.stg.led.slot n).state = .revoking
  { s with rot := { s.rot with refsAt := ns.map fun n => (n, s.slotRefs n) } }

/-- The books of a quire that do not balance, by code (R371). -/
def State.failedBooks (s : State) (q : QuireId) : List Nat :=
  let ops := s.stg.vol.ops.filter (·.quire = q)
  let ls := match s.stg.led.quire q with | some r => r.leaves | none => []
  (if s.ringBalances q then [] else [1]) ++
  (if s.rings.slots.all fun b => b.quire ≠ q || s.slotsOk b then [] else [2]) ++
  (if (ops.all fun o => o.balances (s.locals o).length) && s.trafficOk q then [] else [3]) ++
  (if leavesOk ls then [] else [4]) ++
  (if s.refsOk (s.stg.led.slotOf q) then [] else [5]) ++
  (if s.buckets.all fun b => b.quire ≠ q || s.bucketOk b then [] else [6]) ++
  (if s.flows.all fun f => f.quire ≠ q || f.windowOk then [] else [7])

/-! ### Quarantine (R375, R377) -/

/-- The durable changes of a quire staged in this tick leave the groups built for them; their commands fail (R375 step 1). -/
def State.withdraw (s : State) (q : QuireId) : State :=
  let mine := fun (r : DurRec) => decide (r.quire = some q) && decide (r.tick = s.now)
  let gone := (s.ledger.groups.flatMap (·.recs) ++ s.ledger.unbuilt).filter mine
  let cut := fun (x : Group) =>
    let rs := x.recs.filter (!mine ·)
    { x with recs := rs, folios := total (rs.map (·.folios)) }
  let s := s.updLedger fun g =>
    { g with groups := (g.groups.map cut).filter (·.recs ≠ []), unbuilt := g.unbuilt.filter (!mine ·) }
  gone.foldl (fun s r => s.dropRec r .booksImbalance) s

/-- A completion of a change of the quire that was staged in this tick: of a command of the tick, or of a solve, a plan or an operation that
ended in it. -/
def ofTick (now : Tick) (q : QuireId) (r : Reply) : Bool :=
  r.quire = q && (r.accTick = now || [0x0401, 0x0501, 0x0702].contains r.opcode)

/-- The completions of a quire's volatile changes of this tick become failures (R375 step 1). -/
def State.turnReplies (s : State) (q : QuireId) (c : Nat) : State :=
  let ch := s.chan c
  let mine := ch.intakeQ.filter (ofTick s.now q)
  let s := s.updChan c fun x => { x with intakeQ := x.intakeQ.filter (!ofTick s.now q ·) }
  mine.foldl (fun s r => s.queueSeal { r with status := .booksImbalance, result := [] }) s

/-- The multi-tick commands of a quire taken in in this tick end (R375 step 1). -/
def State.turnTasks (s : State) (q : QuireId) : State :=
  s.tasks.foldl (fun s t =>
    if t.quire = q && (t.ident.elim false fun i => i.accTick = s.now) then s.taskDropped t .booksImbalance else s) s

/-- The bytes of some leaves as another store holds them. -/
def leavesFrom (old new : List Host.Cell) (ls : List Nat) : List Host.Cell :=
  (old.filter fun c => ls.contains (c.1 / 2 ^ 30)).foldl (fun m c => Memory.write m c.1 c.2)
    (new.filter fun c => !ls.contains (c.1 / 2 ^ 30))

/-- The volatile changes of a quire staged in this tick are discarded (R375 step 1). -/
def State.discardVol (s : State) (q : QuireId) : State :=
  let w := s.vis.vol.quire q
  let ls := match s.vis.led.quire q with | some r => r.leaves | none => []
  let v := s.stg.vol.updQuire q fun v =>
    { v with descs := w.descs, staged := w.staged, planChunks := w.planChunks, plan := w.plan
             drainHold := if v.installed = w.installed then w.drainHold else v.drainHold }
  let ended := fun (o : Op) => o.quire = q && o.state = .ended &&
    (match s.vis.vol.op q o.tag with | some x => x.state ≠ .ended | none => false)
  { s with stg := { s.stg with vol := { v with hbm := leavesFrom s.vis.vol.hbm v.hbm ls
                                               ops := modWhere v.ops ended fun o => { o with final := some .booksImbalance } } } }

/-- A rebind of the quire whose commit folio has not sealed rolls back (R375 step 4). -/
def State.stopRebinds (s : State) (q : QuireId) : State :=
  s.tasks.foldl (fun s t => match t.kind with
    | .rebind r => if t.quire = q then s.rebindStop t r .booksImbalance else s
    | _ => s) s

/-- The quarantine itself takes effect at the next boundary and is journaled in the next group (R377). -/
def State.markQuarantined (s : State) (q : QuireId) : State :=
  let mark := fun (r : QuireRec) => { r with quarantined := true }
  let next := match s.val.quire q with | some r => [Obj.quire q (some (mark r))] | none => []
  let s := s.updLed fun l => { l with quires := modWhere l.quires (·.id = q) mark }
  if s.ledgerFaulted then s
  else s.stage { ident := none, kind := 1, objs := next, hist := [], task := none, result := none, quire := none,
                 tick := s.now, folios := 1 }

/-- A quire whose books fail is quarantined once, with one fault entry for each book that failed (R363, R374, R375). -/
def State.quarantine (s : State) (q : QuireId) (codes : List Nat) : State :=
  let s := (s.withdraw q).turnTasks q
  let s := (List.range 8).foldl (fun s c => s.turnReplies q c) s
  let s := ((s.discardVol q).endOps q .booksImbalance).stopRebinds q
  let s := (s.markQuarantined q).stopAdmission q (s.now + 1)
  codes.foldl (fun s k => s.fault 4 0x0D (q + 65536 * k)) s

/-- The audit of one quire. -/
def State.auditQuire (s : State) (q : QuireId) : State :=
  let bad := s.failedBooks q
  if bad = [] || (match s.stg.led.quire q with | some r => r.quarantined | none => true) then s else s.quarantine q bad

/-- A port whose ingress buffer's sum fails though no quire's own book does (R372): a lasting fault of the port, its buffers are discarded
and it enters its degraded mode. The books start again with nothing held. -/
def State.auditPort (s : State) (d : Nat) : State :=
  if s.portSlotsOk d || s.rings.slots.any (fun b => b.port = d && !s.slotsOk b) then s
  else
    let s := { s with rings := { s.rings with
      fabric := s.rings.fabric.filter fun (f : FabricPkt) => f.src ≠ RingPlace.port d || f.frags ≤ f.entered.length
      slots := s.rings.slots.filter (·.port ≠ d) } }
    ((s.updPort d fun p => { p with egress := [] }).fault 2 0x02 d).degradePort d

/-- The audit (R369, R371): the director's leaf book and the books of the house quire first, whose imbalance is fatal. -/
def State.audit (s : State) : State :=
  match s.failedBooks 0, s.stg.led.leavesOk with
  | k :: _, _ => s.fatal 0x0D (65536 * k)
  | [], false => s.fatal 0x0D (65536 * 4)
  | [], true =>
    let s := (s.stg.led.quires.map (·.id)).foldl (fun s q => s.auditQuire q) s
    ((List.range 64).foldl State.auditPort s).markRefs

end Sys2Proof.Machine
end

