-- ==== Sys2Proof/Machine/Intake.lean ====
section
/-! DEFINITION. The intake of a tick (R54-R56, R113-R124, R129, R135): the replies that are due, and the packets that waited for the
tick. -/
namespace Sys2Proof.Machine

/-- The meaning of an opcode (R519); a reserved opcode has none (R140). -/
def handlerOf (op : Nat) : Handler :=
  match op with
  | 0x0101 => hIdentColophon
  | 0x0102 => hIdentAttest
  | 0x0103 => hIdentCaps
  | 0x0201 => hPosAssign
  | 0x0202 => hPosLock
  | 0x0203 => hDiscScan
  | 0x0204 => hDiscMap
  | 0x0205 => hDiscManifest
  | 0x0301 => hQuireCarve
  | 0x0302 => hQuireGrow
  | 0x0303 => hQuireRelease
  | 0x0304 => hQuireReset
  | 0x0305 => hQuireStatus
  | 0x0401 => hRouteSolve
  | 0x0402 => hRouteInstall
  | 0x0403 => hBoreOpen
  | 0x0404 => hBoreClose
  | 0x0405 => hRouteDrain
  | 0x0501 => hRebindPlan
  | 0x0502 => hRebindCommit
  | 0x0503 => hRebindStatus
  | 0x0601 => hPortConfig
  | 0x0602 => hShaperSet
  | 0x0603 => hPortCounters
  | 0x0701 => hRedDefine
  | 0x0702 => hCollLaunch
  | 0x0703 => hCollStatus
  | 0x0704 => hTileRead
  | 0x0705 => hTileWrite
  | 0x0706 => hCollCancel
  | 0x0801 => hTenantOpen
  | 0x0802 => hKeyInstall
  | 0x0803 => hTenantEvict
  | 0x0804 => hMemScrub
  | 0x0901 => hLedgerStatus
  | 0x0902 => hLedgerCheckpoint
  | 0x0903 => hLedgerRead
  | 0x0A01 => hFwDownload
  | 0x0A02 => hFwVerify
  | 0x0A03 => hFwActivate
  | 0x0A04 => hFwConfirm
  | 0x0A05 => hFwStatus
  | 0x0B01 => hTelemSubscribe
  | 0x0B02 => hTelemSnapshot
  | 0x0C01 => hPowerStatus
  | 0x0C02 => hPowerBudget
  | 0x0D01 => hChanOpen
  | 0x0D02 => hChanClose
  | 0x0D03 => hChanNop
  | 0x0D04 => hChanFence
  | 0x0E01 => hDiagLoop
  | 0x0E02 => hDiagLane
  | 0x0F01 => hTableLoad
  | 0x0F02 => hTableRead
  | 0x0F03 => hTableActivate
  | _ => fun _ s => refuse s .badOpcode

/-! ### Candidates (R54, R56, R121-R124) -/

/-- A candidate: its opcode, its packet, for one in the ring the CMD_HEAD that follows it, and whether it is a secured message that fails
its checks (R138). -/
structure Cand where
  op   : Nat
  pkt  : Pkt
  next : Option Word32
  bad  : Bool
  deriving DecidableEq, Repr

/-- The packets of a command ring from an index on (R121); one that breaks framing takes everything up to CMD_TAIL (R124). -/
def ringCands (ch : Channel) (c : Nat) : Nat → Word32 → List Cand
  | 0, _ => []
  | n + 1, h =>
    let left := (ch.cmdTail - h).toNat
    if left = 0 then []
    else
      let x := parsePkt .mailbox c left 0 0 0 (ringRead ch.cmdRing h.toNat (min left 4096))
      if 4080 < x.2.declLen || left < 16 + x.2.declLen then [{ op := x.1, pkt := x.2, next := some ch.cmdTail, bad := false }]
      else
        let e := h + BitVec.ofNat 32 (roundUp (16 + x.2.declLen) 64)
        { op := x.1, pkt := x.2, next := some e, bad := false } :: ringCands ch c n e

/-- The secured messages of channel 0's ring in a session (R137): each gives the packet it carries, or fails its checks; one that would
extend beyond CMD_TAIL fails, and takes everything up to it. -/
def securedCands (ch : Channel) (key : Nat) : Nat → Word32 → List Cand
  | 0, _ => []
  | n + 1, h =>
    let left := (ch.cmdTail - h).toNat
    if left = 0 then []
    else
      let len := Config.spdmLength (ringRead ch.cmdRing h.toNat (min left 64))
      let whole := decide (0 < len) && decide (len ≤ left)
      let plain := if whole then Config.spdmOpen key (ringRead ch.cmdRing h.toNat len) else none
      let e := if whole then h + BitVec.ofNat 32 (roundUp len 64) else ch.cmdTail
      let b := plain.getD []
      let x := parsePkt .mailbox 0 b.length 0 0 0 b
      { op := x.1, pkt := x.2, next := some e, bad := plain.isNone } :: (if whole then securedCands ch key n e else [])

/-- The packets in a channel's ring (R121-R123, R137): none while the ring is out of service or faulted. -/
def State.inRing (s : State) (c : Nat) : List Cand :=
  let ch := s.chan c
  if !s.ringIn c || ch.cmdFault || ch.rplFault then []
  else match (if c = 0 then s.rot.session else none) with
    | some x => securedCands ch x.key 512 ch.cmdHead
    | none => ringCands ch c 512 ch.cmdHead

/-- A packet would be taken in as far as checks 1 to 5 go. -/
def State.looksNew (s : State) (x : Cand) : Bool :=
  !x.bad && (screen s x.op x.pkt).isNone && match seqCheck s x.op x.pkt with | .fresh | .recovered .. => true | _ => false

/-- The place of a candidate in the order of application (R56): its distance from the channel's last applied sequence. Where none was
applied yet the plain sequence orders (DESIGN CHOICE: R56 names no other point to compare from; log entry 162). -/
def Channel.seqKey (ch : Channel) (p : Pkt) : Nat := match ch.baseline with | some b => (p.seq - b).toNat | none => p.seq.toNat

/-- Insert behind everything that does not come later. -/
def insertCand (key : Cand → Nat) (x : Cand) : List Cand → List Cand
  | [] => [x]
  | y :: l => if key x < key y then x :: y :: l else y :: insertCand key x l

/-- The order of application within a channel (R56). -/
def sortCands (key : Cand → Nat) (l : List Cand) : List Cand := l.foldl (fun s x => insertCand key x s) []

/-- One more command of a channel may be taken in (R55, R74, R129, R571), after those chosen before it: the limits of the tick, no reply
that waits, room in the reply ring, no unfinished command that the cache would lose, no pending fence or one before it, and chan.open
alone. `used`: places taken on the channels before. -/
def State.fits (s : State) (c used : Nat) (new : List Cand) (x : Cand) : Bool :=
  let ch := s.chan c
  let k := new.length
  let opens := fun (y : Cand) => y.op = 0x0D01 && c ≠ 0
  k < Config.perChannel && used + k < Config.perTick && !ch.fence && ch.dueQ = [] &&
  (x.pkt.transport = .eth0 || 8192 ≤ ch.replyFree) &&
  (ch.cache.length + k < 64 || (match ch.cache[ch.cache.length + k - 64]? with | some e => e.final | none => false)) &&
  !new.any opens && (!opens x || new = []) &&
  (new.all fun y => y.op ≠ 0x0D04 || ch.seqKey x.pkt < ch.seqKey y.pkt) &&
  (x.op ≠ 0x0D04 || new.all fun y => ch.seqKey y.pkt < ch.seqKey x.pkt)

/-- Choose what the intake reads of a channel's candidates (R55, R56, R122, R131): those that are not taken in have no place and are read;
of the others those that fit. A ring is read up to the first packet that is left (`strict`). The answer: what is read, what of it is taken
in, and what is left. -/
def State.choose (s : State) (c used : Nat) (strict : Bool) : List Cand → List Cand → List Cand × List Cand × List Cand
  | [], new => ([], new, [])
  | x :: l, new =>
    if !s.looksNew x || new.any (·.pkt.seq = x.pkt.seq) then
      let r := s.choose c used strict l new
      (x :: r.1, r.2)
    else if s.fits c used new x then
      let r := s.choose c used strict l (new ++ [x])
      (x :: r.1, r.2)
    else if strict then ([], new, x :: l)
    else
      let r := s.choose c used strict l new
      (r.1, r.2.1, x :: r.2.2)

/-- The intake of one channel (R54-R56, R122, R138): what it will apply, in order; CMD_HEAD moves past every packet that is read, the rest
stay candidates, and secured messages that fail are counted. -/
def State.planChan (s : State) (c used : Nat) : State × Nat :=
  let ch := s.chan c
  let key := fun (x : Cand) => ch.seqKey x.pkt
  let ring := s.choose c used true (s.inRing c) []
  let wait : List Cand := ch.waiting.map fun w => { op := w.1, pkt := w.2, next := none, bad := false }
  let eth := s.choose c used false (sortCands key wait) ring.2.1
  let read := ring.1 ++ eth.1
  (s.updChan c fun x =>
    { x with
      agenda := (sortCands key (read.filter (!·.bad))).map fun y => (y.op, y.pkt)
      waiting := ch.waiting.filter fun w => eth.2.2.any fun y => (y.op, y.pkt) = w
      cmdHead := (ring.1.getLast?.bind (·.next)).getD x.cmdHead
      left := ring.2.2.length + eth.2.2.length
      secDiscard := sat 0xFFFFFFFF (x.secDiscard + (read.filter (·.bad)).length) }, used + eth.2.1.length)

/-- The intake at a boundary: due replies first, then what each channel may read, by the order of the channels (R55, R56, R135). -/
def State.intake (s : State) : State := ((chanOrder s.now).foldl (fun (x : State × Nat) c => x.1.planChan c x.2) (s, 0)).1

/-- Apply what a channel has left to apply. -/
def State.readAll (s : State) : List (Nat × Pkt) → State
  | [] => s
  | x :: l => ((s.turn x.2).read x.1 (handlerOf x.1) x.2).readAll l

/-- The intake goes on to its end: every candidate chosen is applied, in the order of R56. -/
def State.endIntake (s : State) : State := (chanOrder s.now).foldl (fun s c => s.readAll (s.chan c).agenda) s

end Sys2Proof.Machine
end

