-- ==== Sys2Proof/Machine/Boundary.lean ====
section
/-! DEFINITION. The tick boundary (R46-R53, R63, R604): the index, what becomes visible, and what each part of the director does at
cycle 0 of a tick. -/
namespace Sys2Proof.Machine

/-! ### The index and the period (R47-R53, R61, R100, R370) -/

/-- The index of the next tick: one more, or the later one that a join step or a jump agreed (R50). -/
def State.nextNow (s : State) : Tick := max (s.clk.nextIndex.getD 0) (s.clk.now + 1)

/-- The next tick begins: its index and period, and the reference cycles gone by. In a fatal halt the index stays below H. -/
def State.newTick (s : State) : State :=
  let c := s.clk
  let i := s.nextNow
  let gone := ((c.period : Int) + c.slew).toNat
  { s with ports := s.ports.map (Port.slotsSent c.period), clk := { c with
      now := if s.reservation ≤ i then c.now else i
      period := c.nextPeriod.getD c.period, phase := .intake, cycles := c.cycles + gone, ctlCount := 0, slew := 0,
      sinceSlew := c.sinceSlew + gone, tickOut := c.tickOut + 1, nextIndex := none, nextPeriod := none
      skips := if s.reservation ≤ i || i ≤ c.now + 1 then c.skips else c.skips ++ [(i, i - c.now - 1)] } }

/-- Hours of operation that end with the tick (R460). -/
def State.countHours (s : State) (before : Nat) : State :=
  let hour := 3600 * Config.hz
  if s.ledger.restored && before / hour < s.clk.cycles / hour then
    s.stageOwn [.deepTest s.val.deepReq (s.val.deepHours + (s.clk.cycles / hour - before / hour))]
  else s

/-- The scrubber writes for a tick, while it has work: 240,000 × P bytes (R414). -/
def State.scrubTick (s : State) (period : Nat) : State :=
  let work := s.stg.vol.dirty ≠ [] || s.boot.stage = .leafZero || s.tasks.any fun t => match t.kind with | .scrub .. => true | _ => false
  s.updVol fun v => { v with scrubbed := if work then v.scrubbed + 240000 * period else 0 }

/-! ### What becomes visible (R57, R63) -/

/-- A channel at a boundary: a close applied in the last tick comes due at the end of this intake (R572), and a ring whose indices are
consistent again returns to service (R123). -/
def Channel.boundary (ch : Channel) : Channel :=
  { ch with closing := if ch.closing = 1 then 2 else ch.closing, cmdFault := ch.cmdBad, rplFault := ch.rplBad }

/-- The staged state becomes the visible state, and the mirror written in the last seal phase becomes readable (R62). -/
def State.publish (s : State) : State :=
  let rot := match s.rot.sessionNext with
    | some x => { s.rot with session := x, sessionNext := none }
    | none => s.rot
  { s with vis := s.stg, mirror := s.sampled, rot := rot, ports := s.ports.map Port.boundary, chans := s.chans.map Channel.boundary
           ocs := { s.ocs with setsNow := 0 }
           power := s.power.newTick
           lib := s.lib.boundary
           faults := { s.faults with slowStep := s.faults.slowStep.map fun x => (x.1, x.2 + 1) } }

/-- Discovery has completed (R167, R465). -/
def State.discoveryEnds (s : State) : State :=
  if s.disc.due then
    { s with disc := { s.disc with due := false, complete := true }
             boot := { s.boot with stage := .inService, discEnded := true } }
  else s

/-- The interrupts of the boundary, the registers it fixes, and what reading commands of the tick report (R57, R604, R617). -/
def State.fixRegs (s : State) : State :=
  let old := s.regs
  let s := { s.raiseNow s.irq.next with shown := { ledger := s.ledger, power := s.power, fw := s.fw } }
  (({ s with irq := { s.irq with next := 0 } }.driveFaultN).latchRegs).noteRegs old

/-! ### A new manifest, a new volume (R48, R114, R127, R148, R161) -/

/-- Channels that the manifest moves to the other transport (R114). -/
def State.moveChan (s : State) (m : Manifest) (c : Nat) : State :=
  let eth := m.onEth.getD c false
  if decide ((s.chan c).assigned = .eth0) = eth then s
  else
    let s := { s with tasks := s.tasks.filter fun t =>
      match t.kind, t.ident with
      | .fence .., some i => i.chan ≠ c
      | _, _ => true }
    s.updChan c fun ch => { Channel.init eth with epoch := ch.epoch + 1 }

/-- What a manifest that became visible does. -/
def State.newManifest (s : State) (old : Led) : State :=
  match s.vis.led.manifest with
  | none => s
  | some m =>
    if old.manifest = some m then s
    else
      let s := (List.range 7).foldl (fun s i => s.moveChan m (i + 1)) s
      let s := { s with ocs := { s.ocs with scanned := s.ocs.scanned.filter fun p => !planeDiffers old.manifest m p } }
      ({ s with clk := { s.clk with fsyncAt := none } }).newPeriod m.period

/-- A new effective volume (R148): house sessions end, the library is joined anew, the accelerators of the gatherings that were admitted
are given new coordinates, and discovery runs again. -/
def State.newVolume (s : State) (was : Led) (old : Nat) (running : Bool) : State :=
  if s.volume = old then s
  else
    let s := { s with lib := { s.lib with beacons := s.lib.beacons.filter fun (b : Beacon) => b.volume ≠ s.volume,
                                          align := 0, jump := none } }.elect
    if !running then s
    else
      let s := { s with rot := { s.rot with house := [] }, ocs := { s.ocs with scanned := [] }
                        disc := { s.disc with peers := [], noBoard := [], judged := [], elec := [], complete := false, due := false } }
      ((List.range 32).filter fun g => (was.map.board g).admitted).foldl (fun s g => s.assignAll g (was.map.board g)) s

/-- ETH0 channels that are bound close with a default address that changes (R148). -/
def State.unbind (s : State) (old : Nat) : State :=
  if s.volume = old || s.vis.led.manifest.isSome then s
  else ((List.range 7).filter fun i => (s.chan (i + 1)).bound.isSome).foldl (fun s i => s.closeChan (i + 1)) s

/-- A port announces an address that changed (R127). -/
def State.newIp (s : State) (k : Nat) (old : Option Ip) : State := if s.ownIp k = old then s else s.announceIp k

/-- Planes that were not scanned since bring-up, or that a manifest changed, are due for a scan (R161). -/
def State.wantScans (s : State) : State :=
  if (s.boot.stage ≠ .discovery && s.boot.stage ≠ .inService) || s.boot.straps.bench then s
  else
    let run := fun (p : Nat) => match s.ocs.planes.getD p none with | some { kind := .scan .., .. } => true | _ => false
    let due := (List.range 4).filter fun p =>
      switchedPlane s.vis.led.manifest p && !s.ocs.scanned.contains p && !run p && !s.ocs.scanDue.any (·.1 = p)
    { s with ocs := { s.ocs with scanDue := s.ocs.scanDue ++ due.map (·, none) } }

/-! ### Tables and quires that changed (R166, R184, R197, R199, R407, R445, R541) -/

/-- Tables that became active: an LST by any activation of one (R166). -/
def State.newTables (s : State) (old : Fabric) : State :=
  let s := if s.vis.vol.lstActs = old.vol.lstActs then s else s.newLst
  if s.vis.led.ttc.active = old.led.ttc.active then s else s.newTtc

/-- A quire's endpoints hear of a change of its members or of its keys (R407, R509). -/
def State.tellQuire (s : State) (old : Led) (r : QuireRec) : State :=
  let keys := fun (l : Led) => l.slot (l.slotOf r.id)
  let same := match old.quire r.id with
    | some o => o.members = r.members && (keys old).state = (keys s.vis.led).state && (keys old).cur = (keys s.vis.led).cur &&
        (keys old).prev = (keys s.vis.led).prev
    | none => false
  if same then s else s.announceQuire r.id false s.now

/-- The members that are present in a fabric. -/
def State.presentMembers (s : State) (f : Fabric) (q : QuireId) : List Coord :=
  match f.led.quire q with | some r => r.members.filter (s.presentIn f ·) | none => []

/-- A part of a library quire is announced when it, or its members' presence, changed (R184). -/
def State.tellPart (s : State) (old : Fabric) (r : QuireRec) : State :=
  if r.others s.volume = [] then s
  else
    let same := match old.led.quire r.id with
      | some o => o.members = r.members && o.resetCount = r.resetCount && s.presentMembers old r.id = s.presentMembers s.vis r.id
      | none => false
    if same then s else s.announcePart r false

/-- Parts of library quires that were released (R184). -/
def State.tellReleased (s : State) (old : Led) : State :=
  (old.quires.filter fun r => r.others s.volume ≠ [] && (s.vis.led.quire r.id).isNone).foldl (fun s r => s.announcePart r true) s

/-- A task that writes a quire's tables runs. -/
def State.writingTables (s : State) (q : QuireId) : Bool :=
  s.tasks.any fun t => t.quire = q && match t.kind with | .install .. | .rebind _ | .rewrite .. => true | _ => false

/-- An endpoint that lost its tables, or never had them, is written the installed ones (R197, R199). -/
def State.wantTables (s : State) (r : QuireRec) : State :=
  let v := s.stg.vol.quire r.id
  match v.installed with
  | none => s
  | some x =>
    let es := s.holders r x
    let have_ := v.tables.filter fun (y : Coord × Nat) => es.contains y.1
    let s := if have_ = v.tables then s else s.updQuireVol r.id fun v => { v with tables := have_ }
    let lack := es.filter fun c => !have_.any (·.1 = c)
    if lack = [] || s.writingTables r.id then s else s.startTask none r.id (.rewrite x [] lack)

/-- Members of a quire without routes that became present hear its state with reset set (R513). -/
def State.greetNew (s : State) (old : Fabric) (r : QuireRec) : State :=
  if (s.stg.vol.quire r.id).installed.isSome then s
  else
    let before := s.presentMembers old r.id
    let new := (s.presentMembers s.vis r.id).filter fun c => !before.contains c
    s.sendCtls 0x0D new (s.quireNotice r.id (s.stg.vol.quire r.id).admitted true s.now)

/-- What a boundary does for quires whose records, keys, or members' presence changed. -/
def State.newQuires (s : State) (old : Fabric) : State :=
  let s := s.vis.led.quires.foldl (fun s r => (((s.tellQuire old.led r).tellPart old r).wantTables r).greetNew old r) s
  s.tellReleased old.led

/-! ### Tasks, counts and engines -/

/-- A task's part of a boundary. -/
def State.boundaryTask (s : State) (id : Nat) : State :=
  match s.task id with
  | none => s
  | some t => match t.kind with
    | .rebind r => s.boundaryRebind t r
    | .reset _ st _ _ => s.boundaryReset t st
    | .release _ _ st _ _ => s.boundaryReset t st
    | .evict n b st left => s.boundaryEvict t n b st left
    | .loop .. => s.boundaryLoop t
    | _ => s.boundaryDrain t

/-- Every task's part of a boundary. -/
def State.boundaryTasks (s : State) : State := (s.tasks.map (·.id)).foldl (fun s id => s.boundaryTask id) s

/-- The uplinks of listed gatherings, as the accelerator's coordinate and the uplink (R150, R157). -/
def State.listedUplinks (s : State) : List (Coord × Nat) :=
  match s.vis.led.manifest with
  | none => []
  | some m => (List.range 2048).filterMap fun i =>
      if m.listed (i / 64) (i / 4 % 16) then some (mkCoord s.volume (i / 64) (i / 4 % 16) 0, i % 4) else none

/-- Discovery counts the ticks since each uplink's report, and since a listed board was seen (R157, R162). -/
def State.countReports (s : State) : State :=
  let listed := fun (g : Nat) => (s.vis.led.manifest.bind fun m => m.gatherings.getD g none).isSome
  let on := s.boot.stage = .discovery || s.boot.stage = .inService
  let gs := (List.range 32).filter listed
  let age := fun (g : Nat) => match s.disc.noBoard.find? (·.1 = g) with
    | some x => (g, x.2 + 1)
    | none => (g, 0)
  let new := if on then s.listedUplinks.filter fun x => !s.disc.peers.any fun y => y.1 = x.1 && y.2.1 = x.2 else []
  { s with disc := { s.disc with
      peers := (s.disc.peers.map fun x => (x.1, x.2.1, x.2.2.1, x.2.2.2 + 1)) ++ new.map fun x => (x.1, x.2, none, 0)
      noBoard := if on then gs.map age else s.disc.noBoard } }

/-- The bores whose switching is done are told so (R171). -/
def State.tellDone (s : State) : State :=
  let bs := s.ocs.doneNext
  { s with ocs := { s.ocs with doneNext := [] } }.tellBores bs 2

/-- The reply that a firmware reset waits for is posted, or will not be (R478). -/
def State.replied (s : State) (i : Option CmdIdent) : Bool :=
  match i with
  | none => true
  | some i => !((s.chan i.chan).intakeQ ++ (s.chan i.chan).dueQ).any fun r => r.seq = i.seq && r.accTick = i.accTick

/-- A firmware reset at a boundary (R478): after the reply's boundary admission of every quire stops. -/
def State.planReset (s : State) : State :=
  match s.fw.reset with
  | some (.posted c) =>
    let s := (0 :: s.stg.led.quires.map (·.id)).foldl (fun s q => s.stopAdmission q s.now) s
    { s with fw := { s.fw with reset := some (.stopped c s.now) } }
  | _ => s

/-- The intake has posted what it could: a firmware reset that waited for its reply goes on (R478). -/
def State.noteReply (s : State) : State :=
  match s.fw.reset with
  | some (.awaitReply i) =>
    if s.replied i then { s with fw := { s.fw with reset := some (.posted s.clk.cycles) } } else s
  | _ => s

/-! ### The boundary -/

/-- A gathering that never had a house bore, because a library link occupied its house port, may have one once port.config has returned the
port (R37, R541): discovery finds it again. -/
def State.houseReturned (s : State) : State :=
  let back := fun (g : Nat) => (s.val.map.board g).state = 4 && (s.val.map.board g).cap = 0 && !portLibrary s.boot s.vis.led (housePort g)
  ((List.range 32).filter back).foldl (fun s g =>
    let m := s.val.map
    let m := { m with boards := modAt m.boards g fun b => { b with state := 3 } }
    let s := s.mapTo (m.clearMismatch fun y => y = coordMismatch 0x0B (mkCoord s.volume g 0 0))
    (s.setDegraded 9 (s.val.map.boards.any (·.state = 4))).fault 5 0x09 g) s

/-- What ran in the last tick and became visible: tables, ports, buckets, quires (R63). -/
def State.carryOut (s : State) (old : Fabric) : State :=
  let s := ((s.newTables old).enableEvents old.led).houseReturned
  let s := ((s.refillAll old.led).zeroiseOld).newQuires old
  ((s.tellDone.renewMasks).dropMasked.retireEject).endSessions

/-- What the engines of the tick do at cycle 0. -/
def State.enginesAt0 (s : State) : State :=
  let s := (s.planReset.holdAdmission).boundaryTasks
  (((s.boundaryOps).resendFlows).reportFlows).countReports

/-- A boundary of a running director. -/
def State.liveBoundary (s0 : State) : State :=
  let vol := s0.volume
  let ip0 := s0.ownIp 0
  let ip1 := s0.ownIp 1
  let on := s0.shown.ledger.restored
  let s := ((s0.newTick.scrubTick s0.clk.period).publish).discoveryEnds
  let s := (s.newVolume s0.vis.led vol on).newManifest s0.vis.led
  let s := (s.wantScans.carryOut s0.vis).countHours s0.clk.cycles
  let s := (s.fixRegs.enginesAt0).endFences
  let s := (((List.range 8).foldl (fun s c => s.postDue c) s).joinLate).unbind vol
  let s := ((s.intake.noteReply).newIp 0 ip0).newIp 1 ip1
  (s.linkBeacons).tickBeacons

/-- A boundary of a halted director (R370): the index goes on below H, no staged change is left, and only link beacons go out. -/
def State.haltedBoundary (s0 : State) : State :=
  let s := (s0.newTick.publish).fixRegs
  let s := ((List.range 8).foldl (fun s c => s.postDue c) s.endFences).intake.noteReply
  let s := s.planReset
  if s.now = s0.now then s else s.linkBeacons

/-- A boundary. An index that no reservation covers is never held (R50, R100). -/
def State.boundary (s : State) : State :=
  let s := if s.reservation ≤ s.nextNow then s.fatalOf .reservation else s
  if s.faults.fatal.isSome then s.haltedBoundary else s.liveBoundary

/-- The seal phase of a tick has ended: the next tick begins. -/
def execTickBoundary (s : State) : Host.Outcome State Fault Refusal :=
  if s.clk.running && s.clk.phase = .seal then .next s.boundary else .next s

end Sys2Proof.Machine
end

