-- ==== Sys2Proof/Machine/HostRegs.lean ====
section
/-! DEFINITION. What the host does to the PCIe function (R120-R123, R452, R602-R619) and to the TAP (R586). -/
namespace Sys2Proof.Machine

/-- The host writes packet bytes from CMD_TAIL on and advances CMD_TAIL (R121, R123, R615). -/
def execCmdTailWrite (ch : Nat) (data : List Byte) (tail : Word32) (s : State) : Host.Outcome State Fault Refusal :=
  .next (s.hostWrite ch data tail)

/-- The host advances RPL_HEAD (R122, R123). -/
def execRplHeadWrite (ch : Nat) (head : Word32) (s : State) : Host.Outcome State Fault Refusal :=
  if s.hostAccess && s.ringIn ch then .next ((s.updChan ch fun x => { x with rplHead := head }).checkRing ch)
  else .next s

/-- A write of ones to IRQ_STAT clears those bits but FATAL (R618), and sends again what stays non-empty (R619). -/
def execIrqStatClear (w : Word64) (s : State) : Host.Outcome State Fault Refusal :=
  if s.hostAccess then
    .next { s with irq := Irq.deliver s.irq { s.irq with stat := s.irq.stat &&& ~~~(w &&& ~~~0x100#64) } true }
  else .next s

/-- A write of IRQ_MASK (R618, R619); reserved bits are ignored (R602). -/
def execIrqMaskWrite (w : Word64) (s : State) : Host.Outcome State Fault Refusal :=
  if s.hostAccess then .next { s with irq := Irq.deliver s.irq { s.irq with mask := w &&& 0x3FFFF#64 } true }
  else .next s

/-- A write of MBX_CTL.RIMODE (R616). -/
def execRimodeWrite (w : Byte) (s : State) : Host.Outcome State Fault Refusal :=
  if s.hostAccess then .next { s with irq := { s.irq with rimode := w } } else .next s

/-- A write of MBX_DOORBELL arms the named channels (R616). -/
def execMbxDoorbellWrite (w : Word64) (s : State) : Host.Outcome State Fault Refusal :=
  if s.hostAccess then
    .next { s with chans := s.chans.mapIdx fun c ch => { ch with armed := ch.armed || bit w.toNat c } }
  else .next s

/-- Every other write to BAR0 changes nothing (R603). -/
def execRegisterWriteIgnored (_offset _size : Nat) (_w : Word64) (s : State) : Host.Outcome State Fault Refusal :=
  .next s

/-- The PCIe endpoint resets (R452, R615, R618): every mailbox channel loses its unposted replies, its reply cache, its
baseline and its indices, and its journal lookup opens; REPLY bits, mask and reply mode return to their reset values. -/
def State.perstReset (s : State) : State :=
  let one := fun (ch : Channel) =>
    { ch with sealQ := ch.sealQ.filter (·.transport = .eth0), intakeQ := ch.intakeQ.filter (·.transport = .eth0),
              cache := [], baseline := none, cmdTail := 0, cmdHead := 0, rplTail := 0, rplHead := 0,
              cmdFault := false, rplFault := false, lookupOpen := true, secDiscard := 0, refused := 0, armed := false,
              dueQ := ch.dueQ.filter (·.transport = .eth0), agenda := ch.agenda.filter (·.2.transport = .eth0), epoch := ch.epoch + 1 }
  let s := { s with chans := s.chans.mapIdx fun c ch => if s.ringIn c then one ch else ch }
  { s with irq := { s.irq with stat := s.irq.stat &&& ~~~0xFF#64, mask := 0x3FFFF, rimode := 0, perst := true,
                               msi := none, intx := false, d3 := false, inta := false } }

/-- PERST_N is asserted for `ns` nanoseconds (R452, R597): 100 µs or more is recognised, less than 1 µs is ignored, and
between them it may or may not be (a free value). -/
def execPerstNAssert (ns : Nat) (s : State) : Host.Outcome State Fault Refusal :=
  if ns < 1000 then .next s
  else if 100000 ≤ ns then .next s.perstReset
  else let (b, s) := s.freeBool; .next (if b then s.perstReset else s)

/-- PERST_N is deasserted: the endpoint answers configuration requests again (R452). -/
def execPerstNDeassert (s : State) : Host.Outcome State Fault Refusal :=
  .next { s with irq := { s.irq with perst := false } }

/-- A configuration write (R605, R619): the power state, MSI with 1, 2, 4 or 8 messages, or INTx. -/
def execConfigurationRequest (r : CfgReq) (s : State) : Host.Outcome State Fault Refusal :=
  if s.irq.perst then .next s
  else
    let i := match r with
      | .powerState d => { s.irq with d3 := d }
      | .msi en n => { s.irq with msi := if en && [1, 2, 4, 8].contains n then some n else none }
      | .intx en => { s.irq with intx := en }
    .next { s with irq := { i with inta := i.msi.isNone && i.intx && !i.d3 && i.live ≠ 0 } }

/-- An instruction is loaded through the TAP (R586): EXTEST, CLAMP and HIGHZ act as BYPASS unless RST_N is asserted. -/
def execJtagInstruction (i : JtagInstr) (s : State) : Host.Outcome State Fault Refusal :=
  let eff := match i with
    | .extest | .clamp | .highz => if s.pins.rstN then .bypass else i
    | _ => i
  .next { s with pins := { s.pins with tap := eff } }

end Sys2Proof.Machine
end

