-- ==== Sys2Proof/Machine/Phases.lean ====
section
/-! DEFINITION. The work, drone and seal phases of a tick (R58-R62, R91, R135, R232-R234, R371, R572, R621). -/
namespace Sys2Proof.Machine

/-! ### The work phase (R58-R60) -/

/-- Rewriting installed tables (R197, R199): when every write is acknowledged the endpoints switch and hear the quire's state with reset
set (R513). -/
def State.workRewrite (s : State) (t : Task) (x : Solution) (js : List ShadowJob) (todo : List Coord) (left : Nat) : State × Nat :=
  match s.val.quire t.quire with
  | none => (s.dropTask t.id, left)
  | some q =>
    if (s.stg.vol.quire q.id).installed ≠ some x then (s.dropTask t.id, left)
    else
      let here := fun (c : Coord) => s.presentIn s.stg c
      let bores := match q.installed with | some i => i.2 | none => q.bores
      let (s, js) := s.writeAgain q.id (js.filter fun j => here j.coord)
      let (s, js, todo, left) := s.writeShadows q x bores 0x0402 (todo.filter here) js left
      let s := s.updTask t.id fun t => { t with kind := .rewrite x js todo }
      if todo = [] && jobsDone js then
        let cs := jobCoords js true
        let idx := cs.map fun c => (c, s.tableIndex q.id c)
        let s := s.switchJobs q.id js (s.now + 1)
        let s := s.updQuireVol q.id fun v => { v with tables := v.tables ++ idx }
        let s := s.sendCtls 0x0D cs (s.quireNotice q.id (s.stg.vol.quire q.id).admitted true (s.now + 1))
        (s.dropTask t.id, left)
      else (s, left)

/-- What one command does in a work phase, with what is left of it. -/
def State.workOf (s : State) (t : Task) (left : Nat) : State × Nat :=
  match t.kind with
  | .solve j => s.workSolve t j left
  | .install x d st js todo p => s.workInstall t x d st js todo p left
  | .planSolve p j => s.workPlan t p j left
  | .rebind r => s.workRebind t r left
  | .activate k d qs true js todo => s.workActivate t k d qs js todo left
  | .rewrite x js todo => s.workRewrite t x js todo left
  | .reset _ st _ _ => s.workReset t st left
  | .release _ _ st _ _ => s.workReset t st left
  | _ => (s, left)

/-- One command's step (R59, R60): a step that overruns does nothing in this tick; one that is run again counts as rerun. -/
def State.workTask (s : State) (left id : Nat) : State × Nat :=
  match s.task id with
  | none => (s, left)
  | some t =>
    if t.skip then (s.updTask id fun t => { t with skip := false }, left)
    else
      let s := s.stepRan id
      match s.task id with
      | none => (s, left)
      | some t => s.workOf t left

/-- The order of the work phase: steps that overran run first (R60). -/
def State.workOrder (s : State) : List Nat :=
  ((s.tasks.filter fun t => t.overran && !t.skip) ++ s.tasks.filter fun t => !(t.overran && !t.skip)).map (·.id)

/-- Every command's step, while the work phase lasts. -/
def State.workTasks (s : State) : State := (s.workOrder.foldl (fun x id => x.1.workTask x.2 id) (s, s.workCycles)).1

/-- Channels whose close comes due at the end of this intake (R572). -/
def State.closeDue (s : State) : State :=
  (List.range 8).foldl (fun s c => if (s.chan c).closing = 2 then s.closeChan c else s) s

/-- House bores that wait to move are tried again (R37). -/
def State.moveHouses (s : State) : State :=
  s.ocs.houseMoves.foldl (fun s g => match execHouseBoreMove g s with
    | .next t => t
    | _ => s) s

/-- The intake of the tick has ended, and the work phase does its work. -/
def execWorkPhase (s : State) : Host.Outcome State Fault Refusal :=
  if !s.clk.running || s.clk.phase ≠ .intake then .next s
  else
    let s := s.endIntake.closeDue
    let s := { s with clk := { s.clk with phase := .work } }
    if s.faults.fatal.isSome then .next s
    else
      let s := (s.joinLate.resolveClaims).lstAll
      .next ((s.workTasks.moveHouses).nextChanges)

/-! ### The drone phase (R61, R66, R91, R232, R233, R442, R444) -/

/-- A port's per-tick counters and those its hardware advances by itself (R232); what the hardware counted is free: of the stalls none where
nothing is queued and nothing was sent, and never more than the tick's cycles. -/
def Port.sample (p : Port) (period used waits : Nat) (fr : Nat → Nat) : Port :=
  let up := fun (l : List Nat) (i n : Nat) => modAt l i fun x => sat (2 ^ 64 - 1) (x + n)
  let c := modAt (modAt p.counters 12 fun _ => p.depthMax) 13 fun _ => fr 0 % (p.depthMax + 1)
  let tx := if p.depthMax = 0 && p.ctl = [] && p.slots = [] then 0 else fr 1 % (period + 1)
  { p with counters := up (up (up (up c 14 tx) 15 (if waits = 0 then 0 else fr 2 % (period + 1))) 16 (fr 3)) 17 (fr 4)
           depthMax := used }

/-- The ports are sampled. Nothing ever waited in the ingress buffer of a port that has received no packet. -/
def State.samplePorts (s : State) : State :=
  { s with ports := s.ports.mapIdx fun d p =>
      p.sample s.clk.period (s.egressUsed d) (s.ingressSlots d + (s.port d).counters.getD 0 0) fun i => Config.freeNat (s.freeCtr + 5 * d + i)
           freeCtr := s.freeCtr + 5 * 64 }

/-- The numbers of the die summary (R569 section 0). -/
def State.dieNumbers (s : State) : List Nat :=
  [s.power.clkN, mask s.vis.led.advised, s.power.average, s.clustersInService,
   (s.vis.vol.ops.filter (·.state ≠ .ended)).length, s.vis.led.quires.length, s.faults.suspects.length]

/-- A link's counters at a sample (R234): stale without a report since the last one. -/
def LinkCounters.sample (l : LinkCounters) : LinkCounters :=
  { l with shown := l.vals, stale := !l.fresh, fresh := false }

/-- The values of a subscribed entry (R568, R621): zero where it is stale or absent. -/
def State.linkEntry (s : State) (x : Coord × Nat) : Option (List Nat) :=
  match s.links.find? fun l => l.coord = x.1 && l.link = x.2 with
  | some l => if l.stale || !s.presentIn s.stg x.1 then none else some l.shown
  | none => none

/-- The sample of the drone phase, which the seal phase writes to the mirror (R62, R621): the counters, the subscribed entries with their
stale mask, and the fault and power entries. -/
def State.sampleMirror (s : State) : State :=
  let s := { s with links := s.links.map LinkCounters.sample }
  let es := s.vis.vol.subs.map s.linkEntry
  { s with sampled := {
      tick := s.now, fsyncIgn := s.clk.fsyncIgnored, fsyncAcc := s.clk.fsyncAccepted, fns := s.faults.fns
      eth0 := s.eth0.counters, eth1 := s.eth1.counters, ports := s.ports.map (·.counters), rings := s.rings.counters
      die := s.dieNumbers, tj := s.power.tj, lanes := s.ports.map (·.lanes), subs := es.length
      stale := mask ((List.range es.length).filter fun i => ((es.getD i none).isNone))
      links := es.map fun (x : Option (List Nat)) => x.getD [], faults := s.faults.entries, power := lastN 16 s.power.events } }

/-- The drone phase of a tick. -/
def execDronePhase (sample : SensorSample) (s : State) : Host.Outcome State Fault Refusal :=
  if !s.clk.running || s.clk.phase ≠ .work then .next s
  else
    let s := { s with clk := { s.clk with phase := .drone } }
    let s := ((s.sensePower sample.power).senseHeat sample.tj).samplePorts
    if s.faults.fatal.isSome then .next s.sampleMirror
    else .next (((((s.fecEvents.raiseNonces).buildGroups).buildAnchor).slewOnce).sampleMirror)

/-! ### The seal phase (R62, R135, R195, R234, R371) -/

/-- A task's part of a seal. -/
def State.sealTaskOf (s : State) (id : Nat) : State :=
  match s.task id with
  | none => s
  | some t => match t.kind with
    | .rebind r => s.sealRebind t r
    | .reset _ st cs left => s.sealReset t st cs left
    | .release _ _ st cs left => s.sealReset t st cs left
    | .evict n b st left => s.sealEvict t n b st left
    | _ => s.sealDrain t

/-- The work that only a seal decides: operations, then drains, resets, evictions and rebinds. -/
def State.sealAll (s : State) : State := (s.tasks.map (·.id)).foldl (fun s id => s.sealTaskOf id) s.sealOps

/-- The replies of the seal phase are posted; one that cannot be waits (R129, R135). -/
def State.postSeal (s : State) : State := (List.range 8).foldl (fun s c => s.flushSeal c) s

/-- The seal phase of a tick: the ring stops latch their counts, late records join, the books are audited, what only a seal decides is
decided, changes and claims go out, and replies are posted. The mirror's buffer that the next boundary makes readable holds the sample of
the drone phase already (R62). -/
def execSealPhase (s : State) : Host.Outcome State Fault Refusal :=
  if !s.clk.running || s.clk.phase ≠ .drone then .next s
  else
    let s := { s with clk := { s.clk with phase := .seal } }
    let s := s.latchRings
    let s := if s.faults.fatal.isSome then s else s.joinLate.audit
    let s := if s.faults.fatal.isSome then s else (s.sealAll.sendChanges).sendClaims
    .next s.postSeal

end Sys2Proof.Machine
end

