-- ==== Sys2Proof/Machine/Dispatch.lean ====
section
/-! DEFINITION. One arm per command (R47-R63 order the commands; the meanings are in the family files). -/
namespace Sys2Proof.Machine

def exec (i : Instr) (s : State) : Host.Outcome State Fault Refusal :=
  match i with
  | .identColophon p => Sys2Proof.Machine.execIdentColophon p s
  | .identAttest p => Sys2Proof.Machine.execIdentAttest p s
  | .identCaps p => Sys2Proof.Machine.execIdentCaps p s
  | .posAssign p => Sys2Proof.Machine.execPosAssign p s
  | .posLock p => Sys2Proof.Machine.execPosLock p s
  | .discScan p => Sys2Proof.Machine.execDiscScan p s
  | .discMap p => Sys2Proof.Machine.execDiscMap p s
  | .discManifest p => Sys2Proof.Machine.execDiscManifest p s
  | .quireCarve p => Sys2Proof.Machine.execQuireCarve p s
  | .quireGrow p => Sys2Proof.Machine.execQuireGrow p s
  | .quireRelease p => Sys2Proof.Machine.execQuireRelease p s
  | .quireReset p => Sys2Proof.Machine.execQuireReset p s
  | .quireStatus p => Sys2Proof.Machine.execQuireStatus p s
  | .routeSolve p => Sys2Proof.Machine.execRouteSolve p s
  | .routeInstall p => Sys2Proof.Machine.execRouteInstall p s
  | .boreOpen p => Sys2Proof.Machine.execBoreOpen p s
  | .boreClose p => Sys2Proof.Machine.execBoreClose p s
  | .routeDrainHold p => Sys2Proof.Machine.execRouteDrainHold p s
  | .routeDrainResume p => Sys2Proof.Machine.execRouteDrainResume p s
  | .rebindPlan p => Sys2Proof.Machine.execRebindPlan p s
  | .rebindCommit p => Sys2Proof.Machine.execRebindCommit p s
  | .rebindStatus p => Sys2Proof.Machine.execRebindStatus p s
  | .portConfig p => Sys2Proof.Machine.execPortConfig p s
  | .shaperSet p => Sys2Proof.Machine.execShaperSet p s
  | .portCounters p => Sys2Proof.Machine.execPortCounters p s
  | .tableLoad p => Sys2Proof.Machine.execTableLoad p s
  | .tableRead p => Sys2Proof.Machine.execTableRead p s
  | .tableActivate p => Sys2Proof.Machine.execTableActivate p s
  | .redDefine p => Sys2Proof.Machine.execRedDefine p s
  | .collLaunch p => Sys2Proof.Machine.execCollLaunch p s
  | .collStatus p => Sys2Proof.Machine.execCollStatus p s
  | .tileRead p => Sys2Proof.Machine.execTileRead p s
  | .tileWrite p => Sys2Proof.Machine.execTileWrite p s
  | .collCancel p => Sys2Proof.Machine.execCollCancel p s
  | .tenantOpen p => Sys2Proof.Machine.execTenantOpen p s
  | .installLinkKey p => Sys2Proof.Machine.execInstallLinkKey p s
  | .retirePrevious p => Sys2Proof.Machine.execRetirePrevious p s
  | .addTrustRoot p => Sys2Proof.Machine.execAddTrustRoot p s
  | .removeTrustRoot p => Sys2Proof.Machine.execRemoveTrustRoot p s
  | .tenantEvict p => Sys2Proof.Machine.execTenantEvict p s
  | .memScrub p => Sys2Proof.Machine.execMemScrub p s
  | .ledgerStatus p => Sys2Proof.Machine.execLedgerStatus p s
  | .ledgerCheckpoint p => Sys2Proof.Machine.execLedgerCheckpoint p s
  | .ledgerRead p => Sys2Proof.Machine.execLedgerRead p s
  | .fwDownload p => Sys2Proof.Machine.execFwDownload p s
  | .fwVerify p => Sys2Proof.Machine.execFwVerify p s
  | .fwActivate p => Sys2Proof.Machine.execFwActivate p s
  | .fwConfirm p => Sys2Proof.Machine.execFwConfirm p s
  | .fwReject p => Sys2Proof.Machine.execFwReject p s
  | .fwStatus p => Sys2Proof.Machine.execFwStatus p s
  | .telemSubscribe p => Sys2Proof.Machine.execTelemSubscribe p s
  | .telemSnapshot p => Sys2Proof.Machine.execTelemSnapshot p s
  | .powerStatus p => Sys2Proof.Machine.execPowerStatus p s
  | .powerBudget p => Sys2Proof.Machine.execPowerBudget p s
  | .chanOpen p => Sys2Proof.Machine.execChanOpen p s
  | .chanClose p => Sys2Proof.Machine.execChanClose p s
  | .chanNop p => Sys2Proof.Machine.execChanNop p s
  | .chanFence p => Sys2Proof.Machine.execChanFence p s
  | .diagLoop p => Sys2Proof.Machine.execDiagLoop p s
  | .diagLaneMeasure p => Sys2Proof.Machine.execDiagLaneMeasure p s
  | .diagLaneResetReference p => Sys2Proof.Machine.execDiagLaneResetReference p s
  | .cmdTailWrite ch data tail => Sys2Proof.Machine.execCmdTailWrite ch data tail s
  | .rplHeadWrite ch head => Sys2Proof.Machine.execRplHeadWrite ch head s
  | .irqStatClear w => Sys2Proof.Machine.execIrqStatClear w s
  | .irqMaskWrite w => Sys2Proof.Machine.execIrqMaskWrite w s
  | .rimodeWrite w => Sys2Proof.Machine.execRimodeWrite w s
  | .mbxDoorbellWrite w => Sys2Proof.Machine.execMbxDoorbellWrite w s
  | .registerWriteIgnored offset size w => Sys2Proof.Machine.execRegisterWriteIgnored offset size w s
  | .arpRequestRx port target sender mac => Sys2Proof.Machine.execArpRequestRx port target sender mac s
  | .arpReplyRx port sender mac => Sys2Proof.Machine.execArpReplyRx port sender mac s
  | .ethFrameDiscard port why bytes => Sys2Proof.Machine.execEthFrameDiscard port why bytes s
  | .ethLinkUp port => Sys2Proof.Machine.execEthLinkUp port s
  | .arpEntryExpiry port addr => Sys2Proof.Machine.execArpEntryExpiry port addr s
  | .identReqTimer => Sys2Proof.Machine.execIdentReqTimer s
  | .identRx src msg => Sys2Proof.Machine.execIdentRx src msg s
  | .setAckRx src msg => Sys2Proof.Machine.execSetAckRx src msg s
  | .setDoneRx src msg => Sys2Proof.Machine.execSetDoneRx src msg s
  | .mapRx src msg => Sys2Proof.Machine.execMapRx src msg s
  | .alarmRx src msg => Sys2Proof.Machine.execAlarmRx src msg s
  | .setDeadlineExpiry unit => Sys2Proof.Machine.execSetDeadlineExpiry unit s
  | .dataPacketRx port uncorrectable pkt => Sys2Proof.Machine.execDataPacketRx port uncorrectable pkt s
  | .linkBeaconRx port uncorrectable pkt => Sys2Proof.Machine.execLinkBeaconRx port uncorrectable pkt s
  | .tickBeaconRx port uncorrectable phaseError pkt => Sys2Proof.Machine.execTickBeaconRx port uncorrectable phaseError pkt s
  | .peerReportRx port uncorrectable pkt => Sys2Proof.Machine.execPeerReportRx port uncorrectable pkt s
  | .coordinateConfirmationRx port uncorrectable pkt => Sys2Proof.Machine.execCoordinateConfirmationRx port uncorrectable pkt s
  | .tableWriteAckRx port uncorrectable pkt => Sys2Proof.Machine.execTableWriteAckRx port uncorrectable pkt s
  | .legAckRx port uncorrectable pkt => Sys2Proof.Machine.execLegAckRx port uncorrectable pkt s
  | .completionReportRx port uncorrectable pkt => Sys2Proof.Machine.execCompletionReportRx port uncorrectable pkt s
  | .counterReportRx port uncorrectable pkt => Sys2Proof.Machine.execCounterReportRx port uncorrectable pkt s
  | .retrainRequestRx port uncorrectable pkt => Sys2Proof.Machine.execRetrainRequestRx port uncorrectable pkt s
  | .libraryClaimRx port claim => Sys2Proof.Machine.execLibraryClaimRx port claim s
  | .quireAnnouncementRx port ann => Sys2Proof.Machine.execQuireAnnouncementRx port ann s
  | .spdmMessageRx peer msg done good => Sys2Proof.Machine.execSpdmMessageRx peer msg done good s
  | .keyMessageAnswerRx peer msg => Sys2Proof.Machine.execKeyMessageAnswerRx peer msg s
  | .tickBoundary => Sys2Proof.Machine.execTickBoundary s
  | .workPhase => Sys2Proof.Machine.execWorkPhase s
  | .stepOverrun task => Sys2Proof.Machine.execStepOverrun task s
  | .dronePhase sample => Sys2Proof.Machine.execDronePhase sample s
  | .sealPhase => Sys2Proof.Machine.execSealPhase s
  | .drainTimeout q => Sys2Proof.Machine.execDrainTimeout q s
  | .tickReservationRaise => Sys2Proof.Machine.execTickReservationRaise s
  | .reservationExhausted => Sys2Proof.Machine.execReservationExhausted s
  | .creditRefill => Sys2Proof.Machine.execCreditRefill s
  | .journalWriteStart => Sys2Proof.Machine.execJournalWriteStart s
  | .folioWriteDone matched => Sys2Proof.Machine.execFolioWriteDone matched s
  | .checkpointTimer => Sys2Proof.Machine.execCheckpointTimer s
  | .checkpointStart => Sys2Proof.Machine.execCheckpointStart s
  | .checkpointCopyDone dev verified => Sys2Proof.Machine.execCheckpointCopyDone dev verified s
  | .laneMarginSample sample => Sys2Proof.Machine.execLaneMarginSample sample s
  | .rstNAssert ns => Sys2Proof.Machine.execRstNAssert ns s
  | .pwrGoodDeassert ns => Sys2Proof.Machine.execPwrGoodDeassert ns s
  | .perstNAssert ns => Sys2Proof.Machine.execPerstNAssert ns s
  | .bringUpStart straps => Sys2Proof.Machine.execBringUpStart straps s
  | .rotRomDone romOk fusesOk => Sys2Proof.Machine.execRotRomDone romOk fusesOk s
  | .fwVerifyStageDone anchorWritable => Sys2Proof.Machine.execFwVerifyStageDone anchorWritable s
  | .controlStart ledA ledB arcA arcB => Sys2Proof.Machine.execControlStart ledA ledB arcA arcB s
  | .clusterWaveStart w => Sys2Proof.Machine.execClusterWaveStart w s
  | .clusterSelftestDone rc passed => Sys2Proof.Machine.execClusterSelftestDone rc passed s
  | .restoreDone => Sys2Proof.Machine.execRestoreDone s
  | .hbmTrainDone trained ids => Sys2Proof.Machine.execHbmTrainDone trained ids s
  | .memTestDone findings => Sys2Proof.Machine.execMemTestDone findings s
  | .leafZeroDone => Sys2Proof.Machine.execLeafZeroDone s
  | .laneTrainDone => Sys2Proof.Machine.execLaneTrainDone s
  | .discoveryComplete => Sys2Proof.Machine.execDiscoveryComplete s
  | .entropyReady ms => Sys2Proof.Machine.execEntropyReady ms s
  | .entropyHealthFail => Sys2Proof.Machine.execEntropyHealthFail s
  | .drbgReseed => Sys2Proof.Machine.execDrbgReseed s
  | .scanRoundEnd plane => Sys2Proof.Machine.execScanRoundEnd plane s
  | .uplinkSilent c uplink => Sys2Proof.Machine.execUplinkSilent c uplink s
  | .boardMissing g => Sys2Proof.Machine.execBoardMissing g s
  | .houseBoreMove g => Sys2Proof.Machine.execHouseBoreMove g s
  | .portLinkEvent port event => Sys2Proof.Machine.execPortLinkEvent port event s
  | .lstTimerExpiry port => Sys2Proof.Machine.execLstTimerExpiry port s
  | .elsAlarm fau => Sys2Proof.Machine.execElsAlarm fau s
  | .pathMaskClear q g h path => Sys2Proof.Machine.execPathMaskClear q g h path s
  | .scheduledDiagLane e => Sys2Proof.Machine.execScheduledDiagLane e s
  | .diagLaneEnd e lanes uncorrectable reportsMissing => Sys2Proof.Machine.execDiagLaneEnd e lanes uncorrectable reportsMissing s
  | .joinStep leader leaderIndex delta => Sys2Proof.Machine.execJoinStep leader leaderIndex delta s
  | .indexJump => Sys2Proof.Machine.execIndexJump s
  | .periodSwitch => Sys2Proof.Machine.execPeriodSwitch s
  | .leaderTimeout => Sys2Proof.Machine.execLeaderTimeout s
  | .alignmentLost => Sys2Proof.Machine.execAlignmentLost s
  | .fsyncEdge error => Sys2Proof.Machine.execFsyncEdge error s
  | .claimTimeout port => Sys2Proof.Machine.execClaimTimeout port s
  | .shadowWriteRetry c q => Sys2Proof.Machine.execShadowWriteRetry c q s
  | .multicastHorizon q seq => Sys2Proof.Machine.execMulticastHorizon q seq s
  | .retryHorizon q tag item => Sys2Proof.Machine.execRetryHorizon q tag item s
  | .tagCloseEnd q tag => Sys2Proof.Machine.execTagCloseEnd q tag s
  | .launchMatchTimeout q tag => Sys2Proof.Machine.execLaunchMatchTimeout q tag s
  | .workItemDone q tag item rc outcome => Sys2Proof.Machine.execWorkItemDone q tag item rc outcome s
  | .tileZeroDone q => Sys2Proof.Machine.execTileZeroDone q s
  | .rebindCopyDone q uncorrectable => Sys2Proof.Machine.execRebindCopyDone q uncorrectable s
  | .rebindVerifyTimeout q => Sys2Proof.Machine.execRebindVerifyTimeout q s
  | .resetConfirmTimeout q => Sys2Proof.Machine.execResetConfirmTimeout q s
  | .evictBound q => Sys2Proof.Machine.execEvictBound q s
  | .scrubDone leaves => Sys2Proof.Machine.execScrubDone leaves s
  | .patrolScrub corrected => Sys2Proof.Machine.execPatrolScrub corrected s
  | .hbmEccError leaf addr => Sys2Proof.Machine.execHbmEccError leaf addr s
  | .keyMessageTimeout peer q => Sys2Proof.Machine.execKeyMessageTimeout peer q s
  | .houseSessionStart peer => Sys2Proof.Machine.execHouseSessionStart peer s
  | .houseSessionRetry peer => Sys2Proof.Machine.execHouseSessionRetry peer s
  | .pwrWarnRecognised => Sys2Proof.Machine.execPwrWarnRecognised s
  | .pwrWarnPulseIgnored => Sys2Proof.Machine.execPwrWarnPulseIgnored s
  | .pwrWarnDeassert => Sys2Proof.Machine.execPwrWarnDeassert s
  | .resumption => Sys2Proof.Machine.execResumption s
  | .pmbusPoll readings => Sys2Proof.Machine.execPmbusPoll readings s
  | .pmbusReprobe unit answered => Sys2Proof.Machine.execPmbusReprobe unit answered s
  | .pmbAlert => Sys2Proof.Machine.execPmbAlert s
  | .clusterClockStep => Sys2Proof.Machine.execClusterClockStep s
  | .budgetCeilingRise => Sys2Proof.Machine.execBudgetCeilingRise s
  | .thermalCeilingRise => Sys2Proof.Machine.execThermalCeilingRise s
  | .thermalTrip => Sys2Proof.Machine.execThermalTrip s
  | .fatalFault cause => Sys2Proof.Machine.execFatalFault cause s
  | .confirmWindowExpiry => Sys2Proof.Machine.execConfirmWindowExpiry s
  | .fwReset => Sys2Proof.Machine.execFwReset s
  | .ringEntry offer => Sys2Proof.Machine.execRingEntry offer s
  | .ringEjectArrival fabric frag => Sys2Proof.Machine.execRingEjectArrival fabric frag s
  | .portSend port => Sys2Proof.Machine.execPortSend port s
  | .uncorrectableCodeword port packets => Sys2Proof.Machine.execUncorrectableCodeword port packets s
  | .firstStartDisagreement port => Sys2Proof.Machine.execFirstStartDisagreement port s
  | .slotEccError ring dir stop pkt double => Sys2Proof.Machine.execSlotEccError ring dir stop pkt double s
  | .degradedModeLeft => Sys2Proof.Machine.execDegradedModeLeft s
  | .imageCheckDone => Sys2Proof.Machine.execImageCheckDone s
  | .archiveWriteDone dev verified => Sys2Proof.Machine.execArchiveWriteDone dev verified s
  | .otpBurnDone programmed => Sys2Proof.Machine.execOtpBurnDone programmed s
  | .spdmResponse rsp failed sessionUp sessionDown peerCert => Sys2Proof.Machine.execSpdmResponse rsp failed sessionUp sessionDown peerCert s
  | .perstNDeassert => Sys2Proof.Machine.execPerstNDeassert s
  | .configurationRequest r => Sys2Proof.Machine.execConfigurationRequest r s
  | .jtagInstruction x => Sys2Proof.Machine.execJtagInstruction x s

end Sys2Proof.Machine
end

