-- ==== Sys2Proof/Machine/Window.lean ====
section
/-! DEFINITION. The register window (R120, R602-R616, R621): the map of BAR0, and the byte that a read of each offset returns. -/
namespace Sys2Proof.Machine

/-- What stands at an offset of BAR0 (R120, R606). -/
inductive BarPlace where
  /-- a 64-bit register, by its offset, and the byte of it -/
  | register (reg byte : Nat)
  /-- a byte of a channel's descriptor -/
  | desc (c byte : Nat)
  /-- a byte of a channel's command ring -/
  | cmdRing (c byte : Nat)
  /-- a byte of a channel's reply ring -/
  | rplRing (c byte : Nat)
  /-- a byte of the counter mirror -/
  | mirror (byte : Nat)
  | reserved
  deriving DecidableEq, Repr

/-- The map of BAR0 (R120, R606): channel c has its descriptor at 0x1000 + 0x200 × c and its rings at 0x1_0000 + 0x1_0000 × c. -/
def barPlace (off : Nat) : BarPlace :=
  if off < 0x1000 then .register (off / 8 * 8) (off % 8)
  else if off < 0x2000 then .desc ((off - 0x1000) / 0x200) ((off - 0x1000) % 0x200)
  else if off < 0x10000 then .reserved
  else if off < 0x90000 then
    let c := off / 0x10000 - 1
    let b := off % 0x10000
    if b < 0x8000 then .cmdRing c b else .rplRing c (b - 0x8000)
  else if off < 0xA0000 then .mirror (off - 0x90000)
  else .reserved

/-- The word of a register at its offset (R606): the doorbell reads zero, and so does every offset the map does not name. -/
def State.register (s : State) (reg : Nat) : Nat :=
  let r := s.regs
  match reg with
  | 0x00 => r.dirId.toNat
  | 0x08 => r.dirStat.toNat
  | 0x10 => r.tickNow.toNat
  | 0x18 => r.tickCfg.toNat
  | 0x20 => r.bootStat.toNat
  | 0x28 => r.entStat.toNat
  | 0x30 => r.strapVal.toNat
  | 0x38 => r.faultSum.toNat
  | 0x40 => r.pwrStat.toNat
  | 0x48 => r.ledgStat.toNat
  | 0x80 => s.irq.stat.toNat
  | 0x88 => s.irq.mask.toNat
  | 0x100 => r.mbxRings + 256 * b2n r.mbxReady + 65536 * s.irq.rimode.toNat
  | _ => 0

/-- The bytes of a channel's descriptor (R120, R614): the four indices as they stand, zero while the ring is out of service (R615), and the
other fields as the last boundary fixed them. -/
def State.descriptor (s : State) (c : Nat) : List Byte :=
  let ch := s.chan c
  let x := s.regs.descs.getD c DescLatch.init
  let i := fun (w : Word32) => le 4 (if s.ringIn c then w.toNat else 0)
  let b := x.bound.getD (0, 0)
  i ch.cmdTail ++ i ch.cmdHead ++ i ch.rplTail ++ i ch.rplHead ++ le 4 (s.regs.chanStat.getD c 0) ++ le 4 x.baseline ++
  le 4 (s.regs.waiting.getD c 0) ++ le 4 0 ++ le 4 (if c = 0 then x.discard else 0) ++ le 4 x.refused ++ le 8 x.taken ++
  leIp b.1 ++ le 2 b.2

/-- An entry of the mirror's fault counts (R621): transient and lasting, both saturating. -/
def FnFaults.encode (f : FnFaults) : List Byte := le 4 (sat 0xFFFFFFFF f.transient) ++ le 4 (sat 0xFFFFFFFF f.lasting)

/-- The byte at an offset of the counter mirror (R621): SAMPLE_TICK, the subscribed entries and their stale mask, the FSYNC edges, the
fault counts, and the counters of the Ethernet ports, the ports, the rings and the subscribed links; reserved offsets read zero. -/
def Mirror.byte (m : Mirror) (off : Nat) : Byte :=
  let at_ := fun (l : List Byte) (i : Nat) => l.getD i 0
  let ctr := fun (l : List Nat) (i : Nat) => at_ (le 8 (l.getD (i / 8) 0)) (i % 8)
  let table := fun (l : List (List Nat)) (size i : Nat) => ctr (l.getD (i / size) []) (i % size)
  if off < 0x80 then at_ (le 8 m.tick ++ le 2 m.subs ++ le 6 0 ++ le 16 m.stale ++ le 8 m.fsyncIgn ++ le 8 m.fsyncAcc) off
  else if off < 0x100 then at_ ((m.fns.flatMap FnFaults.encode)) (off - 0x80)
  else if off < 0x180 then ctr m.eth0 (off - 0x100)
  else if off < 0x200 then ctr m.eth1 (off - 0x180)
  else if off < 0x400 then 0
  else if off < 0x4400 then table m.ports 256 (off - 0x400)
  else if off < 0x5E00 then table m.rings 128 (off - 0x4400)
  else if off < 0x8000 then 0
  else table m.links 256 (off - 0x8000)

/-- The byte a host read of BAR0 returns at an offset (R602, R604, R606). -/
def State.barByte (s : State) (off : Nat) : Byte :=
  match barPlace off with
  | .register r b => (le 8 (s.register r)).getD b 0
  | .desc c b => (s.descriptor c).getD b 0
  | .cmdRing c b => Memory.read (s.chan c).cmdRing b
  | .rplRing c b => Memory.read (s.chan c).rplRing b
  | .mirror b => s.mirror.byte b
  | .reserved => 0

/-- A host read of `n` bytes (R602): it always completes and returns the bytes at its offsets. -/
def State.barRead (s : State) (off n : Nat) : List Byte := (List.range n).map fun i => s.barByte (off + i)

end Sys2Proof.Machine
end

