-- ==== Sys2Proof/WellFormed.lean ====
section
/-! DEFINITION. Which commands are well formed: each operand within the range its field or its kind has in the manual. The machine
gives every command a meaning; the ranges are what the encodings and the block's dimensions admit. -/
namespace Sys2Proof

/-- A packet a transport can deliver (R117, R120, R125): the header's fields in their widths, a channel number, no datagram source on
the mailbox, and no more bytes than a ring or a datagram holds. -/
def Pkt.wf (p : Pkt) : Bool :=
  p.ring < 8 && p.declLen < 65536 && p.quire < 65536 && p.params.length ≤ 32752 &&
  (match p.transport with
   | .mailbox => p.srcIp = 0 && p.srcPort = 0 && p.srcMac = 0
   | .eth0 => p.ring = p.flags.toNat % 8 && p.srcIp < 2 ^ 32 && p.srcPort < 2 ^ 16 &&
     p.srcMac < 2 ^ 48)

/-- The straps of R579: six bits of volume, two of role. -/
def Straps.wf (x : Straps) : Bool := x.vol < 64 && x.role < 4

/-- An element in the ranges of the installation (R16, R25, R26, R43). -/
def Element.wf : Element → Bool
  | .port d => d < 64
  | .uplink c u => c < 2 ^ 20 && u < 4
  | .elec g s t => g < 32 && s < 16 && t < 16 && s ≠ t

/-- An agent of the rings exists (R235, R236). -/
def RingPlace.wf : RingPlace → Bool
  | .cluster rc => rc < 160
  | .hbm col => col < 16
  | .port d => d < 64
  | .control => true

/-- A waiting fragment is one of its packet's 1 to 9 (R215, R239). -/
def RingOffer.wf (o : RingOffer) : Bool :=
  o.quire < 4096 && o.src.wf && o.dst.wf && 0 < o.frags && o.frags ≤ 9 && o.id.frag < 9

/-- A claim between directors (R72, R331): volumes of a library. -/
def Claim.wf : Claim → Bool
  | .linkRole v t p _ => v < 64 && t < 2 ^ 64 && p < 64
  | .launch v t q tag kind setMode func mode _ _ _ set =>
    v < 64 && t < 2 ^ 64 && q < 4096 && tag < 2 ^ 32 && kind < 256 && setMode < 256 && func < 256 && mode < 256 &&
      set.all (· < 2 ^ 20)
  | .cancel v t q tag => v < 64 && t < 2 ^ 64 && q < 4096 && tag < 2 ^ 32
  | .failed v t q tag => v < 64 && t < 2 ^ 64 && q < 4096 && tag < 2 ^ 32
  | .bandwidth v t p q r b => v < 64 && t < 2 ^ 64 && p < 64 && q < 4096 && r.all (· < 2 ^ 32) && b < 2 ^ 32
  | .quiet v t => v < 64 && t < 2 ^ 64

/-- An announcement of R184. -/
def Announcement.wf (a : Announcement) : Bool :=
  a.volume < 64 && a.quire < 4096 && a.key < 2 ^ 16 && a.seed < 2 ^ 32 && a.span < 2 ^ 64 && a.members.all (· < 2 ^ 20)

/-- An item a retry horizon names (R324). -/
def RetryItem.wf : RetryItem → Bool
  | .chunk _ _ => true
  | .leg dst _ => dst < 2 ^ 20

/-- A message of the OCS control protocol comes from an IPv4 address (R175, R176). -/
def ocsMsgWf (src : Ip) (msg : List Byte) : Bool := src < 2 ^ 32 && msg.length ≤ 65507

/-- A packet at a director port (R206, R210): one of 64 ports; no packet is longer than header, body, tag and CRC together. -/
def portRxWf (port : Nat) (pkt : List Byte) : Bool := port < 64 && pkt.length ≤ 2100

/-- A write of `n` bytes at an offset of BAR0 that reaches a writable place (R120, R602, R603): a command ring, or, aligned, CMD_TAIL or
RPL_HEAD of a descriptor, IRQ_STAT, IRQ_MASK, MBX_CTL or MBX_DOORBELL. -/
def barWritable (off n : Nat) : Bool :=
  let meets := fun (a len : Nat) => a < off + n && off < a + len
  ((List.range 8).any fun c => meets (0x10000 + 0x10000 * c) 0x8000) ||
  (((n = 4 && off % 4 = 0) || (n = 8 && off % 8 = 0)) &&
    (meets 0x80 16 || meets 0x100 16 || (List.range 8).any fun c => meets (0x1000 + 0x200 * c) 4 || meets (0x100C + 0x200 * c) 4))

/-- Each operand is in its range. -/
def Instr.wf : Instr → Bool
  | .identColophon p => p.wf
  | .identAttest p => p.wf
  | .identCaps p => p.wf
  | .posAssign p => p.wf
  | .posLock p => p.wf
  | .discScan p => p.wf
  | .discMap p => p.wf
  | .discManifest p => p.wf
  | .quireCarve p => p.wf
  | .quireGrow p => p.wf
  | .quireRelease p => p.wf
  | .quireReset p => p.wf
  | .quireStatus p => p.wf
  | .routeSolve p => p.wf
  | .routeInstall p => p.wf
  | .boreOpen p => p.wf
  | .boreClose p => p.wf
  | .routeDrainHold p => p.wf
  | .routeDrainResume p => p.wf
  | .rebindPlan p => p.wf
  | .rebindCommit p => p.wf
  | .rebindStatus p => p.wf
  | .portConfig p => p.wf
  | .shaperSet p => p.wf
  | .portCounters p => p.wf
  | .tableLoad p => p.wf
  | .tableRead p => p.wf
  | .tableActivate p => p.wf
  | .redDefine p => p.wf
  | .collLaunch p => p.wf
  | .collStatus p => p.wf
  | .tileRead p => p.wf
  | .tileWrite p => p.wf
  | .collCancel p => p.wf
  | .tenantOpen p => p.wf
  | .installLinkKey p => p.wf
  | .retirePrevious p => p.wf
  | .addTrustRoot p => p.wf
  | .removeTrustRoot p => p.wf
  | .tenantEvict p => p.wf
  | .memScrub p => p.wf
  | .ledgerStatus p => p.wf
  | .ledgerCheckpoint p => p.wf
  | .ledgerRead p => p.wf
  | .fwDownload p => p.wf
  | .fwVerify p => p.wf
  | .fwActivate p => p.wf
  | .fwConfirm p => p.wf
  | .fwReject p => p.wf
  | .fwStatus p => p.wf
  | .telemSubscribe p => p.wf
  | .telemSnapshot p => p.wf
  | .powerStatus p => p.wf
  | .powerBudget p => p.wf
  | .chanOpen p => p.wf
  | .chanClose p => p.wf
  | .chanNop p => p.wf
  | .chanFence p => p.wf
  | .diagLoop p => p.wf
  | .diagLaneMeasure p => p.wf
  | .diagLaneResetReference p => p.wf
  | .cmdTailWrite ch data _ => ch < 8 && data.length ≤ 32768
  | .rplHeadWrite ch _ => ch < 8
  | .irqStatClear _ => true
  | .irqMaskWrite _ => true
  | .rimodeWrite _ => true
  | .mbxDoorbellWrite _ => true
  | .registerWriteIgnored off n _ => off < 2 ^ 20 && 1 ≤ n && n ≤ 8 && !barWritable off n
  | .arpRequestRx port target sender mac => port < 2 && target < 2 ^ 32 && sender < 2 ^ 32 && mac < 2 ^ 48
  | .arpReplyRx port sender mac => port < 2 && sender < 2 ^ 32 && mac < 2 ^ 48
  | .ethFrameDiscard port _ n => port < 2 && n < 65536
  | .ethLinkUp port => port < 2
  | .arpEntryExpiry port a => port < 2 && a < 2 ^ 32
  | .identReqTimer => true
  | .identRx src m => ocsMsgWf src m
  | .setAckRx src m => ocsMsgWf src m
  | .setDoneRx src m => ocsMsgWf src m
  | .mapRx src m => ocsMsgWf src m
  | .alarmRx src m => ocsMsgWf src m
  | .setDeadlineExpiry u => u < 32
  | .dataPacketRx port _ b => portRxWf port b
  | .linkBeaconRx port _ b => portRxWf port b
  | .tickBeaconRx port _ _ b => portRxWf port b
  | .peerReportRx port _ b => portRxWf port b
  | .coordinateConfirmationRx port _ b => portRxWf port b
  | .tableWriteAckRx port _ b => portRxWf port b
  | .legAckRx port _ b => portRxWf port b
  | .completionReportRx port _ b => portRxWf port b
  | .counterReportRx port _ b => portRxWf port b
  | .retrainRequestRx port _ b => portRxWf port b
  | .libraryClaimRx port c => port < 64 && c.wf
  | .quireAnnouncementRx port a => port < 64 && a.wf
  | .spdmMessageRx peer _ _ _ => peer < 2 ^ 20
  | .keyMessageAnswerRx peer _ => peer < 2 ^ 20
  | .tickBoundary => true
  | .workPhase => true
  | .stepOverrun _ => true
  | .dronePhase _ => true
  | .sealPhase => true
  | .drainTimeout q => q < 4096
  | .tickReservationRaise => true
  | .reservationExhausted => true
  | .creditRefill => true
  | .journalWriteStart => true
  | .folioWriteDone _ => true
  | .checkpointTimer => true
  | .checkpointStart => true
  | .checkpointCopyDone _ _ => true
  | .laneMarginSample _ => true
  | .rstNAssert _ => true
  | .pwrGoodDeassert _ => true
  | .perstNAssert _ => true
  | .bringUpStart x => x.wf
  | .rotRomDone _ _ => true
  | .fwVerifyStageDone _ => true
  | .controlStart _ _ _ _ => true
  | .clusterWaveStart w => w < 10
  | .clusterSelftestDone rc _ => rc < 160
  | .restoreDone => true
  | .hbmTrainDone trained ids => trained.length = 8 && ids.length = 8
  | .memTestDone fs => fs.all fun f => f.leaf < 384
  | .leafZeroDone => true
  | .laneTrainDone => true
  | .discoveryComplete => true
  | .entropyReady _ => true
  | .entropyHealthFail => true
  | .drbgReseed => true
  | .scanRoundEnd p => p < 4
  | .uplinkSilent c u => c < 2 ^ 20 && u < 4
  | .boardMissing g => g < 32
  | .houseBoreMove g => g < 32
  | .portLinkEvent port e => port < 64 && e < 16
  | .lstTimerExpiry port => port < 64
  | .elsAlarm f => f < 8
  | .pathMaskClear q g h p => q < 4096 && g < 32 && h < 33 && p < 64
  | .scheduledDiagLane e => e.wf
  | .diagLaneEnd e _ _ _ => e.wf
  | .joinStep l i d => l < 64 && i < 2 ^ 64 && d < 4096
  | .indexJump => true
  | .periodSwitch => true
  | .leaderTimeout => true
  | .alignmentLost => true
  | .fsyncEdge _ => true
  | .claimTimeout port => port < 64
  | .shadowWriteRetry c q => c < 2 ^ 20 && q < 4096
  | .multicastHorizon q _ => q < 4096
  | .retryHorizon q tag i => q < 4096 && tag < 2 ^ 32 && i.wf
  | .tagCloseEnd q tag => q < 4096 && tag < 2 ^ 32
  | .launchMatchTimeout q tag => q < 4096 && tag < 2 ^ 32
  | .workItemDone q tag _ rc _ => q < 4096 && tag < 2 ^ 32 && rc < 160
  | .tileZeroDone q => q < 4096
  | .rebindCopyDone q _ => q < 4096
  | .rebindVerifyTimeout q => q < 4096
  | .resetConfirmTimeout q => q < 4096
  | .evictBound q => q < 4096
  | .scrubDone ls => ls.all (· < 384)
  | .patrolScrub _ => true
  | .hbmEccError leaf a => leaf < 384 && a < 2 ^ 30
  | .keyMessageTimeout peer q => peer < 2 ^ 20 && q < 4096
  | .houseSessionStart peer => peer < 2 ^ 20
  | .houseSessionRetry peer => peer < 2 ^ 20
  | .pwrWarnRecognised => true
  | .pwrWarnPulseIgnored => true
  | .pwrWarnDeassert => true
  | .resumption => true
  | .pmbusPoll rs => rs.all fun r => r.unit < 8 && r.vin < 2 ^ 16 && r.freq < 2 ^ 16
  | .pmbusReprobe u _ => u < 8
  | .pmbAlert => true
  | .clusterClockStep => true
  | .budgetCeilingRise => true
  | .thermalCeilingRise => true
  | .thermalTrip => true
  | .fatalFault _ => true
  | .confirmWindowExpiry => true
  | .fwReset => true
  | .ringEntry o => o.wf
  | .ringEjectArrival _ frag => frag < 9
  | .portSend port => port < 64
  | .uncorrectableCodeword port _ => port < 64
  | .firstStartDisagreement port => port < 64
  | .slotEccError ring _ stop p _ => ring < 26 && stop < 19 && p.frag < 9
  | .degradedModeLeft => true
  | .imageCheckDone => true
  | .archiveWriteDone _ _ => true
  | .otpBurnDone _ => true
  | .spdmResponse _ _ _ _ _ => true
  | .perstNDeassert => true
  | .configurationRequest _ => true
  | .jtagInstruction _ => true

/-- The opcode and the packet of a command that arrives as a Synen packet (R519). -/
def Instr.packet : Instr → Option (Nat × Pkt)
  | .identColophon p => some (0x0101, p)
  | .identAttest p => some (0x0102, p)
  | .identCaps p => some (0x0103, p)
  | .posAssign p => some (0x0201, p)
  | .posLock p => some (0x0202, p)
  | .discScan p => some (0x0203, p)
  | .discMap p => some (0x0204, p)
  | .discManifest p => some (0x0205, p)
  | .quireCarve p => some (0x0301, p)
  | .quireGrow p => some (0x0302, p)
  | .quireRelease p => some (0x0303, p)
  | .quireReset p => some (0x0304, p)
  | .quireStatus p => some (0x0305, p)
  | .routeSolve p => some (0x0401, p)
  | .routeInstall p => some (0x0402, p)
  | .boreOpen p => some (0x0403, p)
  | .boreClose p => some (0x0404, p)
  | .routeDrainHold p => some (0x0405, p)
  | .routeDrainResume p => some (0x0405, p)
  | .rebindPlan p => some (0x0501, p)
  | .rebindCommit p => some (0x0502, p)
  | .rebindStatus p => some (0x0503, p)
  | .portConfig p => some (0x0601, p)
  | .shaperSet p => some (0x0602, p)
  | .portCounters p => some (0x0603, p)
  | .tableLoad p => some (0x0F01, p)
  | .tableRead p => some (0x0F02, p)
  | .tableActivate p => some (0x0F03, p)
  | .redDefine p => some (0x0701, p)
  | .collLaunch p => some (0x0702, p)
  | .collStatus p => some (0x0703, p)
  | .tileRead p => some (0x0704, p)
  | .tileWrite p => some (0x0705, p)
  | .collCancel p => some (0x0706, p)
  | .tenantOpen p => some (0x0801, p)
  | .installLinkKey p => some (0x0802, p)
  | .retirePrevious p => some (0x0802, p)
  | .addTrustRoot p => some (0x0802, p)
  | .removeTrustRoot p => some (0x0802, p)
  | .tenantEvict p => some (0x0803, p)
  | .memScrub p => some (0x0804, p)
  | .ledgerStatus p => some (0x0901, p)
  | .ledgerCheckpoint p => some (0x0902, p)
  | .ledgerRead p => some (0x0903, p)
  | .fwDownload p => some (0x0A01, p)
  | .fwVerify p => some (0x0A02, p)
  | .fwActivate p => some (0x0A03, p)
  | .fwConfirm p => some (0x0A04, p)
  | .fwReject p => some (0x0A04, p)
  | .fwStatus p => some (0x0A05, p)
  | .telemSubscribe p => some (0x0B01, p)
  | .telemSnapshot p => some (0x0B02, p)
  | .powerStatus p => some (0x0C01, p)
  | .powerBudget p => some (0x0C02, p)
  | .chanOpen p => some (0x0D01, p)
  | .chanClose p => some (0x0D02, p)
  | .chanNop p => some (0x0D03, p)
  | .chanFence p => some (0x0D04, p)
  | .diagLoop p => some (0x0E01, p)
  | .diagLaneMeasure p => some (0x0E02, p)
  | .diagLaneResetReference p => some (0x0E02, p)
  | .cmdTailWrite _ _ _ => none
  | .rplHeadWrite _ _ => none
  | .irqStatClear _ => none
  | .irqMaskWrite _ => none
  | .rimodeWrite _ => none
  | .mbxDoorbellWrite _ => none
  | .registerWriteIgnored _ _ _ => none
  | .arpRequestRx _ _ _ _ => none
  | .arpReplyRx _ _ _ => none
  | .ethFrameDiscard _ _ _ => none
  | .ethLinkUp _ => none
  | .arpEntryExpiry _ _ => none
  | .identReqTimer => none
  | .identRx _ _ => none
  | .setAckRx _ _ => none
  | .setDoneRx _ _ => none
  | .mapRx _ _ => none
  | .alarmRx _ _ => none
  | .setDeadlineExpiry _ => none
  | .dataPacketRx _ _ _ => none
  | .linkBeaconRx _ _ _ => none
  | .tickBeaconRx _ _ _ _ => none
  | .peerReportRx _ _ _ => none
  | .coordinateConfirmationRx _ _ _ => none
  | .tableWriteAckRx _ _ _ => none
  | .legAckRx _ _ _ => none
  | .completionReportRx _ _ _ => none
  | .counterReportRx _ _ _ => none
  | .retrainRequestRx _ _ _ => none
  | .libraryClaimRx _ _ => none
  | .quireAnnouncementRx _ _ => none
  | .spdmMessageRx _ _ _ _ => none
  | .keyMessageAnswerRx _ _ => none
  | .tickBoundary => none
  | .workPhase => none
  | .stepOverrun _ => none
  | .dronePhase _ => none
  | .sealPhase => none
  | .drainTimeout _ => none
  | .tickReservationRaise => none
  | .reservationExhausted => none
  | .creditRefill => none
  | .journalWriteStart => none
  | .folioWriteDone _ => none
  | .checkpointTimer => none
  | .checkpointStart => none
  | .checkpointCopyDone _ _ => none
  | .laneMarginSample _ => none
  | .rstNAssert _ => none
  | .pwrGoodDeassert _ => none
  | .perstNAssert _ => none
  | .bringUpStart _ => none
  | .rotRomDone _ _ => none
  | .fwVerifyStageDone _ => none
  | .controlStart _ _ _ _ => none
  | .clusterWaveStart _ => none
  | .clusterSelftestDone _ _ => none
  | .restoreDone => none
  | .hbmTrainDone _ _ => none
  | .memTestDone _ => none
  | .leafZeroDone => none
  | .laneTrainDone => none
  | .discoveryComplete => none
  | .entropyReady _ => none
  | .entropyHealthFail => none
  | .drbgReseed => none
  | .scanRoundEnd _ => none
  | .uplinkSilent _ _ => none
  | .boardMissing _ => none
  | .houseBoreMove _ => none
  | .portLinkEvent _ _ => none
  | .lstTimerExpiry _ => none
  | .elsAlarm _ => none
  | .pathMaskClear _ _ _ _ => none
  | .scheduledDiagLane _ => none
  | .diagLaneEnd _ _ _ _ => none
  | .joinStep _ _ _ => none
  | .indexJump => none
  | .periodSwitch => none
  | .leaderTimeout => none
  | .alignmentLost => none
  | .fsyncEdge _ => none
  | .claimTimeout _ => none
  | .shadowWriteRetry _ _ => none
  | .multicastHorizon _ _ => none
  | .retryHorizon _ _ _ => none
  | .tagCloseEnd _ _ => none
  | .launchMatchTimeout _ _ => none
  | .workItemDone _ _ _ _ _ => none
  | .tileZeroDone _ => none
  | .rebindCopyDone _ _ => none
  | .rebindVerifyTimeout _ => none
  | .resetConfirmTimeout _ => none
  | .evictBound _ => none
  | .scrubDone _ => none
  | .patrolScrub _ => none
  | .hbmEccError _ _ => none
  | .keyMessageTimeout _ _ => none
  | .houseSessionStart _ => none
  | .houseSessionRetry _ => none
  | .pwrWarnRecognised => none
  | .pwrWarnPulseIgnored => none
  | .pwrWarnDeassert => none
  | .resumption => none
  | .pmbusPoll _ => none
  | .pmbusReprobe _ _ => none
  | .pmbAlert => none
  | .clusterClockStep => none
  | .budgetCeilingRise => none
  | .thermalCeilingRise => none
  | .thermalTrip => none
  | .fatalFault _ => none
  | .confirmWindowExpiry => none
  | .fwReset => none
  | .ringEntry _ => none
  | .ringEjectArrival _ _ => none
  | .portSend _ => none
  | .uncorrectableCodeword _ _ => none
  | .firstStartDisagreement _ => none
  | .slotEccError _ _ _ _ _ => none
  | .degradedModeLeft => none
  | .imageCheckDone => none
  | .archiveWriteDone _ _ => none
  | .otpBurnDone _ => none
  | .spdmResponse _ _ _ _ _ => none
  | .perstNDeassert => none
  | .configurationRequest _ => none
  | .jtagInstruction _ => none

end Sys2Proof
end

