-- ==== Sys2Proof/Safety.lean ====
section
/-! DEFINITION. What the statements speak of: the state in which the director reads a command packet, when it takes the packet in,
the acceptance of a command, and the invariants that every step keeps. -/
namespace Sys2Proof.Machine

/-! ### Command packets (R121, R125, R140) -/

/-- The packet passes checks 1 to 9 of R140 and what check 10 asks of its quire ID, and the command is taken in at once. -/
def State.takesIn (s : State) (op : Nat) (p : Pkt) : Bool :=
  let a := s.turn p
  s.readsNow op p && (screen a op p).isNone && seqCheck a op p = .fresh &&
    (a.faults.fatal.isNone || alwaysServed op) && (tableCheck a op p.chan p).isNone

/-- The command as its handler sees it. -/
def State.takenOf (s : State) (op : Nat) (p : Pkt) : Taken where
  chan := p.chan
  op := op
  pkt := p
  tick := s.now
  epoch := (s.chan p.chan).epoch

/-- The state in which a command that is taken in has its effect: it is cached, and its channel's baseline and counts have moved
(R130, R131, R140). -/
def State.accepted (s : State) (op : Nat) (p : Pkt) : State := (s.turn p).take op p false

/-- The next state of a command answered at once, in this seal (R135). -/
def answered (c : Taken) (s : State) (st : Status) (res : List Byte) : State := s.queueSeal (c.reply st res)

/-- The next state of a command of class V (R520): ACCEPTED in this seal and OK in the next intake. -/
def answeredTwice (c : Taken) (s : State) (res : List Byte) : State :=
  (s.queueIntake (c.reply .ok res)).queueSeal (c.reply .accepted [])

/-- The next state of a command whose durable change waits for the journal (R90, R520): ACCEPTED in this seal. -/
def staged (c : Taken) (s : State) (objs : List Obj) (q : Option QuireId) (res : List Byte) : State :=
  (s.stage (durRec c objs q none (some res))).queueSeal (c.reply .accepted [])

/-- The next state of a command of class M (R520): it runs as a task, ACCEPTED in this seal. -/
def started (c : Taken) (s : State) (k : TaskKind) : State :=
  (s.startTask (some c.ident) c.pkt.quire k).queueSeal (c.reply .accepted [])

/-! ### Messages and packets from outside -/

/-- The unit whose manifest address a message comes from (R175, R182). -/
def State.unitAt (s : State) (src : Ip) : Option Nat :=
  (match s.vis.led.manifest with | some m => m.unitsInUse | none => []).find? fun u => s.unitIp u = src

/-- A message of a type that R176 and R177 allow, which names the unit. -/
def ocsFormed (msg : List Byte) (type u : Nat) : Bool :=
  16 ≤ msg.length && field msg 0 2 = 0x534F && field msg 2 1 = 1 && field msg 3 1 = type &&
    field msg 8 2 = msg.length - 16 && ocsLengthOk type (msg.drop 16) &&
    crc32c (msg.take 12 ++ msg.drop 16) = BitVec.ofNat 32 (field msg 12 4) && field msg 10 1 = u

/-- ETH1 after a good message: its frame and the message are counted (R623). -/
def State.unitHeard (s : State) (msg : List Byte) : State :=
  { s with eth1 := { s.eth1.count 0 (frameBytes msg.length) with
      counters := modAt (s.eth1.count 0 (frameBytes msg.length)).counters 4 (· + 1) } }

/-- The part of its plane's change a unit has still to carry out. -/
def State.openPart (s : State) (u : Nat) : Option (PlaneChange × UnitPart) :=
  (s.ocs.planes.getD (u / 8) none).bind fun ch =>
    (ch.parts.find? fun x => x.unit = u && !x.done && !x.failed).map (ch, ·)

/-- Some other unit of the plane has still its part of the change to carry out. -/
def PlaneChange.others (ch : PlaneChange) (u : Nat) : Bool := ch.parts.any fun x => x.unit != u && !x.done && !x.failed

/-! ### What a boundary makes visible -/

/-- A fabric without what a boundary itself renews in it: the masks of paths (R193) and the bytes the scrubber has written (R414). -/
def Fabric.still (f : Fabric) : Fabric :=
  { f with vol := { f.vol with quires := f.vol.quires.map (fun w => { w with masks := [] }), scrubbed := 0 } }

/-! ### Kinds of command -/

/-- The command is a write of the host to the PCIe window (R603). -/
def isHostWrite : Instr → Bool
  | .cmdTailWrite .. | .rplHeadWrite .. | .irqStatClear .. | .irqMaskWrite .. | .rimodeWrite .. | .mbxDoorbellWrite ..
  | .registerWriteIgnored .. => true
  | _ => false

/-- The command resets the whole director (R449). -/
def isReset : Instr → Bool
  | .rstNAssert _ | .pwrGoodDeassert _ | .fwReset => true
  | _ => false

end Sys2Proof.Machine
end

