-- ==== Sys2Proof/Certificates/Slice0/Obligations.lean ====
section
/-! DEFINITION. The statements for the provers: what the commands, the queue, the reply channel and the whole block do, from the
numbered rules of the manual. -/

open Sys2Proof Sys2Proof.Machine

/-! ### The block and its queue -/

/-- The command at the front of the queue runs on the state with the queue's rest; on an empty queue the block idles (the
model's choice, log entry 1) (R54, R56). -/
def Obligations.FrontCommandRuns : Prop :=
  (∀ c rest s, s.pending = c :: rest → step s = exec c { s with pending := rest }) ∧
  (∀ s : State, s.pending = [] → step s = .next s)

/-- No command stops the block: every step answers a next state (R140, R603). -/
def Obligations.EveryStepGoesOn : Prop := ∀ s, ∃ t, step s = .next t

/-- A command's effect leaves the queue of waiting commands as it is (R54). -/
def Obligations.CommandsKeepTheQueue : Prop := ∀ c s t, exec c s = .next t → t.pending = s.pending

/-- The fuses of the part only ever grow: with an OTP count of at most 64, a step leaves the colophon and the device secret as
they are, the OTP count does not fall and stays within 64, and a marker that stands stays (R103, R390, R468, R485). -/
def Obligations.FusesOnlyGrow : Prop :=
  ∀ s t, s.fuses.otp ≤ 64 → step s = .next t →
    t.fuses.colophon = s.fuses.colophon ∧ t.fuses.dus = s.fuses.dus ∧ s.fuses.otp ≤ t.fuses.otp ∧ t.fuses.otp ≤ 64 ∧
      (s.fuses.marker = true → t.fuses.marker = true)

/-- After reset no command waits, no increment is burnt, the marker is unburnt, director HBM holds zeros, and the block is
held (R449, R453, R485). -/
def Obligations.ResetIsBlank : Prop :=
  State.reset.pending = [] ∧ State.reset.fuses.otp = 0 ∧ State.reset.fuses.marker = false ∧
    State.reset.boot.stage = .held ∧ State.reset.clk.running = false ∧ State.reset.ledger.credits ≤ 448 ∧
    Memory.wf State.reset.vis.vol.hbm = true ∧ Memory.wf State.reset.stg.vol.hbm = true ∧
    ∀ a, Memory.read State.reset.stg.vol.hbm a = 0

/-! ### Identity, channel, position, discovery and table commands -/

/-- ident.caps is answered at once with the capabilities, and ident.attest starts the RoT core’s exchange as a task.
pos.assign of the volume in effect changes nothing and is answered OK; of another volume it stages that volume and the cleared
map; pos.lock stages the soft lock (R145, R148, R524, R525, R526). -/
def Obligations.IdentityAndPositionCommandsRun : Prop :=
  (∀ s p, s.takesIn 0x0103 p = true →
    exec (.identCaps p) s =
      .next (answered (s.takenOf 0x0103 p) (s.accepted 0x0103 p) .ok (s.accepted 0x0103 p).capsResult)) ∧
  (∀ s p, s.takesIn 0x0102 p = true →
    exec (.identAttest p) s = .next (started (s.takenOf 0x0102 p) (s.accepted 0x0102 p) (.attest p.params))) ∧
  (∀ s p, s.takesIn 0x0201 p = true → posAssignRefusal (s.takenOf 0x0201 p) (s.accepted 0x0201 p) = none →
    field p.params 0 1 = effVolume s.boot (s.accepted 0x0201 p).val →
    exec (.posAssign p) s = .next (answeredTwice (s.takenOf 0x0201 p) (s.accepted 0x0201 p) [])) ∧
  (∀ s p, s.takesIn 0x0201 p = true → posAssignRefusal (s.takenOf 0x0201 p) (s.accepted 0x0201 p) = none →
    field p.params 0 1 ≠ effVolume s.boot (s.accepted 0x0201 p).val → (s.accepted 0x0201 p).durableRefusal = none →
    exec (.posAssign p) s = .next (staged (s.takenOf 0x0201 p) (s.accepted 0x0201 p)
      [.position (some (field p.params 0 1)) (field p.params 0 1) (s.accepted 0x0201 p).val.softLock,
       .map ((s.accepted 0x0201 p).val.map.cleared (s.accepted 0x0201 p).val.manifest)] none [])) ∧
  (∀ s p, s.takesIn 0x0202 p = true → posLockRefusal (s.takenOf 0x0202 p) (s.accepted 0x0202 p) = none →
    (s.accepted 0x0202 p).durableRefusal = none →
    exec (.posLock p) s = .next (staged (s.takenOf 0x0202 p) (s.accepted 0x0202 p)
      [.position (s.accepted 0x0202 p).val.assigned (s.accepted 0x0202 p).val.volume (field p.params 0 1 = 1)] none []))

/-- ident.colophon returns the 320 B colophon byte for byte, and it is always served: no stage of bring-up, no restore and
no fatal fault holds it back (R551). -/
def Obligations.ColophonIsReturned : Prop :=
  (∀ s p, s.takesIn 0x0101 p = true → exec (.identColophon p) s =
    .next (answered (s.takenOf 0x0101 p) (s.accepted 0x0101 p) .ok (slice s.fuses.colophon 0 320))) ∧
  (∀ (s : State) (p : Pkt), s.readsNow 0x0101 p = true → screen (s.turn p) 0x0101 p = none →
    seqCheck (s.turn p) 0x0101 p = .fresh → p.params = [] → p.quire = 0xFFFF → chanPermits (s.turn p) p.chan 0x0101 = true →
    s.takesIn 0x0101 p = true)

/-- chan.open opens its channel: it binds an ETH0 sender, empties the cache but for the command itself and takes any next
sequence; chan.close marks the named channel as closing, which only channel 0 may ask of channel 0; chan.fence holds its
channel and waits as a task for the commands its mask names (R571, R572, R574). -/
def Obligations.ChannelCommandsRun : Prop :=
  (∀ s p, s.takesIn 0x0D01 p = true →
    exec (.chanOpen p) s = .next (answeredTwice (s.takenOf 0x0D01 p) ((s.accepted 0x0D01 p).updChan p.chan fun ch =>
      { ch with isOpen := true
                bound := if p.transport = .eth0 then some (p.srcIp, p.srcPort) else none
                cache := ch.cache.filter fun e => e.seq = p.seq && e.accTick = s.now
                baseline := none }) [])) ∧
  (∀ s p, s.takesIn 0x0D02 p = true → field p.params 0 1 ≤ 7 → (field p.params 0 1 = 0 → p.chan = 0) →
    exec (.chanClose p) s = .next (answeredTwice (s.takenOf 0x0D02 p) ((s.accepted 0x0D02 p).updChan (field p.params 0 1)
      fun ch => { ch with closing := if ch.closing = 2 then 2 else 1 }) [])) ∧
  (∀ s p, s.takesIn 0x0D04 p = true → field p.params 0 1 ≠ 0 →
    exec (.chanFence p) s = .next (started (s.takenOf 0x0D04 p)
      ((s.accepted 0x0D04 p).updChan p.chan fun ch => { ch with fence := true }) (.fence (field p.params 0 1) s.now [])))

/-- chan.nop returns its parameters unchanged as its result, and more than 4,072 bytes of them return BAD_LENGTH (R573). -/
def Obligations.NopReturnsItsParameters : Prop :=
  (∀ s p, s.takesIn 0x0D03 p = true → p.params.length ≤ 4072 ∧
    exec (.chanNop p) s = .next (answered (s.takenOf 0x0D03 p) (s.accepted 0x0D03 p) .ok p.params)) ∧
  (∀ (s : State) (p : Pkt), s.readsNow 0x0D03 p = true → screen (s.turn p) 0x0D03 p = none →
    seqCheck (s.turn p) 0x0D03 p = .fresh → s.faults.fatal = none → 4072 < p.params.length →
    exec (.chanNop p) s = .next (answered (s.takenOf 0x0D03 p) (s.accepted 0x0D03 p) .badLength []))

/-- disc.scan, disc.map and disc.manifest run. A scan that is not refused is a task, is due on each plane it names, and stages
the map without the identifiers of those planes' units. disc.map returns a page of the section it names. A manifest chunk is
kept while the image is not whole; a whole image that is not refused is staged as the manifest, with the map adopted to it
(R149, R182, R523, R527, R528, R529). -/
def Obligations.DiscoveryCommandsRun : Prop :=
  (∀ s p, s.takesIn 0x0203 p = true → discScanRefusal (s.takenOf 0x0203 p) (s.accepted 0x0203 p) = none →
    let a := s.accepted 0x0203 p
    let ps := bitsOf (field p.params 0 1) 4
    let us := ps.flatMap (unitsOf a.val.manifest)
    ∃ t : State, exec (.discScan p) s = .next (t.queueSeal ((s.takenOf 0x0203 p).reply .accepted [])) ∧
      t.tasks = (a.startTask (some (s.takenOf 0x0203 p).ident) p.quire (.scan (field p.params 0 1))).tasks ∧
      t.ocs.scanDue = a.ocs.scanDue ++ ps.map (fun pl => (pl, some s.nextTask)) ∧
      t.ledger.unbuilt = a.ledger.unbuilt ++ [durRec (s.takenOf 0x0203 p)
        [.map { a.val.map with unitIds := a.val.map.unitIds.mapIdx fun u x => if us.contains u then none else x }] none none none] ∧ t.vis = a.vis) ∧
  (∀ s p es size, s.takesIn 0x0204 p = true → field p.params 0 1 ≤ 4 →
    (s.accepted 0x0204 p).mapSection (field p.params 0 1) = (size, es) → field p.params 2 2 < es.length →
    exec (.discMap p) s = .next (answered (s.takenOf 0x0204 p) (s.accepted 0x0204 p) .ok
      (let pg := pageOf es size 4064 (field p.params 2 2) (field p.params 4 2)
       le 1 (field p.params 0 1) ++ le 1 0 ++ le 2 (field p.params 2 2) ++ le 2 pg.length ++ le 2 es.length ++ pg.flatten))) ∧
  (∀ s p x, s.takesIn 0x0205 p = true →
    chunkStep (s.accepted 0x0205 p).disc.manifest (field p.params 4 4) (p.params.drop 8)
      (fun n => 5312 ≤ n && n ≤ 9536) = .more x →
    exec (.discManifest p) s = .next (answeredTwice (s.takenOf 0x0205 p)
      { s.accepted 0x0205 p with disc := { (s.accepted 0x0205 p).disc with manifest := some x } } [])) ∧
  (∀ s p b, s.takesIn 0x0205 p = true →
    chunkStep (s.accepted 0x0205 p).disc.manifest (field p.params 4 4) (p.params.drop 8)
      (fun n => 5312 ≤ n && n ≤ 9536) = .whole b →
    let a := { s.accepted 0x0205 p with disc := { (s.accepted 0x0205 p).disc with manifest := none } }
    manifestRefusal a b = none → a.durableRefusal = none →
    exec (.discManifest p) s = .next (staged (s.takenOf 0x0205 p) a
      [.manifest (some (parseManifest b)), .map (a.val.map.adopt a.val.manifest (parseManifest b))] none []))

/-- The table commands run: an image loaded in chunks is kept until it is whole, then judged and staged as the loaded image
of its kind; the active or the loaded image is read by bytes; an activation waits for the drains its kind needs, or is
staged at once where it needs none (R523, R544, R545, R546, R547). -/
def Obligations.TableCommandsRun : Prop :=
  (∀ s p x, s.takesIn 0x0F01 p = true → 1 ≤ field p.params 0 1 → field p.params 0 1 ≤ 4 →
    (s.accepted 0x0F01 p).activating (field p.params 0 1) = false →
    chunkStep (((s.accepted 0x0F01 p).disc.tables.find? (·.1 = field p.params 0 1)).map (·.2)) (field p.params 4 4)
      (p.params.drop 8) (· = tableLen (field p.params 0 1)) = .more x →
    exec (.tableLoad p) s = .next (answeredTwice (s.takenOf 0x0F01 p)
      { s.accepted 0x0F01 p with disc := { (s.accepted 0x0F01 p).disc with
          tables := (s.accepted 0x0F01 p).disc.tables.filter (·.1 ≠ field p.params 0 1) ++ [(field p.params 0 1, x)] } } [])) ∧
  (∀ s p b, s.takesIn 0x0F01 p = true → 1 ≤ field p.params 0 1 → field p.params 0 1 ≤ 4 →
    (s.accepted 0x0F01 p).activating (field p.params 0 1) = false →
    chunkStep (((s.accepted 0x0F01 p).disc.tables.find? (·.1 = field p.params 0 1)).map (·.2)) (field p.params 4 4)
      (p.params.drop 8) (· = tableLen (field p.params 0 1)) = .whole b →
    tableFault (field p.params 0 1) b = none →
    let a := { s.accepted 0x0F01 p with disc := { (s.accepted 0x0F01 p).disc with
          tables := (s.accepted 0x0F01 p).disc.tables.filter (·.1 ≠ field p.params 0 1) } }
    a.awaiting (.table (field p.params 0 1)) = false → a.durableRefusal = none →
    exec (.tableLoad p) s = .next (staged (s.takenOf 0x0F01 p) a
      [.table (field p.params 0 1) { a.val.table (field p.params 0 1) with loaded := some b }] none [])) ∧
  (∀ s p, s.takesIn 0x0F02 p = true → 1 ≤ field p.params 0 1 → field p.params 0 1 ≤ 4 → field p.params 1 1 = 0 →
    1 ≤ field p.params 8 4 → field p.params 8 4 ≤ 4072 →
    field p.params 4 4 + field p.params 8 4 ≤ tableLen (field p.params 0 1) →
    exec (.tableRead p) s = .next (answered (s.takenOf 0x0F02 p) (s.accepted 0x0F02 p) .ok
      (slice (activeTable (s.accepted 0x0F02 p).vis.led (field p.params 0 1) (s.accepted 0x0F02 p).fw.ver)
        (field p.params 4 4) (field p.params 8 4)))) ∧
  (∀ s p b, s.takesIn 0x0F02 p = true → 1 ≤ field p.params 0 1 → field p.params 0 1 ≤ 4 → field p.params 1 1 = 1 →
    1 ≤ field p.params 8 4 → field p.params 8 4 ≤ 4072 →
    field p.params 4 4 + field p.params 8 4 ≤ tableLen (field p.params 0 1) →
    ((s.accepted 0x0F02 p).vis.led.table (field p.params 0 1)).loaded = some b →
    exec (.tableRead p) s = .next (answered (s.takenOf 0x0F02 p) (s.accepted 0x0F02 p) .ok
      (slice b (field p.params 4 4) (field p.params 8 4)))) ∧
  (∀ s p, s.takesIn 0x0F03 p = true → tableActivateRefusal (s.takenOf 0x0F03 p) (s.accepted 0x0F03 p) = none →
    (s.accepted 0x0F03 p).activationDrains (field p.params 0 1) ≠ [] →
    exec (.tableActivate p) s = .next (started (s.takenOf 0x0F03 p) (s.accepted 0x0F03 p)
      (.activate (field p.params 0 1) (Drain.start ((drainBound (field p.params 2 2)).getD Config.defaultDrain))
        ((s.accepted 0x0F03 p).activationDrains (field p.params 0 1)) false [] []))) ∧
  (∀ s p, s.takesIn 0x0F03 p = true → tableActivateRefusal (s.takenOf 0x0F03 p) (s.accepted 0x0F03 p) = none →
    (s.accepted 0x0F03 p).activationDrains (field p.params 0 1) = [] →
    let a := s.accepted 0x0F03 p
    let k := field p.params 0 1
    ∃ t : Task, t.id = a.nextTask ∧ t.ident = some (s.takenOf 0x0F03 p).ident ∧
      t.kind = .activate k (Drain.start ((drainBound (field p.params 2 2)).getD Config.defaultDrain)) [] true [] [] ∧
      exec (.tableActivate p) s = .next (((a.startTask t.ident 0xFFFF t.kind).stageTask t 1
        [.table k ((a.startTask t.ident 0xFFFF t.kind).val.table k |>.swap k a.fw.ver)] none).queueSeal
          ((s.takenOf 0x0F03 p).reply .accepted [])))

/-! ### Quires, routes, bores and rebinds -/

/-- quire.carve and quire.grow stage the quire with the lowest free clusters and leaves, and the zeroing of its new tile
stores begins; quire.status reports the visible quire, or the house quire. quire.reset and quire.release start as tasks: paths
of other quires that transit the quire's members are masked or re-routed first, and where none is to be re-routed the quire's
reset begins at once (R202, R260, R261, R263, R379, R380, R530, R531, R532, R533). -/
def Obligations.QuireCommandsRun : Prop :=
  (∀ s p, s.takesIn 0x0301 p = true → carveRefusal (s.takenOf 0x0301 p) (s.accepted 0x0301 p) = none →
    let q := carved (s.takenOf 0x0301 p) (s.accepted 0x0301 p)
    exec (.quireCarve p) s = .next (staged (s.takenOf 0x0301 p) ((s.accepted 0x0301 p).zeroTiles q.clusters)
      [.quire p.quire (some q)] (some p.quire) []) ∧
    q.clusters = ((s.accepted 0x0301 p).freeClusters (s.accepted 0x0301 p).val).take (field p.params 8 2) ∧
    q.leaves = ((s.accepted 0x0301 p).freeLeaves (s.accepted 0x0301 p).val).take (field p.params 10 2)) ∧
  (∀ s p q, s.takesIn 0x0302 p = true → (s.accepted 0x0302 p).val.quire p.quire = some q →
    growRefusal (s.takenOf 0x0302 p) (s.accepted 0x0302 p) q = none →
    let a := s.accepted 0x0302 p
    let b := a.zeroTiles ((a.freeClusters a.val).take (field p.params 0 2))
    exec (.quireGrow p) s = .next (staged (s.takenOf 0x0302 p)
      (if b.val.slotOf q.id ≠ 0 then b.soil ((a.freeLeaves a.val).take (field p.params 2 2)) else b)
      [.quire q.id (some (grown (s.takenOf 0x0302 p) (s.accepted 0x0302 p) q))] (some q.id) [])) ∧
  (∀ s p q, s.takesIn 0x0305 p = true → p.quire ≠ 0 → (s.accepted 0x0305 p).vis.led.quire p.quire = some q →
    exec (.quireStatus p) s =
      .next (answered (s.takenOf 0x0305 p) (s.accepted 0x0305 p) .ok ((s.accepted 0x0305 p).statusResult q))) ∧
  (∀ s p, s.takesIn 0x0305 p = true → p.quire = 0 →
    exec (.quireStatus p) s =
      .next (answered (s.takenOf 0x0305 p) (s.accepted 0x0305 p) .ok (s.accepted 0x0305 p).houseStatus)) ∧
  (∀ s p q ms ins, s.takesIn 0x0304 p = true → quireResetRefusal (s.takenOf 0x0304 p) (s.accepted 0x0304 p) = none →
    (s.accepted 0x0304 p).val.quire p.quire = some q →
    let f := bit (field p.params 2 1) 0
    let b := (drainBound (field p.params 0 2)).getD Config.defaultDrain
    (s.accepted 0x0304 p).transitPlan q f = .clear ms ins →
    let n := (s.accepted 0x0304 p).nextTask
    let t := (s.accepted 0x0304 p).startTask (some (s.takenOf 0x0304 p).ident) q.id (.reset f .transit [] 0)
    let t := ms.foldl (fun s m => s.maskTransit m.1 m.2) t
    let t := ins.foldl (fun s i => s.startInstall none i.1 i.2 b (some n)) t
    exec (.quireReset p) s = .next ((if ins = [] then (t.resetStart q).setReset n .start [] 0 else t).queueSeal
      ((s.takenOf 0x0304 p).reply .accepted []))) ∧
  (∀ s p q ms ins, s.takesIn 0x0303 p = true → quireReleaseRefusal (s.takenOf 0x0303 p) (s.accepted 0x0303 p) = none →
    (s.accepted 0x0303 p).val.quire p.quire = some q →
    let f := bit (field p.params 2 1) 0
    let b := (drainBound (field p.params 0 2)).getD Config.defaultDrain
    (s.accepted 0x0303 p).transitPlan q f = .clear ms ins →
    let n := (s.accepted 0x0303 p).nextTask
    let t := (s.accepted 0x0303 p).startTask (some (s.takenOf 0x0303 p).ident) q.id (.release f b .transit [] 0)
    let t := ms.foldl (fun s m => s.maskTransit m.1 m.2) t
    let t := ins.foldl (fun s i => s.startInstall none i.1 i.2 b (some n)) t
    exec (.quireRelease p) s = .next ((if ins = [] then (t.resetStart q).setReset n .start [] 0 else t).queueSeal
      ((s.takenOf 0x0303 p).reply .accepted [])))

/-- route.solve starts a solve of the quire's bores, route.install starts the install of the staged solution, route.drain with
a hold starts a drain, and route.drain with a resume ends the hold, so that admission resumes at the next boundary (R189,
R195, R197, R198, R534, R535, R537). -/
def Obligations.RouteCommandsRun : Prop :=
  (∀ s p q, s.takesIn 0x0401 p = true → routeSolveRefusal (s.takenOf 0x0401 p) (s.accepted 0x0401 p) = none →
    (s.accepted 0x0401 p).val.quire p.quire = some q →
    exec (.routeSolve p) s = .next (started (s.takenOf 0x0401 p) (s.accepted 0x0401 p)
      (.solve (solveStart (s.accepted 0x0401 p).val q q.bores s.now (transitSet (s.accepted 0x0401 p).val q))))) ∧
  (∀ s p x q, s.takesIn 0x0402 p = true → routeInstallRefusal (s.takenOf 0x0402 p) (s.accepted 0x0402 p) = none →
    ((s.accepted 0x0402 p).stg.vol.quire p.quire).staged = some x → (s.accepted 0x0402 p).val.quire p.quire = some q →
    exec (.routeInstall p) s = .next (((s.accepted 0x0402 p).startInstall (some (s.takenOf 0x0402 p).ident) q x
      ((drainBound (field p.params 6 2)).getD Config.defaultDrain) none).queueSeal ((s.takenOf 0x0402 p).reply .accepted []))) ∧
  (∀ s p, s.takesIn 0x0405 p = true → field p.params 0 1 = 0 → (drainBound (field p.params 2 2)).isSome = true →
    quireGate (s.accepted 0x0405 p) p.quire = none →
    exec (.routeDrainHold p) s = .next (started (s.takenOf 0x0405 p) (s.accepted 0x0405 p)
      (.drainHold (Drain.start ((drainBound (field p.params 2 2)).getD Config.defaultDrain))))) ∧
  (∀ s p, s.takesIn 0x0405 p = true → field p.params 0 1 = 1 → quireGate (s.accepted 0x0405 p) p.quire = none →
    ((s.accepted 0x0405 p).stg.vol.quire p.quire).drainHold = true →
    exec (.routeDrainResume p) s = .next (answeredTwice (s.takenOf 0x0405 p)
      (((s.accepted 0x0405 p).updQuireVol p.quire fun v => { v with drainHold := false }).resumeAdmission p.quire (s.now + 1))
      []))

/-- bore.open of a patch plane stages the named bore, and of a switched plane it joins the two landings by a change of the
plane; bore.close stages the quire without the bore. rebind.plan keeps a chunk of an image that is not whole and starts the
solve of one that is, rebind.commit starts the rebind in its draining step, and rebind.status reports the visible rebind
(R168, R171, R173, R340, R341, R343, R536, R538, R539, R540). -/
def Obligations.BoreAndRebindCommandsRun : Prop :=
  (∀ s p q n, s.takesIn 0x0403 p = true → (s.accepted 0x0403 p).val.quire p.quire = some q →
    boreOpenRefusal (s.takenOf 0x0403 p) (s.accepted 0x0403 p) q = none →
    boreName (s.accepted 0x0403 p).val.manifest (portRef (field p.params 0 2)) (portRef (field p.params 2 2)) = some n →
    switchedPlane (s.accepted 0x0403 p).val.manifest (portRef (field p.params 0 2)).plane = false →
    exec (.boreOpen p) s = .next (staged (s.takenOf 0x0403 p) (s.accepted 0x0403 p)
      [.quire q.id (some { q with bores := q.bores ++
        [{ name := n, a := portRef (field p.params 0 2), b := portRef (field p.params 2 2) }] })] (some q.id) (le 2 n))) ∧
  (∀ s p q n, s.takesIn 0x0403 p = true → (s.accepted 0x0403 p).val.quire p.quire = some q →
    boreOpenRefusal (s.takenOf 0x0403 p) (s.accepted 0x0403 p) q = none →
    boreName (s.accepted 0x0403 p).val.manifest (portRef (field p.params 0 2)) (portRef (field p.params 2 2)) = some n →
    switchedPlane (s.accepted 0x0403 p).val.manifest (portRef (field p.params 0 2)).plane = true →
    exec (.boreOpen p) s = .next ((((s.accepted 0x0403 p).startTask (some (s.takenOf 0x0403 p).ident) p.quire
        (.boreOpen (portRef (field p.params 0 2)) (portRef (field p.params 2 2)) (portRef (field p.params 0 2)).plane)).planeChange
          (portRef (field p.params 0 2)).plane (.boreOpen (s.accepted 0x0403 p).nextTask)
          (joinOf (s.accepted 0x0403 p).val.manifest (portRef (field p.params 0 2)) (portRef (field p.params 2 2))).toList).queueSeal
        ((s.takenOf 0x0403 p).reply .accepted []))) ∧
  (∀ s p q b, s.takesIn 0x0404 p = true → (s.accepted 0x0404 p).val.quire p.quire = some q →
    boreCloseRefusal (s.takenOf 0x0404 p) (s.accepted 0x0404 p) q = none →
    q.bores.find? (·.name = field p.params 0 2) = some b →
    let a := s.accepted 0x0404 p
    exec (.boreClose p) s = .next (staged (s.takenOf 0x0404 p)
      (if switchedPlane a.val.manifest b.a.plane then
        a.setPlane b.a.plane (some { kind := .boreClose b.name, parts := [], sent := false }) else a)
      [.quire q.id (some { q with bores := q.bores.filter (·.name ≠ b.name) })] (some q.id) [])) ∧
  (∀ s p x r, s.takesIn 0x0501 p = true → (s.accepted 0x0501 p).val.quire p.quire = some r →
    chunkStep ((s.accepted 0x0501 p).stg.vol.quire p.quire).planChunks (field p.params 4 4) (p.params.drop 8)
      (fun n => 16 ≤ n && n ≤ 105416) = .more x → planGate (s.accepted 0x0501 p) p.quire = none →
    exec (.rebindPlan p) s = .next (answeredTwice (s.takenOf 0x0501 p)
      ((s.accepted 0x0501 p).updQuireVol p.quire fun v => { v with planChunks := some x }) [])) ∧
  (∀ s p b r, s.takesIn 0x0501 p = true → (s.accepted 0x0501 p).val.quire p.quire = some r →
    chunkStep ((s.accepted 0x0501 p).stg.vol.quire p.quire).planChunks (field p.params 4 4) (p.params.drop 8)
      (fun n => 16 ≤ n && n ≤ 105416) = .whole b →
    let a := (s.accepted 0x0501 p).updQuireVol p.quire fun v => { v with planChunks := none }
    let x := planOf (s.takenOf 0x0501 p) r (parsePlan b)
    planBad a.val r b = false → planGate a p.quire = none → planRefused a r (parsePlan b) = false →
    exec (.rebindPlan p) s = .next (started (s.takenOf 0x0501 p) a
      (.planSolve x (solveStart a.val r (x.boresOf a.val.manifest r) s.now (transitSet a.val r))))) ∧
  (∀ s p q x, s.takesIn 0x0502 p = true → rebindCommitRefusal (s.takenOf 0x0502 p) (s.accepted 0x0502 p) = none →
    (s.accepted 0x0502 p).val.quire p.quire = some q → ((s.accepted 0x0502 p).stg.vol.quire p.quire).plan = some x →
    ∃ (run : RebindRun) (t : State), exec (.rebindCommit p) s = .next (started (s.takenOf 0x0502 p) t (.rebind run)) ∧
      run.plan = x ∧ run.step = .draining ∧ run.record = rebindRecord (s.takenOf 0x0502 p) (s.accepted 0x0502 p) q x ∧
      t.ledger = (s.accepted 0x0502 p).ledger ∧ t.stg.led = (s.accepted 0x0502 p).stg.led ∧
      t.vis = (s.accepted 0x0502 p).vis) ∧
  (∀ s p, s.takesIn 0x0503 p = true →
    let x := ((s.accepted 0x0503 p).vis.vol.quire p.quire).rebind
    exec (.rebindStatus p) s = .next (answered (s.takenOf 0x0503 p) (s.accepted 0x0503 p) .ok
      (le 1 x.state ++ le 1 0 ++ le 2 (match x.last with | some st => st.code | none => 0xFFFF) ++
        le 6 x.planTag ++ le 6 x.accTick ++ le 2 x.toSwitch ++ le 2 x.switched ++ le 2 x.verified ++ le 2 x.installed ++
        le 8 x.copied ++ le 8 x.toCopy ++ le 6 x.endTick ++ le 2 0)))

/-- A DRAIN_TIMEOUT in step 2 ends the rebind before anything is recorded: its command ends with DRAIN_TIMEOUT, what it held
is freed and admission resumes at the next boundary, and the grants and the journal are as before (R351). -/
def Obligations.RebindDrainTimeoutRecordsNothing : Prop :=
  ∀ s q t r, s.tasks = [t] → t.quire = q → t.kind = .rebind r → r.step = .draining → r.drain.expired = true →
    exec (.drainTimeout q) s =
      .next (((s.failTask t .drainTimeout []).rebindOver q .drainTimeout s.now).resumeAdmission q (s.now + 1)) ∧
    ∀ u, exec (.drainTimeout q) s = .next u → u.tasks = [] ∧ u.stg.led = s.stg.led ∧ u.vis = s.vis ∧ u.ledger = s.ledger ∧
      (u.stg.vol.quire q).rebind.state = 0 ∧ (u.mayAdmit q = true → (u.stg.vol.quire q).admitted = true)

/-! ### Ports and lanes -/

/-- port.config and shaper.set stage their settings; taking its library role from a port that is up with a director behind it,
and the shapers of a quire that spans volumes on a library link, are first claimed from the neighbour. port.counters reads the
mirror's counters of a port, or the last shown counters of a link (R39, R72, R541, R542, R543). -/
def Obligations.PortCommandsRun : Prop :=
  (∀ s p, s.takesIn 0x0601 p = true → portConfigRefusal (s.takenOf 0x0601 p) (s.accepted 0x0601 p) = none →
    (portDefault (s.accepted 0x0601 p) (s.accepted 0x0601 p).val (field p.params 0 1)).library = false ∨
      (cfgOf (s.takenOf 0x0601 p)).library = true ∨ (s.port (field p.params 0 1)).vis.status ≠ 2 ∨
      (∀ x y, (s.port (field p.params 0 1)).peer ≠ some (.director x y)) →
    exec (.portConfig p) s = .next (staged (s.takenOf 0x0601 p) (s.accepted 0x0601 p)
      [.port (field p.params 0 1) (cfgOf (s.takenOf 0x0601 p))] none [])) ∧
  (∀ s p x y, s.takesIn 0x0601 p = true → portConfigRefusal (s.takenOf 0x0601 p) (s.accepted 0x0601 p) = none →
    let a := s.accepted 0x0601 p
    let d := field p.params 0 1
    let new := cfgOf (s.takenOf 0x0601 p)
    (portDefault a a.val d).library = true → new.library = false → (a.port d).peer = some (.director x y) →
    (a.port d).vis.status = 2 →
    ∃ t : State, exec (.portConfig p) s = .next (t.queueSeal ((s.takenOf 0x0601 p).reply .accepted [])) ∧
      t.tasks = (a.startTask (some (s.takenOf 0x0601 p).ident) p.quire (.roleClaim d new)).tasks ∧
      t.lib.own = a.lib.own ++ [{ claim := .linkRole a.volume s.now d false, port := some d, dest := cVol x,
                                  task := some a.nextTask, sent := false }]) ∧
  (∀ s p, s.takesIn 0x0602 p = true → shaperSetRefusal (s.takenOf 0x0602 p) (s.accepted 0x0602 p) = none →
    let a := s.accepted 0x0602 p
    (a.spansVolumes p.quire = false ∨ ∀ b ∈ a.neighbours, b.port ∉ shaperPorts (s.takenOf 0x0602 p) a) →
    exec (.shaperSet p) s = .next (staged (s.takenOf 0x0602 p) a
      ((shaperPorts (s.takenOf 0x0602 p) a).map fun d =>
        .shaper { quire := p.quire, port := d, burst := field p.params 8 4,
                  rate := if field p.params 4 4 = 0xFFFFFFFF then none else some (field p.params 4 4) })
      (some p.quire) [])) ∧
  (∀ s p b, s.takesIn 0x0602 p = true → shaperSetRefusal (s.takenOf 0x0602 p) (s.accepted 0x0602 p) = none →
    let a := s.accepted 0x0602 p
    let r := if field p.params 4 4 = 0xFFFFFFFF then none else some (field p.params 4 4)
    a.spansVolumes p.quire = true → b ∈ a.neighbours → b.port ∈ shaperPorts (s.takenOf 0x0602 p) a →
    ∃ t : State, exec (.shaperSet p) s = .next (t.queueSeal ((s.takenOf 0x0602 p).reply .accepted [])) ∧
      t.tasks = (a.startTask (some (s.takenOf 0x0602 p).ident) p.quire (.shaperClaim
        ((shaperPorts (s.takenOf 0x0602 p) a).map fun d => { quire := p.quire, port := d, rate := r, burst := field p.params 8 4 }))).tasks ∧
      { claim := .bandwidth a.volume s.now b.port p.quire r (field p.params 8 4), port := some b.port, dest := b.volume,
        task := some a.nextTask, sent := false } ∈ t.lib.own) ∧
  (∀ s p, s.takesIn 0x0603 p = true → field p.params 0 1 = 0 → field p.params 1 1 ≤ 63 →
    exec (.portCounters p) s = .next (answered (s.takenOf 0x0603 p) (s.accepted 0x0603 p) .ok
      (le 6 s.mirror.tick ++ le 1 0 ++ le 1 0 ++
        (List.range 32).flatMap fun i => le 8 ((s.mirror.ports.getD (field p.params 1 1) []).getD i 0)))) ∧
  (∀ s p, s.takesIn 0x0603 p = true → field p.params 0 1 = 1 → linkOk (field p.params 1 1) = true →
    let a := s.accepted 0x0603 p
    let x := field p.params 4 4 % 2 ^ 20
    a.present18 x = true → cGath x ≠ 63 →
    exec (.portCounters p) s = .next (answered (s.takenOf 0x0603 p) a .ok
      (match a.links.find? fun l => l.coord = x && l.link = field p.params 1 1 with
       | some l => le 6 a.mirror.tick ++ le 1 (b2n l.stale) ++ le 1 0 ++
           (List.range 32).flatMap fun i => le 8 (l.shown.getD i 0)
       | none => le 6 a.mirror.tick ++ le 1 1 ++ le 1 0 ++ (List.range 32).flatMap fun i => le 8 (([] : List Nat).getD i 0))))

/-- diag.loop starts a loopback test of a disabled port, or on the bench of any; diag.lane starts a measurement of its
element; diag.lane with a new reference keeps a lane record in the history and stages the reference of the port's laser
source, whose sample is free (R575, R576). -/
def Obligations.DiagnosticCommandsRun : Prop :=
  (∀ s p, s.takesIn 0x0E01 p = true → field p.params 0 1 ≤ 63 → field p.params 1 1 ≤ 1 → 64 ≤ field p.params 4 4 →
    field p.params 4 4 ≤ 1048576 → (s.accepted 0x0E01 p).looped (field p.params 0 1) = false →
    (portEnabled (s.accepted 0x0E01 p).val (field p.params 0 1) = false ∨ s.boot.straps.bench = true) →
    exec (.diagLoop p) s = .next (started (s.takenOf 0x0E01 p)
      ((s.accepted 0x0E01 p).updPort (field p.params 0 1) fun x => { x with looping := true })
      (.loop (field p.params 0 1) (field p.params 4 4)))) ∧
  (∀ s p e, s.takesIn 0x0E02 p = true → laneElement (s.takenOf 0x0E02 p) (s.accepted 0x0E02 p) = some e →
    field p.params 2 1 = 0 → (s.accepted 0x0E02 p).faults.measuring.any (·.1 = e) = false →
    let a := s.accepted 0x0E02 p
    exec (.diagLaneMeasure p) s = .next (started (s.takenOf 0x0E02 p)
      { a with faults := { a.faults with measuring := a.faults.measuring ++ [(e, some a.nextTask, s.now)] } } (.lane e))) ∧
  (∀ s p e, s.takesIn 0x0E02 p = true → laneElement (s.takenOf 0x0E02 p) (s.accepted 0x0E02 p) = some e →
    field p.params 0 1 = 0 → field p.params 2 1 = 1 → (s.accepted 0x0E02 p).faults.measuring.any (·.1 = e) = false →
    (s.accepted 0x0E02 p).durableRefusal = none →
    let a := s.accepted 0x0E02 p
    let x := a.freeSample
    exec (.diagLaneResetReference p) s = .next (staged (s.takenOf 0x0E02 p) (x.2.stageHist (.lane s.now x.1) 1)
      [newReference x.2.val (field p.params 1 1 / 8) x.1] none []))

/-! ### Collectives and tile stores -/

/-- The collective commands run: a descriptor is kept under its number, a launch starts an operation and, for a library-wide
one, its claim; coll.status reports the visible operation; coll.cancel ends a live one (R328, R331, R552, R553, R554, R555,
R557). -/
def Obligations.CollectiveCommandsRun : Prop :=
  (∀ s p, s.takesIn 0x0701 p = true → redDefineRefusal (s.takenOf 0x0701 p) (s.accepted 0x0701 p) = none →
    exec (.redDefine p) s = .next (answeredTwice (s.takenOf 0x0701 p) ((s.accepted 0x0701 p).updQuireVol p.quire fun v =>
      { v with descs := v.descs.filter (·.1 ≠ field p.params 0 2) ++ [(field p.params 0 2, parseDesc (p.params.drop 16))] })
      [])) ∧
  (∀ s p o q, s.takesIn 0x0702 p = true → judgeLaunch (s.takenOf 0x0702 p) (s.accepted 0x0702 p) = .ok o →
    (s.accepted 0x0702 p).val.quire p.quire = some q →
    let a := (s.accepted 0x0702 p).updVol fun v =>
      { v with ops := v.ops.filter (fun x => !(x.quire = o.quire && x.tag = o.tag)) ++ [o] }
    let b := a.startTask (some (s.takenOf 0x0702 p).ident) p.quire (.launch o.tag)
    exec (.collLaunch p) s = .next ((if o.library then b.queueClaim (a.otherVolumes o) (a.launchClaim q o) else b).queueSeal
      ((s.takenOf 0x0702 p).reply .accepted []))) ∧
  (∀ s p o, s.takesIn 0x0703 p = true → (s.accepted 0x0703 p).vis.vol.op p.quire (field p.params 0 4) = some o →
    o.holdsTag = true →
    exec (.collStatus p) s = .next (answered (s.takenOf 0x0703 p) (s.accepted 0x0703 p)
      (if o.retrying then .retryPending else .ok) o.status)) ∧
  (∀ s p o, s.takesIn 0x0706 p = true → (s.accepted 0x0706 p).stg.vol.op p.quire (field p.params 0 4) = some o →
    o.holdsTag = true → quireGate (s.accepted 0x0706 p) p.quire = none → o.state ≠ .ended →
    exec (.collCancel p) s =
      .next (answeredTwice (s.takenOf 0x0706 p) ((s.accepted 0x0706 p).failOp o .cancelled) []))

/-- tile.read returns the visible bytes of a grant, and tile.write stages its bytes into the grant and nowhere else (R262,
R556). -/
def Obligations.TileCommandsRun : Prop :=
  (∀ s p q v, s.takesIn 0x0704 p = true → addrBad (field p.params 0 8) = false → 1 ≤ field p.params 8 4 →
    field p.params 8 4 ≤ 4072 → (s.accepted 0x0704 p).rebinding p.quire = false →
    (s.accepted 0x0704 p).val.quire p.quire = some q → (s.accepted 0x0704 p).vis.led.quire p.quire = some v →
    inGrant q.leaves.length (field p.params 0 8) (field p.params 8 4) = true →
    exec (.tileRead p) s = .next (answered (s.takenOf 0x0704 p) (s.accepted 0x0704 p) .ok
      (hbmRead (s.accepted 0x0704 p).vis.vol.hbm v.leaves (field p.params 0 8) (field p.params 8 4)))) ∧
  (∀ s p q, s.takesIn 0x0705 p = true → addrBad (field p.params 0 8) = false →
    quireGate (s.accepted 0x0705 p) p.quire = none → (s.accepted 0x0705 p).val.quire p.quire = some q →
    inGrant q.leaves.length (field p.params 0 8) (p.params.length - 8) = true →
    ((s.accepted 0x0705 p).stg.vol.liveOps q.id).any (fun o => o.ranges.any fun x =>
      overlap x.1 x.2 (field p.params 0 8) (p.params.length - 8)) = false →
    exec (.tileWrite p) s = .next (answeredTwice (s.takenOf 0x0705 p) ((s.accepted 0x0705 p).updVol fun v =>
      { v with hbm := hbmWrite v.hbm q.leaves (field p.params 0 8) (p.params.drop 8) }) []))

/-- A byte that tile.write does not name keeps its value: after the command every byte of director HBM outside the written
range of the quire's grant reads as before, and the range reads as the bytes given (R259, R262, R556). -/
def Obligations.TileWritesStayInTheirRange : Prop :=
  ∀ s p q t, s.takesIn 0x0705 p = true → addrBad (field p.params 0 8) = false →
    quireGate (s.accepted 0x0705 p) p.quire = none → (s.accepted 0x0705 p).val.quire p.quire = some q →
    inGrant q.leaves.length (field p.params 0 8) (p.params.length - 8) = true →
    ((s.accepted 0x0705 p).stg.vol.liveOps q.id).any (fun o => o.ranges.any fun x =>
      overlap x.1 x.2 (field p.params 0 8) (p.params.length - 8)) = false →
    q.leaves.Nodup → Memory.wf s.stg.vol.hbm = true → exec (.tileWrite p) s = .next t →
    (∀ a, (∀ i, i < p.params.length - 8 → a ≠ hbmAddr q.leaves (field p.params 0 8 + i)) →
      Memory.read t.stg.vol.hbm a = Memory.read s.stg.vol.hbm a) ∧
    (∀ i, i < p.params.length - 8 →
      Memory.read t.stg.vol.hbm (hbmAddr q.leaves (field p.params 0 8 + i)) = p.params.getD (8 + i) 0) ∧
    t.vis = s.vis

/-! ### Tenants, ledger, firmware, telemetry and power -/

/-- tenant.open stages the opened state of the lowest free slot, and a slot with memory encryption gets its memory key;
key.install sends a link key to the quire's endpoints as a task, retires the previous key of the slot, or adds or removes a
trust root; tenant.evict stages the slot as revoking and waits as a task; mem.scrub starts a scrub of its range (R403, R405,
R415, R417, R558, R559, R560, R561). -/
def Obligations.TenantCommandsRun : Prop :=
  (∀ s p n q, s.takesIn 0x0801 p = true → tenantOpenRefusal (s.takenOf 0x0801 p) (s.accepted 0x0801 p) = none →
    (s.accepted 0x0801 p).val.freeSlot = some n → (s.accepted 0x0801 p).val.quire p.quire = some q →
    let a := s.accepted 0x0801 p
    let cert := match a.rot.session with | some x => x.cert | none => none
    ∃ (t : State) (r : DurRec), exec (.tenantOpen p) s = .next (t.queueSeal ((s.takenOf 0x0801 p).reply .accepted [])) ∧
      t.ledger.unbuilt = a.ledger.unbuilt ++ [r] ∧
      r.objs = [.slot n (openedSlot q.id (field p.params 0 1 = 1) (bit (field p.params 1 1) 0) cert),
        .quire q.id (some { q with evicted := false })] ∧
      t.rot.memKeys = (if field p.params 0 1 = 1 then a.rot.memKeys else insertSorted n a.rot.memKeys) ∧ t.vis = a.vis) ∧
  (∀ s p, s.takesIn 0x0802 p = true → field p.params 0 1 = 0 →
    keySlotRefusal (s.takenOf 0x0802 p) (s.accepted 0x0802 p) = none →
    exec (.installLinkKey p) s = .next (((((s.accepted 0x0802 p).startTask (some (s.takenOf 0x0802 p).ident) p.quire
      (.keyInstall ((s.accepted 0x0802 p).val.slotOf p.quire) (field p.params 4 2) (slice p.params 8 32))).sendKeys
        p.quire 1 (field p.params 4 2) (slice p.params 8 32)).keysAnswered p.quire).queueSeal
      ((s.takenOf 0x0802 p).reply .accepted []))) ∧
  (∀ s p, s.takesIn 0x0802 p = true → field p.params 0 1 = 1 →
    keySlotRefusal (s.takenOf 0x0802 p) (s.accepted 0x0802 p) = none →
    let a := s.accepted 0x0802 p
    let n := a.val.slotOf p.quire
    (a.sendKeys p.quire 2 (a.val.slot n).prev []).durableRefusal = none →
    exec (.retirePrevious p) s = .next (staged (s.takenOf 0x0802 p) (a.sendKeys p.quire 2 (a.val.slot n).prev [])
      [.slot n (a.val.slot n).retire] (some p.quire) [])) ∧
  (∀ s p, s.takesIn 0x0802 p = true → field p.params 0 1 = 2 →
    trustRefusal (s.takenOf 0x0802 p) (s.accepted 0x0802 p) = none →
    exec (.addTrustRoot p) s = .next (staged (s.takenOf 0x0802 p) (s.accepted 0x0802 p)
      [.trust (insertNew (slice p.params 8 48) (s.accepted 0x0802 p).val.trust)] none [])) ∧
  (∀ s p, s.takesIn 0x0802 p = true → field p.params 0 1 = 3 →
    trustRefusal (s.takenOf 0x0802 p) (s.accepted 0x0802 p) = none →
    exec (.removeTrustRoot p) s = .next (staged (s.takenOf 0x0802 p) (s.accepted 0x0802 p)
      [.trust ((s.accepted 0x0802 p).val.trust.filter (· ≠ slice p.params 8 48))] none [])) ∧
  (∀ s p, s.takesIn 0x0803 p = true → tenantEvictRefusal (s.takenOf 0x0803 p) (s.accepted 0x0803 p) = none →
    let a := s.accepted 0x0803 p
    ∃ t : State, exec (.tenantEvict p) s = .next (t.queueSeal ((s.takenOf 0x0803 p).reply .accepted [])) ∧
      (∃ r ∈ t.ledger.unbuilt, r.quire = some p.quire ∧ r.objs =
        [.slot (a.val.slotOf p.quire) { a.val.slot (a.val.slotOf p.quire) with state := .revoking }]) ∧
      ∃ x ∈ t.tasks, x.quire = p.quire ∧ x.kind = .evict ((s.accepted 0x0803 p).val.slotOf p.quire)
        ((drainBound (field p.params 0 2)).getD Config.defaultDrain) .revoke 0) ∧
  (∀ s p q, s.takesIn 0x0804 p = true → (s.accepted 0x0804 p).val.quire p.quire = some q →
    memScrubRefusal (s.takenOf 0x0804 p) (s.accepted 0x0804 p) q = none →
    let x := scrubRange (s.takenOf 0x0804 p) q
    exec (.memScrub p) s = .next (started (s.takenOf 0x0804 p) (s.accepted 0x0804 p) (.scrub x.1 x.2 x.2)))

/-- ledger.status reports the journal as this tick shows it, with the seconds since the last checkpoint began (free when none
is known, log entry 20); ledger.checkpoint asks for a checkpoint as a task; ledger.read returns a page of the section it
names, or bytes of a folio; telem.subscribe stages the subscription, telem.snapshot returns a page of the mirror; power.status
reports, and power.budget stages the cap (R106, R442, R562, R563, R564, R568, R569, R570). -/
def Obligations.LedgerTelemetryPowerCommandsRun : Prop :=
  (∀ s p k, s.takesIn 0x0901 p = true → (s.accepted 0x0901 p).shown.ledger.ckStart = some k →
    let a := s.accepted 0x0901 p
    exec (.ledgerStatus p) s = .next (answered (s.takenOf 0x0901 p) a a.shown.ledger.statusCode
      (a.shown.ledger.statusResult (seconds ((a.clk.cycles : Int) - k).toNat)))) ∧
  (∀ s p, s.takesIn 0x0901 p = true → (s.accepted 0x0901 p).shown.ledger.ckStart = none →
    let a := s.accepted 0x0901 p
    exec (.ledgerStatus p) s = .next (answered (s.takenOf 0x0901 p) { a with freeCtr := a.freeCtr + 1 }
      a.shown.ledger.statusCode (a.shown.ledger.statusResult (Config.freeNat a.freeCtr)))) ∧
  (∀ s p, s.takesIn 0x0902 p = true → (s.accepted 0x0902 p).ckptTooSoon = false →
    (s.accepted 0x0902 p).durableRefusal = none →
    let a := s.accepted 0x0902 p
    exec (.ledgerCheckpoint p) s = .next (((a.startTask (some (s.takenOf 0x0902 p).ident) p.quire .checkpoint).updLedger fun g =>
      { g with ckWanted := true, ckTasks := g.ckTasks ++ [a.nextTask] }).queueSeal ((s.takenOf 0x0902 p).reply .accepted []))) ∧
  (∀ s p es size, s.takesIn 0x0903 p = true → field p.params 0 1 ≤ 5 → field p.params 0 1 ≠ 4 → field p.params 12 4 = 0 →
    (s.accepted 0x0903 p).readSection (field p.params 0 1) = (size, es) → field p.params 4 8 < es.length →
    exec (.ledgerRead p) s = .next (answered (s.takenOf 0x0903 p) (s.accepted 0x0903 p) .ok
      (let pg := pageOf es size readRoom (field p.params 4 8) (field p.params 2 2)
       readHeader (field p.params 0 1) pg.length es.length (field p.params 4 8) ++ pg.flatten))) ∧
  (∀ s p b, s.takesIn 0x0903 p = true → field p.params 0 1 = 4 →
    (s.accepted 0x0903 p).readFolio (field p.params 4 8) (field p.params 12 4) (field p.params 2 2) = some b →
    exec (.ledgerRead p) s = .next (answered (s.takenOf 0x0903 p) (s.accepted 0x0903 p) .ok b)) ∧
  (∀ s p, s.takesIn 0x0B01 p = true → field p.params 0 2 ≤ 128 →
    (subEntries (s.takenOf 0x0B01 p)).any (fun x => !linkOk x.2 || !(s.accepted 0x0B01 p).presentIn (s.accepted 0x0B01 p).stg x.1 ||
      cGath x.1 = 63) = false →
    exec (.telemSubscribe p) s = .next (answeredTwice (s.takenOf 0x0B01 p) ((s.accepted 0x0B01 p).updVol fun v =>
      { v with subs := subEntries (s.takenOf 0x0B01 p) }) [])) ∧
  (∀ s p es size, s.takesIn 0x0B02 p = true → field p.params 0 1 ≤ 4 →
    s.mirror.telemSection (field p.params 0 1) = (size, es) → field p.params 2 2 < es.length →
    exec (.telemSnapshot p) s = .next (answered (s.takenOf 0x0B02 p) (s.accepted 0x0B02 p) .ok
      (let pg := pageOf es size 4064 (field p.params 2 2) (field p.params 4 2)
       le 6 s.mirror.tick ++ le 2 pg.length ++ pg.flatten))) ∧
  (∀ s p, s.takesIn 0x0C01 p = true →
    exec (.powerStatus p) s =
      .next (answered (s.takenOf 0x0C01 p) (s.accepted 0x0C01 p) .ok (s.accepted 0x0C01 p).powerResult)) ∧
  (∀ s p, s.takesIn 0x0C02 p = true → 600 ≤ field p.params 0 2 → field p.params 0 2 ≤ (s.accepted 0x0C02 p).gradeMax →
    (s.accepted 0x0C02 p).awaiting .cap = false → (s.accepted 0x0C02 p).durableRefusal = none →
    exec (.powerBudget p) s = .next (staged (s.takenOf 0x0C02 p) (s.accepted 0x0C02 p) [.cap (field p.params 0 2)] none []))

/-- fw.download stages its progress at offset 0, and each chunk is a task whose bytes wait for the archive; fw.verify marks
the slot and starts its check; fw.activate marks the slot for the next boot, with the window; fw.confirm of the running trial
stops the window, confirms the slot and raises the floor; a reject reverts the boot slot; fw.status reports the visible state
(R475, R476, R477, R481, R565, R566, R567). -/
def Obligations.FirmwareCommandsRun : Prop :=
  (∀ s p, s.takesIn 0x0A01 p = true → fwDownloadRefusal (s.takenOf 0x0A01 p) (s.accepted 0x0A01 p) = none →
    let o := s.accepted 0x0A01 p
    let a := if field p.params 0 4 = 0 then
        (o.setFw (·.updSlot o.inactive fun _ => { FwSlot.init with status := 1, len := field p.params 4 4 })).stage
          (durRec (s.takenOf 0x0A01 p) [.fwProgress 0 (field p.params 4 4)] none none none)
      else if (o.fwState.slot o.inactive).status = 1 then o
      else o.setFw (·.updSlot o.inactive fun x => { x with status := 1 })
    exec (.fwDownload p) s = .next (((a.startTask (some (s.takenOf 0x0A01 p).ident) p.quire
        (.download o.inactive (field p.params 4 4) (field p.params 0 4) (p.params.drop 8))).queueChunk o.nextTask o.inactive
          (field p.params 0 4) (p.params.drop 8)).queueSeal ((s.takenOf 0x0A01 p).reply .accepted []))) ∧
  (∀ s p, s.takesIn 0x0A02 p = true → fwVerifyRefusal (s.takenOf 0x0A02 p) (s.accepted 0x0A02 p) = none →
    exec (.fwVerify p) s = .next (started (s.takenOf 0x0A02 p) ((s.accepted 0x0A02 p).setFw
      (·.updSlot (field p.params 0 1) fun x => { x with status := 3 })) (.verify (field p.params 0 1) none))) ∧
  (∀ s p, s.takesIn 0x0A03 p = true → fwActivateRefusal (s.takenOf 0x0A03 p) (s.accepted 0x0A03 p) = none →
    let w := if field p.params 2 2 = 0 then 30 else field p.params 2 2
    exec (.fwActivate p) s = .next (started (s.takenOf 0x0A03 p) ((s.accepted 0x0A03 p).setFw fun f =>
        { f.updSlot (field p.params 0 1) (fun x => { x with status := 5, boots := 0 }) with
          boot := field p.params 0 1, window := w, ident := some (s.takenOf 0x0A03 p).ident })
      (.activateFw (field p.params 0 1) w (field p.params 1 1 = 1)))) ∧
  (∀ s p, s.takesIn 0x0A04 p = true → fwConfirmRefusal (s.takenOf 0x0A04 p) (s.accepted 0x0A04 p) = none →
    field p.params 0 1 = 0 →
    let a := s.accepted 0x0A04 p
    let run := a.fw.running
    let b := ({ a with fw := { a.fw with windowEnd := none, stopped := true } }.setFw fun f =>
      { f.confirm run with ident := some (s.takenOf 0x0A04 p).ident })
    exec (.fwConfirm p) s = .next (started (s.takenOf 0x0A04 p) (b.updLedger fun g =>
      { g with anchor := { g.anchor with floor := max g.anchor.floor (a.fwState.slot run).floor } }) (.confirmFw false))) ∧
  (∀ s p, s.takesIn 0x0A04 p = true → fwConfirmRefusal (s.takenOf 0x0A04 p) (s.accepted 0x0A04 p) = none →
    field p.params 0 1 = 1 →
    let a := s.accepted 0x0A04 p
    exec (.fwReject p) s = .next (started (s.takenOf 0x0A04 p)
      ({ a with fw := { a.fw with windowEnd := none, stopped := true } }.setFw fun f =>
        { f.revert a.fw.running with ident := some (s.takenOf 0x0A04 p).ident }) .rejectFw)) ∧
  (∀ s p, s.takesIn 0x0A05 p = true →
    exec (.fwStatus p) s =
      .next (answered (s.takenOf 0x0A05 p) (s.accepted 0x0A05 p) .ok (s.accepted 0x0A05 p).fwResult))

/-! ### The host interface -/

/-- The director acts on host writes only in the places the table lists: ring bytes and indices of a ring in service,
pending bits cleared, sources masked, the reply-interrupt mode and the doorbell. Every other write changes nothing, and
neither does any write in reset, under PERST_N or in D3hot. No write changes fabric state, ledgered state or the tick
(R603). -/
def Obligations.HostWritesActOnlyWhereListed : Prop :=
  (∀ s ch data tail, s.hostAccess = true → s.ringIn ch = true →
    exec (.cmdTailWrite ch data tail) s = .next ((s.updChan ch fun x =>
      { x with cmdRing := ringWrite x.cmdRing x.cmdTail.toNat data, cmdTail := tail }).checkRing ch)) ∧
  (∀ s ch head, s.hostAccess = true → s.ringIn ch = true →
    exec (.rplHeadWrite ch head) s = .next ((s.updChan ch fun x => { x with rplHead := head }).checkRing ch)) ∧
  (∀ s w, s.hostAccess = true → ∃ t : State, exec (.irqStatClear w) s = .next t ∧
    (∀ k, t.irq.stat.getLsbD k = (s.irq.stat.getLsbD k && (!w.getLsbD k || k == 8))) ∧
    t = { s with irq := { s.irq with stat := t.irq.stat, sent := t.irq.sent, inta := t.irq.inta } }) ∧
  (∀ s w, s.hostAccess = true → ∃ t : State, exec (.irqMaskWrite w) s = .next t ∧
    (∀ k, t.irq.mask.getLsbD k = (w.getLsbD k && decide (k < 18))) ∧
    t = { s with irq := { s.irq with mask := t.irq.mask, sent := t.irq.sent, inta := t.irq.inta } }) ∧
  (∀ s w, s.hostAccess = true → exec (.rimodeWrite w) s = .next { s with irq := { s.irq with rimode := w } }) ∧
  (∀ s w, s.hostAccess = true → ∃ t : State, exec (.mbxDoorbellWrite w) s = .next t ∧
    (∀ c, c < s.chans.length → t.chan c = { s.chan c with armed := (s.chan c).armed || bit w.toNat c }) ∧
    t = { s with chans := t.chans } ∧ t.chans.length = s.chans.length) ∧
  (∀ s offset size w, exec (.registerWriteIgnored offset size w) s = .next s) ∧
  (∀ s ch data tail, s.hostAccess = false ∨ s.ringIn ch = false → exec (.cmdTailWrite ch data tail) s = .next s) ∧
  (∀ s ch head, s.hostAccess = false ∨ s.ringIn ch = false → exec (.rplHeadWrite ch head) s = .next s) ∧
  (∀ s w, s.hostAccess = false → exec (.irqStatClear w) s = .next s ∧ exec (.irqMaskWrite w) s = .next s ∧
    exec (.mbxDoorbellWrite w) s = .next s) ∧
  (∀ s w, s.hostAccess = false → exec (.rimodeWrite w) s = .next s) ∧
  (∀ i s t, isHostWrite i = true → exec i s = .next t →
    t = { s with chans := t.chans, irq := t.irq } ∧ t.vis = s.vis ∧ t.stg = s.stg ∧ t.ledger = s.ledger ∧ t.clk = s.clk)

/-- IRQ_STAT.FATAL stays pending until reset, and a write of 1 to it is ignored: no register write of the host takes it
(R618). -/
def Obligations.FatalStaysPending : Prop :=
  ∀ i s t, isHostWrite i = true → exec i s = .next t → s.irq.stat.getLsbD 8 = true →
    t.irq.stat.getLsbD 8 = true

/-- PERST_N, the configuration requests and the JTAG instructions run: an assertion of 100 µs or more resets the mailbox,
the reply bits and the interrupt registers and leaves the fabric, and one below 1 µs is ignored (R452, R586, R597, R605,
R619). -/
def Obligations.PinsOfTheHostRun : Prop :=
  (∀ s ns, ns < 1000 → exec (.perstNAssert ns) s = .next s) ∧
  (∀ s ns, 100000 ≤ ns → ∃ t : State, exec (.perstNAssert ns) s = .next t ∧
    t.irq.perst = true ∧ t.irq.mask = 0x3FFFF ∧ t.irq.rimode = 0 ∧ t.irq.msi = none ∧
    (∀ k, t.irq.stat.getLsbD k = (s.irq.stat.getLsbD k && decide (8 ≤ k))) ∧
    (∀ c, c < s.chans.length → s.ringIn c = true → (t.chan c).cmdTail = 0 ∧ (t.chan c).cmdHead = 0 ∧ (t.chan c).rplTail = 0 ∧
      (t.chan c).rplHead = 0 ∧ (t.chan c).cache = [] ∧ (t.chan c).baseline = none ∧ (t.chan c).taken = (s.chan c).taken) ∧
    (∀ c, c < s.chans.length → s.ringIn c = false → t.chan c = s.chan c) ∧
    t = { s with chans := t.chans, irq := t.irq }) ∧
  (∀ s ns, 1000 ≤ ns → ns < 100000 →
    exec (.perstNAssert ns) s = .next (if s.freeBool.1 then s.freeBool.2.perstReset else s.freeBool.2)) ∧
  (∀ s, exec .perstNDeassert s = .next { s with irq := { s.irq with perst := false } }) ∧
  (∀ s d, s.irq.perst = false → ∃ t : State, exec (.configurationRequest (.powerState d)) s = .next t ∧ t.irq.d3 = d ∧
    t = { s with irq := { s.irq with d3 := d, inta := t.irq.inta } }) ∧
  (∀ s en n, s.irq.perst = false → ∃ t : State, exec (.configurationRequest (.msi en n)) s = .next t ∧
    t.irq.msi = (if en = true ∧ (n = 1 ∨ n = 2 ∨ n = 4 ∨ n = 8) then some n else none) ∧
    t = { s with irq := { s.irq with msi := t.irq.msi, inta := t.irq.inta } }) ∧
  (∀ s en, s.irq.perst = false → ∃ t : State, exec (.configurationRequest (.intx en)) s = .next t ∧ t.irq.intx = en ∧
    t = { s with irq := { s.irq with intx := en, inta := t.irq.inta } }) ∧
  (∀ s r, s.irq.perst = true → exec (.configurationRequest r) s = .next s) ∧
  (∀ s i, i ≠ .extest → i ≠ .clamp → i ≠ .highz →
    exec (.jtagInstruction i) s = .next { s with pins := { s.pins with tap := i } }) ∧
  (∀ s i, i = .extest ∨ i = .clamp ∨ i = .highz → exec (.jtagInstruction i) s =
    .next { s with pins := { s.pins with tap := if s.pins.rstN then .bypass else i } })

/-! ### Ethernet and the switch units -/

/-- On a port out of reset a request for the port's own address is counted and answered; a reply the port asked for enters the
cache with the cycle of its arrival and releases what waited for it; any other reply is only counted; a discarded frame
changes no cache and sends nothing; a port that comes up announces its address; an entry is dropped 300 s after its reply
(R126, R127, R623). -/
def Obligations.EthernetRowsRun : Prop :=
  (∀ s port target sender mac, s.ethLive port = true → exec (.arpRequestRx port target sender mac) s =
    .next (if s.ownIp port = some target then
        s.updEth port fun e => ((e.count 0 arpBytes).one 12).put (.arpAnswer sender mac)
      else s.updEth port (·.count 0 arpBytes))) ∧
  (∀ s port sender mac, s.ethLive port = true → (s.eth port).asks.contains sender = true →
    exec (.arpReplyRx port sender mac) s = .next ((s.updEth port fun e =>
      { (e.count 0 arpBytes).one 12 with arp := lastN 64 (e.arp.filter (·.1 ≠ sender) ++ [(sender, mac, s.clk.cycles)])
                                         asks := e.asks.filter (· ≠ sender) }).sendHeld sender)) ∧
  (∀ s port sender mac, s.ethLive port = true → (s.eth port).asks.contains sender = false →
    exec (.arpReplyRx port sender mac) s = .next (s.updEth port (·.count 0 arpBytes))) ∧
  (∀ s port why bytes, s.ethLive port = true → ∃ t : State, exec (.ethFrameDiscard port why bytes) s = .next t ∧
    (t.eth port).arp = (s.eth port).arp ∧ (t.eth port).sent = (s.eth port).sent ∧
    t = { s with eth0 := t.eth0, eth1 := t.eth1, chans := t.chans } ∧ (why ≠ .secured → t.chans = s.chans)) ∧
  (∀ s port, s.ethLive port = true → (s.eth port).up = false →
    exec (.ethLinkUp port) s = .next ((s.updEth port fun e => { e with up := true }).announceIp port)) ∧
  (∀ s port addr mac at_, port < 2 → (addr, mac, at_) ∈ (s.eth port).arp → s.reached (at_ + 300 * Config.hz) = true → ∃ t : State,
    exec (.arpEntryExpiry port addr) s = .next t ∧ (t.eth port).arp = (s.eth port).arp.filter (·.1 ≠ addr) ∧
    t = { s with eth0 := t.eth0, eth1 := t.eth1 })

/-- What a switch unit answers takes effect: an IDENT is recorded; a SET_ACK without a refusal is only counted, and a refused
SET goes out once more under a new generation; a SET_DONE without failed entries completes the unit's part while other parts
are open; a MAP that leaves ports unread adds what it tells; an ALARM that tells no restart is a transient fault that calls
for reconciliation (R171, R172, R174, R177, R178, R179, R182, R625). -/
def Obligations.UnitMessagesRun : Prop :=
  (∀ s src msg u, s.unitAt src = some u → ocsFormed msg 0x81 u = true → u < s.ocs.units.length →
    ∃ t : State, exec (.identRx src msg) s = .next t ∧ (t.unit u).missed = 0 ∧ (t.unit u).asked = false ∧
      (t.unit u).ident = some { ident := field msg 16 8, ports := field msg 24 2, switchUs := field msg 28 4,
                                boot := field msg 32 4, latching := bit (field msg 37 1) 0 } ∧
      t.ocs.planes = s.ocs.planes) ∧
  (∀ s src msg u, s.unitAt src = some u → ocsFormed msg 0x82 u = true → field msg 24 1 = 0 →
    exec (.setAckRx src msg) s = .next (s.unitHeard msg)) ∧
  (∀ s src msg u ch x, s.unitAt src = some u → ocsFormed msg 0x82 u = true → field msg 24 1 ≠ 0 →
    s.openPart u = some (ch, x) → x.gen = field msg 16 8 → x.retried = false →
    let g := s.clk.now * 256 + s.ocs.setsNow
    ∃ t : State, exec (.setAckRx src msg) s = .next t ∧ t.ocs.setsNow = s.ocs.setsNow + 1 ∧
      t.ocs.planes.getD (u / 8) none = some { ch with parts := modWhere ch.parts (·.unit = u) fun x =>
        { x with retried := true, gen := g, sentAt := s.sealCycle } }) ∧
  (∀ s src msg u ch x, s.unitAt src = some u → ocsFormed msg 0x83 u = true → field msg 26 2 = 0 →
    s.openPart u = some (ch, x) → x.gen = field msg 16 8 → ch.others u = true →
    exec (.setDoneRx src msg) s = .next ((s.unitHeard msg).setPlane (u / 8)
      (some { ch with parts := modWhere ch.parts (·.unit = u) fun x => { x with done := true } }))) ∧
  (∀ s src msg u ch, s.unitAt src = some u → ocsFormed msg 0x84 u = true → u < s.ocs.units.length →
    s.ocs.planes.getD (u / 8) none = some ch → ch.kind = .reconcile u → ch.parts = [] → field msg 26 2 ≠ 0 →
    field msg 24 2 + field msg 26 2 < ((s.unit u).ident.elim 0 (·.ports)) →
    ∃ t : State, exec (.mapRx src msg) s = .next t ∧ t.ocs.planes = s.ocs.planes ∧
      (t.unit u).conn = (s.unit u).conn ++ (List.range (field msg 26 2)).filterMap fun i =>
        if field msg (28 + 2 * i) 2 = 0xFFFF then none else some (field msg 24 2 + i, field msg (28 + 2 * i) 2)) ∧
  (∀ s src msg u, s.unitAt src = some u → ocsFormed msg 0x85 u = true → field msg 18 2 ≠ 2 →
    exec (.alarmRx src msg) s =
      .next (((s.unitHeard msg).fault 1 0x03 u).updUnit u fun x => { x with reconcile := true }))

/-- Past its deadline a silent unit's SET goes out once more under its generation, and at its second silence its part has
failed; before the deadline nothing happens. Once a second every unit in use is asked for its identity. A scan round ends no
sooner than its time, when every unit has done its part or failed: what its uplinks reported of their peers is kept, nothing
where a unit failed; then the next round begins, or the scan has ended (R158, R159, R172, R181). -/
def Obligations.UnitTimersAndScansRun : Prop :=
  (∀ s u ch x, s.deadlinePast u = true → s.openPart u = some (ch, x) → x.retried = false →
    exec (.setDeadlineExpiry u) s = .next ((s.setPlane (u / 8) (some { ch with parts := modWhere ch.parts (·.unit = u) fun x =>
      { x with retried := true, sentAt := s.sealCycle } })).sendSet u x.gen x.entries)) ∧
  (∀ s u ch x, s.deadlinePast u = true → s.openPart u = some (ch, x) → x.retried = true → ch.others u = true →
    exec (.setDeadlineExpiry u) s = .next (s.setPlane (u / 8) (some { ch with parts := modWhere ch.parts (·.unit = u) fun x =>
      { x with failed := true, silent := true } }))) ∧
  (∀ s u, s.deadlinePast u = false → exec (.setDeadlineExpiry u) s = .next s) ∧
  (∀ s m, s.vis.led.manifest = some m → s.boot.straps.bench = false → s.ocs.identAt ≤ s.clk.cycles + s.clk.period →
    ∃ t : State, exec .identReqTimer s = .next t ∧ t.ocs.planes = s.ocs.planes ∧
      ∀ u ∈ m.unitsInUse, u < s.ocs.units.length → (t.unit u).asked = true) ∧
  (∀ s plane task r pairs ch, s.ocs.planes.getD plane none = some ch → ch.kind = .scan task r pairs → ch.sent = true →
    ch.sentAt + s.roundCycles plane ≤ s.clk.cycles + s.clk.period →
    (∀ x ∈ ch.parts, x.failed = true ∨ (x.done = true ∧ x.rest = [])) →
    ∃ (x : ScanRound) (t : State), x.plane = plane ∧ x.pairs = pairs ∧
      ((∃ y ∈ ch.parts, y.failed = true) → x.got = []) ∧
      ((∀ y ∈ ch.parts, y.failed = false) → ∀ y ∈ pairs, ∀ u ∈ [y.1, y.2], ∀ g sl q f n, u = .uplink g sl q →
        s.disc.peers.find? (fun z => z.1 = mkCoord s.volume g sl 0 && z.2.1 = q) = some (mkCoord s.volume g sl 0, q, some f, n) →
        (u, f) ∈ x.got) ∧
      t = { s with ocs := { s.ocs with seen := s.ocs.seen ++ [x] } } ∧
      exec (.scanRoundEnd plane) s =
        .next (if r + 1 < s.scanRounds plane then t.startRound plane task (r + 1) pairs else t.scanEnded plane task pairs)) ∧
  (∀ s plane ch, s.ocs.planes.getD plane none = some ch → s.clk.cycles + s.clk.period < ch.sentAt + s.roundCycles plane →
    exec (.scanRoundEnd plane) s = .next s)

/-! ### Discovery and what arrives at ports -/

/-- A beacon names its port's peer, a peer report is kept, and a confirmation by an accelerator of an admitted gathering makes
it live. An uplink whose last report is 256 ticks old is silent; a listed gathering without a board for as long is missing, or
unreachable where its house port is a library link. A house bore that is to move is moved by a change of its plane, and waits
while the plane is busy or its units are not ready. Discovery completes when every gathering is judged and every switched
plane scanned (R37, R153, R155, R157, R162, R167, R213, R492, R493). -/
def Obligations.DiscoveryRowsRun : Prop :=
  (∀ s d u pkt src body, s.clk.running = true → s.ctlChecks u pkt 0x01 true = .take src body → field body 0 1 = 1 →
    d < s.ports.length →
    ∃ t : State, exec (.linkBeaconRx d u pkt) s = .next t ∧ (t.port d).peer = some (.director src (field body 1 1 % 64))) ∧
  (∀ s d u pkt src body, s.clk.running = true → s.ctlChecks u pkt 0x01 true = .take src body → field body 0 1 = 2 →
    d < s.ports.length →
    ∃ t : State, exec (.linkBeaconRx d u pkt) s = .next t ∧ (t.port d).peer =
      some (.accel src (field body 1 1 % 4) (field body 2 1 % 16) (field body 3 1) (field body 4 8) (bit (field body 1 1) 7))) ∧
  (∀ s d u pkt src body, s.clk.running = true → s.ctlChecks u pkt 0x03 false = .take src body → field body 0 1 ≤ 3 →
    field body 1 1 ≤ 2 → cVol src = s.volume → cGath src < 32 →
    ∃ t : State, exec (.peerReportRx d u pkt) s = .next t ∧
      (src - cFun src, field body 0 1, s.reportedPeer body, 0) ∈ t.disc.peers) ∧
  (∀ s d u pkt src body, s.clk.running = true → s.ctlChecks u pkt 0x05 false = .take src body → s.ledgerFaulted = false →
    field body 0 4 % 2 ^ 20 = src → cVol src = s.volume → cGath src < 32 → cFun src = 0 →
    (s.val.map.board (cGath src)).state = 1 → cGath src < s.val.map.boards.length → cSlot src < (s.val.map.board (cGath src)).cap →
    s.val.map.mismatch.any (fun y => y.code = 0x0C && y.object = src) = false →
    ∃ t : State, exec (.coordinateConfirmationRx d u pkt) s = .next t ∧
      cSlot src ∈ (t.val.map.board (cGath src)).live) ∧
  (∀ s c up, up ≤ 3 → cGath c < 32 → cVol c = s.volume → cFun c = 0 → 256 ≤ (s.reportAge c up).getD 0 →
    s.ledgerFaulted = false → s.val.map.uplinks.getD (uplinkIndex (cGath c) (cSlot c) up) .notListed ≠ .notListed →
    ∃ t : State, exec (.uplinkSilent c up) s = .next t ∧
      t.val.map.uplinks.getD (uplinkIndex (cGath c) (cSlot c) up) .notListed = .silent ∧
      (t.disc.peers.find? fun x => x.1 = c && x.2.1 = up).bind (·.2.2.1) = none) ∧
  (∀ s g m e n, s.val.manifest = some m → m.gatherings.getD g none = some e → 256 ≤ n →
    (s.disc.noBoard.find? (·.1 = g)) = some (g, n) → s.ledgerFaulted = false → g < s.val.map.boards.length →
    (s.val.map.board g).state ≠ 4 → portLibrary s.boot s.val (housePort g) = false →
    ((s.val.map.board g).admitted = true → (s.val.map.board g).live = [] ∨
      ∃ h ∈ (s.val.map.board g).live, (s.val.map.board g).house = some h) →
    ∃ t : State, exec (.boardMissing g) s = .next t ∧ (t.val.map.board g).state = 2 ∧ (t.val.map.board g).live = [] ∧
      coordMismatch 0x05 (mkCoord s.volume g 0 0) ∈ t.val.map.mismatch) ∧
  (∀ s g m e n, s.val.manifest = some m → m.gatherings.getD g none = some e → 256 ≤ n →
    (s.disc.noBoard.find? (·.1 = g)) = some (g, n) → portLibrary s.boot s.val (housePort g) = true →
    exec (.boardMissing g) s = .next (({ s with disc := { s.disc with judged := insertSorted g s.disc.judged } }).loseReach g)) ∧
  (∀ s g m e sl, s.val.manifest = some m → m.gatherings.getD g none = some e → portLibrary s.boot s.val (housePort g) = false →
    s.houseTarget g = some sl → (s.val.map.board g).house ≠ some sl → switchedPlane s.val.manifest (g % 4) = true →
    s.planeBusy (g % 4) = false → s.planeDown (g % 4) = false → s.unitsReady (g % 4) = true →
    exec (.houseBoreMove g) s = .next (({ s with ocs := { s.ocs with houseMoves := s.ocs.houseMoves.filter (· ≠ g) } }).planeChange
      (g % 4) (.houseMove g sl) (joinOf s.val.manifest (.dport (housePort g)) (.uplink g sl (g % 4))).toList)) ∧
  (∀ s g m e sl, s.val.manifest = some m → m.gatherings.getD g none = some e → portLibrary s.boot s.val (housePort g) = false →
    s.houseTarget g = some sl → (s.val.map.board g).house ≠ some sl → switchedPlane s.val.manifest (g % 4) = true →
    (s.planeBusy (g % 4) = true ∨ s.planeDown (g % 4) = true ∨ s.unitsReady (g % 4) = false) →
    exec (.houseBoreMove g) s = .next { s with ocs := { s.ocs with houseMoves := insertSorted g s.ocs.houseMoves } }) ∧
  (∀ s, s.boot.stage = .discovery ∨ s.boot.stage = .inService → s.disc.complete = false → s.discoveryDone = true →
    ∃ t : State, exec .discoveryComplete s = .next t ∧ t.disc = { s.disc with due := true } ∧ t.boot = s.boot)

/-- A data packet is discarded and charged to the counter that the checks of R223 find, forwarded, or taken by the director's
data endpoint. A port held down takes none, and one under a loopback test discards it. A packet of an uncorrectable codeword
is discarded and charged to counter 4 of its port, whatever it holds, and the port awaits a new start (R42, R207, R219, R223,
R575). -/
def Obligations.DataPacketsRun : Prop :=
  (∀ s d u pkt c, s.clk.running = true → (s.port d).heldDown = false → (s.port d).looping = false →
    (u = true ∨ (field pkt 0 1 ≠ 0xC0 ∧ field pkt 0 1 ≠ 0)) → s.rxChecks d u pkt = .drop c →
    exec (.dataPacketRx d u pkt) s = .next ((s.count d c 1).updPort d fun p => { p with parsing := framed u pkt })) ∧
  (∀ s d u pkt, s.clk.running = true → (s.port d).heldDown = false → (s.port d).looping = false →
    s.rxChecks d u pkt = .forward → exec (.dataPacketRx d u pkt) s =
      .next ((s.rxGood d pkt.length).forwardPkt d ((s.vis.led.quireOfKey (parseLink pkt).key).getD 0) pkt)) ∧
  (∀ s d u pkt f hdr data ten, s.clk.running = true → (s.port d).heldDown = false → (s.port d).looping = false →
    s.rxChecks d u pkt = .consume f hdr data ten → exec (.dataPacketRx d u pkt) s =
      .next ((s.rxGood d pkt.length).consume ((s.vis.led.quireOfKey (parseLink pkt).key).getD 0) (parseLink pkt).src
        (parseLink pkt).seq f hdr data ten)) ∧
  (∀ s d u pkt, (s.port d).heldDown = true → exec (.dataPacketRx d u pkt) s = .next s) ∧
  (∀ s d u pkt, s.clk.running = true → (s.port d).heldDown = false → (s.port d).looping = true →
    (u = true ∨ (field pkt 0 1 ≠ 0xC0 ∧ field pkt 0 1 ≠ 0)) → exec (.dataPacketRx d u pkt) s = .next (s.count d 10 1)) ∧
  (∀ s d pkt, s.clk.running = true → (s.port d).heldDown = false → (s.port d).looping = false →
    let t := (s.count d 4 1).updPort d fun p => { p with parsing := false }
    (∀ i ∈ [Instr.dataPacketRx d true pkt, .linkBeaconRx d true pkt, .peerReportRx d true pkt,
        .coordinateConfirmationRx d true pkt, .tableWriteAckRx d true pkt, .legAckRx d true pkt, .completionReportRx d true pkt,
        .counterReportRx d true pkt, .retrainRequestRx d true pkt],
      exec i s = .next t) ∧
    ∀ e, exec (.tickBeaconRx d true e pkt) s = .next t)

/-- A plaintext data packet for the director, of a quire whose slot is keyed, is discarded and counted for its quire, and no
other counter than those of a good arrival moves; quire.status reports the count from the visible state (R408). -/
def Obligations.PlaintextToAKeyedQuireIsRefused : Prop :=
  (∀ s d u pkt f hdr data, s.clk.running = true → (s.port d).heldDown = false → (s.port d).looping = false →
    s.rxChecks d u pkt = .consume f hdr data false → s.faults.fatal = none →
    let q := (s.vis.led.quireOfKey (parseLink pkt).key).getD 0
    (s.vis.led.slot (s.vis.led.slotOf q)).state = .keyed →
    exec (.dataPacketRx d u pkt) s = .next ((s.rxGood d pkt.length).updQuireVol q fun v =>
      { v with plainRefused := v.plainRefused + 1 })) ∧
  (∀ (s : State) (q : QuireRec), (s.vis.vol.quire q.id).plainRefused < 2 ^ 64 →
    field (s.statusResult q) 46 8 = (s.vis.vol.quire q.id).plainRefused)

/-- Control packets that the checks of R223 let pass take effect: a retrain request latches event 12, a counter report keeps
its three counters, a completion report of a quire keeps its summary, one of an operation and one of a reset are taken, an
acknowledged table write is no longer open, a leg's acknowledgement is kept, and a tick beacon is read (R165, R200, R214,
R223, R234, R494, R496, R510, R511). -/
def Obligations.ControlPacketsRun : Prop :=
  (∀ s d u pkt src body, s.clk.running = true → s.ctlChecks u pkt 0x0E false = .take src body → field body 0 1 ≤ 63 →
    1 ≤ field body 1 1 → field body 1 1 ≤ 3 →
    exec (.retrainRequestRx d u pkt) s = .next ((s.rxGood d 64).latch (field body 0 1) 12)) ∧
  (∀ s d u pkt src body i, s.clk.running = true → s.ctlChecks u pkt 0x0C false = .take src body →
    field body 0 1 ≤ 3 ∨ (16 ≤ field body 0 1 ∧ field body 0 1 ≤ 31) → field body 1 1 = 3 * i → i ≤ 6 →
    ∃ (t : State) (x : LinkCounters), exec (.counterReportRx d u pkt) s = .next t ∧ x ∈ t.links ∧ x.coord = src ∧
      x.link = field body 0 1 ∧ x.fresh = true ∧
      ∀ k, k < 3 → 3 * i + k ≠ 20 → 3 * i + k < x.vals.length → x.vals.getD (3 * i + k) 0 = field body (8 + 8 * k) 8) ∧
  (∀ s d u pkt src body, s.clk.running = true → s.ctlChecks u pkt 0x0B false = .take src body → field body 0 1 = 1 →
    field body 2 2 = 0 → s.stg.led.quire 0 = none →
    ∃ t : State, exec (.completionReportRx d u pkt) s = .next t ∧
      ({ coord := src, pending := bit (field body 1 1) 0, originated := field body 4 8, accepted := field body 12 8,
         givenUp := field body 20 8, tick := s.now } : Summary) ∈ (t.stg.vol.quire 0).summaries) ∧
  (∀ s d u pkt src body q, s.clk.running = true → s.ctlChecks u pkt 0x0B false = .take src body → field body 0 1 = 1 →
    s.stg.led.quire (field body 2 2) = some q → q.resetCount = field body 28 4 →
    ∃ t : State, exec (.completionReportRx d u pkt) s = .next t ∧
      ({ coord := src, pending := bit (field body 1 1) 0, originated := field body 4 8, accepted := field body 12 8,
         givenUp := field body 20 8, tick := s.now } : Summary) ∈ (t.stg.vol.quire (field body 2 2)).summaries) ∧
  (∀ s d u pkt src body, s.clk.running = true → s.ctlChecks u pkt 0x0B false = .take src body → field body 0 1 = 2 →
    exec (.completionReportRx d u pkt) s = .next ((s.rxGood d 64).opReport src body)) ∧
  (∀ s d u pkt src body, s.clk.running = true → s.ctlChecks u pkt 0x0B false = .take src body → field body 0 1 = 4 →
    ∃ t : State, exec (.completionReportRx d u pkt) s = .next t ∧ src ∉ (t.stg.vol.quire (field body 2 2)).excluded) ∧
  (∀ s d u pkt src body t, s.clk.running = true → s.ctlChecks u pkt 0x08 false = .take src body →
    1 ≤ field body 0 1 → field body 0 1 ≤ 3 → field body 9 1 = 0 → s.tasks = [t] → t.writeQuire = field body 2 2 →
    ∀ j w, t.kind.jobs = [j] → j.coord = src → j.table = field body 0 1 → j.index = field body 1 1 →
    j.unacked.find? (·.off = field body 4 4) = some w →
    ∃ t' : State, exec (.tableWriteAckRx d u pkt) s = .next t' ∧ t'.tasks =
      [{ t with kind := (t.kind.withJobs [{ j with unacked := j.unacked.filter (·.off ≠ field body 4 4) }]) }]) ∧
  (∀ s d u pkt src body c, s.clk.running = true → s.ctlChecks u pkt 0x0A false = .take src body → field body 0 1 ≤ 1 →
    field body 4 4 % 2 ^ 20 = s.dataEnd → s.casts = [c] → c.quire = field body 2 2 → c.seq = field body 8 4 → src ∈ c.legs →
    ∃ t : State, exec (.legAckRx d u pkt) s = .next t ∧ t.casts = [{ c with acked := insertNew src c.acked }]) ∧
  (∀ s d u e pkt src body, s.clk.running = true → s.ctlChecks u pkt 0x02 true = .take src body →
    exec (.tickBeaconRx d u e pkt) s = .next ((s.rxGood d 64).tickBeacon d src e body))

/-! ### Ports and elements -/

/-- Ports take events: a physical event latches at its port, an LST timer that has one tick left expires as event 13, and a
laser source's alarm reaches the eight ports it feeds (R163, R165, R589). -/
def Obligations.PortEventsRun : Prop :=
  (∀ s d e, s.boot.stage ≠ .held → phyEvent e = true → exec (.portLinkEvent d e) s = .next (s.latch d e)) ∧
  (∀ s d, (s.port d).timer = 1 →
    exec (.lstTimerExpiry d) s = .next ((s.updPort d fun p => { p with timer := 0 }).latch d 13)) ∧
  (∀ s fau, s.boot.stage ≠ .held → fau ≤ 7 → ∃ t : State, exec (.elsAlarm fau) s = .next t ∧
    (∀ d, d < s.ports.length → (2 ∈ (t.port d).latched ↔ d / 8 = fau ∨ 2 ∈ (s.port d).latched)) ∧
    t = { s with ports := t.ports })

/-- A scheduled measurement of an element begins; a measurement ends no sooner than after 4,096 ticks, and one that passes
takes the element from the suspects, while one that fails leaves them. A path masked for its health is unmasked once every
link of it was good for 64 boundaries; a mask of a transit stays (R193, R366, R576). -/
def Obligations.MeasurementsRun : Prop :=
  (∀ s e, e ∈ s.faults.scheduled → s.faults.measuring.any (·.1 = e) = false →
    exec (.scheduledDiagLane e) s = .next { s with faults := { s.faults with
      scheduled := s.faults.scheduled.filter (· ≠ e), measuring := s.faults.measuring ++ [(e, none, s.now)] } }) ∧
  (∀ s e lanes unc miss x at_, s.faults.measuring.find? (·.1 = e) = some (e, x, at_) → s.since at_ < 4096 →
    exec (.diagLaneEnd e lanes unc miss) s = .next s) ∧
  (∀ s e lanes unc miss x at_, s.faults.measuring.find? (·.1 = e) = some (e, x, at_) → 4096 ≤ s.since at_ →
    ∃ t : State, exec (.diagLaneEnd e lanes unc miss) s = .next t ∧ t.faults.measuring = s.faults.measuring.filter (·.1 ≠ e) ∧
      (s.lanePasses e lanes unc miss = true → t.faults.suspects = s.faults.suspects.filter (· ≠ e)) ∧
      (s.lanePasses e lanes unc miss = false → t.faults.suspects = s.faults.suspects) ∧
      t.vis = s.vis) ∧
  (∀ s q g h path x m, (s.stg.vol.quire q).installed = some x → m ∈ (s.stg.vol.quire q).masks → m.kind = .health → m.g = g →
    m.h = h → m.path = path → 64 ≤ m.goodFor →
    ∃ t : State, exec (.pathMaskClear q g h path) s = .next t ∧
      m ∉ (t.stg.vol.quire q).masks ∧ (∀ n ∈ (s.stg.vol.quire q).masks, n.kind = .transit → n ∈ (t.stg.vol.quire q).masks))

/-! ### Sessions -/

/-- A house session with a peer starts; without an answer for 1,024 ticks it is asked for once more, and then it is lost; a
message that ends it well brings it up, one that ends it badly at the second try loses it, and any other is answered. An
answered key message no longer waits, and one unanswered for 1,024 ticks is a lasting fault of its endpoint. The attestation
command ends with OP_TIMEOUT without an answer for 256 ticks, with ATTEST_FAIL where the answer failed, and else with the
answer (R395, R396, R397, R405, R517, R524). -/
def Obligations.HouseSessionsRun : Prop :=
  (∀ s c, s.sessionPeer c = true → s.entropyReady = true → s.rot.house.any (·.peer = c) = false →
    exec (.houseSessionStart c) s = .next (({ s with rot := { s.rot with house := s.rot.house ++
      [({ peer := c, up := false, tries := 0, since := s.now, key := 0 } : HouseSession)] } }).requestSession c)) ∧
  (∀ s c h, s.rot.house.find? (·.peer = c) = some h → h.up = false → 1024 ≤ s.since h.since → h.tries = 0 →
    exec (.houseSessionRetry c) s =
      .next ((s.updHouse c fun h => { h with tries := 1, since := s.now }).requestSession c)) ∧
  (∀ s c h, s.rot.house.find? (·.peer = c) = some h → h.up = false → 1024 ≤ s.since h.since → h.tries = 1 →
    exec (.houseSessionRetry c) s = .next (s.sessionLost c)) ∧
  (∀ s c msg h, s.rot.house.find? (·.peer = c) = some h → h.tries ≤ 1 →
    ∃ t : State, exec (.spdmMessageRx c msg true true) s = .next t ∧
      (t.rot.house.find? (·.peer = c)) = some { h with up := true, tries := 0, key := Config.freeNat s.freeCtr }) ∧
  (∀ s c msg h, s.rot.house.find? (·.peer = c) = some h → h.tries = 1 →
    exec (.spdmMessageRx c msg true false) s = .next (s.sessionLost c)) ∧
  (∀ s c msg good h, s.rot.house.find? (·.peer = c) = some h → h.tries ≤ 1 →
    ∃ (t : State) (m : List Byte), exec (.spdmMessageRx c msg false good) s = .next t ∧ t.rot.house = s.rot.house ∧
      t.rot.sent = s.rot.sent ++ [(c, m)]) ∧
  (∀ s c msg m, m ∈ s.rot.keyMsgs → m.peer = c → m.op = field msg 0 1 → m.quire = field msg 2 2 → m.epoch = field msg 4 2 →
    exec (.keyMessageAnswerRx c msg) s = .next (({ s with rot := { s.rot with keyMsgs := s.rot.keyMsgs.filter fun m =>
      !(m.peer = c && m.op = field msg 0 1 && m.quire = field msg 2 2 && m.epoch = field msg 4 2) } }).keysAnswered
        (field msg 2 2))) ∧
  (∀ s c q m, m ∈ s.rot.keyMsgs → m.peer = c → m.quire = q → 1024 ≤ s.since m.sent →
    exec (.keyMessageTimeout c q) s = .next ((({ s with rot := { s.rot with keyMsgs := s.rot.keyMsgs.filter fun m =>
      !(m.peer = c && m.quire = q && 1024 ≤ s.since m.sent) } }).fault 2 0x0C c).keysAnswered q)) ∧
  (∀ s t x up down cert, s.tasks.find? (fun t => match t.kind with | .attest _ => true | _ => false) = some t →
    t.kind = .attest x →
    let age := t.ident.elim 0 fun i => s.since i.accTick
    (256 ≤ age → exec (.spdmResponse none false up down cert) s = .next (s.failTask t .opTimeout [])) ∧
    (age ≤ 256 → ∀ r, exec (.spdmResponse (some r) true up down cert) s = .next (s.failTask t .attestFail [])) ∧
    (age ≤ 256 → ∀ r, exec (.spdmResponse (some r) false up down cert) s = .next (s.attested t x r up down cert)) ∧
    (256 < age → ∀ r bad, exec (.spdmResponse (some r) bad up down cert) s = .next (s.failTask t .opTimeout [])))

/-! ### The tick -/

/-- The phases of a tick take turns: each row begins its phase after the one before it and leaves the index and what is
visible, the drone phase samples the ports' counters and the fault entries, and a row out of its turn changes nothing (the
model's choice, log entry 3) (R47, R59, R62, R232). -/
def Obligations.PhasesTakeTurns : Prop :=
  (∀ s, s.clk.running = true → s.clk.phase = .intake →
    ∃ t : State, exec .workPhase s = .next t ∧ t.clk.phase = .work ∧ t.vis = s.vis ∧ t.clk.now = s.clk.now) ∧
  (∀ s x, s.clk.running = true → s.clk.phase = .work →
    ∃ t : State, exec (.dronePhase x) s = .next t ∧ t.clk.phase = .drone ∧ t.vis = s.vis ∧ t.clk.now = s.clk.now ∧
      t.sampled.tick = s.clk.now ∧ t.sampled.ports = t.ports.map (·.counters) ∧ t.sampled.faults = t.faults.entries) ∧
  (∀ s, s.clk.running = true → s.clk.phase = .drone →
    ∃ t : State, exec .sealPhase s = .next t ∧ t.clk.phase = .seal ∧ t.vis = s.vis ∧ t.clk.now = s.clk.now) ∧
  (∀ s, s.clk.phase ≠ .intake → exec .workPhase s = .next s) ∧
  (∀ s x, s.clk.phase ≠ .work → exec (.dronePhase x) s = .next s) ∧
  (∀ s, s.clk.phase ≠ .drone → exec .sealPhase s = .next s) ∧
  (∀ s, s.clk.phase ≠ .seal → exec .tickBoundary s = .next s)

/-- A boundary makes the staged state visible, all of it at once, but for the masks of paths and the count of scrubbed bytes,
which the boundary itself renews; the index advances by one, or to the index a join step or jump agreed; and the tick starts
in its intake phase (R50, R57, R63, R193). -/
def Obligations.BoundaryPublishes : Prop :=
  ∀ s, s.clk.running = true → s.clk.phase = .seal → max (s.clk.nextIndex.getD 0) (s.clk.now + 1) < s.reservation →
    ∃ t : State, exec .tickBoundary s = .next t ∧ t.vis.led = s.stg.led ∧ t.vis.still = s.stg.still ∧ t.clk.phase = .intake ∧
      t.clk.now = max (s.clk.nextIndex.getD 0) (s.clk.now + 1)

/-- What is visible changes only at a boundary, and with a reset of the whole director (R57, R63). -/
def Obligations.VisibleChangesAtBoundaries : Prop :=
  ∀ i s t, i ≠ .tickBoundary → isReset i = false → exec i s = .next t → t.vis = s.vis

/-- TICK_NOW never decreases: it moves only at a boundary, and upwards, but for a reset and for the start of the control
complex, where it resumes at the restored reservation (R50, R51, R100). -/
def Obligations.TheIndexNeverDecreases : Prop :=
  (∀ i s t, i ≠ .tickBoundary → isReset i = false → (∀ a b c d, i ≠ .controlStart a b c d) → exec i s = .next t →
    t.clk.now = s.clk.now) ∧
  (∀ s t, exec .tickBoundary s = .next t → s.clk.now ≤ t.clk.now) ∧
  (∀ s t, exec .tickBoundary s = .next t → s.clk.running = true → s.clk.phase = .seal → s.nextNow < s.reservation →
    s.clk.now < t.clk.now)

/-- A command's step that overruns is run again in the next tick, and one that overruns again ends its command with
LASTING_FAULT, with a fault entry and the degraded step mode; a drain hold whose bound has passed ends with DRAIN_TIMEOUT, and
admission resumes (R60, R195, R198, R367). -/
def Obligations.StepsAndDrainsTimeOut : Prop :=
  (∀ s n t, s.task n = some t → t.kind.stepped = true → t.skip = false → s.faults.fatal = none → t.overran = false →
    exec (.stepOverrun n) s = .next (s.updTask n fun t => { t with overran := true, skip := true })) ∧
  (∀ s n t, s.task n = some t → t.kind.stepped = true → t.skip = false → s.faults.fatal = none → t.overran = true →
    ∃ (u : State) (e : FaultEntry), exec (.stepOverrun n) s = .next (u.taskDropped t .lastingFault) ∧
      (s.faults.entries.length < 256 → e ∈ u.faults.entries) ∧ e.cls = 2 ∧ e.fn = 1 ∧ u.faults.slowStep = some (t.opcode, 0)) ∧
  (∀ s q t d, s.tasks = [t] → t.quire = q → t.kind = .drainHold d → d.expired = true →
    exec (.drainTimeout q) s = .next ((s.failTask t .drainTimeout []).resumeAdmission q (s.now + 1)))

/-! ### The library -/

/-- A director that no longer hears its leader elects one; a join step that is due takes the agreed index and the slew; an
announced jump of the index and an announced period take effect at their tick; lost alignment makes the director its own
leader. An FSYNC edge near cycle 0 is accepted where one is due, and else counted as ignored. A claim heard on a library link
waits for its decision; one of the director's own that its neighbour does not answer in time ends its command with OP_TIMEOUT;
and the latest announced part of a spanning quire is kept (R48, R65, R68, R70, R71, R72, R73, R184). -/
def Obligations.AlignmentAndLibraryRowsRun : Prop :=
  (∀ s, s.lib.leader ≠ s.volume → s.sourceFor s.lib.leader = none → exec .leaderTimeout s = .next s.elect) ∧
  (∀ s leader i delta, s.clk.running = true → s.lib.align = 1 → s.lib.leader = leader → s.mergeDue leader = none →
    delta < s.clk.period → max i (s.now + 1) < s.reservation →
    ∃ t : State, exec (.joinStep leader i delta) s = .next t ∧ t.lib.align = 2 ∧ t.clk.nextIndex = some (max i (s.now + 1)) ∧
      t.clk.slew = delta ∧ t.clk.now = s.clk.now ∧ t.lib.lost = false) ∧
  (∀ s n v, s.lib.jump = some (n, v) → s.clk.running = true → s.lib.align ≠ 1 → n ≤ s.now + 1 → v < s.reservation →
    exec .indexJump s = .next { s with lib := { s.lib with jump := none }
                                       clk := { s.clk with nextIndex := some (max v (s.now + 1)) } }) ∧
  (∀ s p n, s.clk.announced = some (p, n) → s.clk.running = true → n ≤ s.clk.nextIndex.getD (s.now + 1) →
    exec .periodSwitch s = .next { s with clk := { s.clk with announced := none, nextPeriod := some p } }) ∧
  (∀ s, s.lib.joined = true → 64 ≤ s.lib.badFor →
    ∃ t : State, exec .alignmentLost s = .next t ∧ t.lib.lost = true ∧ t.lib.leader = s.volume ∧ t.lib.align = 0 ∧
      t.lib.badFor = 0) ∧
  (∀ s m e, s.clk.running = true → s.vis.led.manifest = some m → m.fsync = true → s.lib.align = 0 → -64 ≤ e → e ≤ 64 →
    s.fsyncDue = true → exec (.fsyncEdge e) s = .next { s with
      clk := { s.clk with fsyncAt := some s.clk.tickOut, fsyncAccepted := s.clk.fsyncAccepted + 1 }, lib := { s.lib with error := e } }) ∧
  (∀ s m e, s.clk.running = true → s.vis.led.manifest = some m → m.fsync = true → s.lib.align = 0 → -64 ≤ e → e ≤ 64 →
    s.fsyncDue = false → exec (.fsyncEdge e) s = .next { s with
      clk := { s.clk with fsyncAt := some s.clk.tickOut, fsyncIgnored := s.clk.fsyncIgnored + 1 } }) ∧
  (∀ s m e, s.clk.running = true → s.vis.led.manifest = some m → m.fsync = true → s.lib.align = 0 → e < -64 ∨ 64 < e →
    exec (.fsyncEdge e) s = .next { s with clk := { s.clk with fsyncIgnored := s.clk.fsyncIgnored + 1 } }) ∧
  (∀ s d c, s.libPorts.contains d = true →
    exec (.libraryClaimRx d c) s = .next { s with lib := { s.lib with heard := s.lib.heard ++ [(d, c)] } }) ∧
  (∀ s d c, s.libPorts.contains d = false → exec (.libraryClaimRx d c) s = .next s) ∧
  (∀ s d o t n, s.lib.own = [o] → o.port = some d → o.sent = true → 1 < s.since o.claim.tick → o.task = some n → s.task n = some t →
    exec (.claimTimeout d) s = .next (({ s with lib := { s.lib with own := [] } }).failTask t .opTimeout [])) ∧
  (∀ s d a, s.libPorts.contains d = true → a.volume ≠ s.volume →
    ∃ t : State, exec (.quireAnnouncementRx d a) s = .next t ∧ a ∈ t.stg.vol.parts ∧
      ((s.stg.led.quire a.quire).isSome = true → (t.stg.vol.quire a.quire).announced =
        (s.stg.vol.quire a.quire).announced.filter (·.volume ≠ a.volume) ++ [a]) ∧
      t.stg.led = s.stg.led ∧ t.vis = s.vis)

/-! ### The ledger -/

/-- H is raised before the index comes near it, and an index that reaches it halts the director; a write starts what is next;
a folio is written, then read back, on LEDGER-A and then on LEDGER-B, and what does not match is written once more. A commit
credit is added for each 15.625 ms gone by, up to 448, and none while the journal is held (R51, R91, R92, R93, R95, R99,
R100). -/
def Obligations.JournalRowsRun : Prop :=
  (∀ s, s.clk.running = true → s.faults.fatal = none → s.ledgerFaulted = false → s.reservation ≤ s.indexAhead + 2 ^ 20 →
    s.ledger.anchor.h = s.reservation →
    exec .tickReservationRaise s = .next (s.updLedger fun g =>
      { g with anchor := { g.anchor with h := s.indexAhead + 2 ^ 24 }, anchorDue := true })) ∧
  (∀ s, s.boot.stage ≠ .held → s.clk.running = true → s.clk.phase = .seal → s.reservation ≤ s.now + 1 → s.faults.fatal = none →
    ∃ t : State, exec .reservationExhausted s = .next t ∧ t.faults.fatal.isSome = true ∧ t.clk.now = s.clk.now ∧
      t.stg = s.vis ∧ t.pins.faultN = false) ∧
  (∀ s, s.ledger.writing = none → s.ledgerFaulted = false → s.ledger.restored = true →
    exec .journalWriteStart s = .next s.startNext) ∧
  (∀ s, s.ledger.writing = none → s.ledger.pseal = .held → exec .journalWriteStart s = .next s) ∧
  (∀ s w f rest m, s.ledger.writing = some w → w.folios = f :: rest → w.reading = false →
    exec (.folioWriteDone m) s =
      .next (s.updLedger fun g => { g.putFolio w.dev f with writing := some { w with reading := true } })) ∧
  (∀ s w f rest, s.ledger.writing = some w → w.folios = f :: rest → w.reading = true → w.dev = .a → s.ledger.devB.failed = false →
    exec (.folioWriteDone true) s = .next (s.updLedger fun g =>
      { g with writing := some { w with dev := .b, second := false, reading := false } })) ∧
  (∀ s w f rest, s.ledger.writing = some w → w.folios = f :: rest → w.reading = true → w.dev = .b → s.ledgerFaulted = false →
    exec (.folioWriteDone true) s = .next (s.folioSealed w f rest)) ∧
  (∀ s w f rest, s.ledger.writing = some w → w.folios = f :: rest → w.reading = true → w.second = false →
    ∃ t : State, exec (.folioWriteDone false) s = .next t ∧
      t.ledger.writing = some { w with second := true, reading := false } ∧ t.stg = s.stg ∧ t.vis = s.vis) ∧
  (∀ s, s.ledger.restored = true → s.ledger.held = false →
    exec .creditRefill s = .next (s.updLedger fun g =>
      { g with credits := min 448 (g.credits + (s.clk.cycles - g.refillAt) / creditStep)
               refillAt := g.refillAt + (s.clk.cycles - g.refillAt) / creditStep * creditStep })) ∧
  (∀ s, s.ledger.held = true → exec .creditRefill s = .next s)

/-- The commit credits never exceed 448, whatever command runs (R95). -/
def Obligations.CreditsStayWithinTheirMaximum : Prop :=  ∀ s t, s.ledger.credits ≤ 448 → step s = .next t → t.ledger.credits ≤ 448

/-- A checkpoint is wanted 24 hours after the last began; one that is wanted begins with an image of the ledgered state up to
the journal's tip, and is copied to ARCHIVE-A and then ARCHIVE-B, after which its anchor is due. Firmware bytes are written to
ARCHIVE-A and then to ARCHIVE-B; a reservation written to the archive raises H. The lane sample that is due is taken in the
drone phase (R79, R100, R106, R107, R111, R475). -/
def Obligations.ArchiveRowsRun : Prop :=
  (∀ s, s.ledger.restored = true → 24 * 3600 * (Config.hz : Int) ≤ s.clk.cycles - s.ledger.ckStart.getD 0 →
    exec .checkpointTimer s = .next (s.updLedger fun g => { g with ckWanted := true })) ∧
  (∀ s, s.ledger.ckWanted = true → s.ckptTooSoon = false → s.ledger.ckRun = none → s.journalShut = false →
    s.ledger.arcA.failed = false → s.ledger.writing = none →
    ∃ (t : State) (r : CkptRun), exec .checkpointStart s = .next t ∧ t.ledger.ckRun = some r ∧
      r.image.number = s.ledger.sealedA.ckNum + 1 ∧ r.image.covers = s.ledger.tip ∧ r.dev = .a ∧ t.ledger.ckWanted = false ∧
      t.ledger.ckStart = some s.clk.cycles ∧ t.stg = s.stg) ∧
  (∀ s r, s.ledger.ckRun = some r → r.sealing = false → r.dev = .a → s.ledger.arcB.failed = false →
    ∃ t : State, exec (.checkpointCopyDone .a true) s = .next t ∧
      t.ledger.ckRun = some { r with doneA := true, dev := .b } ∧ (r.image.number % 8, r.image) ∈ t.ledger.arcA.ckpts) ∧
  (∀ s r, s.ledger.ckRun = some r → r.sealing = false → r.dev = .b →
    ∃ t : State, exec (.checkpointCopyDone .b true) s = .next t ∧
      t.ledger.ckRun = some { r with doneB := true, sealing := true } ∧ t.ledger.anchor.ckNum = r.image.number ∧
      t.ledger.anchorDue = true ∧ (r.image.number % 8, r.image) ∈ t.ledger.arcB.ckpts) ∧
  (∀ s n slot off data second a b js, s.ledger.jobs = .chunk n slot off data .a second a b :: js →
    s.ledger.arcB.failed = false →
    ∃ t : State, exec (.archiveWriteDone .a true) s = .next t ∧ t.ledger.jobs = .chunk n slot off data .b false true b :: js ∧
      t.ledger.arcA = s.ledger.arcA.putChunk slot off data) ∧
  (∀ s h a b js, s.ledger.jobs = .reserve h .b a b :: js →
    ∃ t : State, exec (.archiveWriteDone .b true) s = .next t ∧ t.ledger.jobs = js ∧ t.reservation = max h s.reservation) ∧
  (∀ s x, s.ledger.restored = true → s.clk.running = true → s.clk.phase = .drone → s.laneDue = true →
    ∃ t : State, exec (.laneMarginSample x) s = .next t ∧ t.vis = s.vis ∧
      ∀ d, d < s.ports.length → (t.port d).lanes = (List.range 8).map fun i => x.lanes.getD (8 * d + i) laneZero)

/-! ### Resets, bring-up and firmware -/

/-- A reset of the whole director: RST_N for 1 µs, the loss of PWR_GOOD and a reset of the RoT core return the fabric, the
tick and the channels to their reset state; what the fuses, the journal and the archive hold is kept, and a shorter RST_N is
ignored (R82, R449, R478, R597). -/
def Obligations.ResetsRun : Prop :=
  (∀ s ns, ns < 1000 → exec (.rstNAssert ns) s = .next s) ∧
  (∀ s ns, 1000 ≤ ns → ∃ t : State, exec (.rstNAssert ns) s = .next t ∧ t.boot = State.reset.boot ∧ t.vis = State.reset.vis ∧
    t.stg = State.reset.stg ∧ t.clk = State.reset.clk ∧ t.chans = State.reset.chans ∧ t.tasks = [] ∧ t.fuses = s.fuses ∧
    t.ledger.anchor = State.reset.ledger.anchor ∧ t.pending = s.pending ∧ t.pins.rstN = false) ∧
  (∀ s ns, 100 ≤ ns → ∃ t : State, exec (.pwrGoodDeassert ns) s = .next t ∧ t.boot = State.reset.boot ∧
    t.vis = State.reset.vis ∧ t.stg = State.reset.stg ∧ t.clk = State.reset.clk ∧ t.fuses = s.fuses ∧ t.pending = s.pending ∧
    t.pins.pwrGood = false) ∧
  (∀ s ns, ns < 100 → exec (.pwrGoodDeassert ns) s = .next (if s.freeBool.1 then s.freeBool.2.powerReset else s.freeBool.2)) ∧
  (∀ s, s.resetReady = true → ∃ t : State, exec .fwReset s = .next t ∧ t.boot.stage = .rotRom ∧
    t.boot.straps = s.boot.straps ∧ t.vis = State.reset.vis ∧ t.stg = State.reset.stg ∧ t.clk = State.reset.clk ∧
    t.fuses = s.fuses ∧ t.pending = s.pending)

/-- Bring-up goes from stage to stage: its start takes the straps; each row ends its stage when its checks pass, and halts the
director with the error code R467 gives where they fail; the control complex starts with a reservation above its index and the
marker burnt; waves of clusters start in order, 250 µs apart, and each cluster passes its self-test or is tried once more; the
restore ends; the leaves are zero when the scrubber has written them all; the lanes end when all are trained, or after 3 s
(R101, R450, R454, R456, R457, R458, R459, R460, R463, R465, R467, R479). -/
def Obligations.BringUpRuns : Prop :=
  (∀ s st, s.boot.stage = .held → ∃ t : State, exec (.bringUpStart st) s = .next t ∧ t.boot.stage = .rotRom ∧
    t.boot.straps = st ∧ t.pins.rstN = true ∧ t.pins.pwrGood = true) ∧
  (∀ s rom fuses, s.inStage .rotRom = true → ∃ t : State, exec (.rotRomDone rom fuses) s = .next t ∧
    (t.boot.stage, t.boot.error) = (if !rom || !fuses then (.halted, 1)
      else if !colophonOk s.fuses.colophon then (.halted, 2) else (.fwVerify, s.boot.error)) ∧
    (t.faults.fatal.isSome = (!rom || !fuses))) ∧
  (∀ s w, s.inStage .fwVerify = true → s.fw.burning = none → ∃ t : State, exec (.fwVerifyStageDone w) s = .next t ∧
    (t.boot.stage = .controlStart ∨ (t.boot.stage = .halted ∧ t.boot.error = 3))) ∧
  (∀ s ledB arcA arcB, s.inStage .controlStart = true → ∃ t : State, exec (.controlStart .good ledB arcA arcB) s = .next t ∧
    t.boot.stage = .clusterWaves ∧ t.clk.running = true ∧ t.power.clkN = 4 ∧ t.reservation = t.clk.now + 2 ^ 24 ∧
    t.fuses.marker = true) ∧
  (∀ s w, s.inStage .clusterWaves = true → w < 10 → s.reached (usCycles 250 * w) = true →
    (w = 0 ∨ (s.clusters.getD (16 * w - 16) Cluster.init).powered = true) → ∃ t : State, exec (.clusterWaveStart w) s = .next t ∧
    (∀ i, i < s.clusters.length → (t.clusters.getD i Cluster.init) =
      { s.clusters.getD i Cluster.init with powered := decide (i / 16 = w) || (s.clusters.getD i Cluster.init).powered }) ∧
    t = { s with clusters := t.clusters }) ∧
  (∀ s rc, s.inStage .clusterWaves = true → (s.clusters.getD rc Cluster.init).powered = true →
    (s.clusters.getD rc Cluster.init).over = false → ∃ t : State, exec (.clusterSelftestDone rc true) s = .next t ∧
      (t.clusters.getD rc Cluster.init).passed = true ∧ t.boot.waves = t.wavesEnded) ∧
  (∀ s rc, s.inStage .clusterWaves = true → (s.clusters.getD rc Cluster.init).powered = true →
    (s.clusters.getD rc Cluster.init).over = false → (s.clusters.getD rc Cluster.init).tries = 0 →
    ∃ t : State, exec (.clusterSelftestDone rc false) s = .next t ∧ (t.clusters.getD rc Cluster.init).tries = 1 ∧
      t.faults = s.faults) ∧
  (∀ s, s.ledger.restoring = true → s.ledger.held = false → s.power.holdup = false → s.faults.fatal = none →
    s.clk.running = true → ∃ t : State, exec .restoreDone s = .next t ∧ t.ledger.restored = true ∧
      t.ledger.restoring = false ∧ t.vis = s.vis) ∧
  (∀ s tr ids, s.inStage .hbmTrain = true → ∃ t : State, exec (.hbmTrainDone tr ids) s = .next t ∧
    (t.boot.stage, t.boot.error) = (if !(List.range 8).all fun i => tr.getD i false then (.halted, 5)
      else if !(List.range 8).all fun i => ids.getD i [] = slice s.fuses.colophon (32 + 16 * i) 16 then (.halted, 4)
      else (.memTest, s.boot.error))) ∧
  (∀ s fs, s.inStage .memTest = true → ∃ t : State, exec (.memTestDone fs) s = .next t ∧ t.boot.stage = .leafZero ∧
    t.boot.deep = (s.boot.deep || decide (fs ≠ []))) ∧
  (∀ s, s.inStage .leafZero = true → s.ledger.restored = true →
    s.val.quires.any (fun q => (s.stg.led.quire q.id).elim true fun o => o.leaves ≠ q.leaves) = false →
    (s.val.tenantLeaves = true → s.entropyReady = true) →
    ((List.range 380).filter fun x => !s.val.retiredLeaf.contains x).length * 2 ^ 30 ≤ s.stg.vol.scrubbed →
    ∃ t : State, exec .leafZeroDone s = .next t ∧
      t.boot.stage = .laneTrain ∧ t.stg.vol.hbm = [] ∧ t.stg.vol.dirty = [] ∧ t.vis = s.vis) ∧
  (∀ s, s.inStage .laneTrain = true →
    ((∀ d, d < 64 → portEnabled s.stg.led d = true → s.trained d = true) ∨ s.reached (s.boot.laneAt + 3 * Config.hz) = true) →
    exec .laneTrainDone s = .next { s with boot := { s.boot with stage := .discovery, laneEnded := true } })

/-- A fatal fault asserts FAULT_N, is pending in IRQ_STAT at once, and discards the staged state: what is visible stays, and
nothing staged remains (R370, R382, R447, R617). -/
def Obligations.FatalFaultsStopTheBlock : Prop :=
  (∀ s c, s.boot.stage ≠ .held → s.faults.fatal = none →
    ∃ t : State, exec (.fatalFault c) s = .next t ∧ t.faults.fatal.isSome = true ∧ t.pins.faultN = false ∧
      t.irq.stat.getLsbD 8 = true ∧ t.stg = s.vis ∧ t.vis = s.vis ∧ t.clk.now = s.clk.now) ∧
  (∀ s, s.boot.stage ≠ .held → s.faults.fatal = none →
    ∃ t : State, exec .thermalTrip s = .next t ∧ t.faults.fatal = some 0x0E ∧ t.power.thermTrip = true ∧
      t.pins.faultN = false ∧ t.irq.stat.getLsbD 8 = true ∧ t.stg = s.vis ∧ t.vis = s.vis)

/-- An image check judges the slot; a programmed increment is counted, up to 64, and a failed one is not; a trial that its
window's end finds unconfirmed is reverted; the degraded step mode ends after 1,048,576 ticks. Ready entropy starts the DRBG;
a health failure stops it, at the third within 24 hours until reset; a reseed after 65,536 requests or 24 hours begins a new
count of requests (R367, R423, R424, R425, R472, R476, R479, R480, R482). -/
def Obligations.FirmwareAndEntropyRowsRun : Prop :=
  (∀ s t k, s.tasks.find? (fun t => t.sealed && match t.kind with | .verify _ none => true | _ => false) = some t →
    t.kind = .verify k none → s.ledgerFaulted = false →
    ∃ u : State, exec .imageCheckDone s = .next u ∧
      (u.fwState.slot k) = (if k = 0 then s.fwState.slotA else s.fwState.slotB).judged (s.ledger.image k) (s.imageVerdict k)) ∧
  (∀ s e, s.fw.burning = some e → ∃ t : State, exec (.otpBurnDone true) s = .next t ∧
    t.fuses = { s.fuses with otp := min 64 (s.fuses.otp + 1) } ∧
    t.fw.burning = if e ≤ min 64 (s.fuses.otp + 1) then none else some e) ∧
  (∀ s e, s.fw.burning = some e → ∃ t : State, exec (.otpBurnDone false) s = .next t ∧ t.fuses = s.fuses ∧
    t.fw.burning = none) ∧
  (∀ s e, s.fw.windowEnd = some e → e ≤ s.clk.cycles → s.fw.stopped = false → s.ledger.held = false → s.power.holdup = false →
    s.ledgerFaulted = false → s.faults.fatal = none →
    ∃ t : State, exec .confirmWindowExpiry s = .next t ∧ t.fwState = s.fwState.revert s.fw.running ∧ t.fw.reverting = true ∧
      t.fw.windowEnd = none) ∧
  (∀ s op n, s.faults.slowStep = some (op, n) → 1048576 ≤ n →
    ∃ t : State, exec .degradedModeLeft s = .next t ∧ t.faults.slowStep = none ∧ t.vis = s.vis) ∧
  (∀ s ms, s.boot.stage ≠ .held → s.rot.entropy.state = 0 ∨ s.rot.entropy.state = 2 →
    ∃ t : State, exec (.entropyReady ms) s = .next t ∧ t.rot.entropy = { s.rot.entropy with
      state := 1, drbg := true, requests := 0, seededAt := s.clk.cycles,
      readyMs := if s.rot.entropy.readyMs = 0 then max 1 ms else s.rot.entropy.readyMs }) ∧
  (∀ s, s.boot.stage ≠ .held → s.rot.entropy.state = 1 →
    let old := s.rot.entropy.failAt.filter fun c => s.clk.cycles < c + 24 * 3600 * Config.hz
    ∃ t : State, exec .entropyHealthFail s = .next t ∧ t.rot.entropy.drbg = false ∧
      t.rot.entropy.failAt = old ++ [s.clk.cycles] ∧ t.rot.entropy.state = (if 2 ≤ old.length then 3 else 2)) ∧
  (∀ s, s.rot.entropy.drbg = true →
    65536 ≤ s.rot.entropy.requests ∨ s.reached (s.rot.entropy.seededAt + 24 * 3600 * Config.hz) = true →
    exec .drbgReseed s = .next (s.updEntropy fun e => { e with requests := 0, seededAt := s.clk.cycles }))

/-! ### Collectives, rebinds and memory in flight -/

/-- A chunk that its horizon passes is asked for once more and then lost, and a leg that was sent again is then lost; a
multicast whose legs all answered is over; a closed tag is free at the end of its hold; a launch no other volume matches in
time ends with OP_TIMEOUT. A cluster of the quire that finishes a work item of a local operation writes its results, and one
that fails for the first time is to be tried once more (R201, R278, R279, R307, R324, R325, R331). -/
def Obligations.CollectiveTimersRun : Prop :=
  (∀ s q tag o r k c m, (s.stg.vol.liveOps q).find? (·.tag = tag) = some o → s.stg.led.quire q = some r →
    o.missing.find? (fun m => m.contributor = k && m.chunk = c) = some m → o.horizon ≤ m.age → m.retried = true →
    exec (.retryHorizon q tag (.chunk k c)) s = .next (s.lostChunk o k)) ∧
  (∀ s q tag o r k c m, (s.stg.vol.liveOps q).find? (·.tag = tag) = some o → s.stg.led.quire q = some r →
    o.missing.find? (fun m => m.contributor = k && m.chunk = c) = some m → o.horizon ≤ m.age → m.retried = false →
    exec (.retryHorizon q tag (.chunk k c)) s = .next ((s.updOp q tag fun o => { o with
      retries := o.retries + 1
      missing := modWhere o.missing (fun x => x.contributor = k && x.chunk = c) fun x => { x with retried := true, age := 0 } }).sendCtl
        0x0D (o.set.getD k 0) (windowNotice q tag o.cLow o.window false (some c)))) ∧
  (∀ s q tag o r dst c l, (s.stg.vol.liveOps q).find? (·.tag = tag) = some o → s.stg.led.quire q = some r →
    o.legs.find? (fun l => l.dst = dst && l.chunk = c && !l.acked && !l.failed) = some l → o.multicast = false →
    cGath dst ≠ 63 → o.horizon ≤ l.age → l.retried = true →
    exec (.retryHorizon q tag (.leg dst c)) s = .next (s.lostLeg o l)) ∧
  (∀ s q sq c o r, s.casts.find? (fun c => c.quire = q && c.seq = sq) = some c →
    (s.stg.vol.liveOps q).find? (·.tag = c.tag) = some o → s.stg.led.quire q = some r → (∀ x ∈ c.legs, x ∈ c.acked) →
    exec (.multicastHorizon q sq) s = .next { s with casts := s.casts.filter fun x => !(x.quire = q && x.seq = sq) }) ∧
  (∀ s q tag, ∃ t : State, exec (.tagCloseEnd q tag) s = .next t ∧
    (∀ o, o ∈ t.stg.vol.ops ↔ o ∈ s.stg.vol.ops ∧ ¬ (o.quire = q ∧ o.tag = tag ∧ o.state = .ended ∧ o.closing = 0)) ∧
    t = { s with stg := { s.stg with vol := { s.stg.vol with ops := t.stg.vol.ops } } }) ∧
  (∀ s q tag o, s.stg.vol.op q tag = some o → o.state = .awaiting → 2 * o.horizon ≤ s.since o.accTick →
    exec (.launchMatchTimeout q tag) s = .next (s.endOp o .opTimeout)) ∧
  (∀ s q tag item rc o r d, s.stg.vol.op q tag = some o → s.stg.led.quire q = some r → o.desc = some d → s.faults.fatal = none →
    o.state = .live → item ∈ o.items → o.kind = 0 → r.quarantined = false → (s.stg.vol.quire q).inReset = false →
    rc ∈ r.clusters → o.readsBad s.stg.vol r.leaves = false → d.optStats = false →
    exec (.workItemDone q tag item rc .ok) s = .next (s.itemRan o item rc (d.runItem
      (if d.optAct then actCurve s.vis.led s.fw.ver d.curve else none) s.stg.vol.hbm r.leaves item))) ∧
  (∀ s q tag item rc o r d, s.stg.vol.op q tag = some o → s.stg.led.quire q = some r → o.desc = some d → s.faults.fatal = none →
    o.state = .live → item ∈ o.items → o.kind = 0 → r.quarantined = false → (s.stg.vol.quire q).inReset = false →
    rc ∈ r.clusters → o.readsBad s.stg.vol r.leaves = false → item ∉ o.retriedItems →
    exec (.workItemDone q tag item rc .tileStoreError) s = .next (s.updOp q tag fun o =>
      { o with retriedItems := o.retriedItems ++ [item], retries := o.retries + 1 }))

/-- A rebind's copies end with the new leaves zeroed and the copies made, and an uncorrectable error has them made once more;
a bore that is not verified in 1,024 ticks is asked to retrain; endpoints that did not confirm a reset in 2,048 ticks are
faulted and excluded, and the reset goes on; an eviction whose bound has passed zeroises its slot; a table write that stays
unacknowledged is written again (R345, R347, R379, R417, R496). -/
def Obligations.RebindAndResetRowsRun : Prop :=
  (∀ s q t rec_ r, s.tasks.find? (fun t => t.quire = q && match t.kind with | .rebind _ => true | _ => false) = some t →
    s.val.quire q = some rec_ → t.kind = .rebind r → r.step = .running → r.copied = false →
    (s.stg.vol.quire q).rebind.toCopy ≤ (s.stg.vol.quire q).rebind.copied →
    exec (.rebindCopyDone q false) s = .next ((s.updVol fun v => { v with
      hbm := copyAll rec_.leaves (newGrant rec_.leaves r.record.keep r.record.newLeaves) r.plan.copies
        (zeroLeaves v.hbm r.record.newLeaves) }).setRebind t { r with copied := true })) ∧
  (∀ s q t rec_ r, s.tasks.find? (fun t => t.quire = q && match t.kind with | .rebind _ => true | _ => false) = some t →
    s.val.quire q = some rec_ → t.kind = .rebind r → r.step = .running → r.copied = false → r.rerun = false →
    (s.stg.vol.quire q).rebind.toCopy ≤ (s.stg.vol.quire q).rebind.copied →
    exec (.rebindCopyDone q true) s = .next ((s.updQuireVol q fun v =>
      { v with rebind := { v.rebind with copied := 0 } }).setRebind t { r with rerun := true })) ∧
  (∀ s q t r v, s.tasks.find? (fun t => t.quire = q && match t.kind with | .rebind _ => true | _ => false) = some t →
    t.kind = .rebind r → r.step = .verifying → r.verify = [v] → v.again = false → (∃ b, v.since = some b ∧ 1024 ≤ s.since b) →
    exec (.rebindVerifyTimeout q) s = .next (((s.askRetrain v.bore.a 1).askRetrain v.bore.b 1).setRebind t
      { r with verify := [{ v with again := true }] })) ∧
  (∀ s q t r f cs left, s.tasks.find? (fun t => t.quire = q && match t.kind with
        | .reset _ .confirming _ left => decide (2048 ≤ left)
        | .release _ _ .confirming _ left => decide (2048 ≤ left)
        | _ => false) = some t →
    t.kind = .reset f .confirming cs left → s.val.quire q = some r →
    exec (.resetConfirmTimeout q) s = .next (((cs.foldl (fun s c => s.fault 2 0x0C c) s).updQuireVol q fun v =>
      { v with excluded := v.excluded ++ cs.filter fun c => !v.excluded.contains c }).resetConfirmed t r)) ∧
  (∀ s q t n b left, s.tasks = [t] → t.quire = q → t.kind = .evict n b .waiting left → b ≤ left →
    exec (.evictBound q) s = .next (s.evictZero t n b)) ∧
  (∀ s c q t j, s.tasks = [t] → t.writeQuire = q → t.kind.jobs = [j] → j.coord = c →
    exec (.shadowWriteRetry c q) s = .next (s.jobRetry t j))

/-- Leaves that the scrubber has had the time to write are zero and no longer await a scrub; a patrol's corrections change
nothing that is modelled; an uncorrectable error of a leaf no quire holds retires the leaf and keeps its address; a cluster's
tile store is ready once its zeroing has had its time (R263, R367, R412, R415, R416). -/
def Obligations.MemoryRowsRun : Prop :=
  (∀ s ls, s.tasks = [] →
    let now := ls.filter s.stg.vol.dirty.contains
    now.eraseDups.length * 2 ^ 30 ≤ s.stg.vol.scrubbed →
    exec (.scrubDone ls) s = .next (s.updVol fun v => { v with
      hbm := zeroLeaves v.hbm now, dirty := v.dirty.filter fun x => !now.contains x
      scrubbed := v.scrubbed - now.eraseDups.length * 2 ^ 30 })) ∧
  (∀ s n, exec (.patrolScrub n) s = .next s) ∧
  (∀ s leaf a, leaf < 384 → a < 2 ^ 30 → s.ledgerFaulted = false → s.stg.led.quires.find? (·.leaves.contains leaf) = none →
    ∃ t : State, exec (.hbmEccError leaf a) s = .next t ∧ leaf ∈ t.val.retiredLeaf ∧ (leaf * 2 ^ 30 + a) ∈ t.stg.vol.bad ∧
      t.stg.vol.hbm = s.stg.vol.hbm ∧ t.vis = s.vis) ∧
  (∀ s q r i z, s.val.quire q = some r → i ∈ r.clusters → i < s.clusters.length →
    (s.clusters.getD i Cluster.init).zeroing = some z → s.zeroOver z = true →
    ∃ t : State, exec (.tileZeroDone q) s = .next t ∧ (t.clusters.getD i Cluster.init).zeroing = none ∧
      t = { s with clusters := t.clusters })

/-- Director HBM keeps its canonical form, in the visible and in the staged state: whatever command runs, addresses rise and
no zero byte is listed, so that equal contents are equal data (R259, R262, R411, R413). -/
def Obligations.MemoryKeepsItsForm : Prop :=
  ∀ s t, Memory.wf s.vis.vol.hbm = true → Memory.wf s.stg.vol.hbm = true → step s = .next t →
    Memory.wf t.vis.vol.hbm = true ∧ Memory.wf t.stg.vol.hbm = true

/-! ### Power -/

/-- A recognised warning is counted and holds admission, a pulse is only counted, and 100 ms after the warning is released the
hold ends in an intake. An alert waits for a poll, which clears it; a lost unit that answers a probe is served again. The
cluster clock takes one step a tick towards the lower of its two ceilings, up at most once in 16 ticks, and each ceiling rises
one step after 1,024 ticks (R432, R433, R435, R438, R439, R441, R442, R444). -/
def Obligations.PowerRowsRun : Prop :=
  (∀ s, s.power.warn = false → ∃ t : State, exec .pwrWarnRecognised s = .next t ∧ t.power.warn = true ∧
    t.power.warnings = s.power.warnings + 1 ∧ t.power.window = none ∧ t.vis = s.vis ∧
    (s.power.holdup = false → t.power.holdup = true) ∧
    (s.power.holdup = true → t.ledger = s.ledger ∧ t.stg = s.stg ∧ t.tasks = s.tasks)) ∧
  (∀ s, exec .pwrWarnPulseIgnored s = .next { s with power := { s.power with pulses := s.power.pulses + 1 } }) ∧
  (∀ s, s.power.warn = true → ∃ t : State, exec .pwrWarnDeassert s = .next t ∧ t.power.warn = false ∧
    t.power.window = some s.clk.cycles ∧ t = { s with power := t.power }) ∧
  (∀ s c, s.power.window = some c → s.power.holdup = true → s.power.warn = false → c + msCycles 100 ≤ s.clk.cycles →
    s.ledger.pseal = .held → s.clk.phase = .intake →
    ∃ t : State, exec .resumption s = .next t ∧ t.power.holdup = false ∧ t.power.window = none ∧ t.ledger.pseal = .idle ∧
      t.irq.stat.getLsbD 14 = true ∧ t.vis = s.vis) ∧
  (∀ s, exec .pmbAlert s = .next { s with power := { s.power with alert := true } }) ∧
  (∀ s rs, (s.reached s.power.pollAt = true ∨ (s.power.alert = true ∧ s.clk.phase = .drone)) →
    ∃ t : State, exec (.pmbusPoll rs) s = .next t ∧ t.power.alert = false ∧ t.power.probed = true ∧ t.vis = s.vis) ∧
  (∀ s u, exec (.pmbusReprobe u true) s = .next (s.updShelf u fun x =>
    if x.lost && s.reached (x.probeAt + Config.hz) then { x with lost := false, missed := 0 } else x)) ∧
  (∀ s, min s.power.budgetN s.power.thermalN < s.power.clkN → s.power.stepped = false →
    exec .clusterClockStep s = .next { s with power := { s.power with clkN := s.power.clkN - 1, stepped := true } }) ∧
  (∀ s, s.power.clkN < min s.power.budgetN s.power.thermalN → s.power.stepped = false → 16 ≤ s.power.sinceUp →
    s.wavesOver = true →
    exec .clusterClockStep s = .next { s with power := { s.power with clkN := s.power.clkN + 1, stepped := true, sinceUp := 0 } }) ∧
  (∀ s, 1024 ≤ s.power.lowFor → s.power.budgetN < 16 → exec .budgetCeilingRise s =
    .next { s with power := { s.power with budgetN := s.power.budgetN + 1, lowFor := 0 } }) ∧
  (∀ s i, s.power.thermalPt = some i → 1024 ≤ s.power.coolFor → ∃ t : State, exec .thermalCeilingRise s = .next t ∧
    t.power.thermalPt = (if i = 0 then none else some (i - 1)) ∧ t.power.coolFor = 0 ∧ t = { s with power := t.power })

/-- The cluster clock never steps by more than one in a command (R441). -/
def Obligations.ClockStepsByOne : Prop :=
  ∀ s t, exec .clusterClockStep s = .next t → t.power.clkN ≤ s.power.clkN + 1 ∧ s.power.clkN ≤ t.power.clkN + 1 ∧
    (t.power.clkN < s.power.clkN → min s.power.budgetN s.power.thermalN ≤ t.power.clkN) ∧
    (s.power.clkN < t.power.clkN → t.power.clkN ≤ min s.power.budgetN s.power.thermalN)

/-! ### Rings and port senders -/

/-- A waiting fragment enters the first ring of its path by the shorter direction, with lap count 0, where the transit buffer
and the turn queue let it, and else waits, counted, while a ring cycle passes. A packet alone on the rings that reaches its
destination stop ejects where its agent is in service and its queue has room. A single error of a slot is corrected and
counted, a double one retires the slot's packet. A port's sender starts the oldest control packet, else the oldest data packet
of the next eligible quire, in slots of 64 bytes. The packets lost with a codeword are charged to FEC_UNCORR, and two
disagreeing starts to PARSE_LEN (R207, R208, R227, R239, R240, R241, R243, R244). -/
def Obligations.RingAndPortRowsRun : Prop :=
  (∀ s o f l rest, s.offered o = some f → o.id.frag < f.frags → o.id.frag ∉ f.entered →
    s.fuses.ringPath s.freeBool.1 f.src f.dst = l :: rest →
    let p : RingPkt := { id := o.id, quire := f.quire, ring := l.ring, dir := shorterDir l.ring l.src l.dst, src := l.src,
                         dst := l.dst, agent := l.agent, lap := 0, path := rest, final := f.dst }
    (s.mayEnter p.ring p.dir p.src = true → s.rings.turnWaits p = false →
      exec (.ringEntry o) s = .next ((s.freeBool.2.fragEntered f o.id.frag).enterRing p)) ∧
    (s.mayEnter p.ring p.dir p.src = false ∨ s.rings.turnWaits p = true →
      exec (.ringEntry o) s = .next (s.freeBool.2.ringCount p.ring p.dir 8).ringCycle)) ∧
  (∀ s p stop, s.rings.transit = [(p, stop)] → s.rings.ejectQ = [] → nextStop p.ring p.dir stop = p.dst → p.lap < 64 →
    s.agentOut p.agent = false → (if 3 ≤ p.lap then 1 else 3) ≤ ejectDepth p.agent - s.ejectHeld p →
    let t := s.ejectRing p
    let t := t.rings.agentHeads.foldl State.agentTakes t
    exec (.ringEjectArrival p.id.fabric p.id.frag) s = .next { t with rings := { t.rings with entries := [] } }) ∧
  (∀ s ring dir stop id p, ring ≤ 25 →
    exec (.slotEccError ring dir stop id false) s = .next (s.ringCount ring dir 6) ∧
    ((s.rings.transit.find? fun x => x.1.id = id && x.1.ring = ring && x.1.dir = dir && x.2 = stop).map (·.1) = some p →
      exec (.slotEccError ring dir stop id true) s = .next (s.retireRing p ring dir stop 7))) ∧
  (∀ s d c, d < s.ports.length → (s.port d).slots.length < slotsPerTick s.clk.period →
    (s.port d).ctl.find? (s.maySend (s.port d)) = some c → ∃ t : State,
    exec (.portSend d) s = .next t ∧ (t.port d).ctl = (s.port d).ctl.erase c ∧ (t.port d).egress = (s.port d).egress ∧
    (t.port d).slots = (s.port d).slots ++ slotBytes c ∧ t = { s with ports := t.ports }) ∧
  (∀ s d q e, d < s.ports.length → (s.port d).slots.length < slotsPerTick s.clk.period → (s.port d).ctl = [] →
    (s.port d).vis.status = 2 → (s.port d).heldDown = false → s.faults.fatal = none →
    (s.port d).turn.find? (s.eligible d) = some q → (s.port d).egress.find? (·.quire = q) = some e →
    ∃ t : State, exec (.portSend d) s = .next t ∧ (t.port d).lastServed = q ∧ (t.port d).slots = (s.port d).slots ++ slotBytes e.bytes ∧
      t.vis = s.vis ∧ t.stg = s.stg) ∧
  (∀ s d n, exec (.uncorrectableCodeword d n) s =
    .next (((s.count d 4 n).count d 18 1).updPort d fun p => { p with parsing := false })) ∧
  (∀ s d, (s.port d).parsing = true → exec (.firstStartDisagreement d) s = .next (s.count d 9 1))

/-! ### How packets are taken -/

/-- A packet read from its ring or datagram is the packet that was written: opcode, header fields and parameters, for every
command that arrives as a packet, whatever bytes follow it (R117, R121, R124). -/
def Obligations.PacketsReadAsWritten : Prop :=
  ∀ (i : Instr) (op : Nat) (p : Pkt) (n : Nat) (tail : List Byte), i.packet = some (op, p) → i.wf = true →
    p.params.length = p.declLen → 16 + p.declLen ≤ n →
    parsePkt p.transport p.ring n p.srcIp p.srcPort p.srcMac (p.encode op ++ tail) = (op, p)

/-- The checks of R140 in their order, when a packet's turn to be read has come: a packet that fails one of the first five is
answered with that check's status and is not taken in; a packet sent again is answered with the reply it has, if any; after a
fatal fault only the commands always served are taken; and one that fails a check of the opcode table is taken in and answered
so (R131, R139, R140). -/
def Obligations.ChecksRefuseInOrder : Prop :=
  ∀ (i : Instr) (op : Nat) (p : Pkt) (s : State), i.packet = some (op, p) → s.readsNow op p = true →
    let a := s.turn p
    let len := p.params.length ≠ p.declLen ∨ 4080 < p.declLen
    let crc := crc32c (p.header op ++ p.params) ≠ p.crc
    let hdr := p.version ≠ 1 ∨ (p.transport = .mailbox ∧ p.flags.toNat % 8 ≠ p.ring)
    let bad := len ∨ crc ∨ hdr ∨ chanAccepts a op p = false
    (len → exec i s = .next (a.answer op p .badLength)) ∧
    (¬ len → crc → exec i s = .next (a.answer op p .badCrc)) ∧
    (¬ len → ¬ crc → hdr → exec i s = .next (a.answer op p .badParam)) ∧
    (¬ len → ¬ crc → ¬ hdr → chanAccepts a op p = false → exec i s = .next (a.answer op p .notPermitted)) ∧
    (¬ bad → seqCheck a op p = .stale → exec i s = .next (a.answer op p .badSequence)) ∧
    (∀ e r, ¬ bad → seqCheck a op p = .resend e → e.last = some r → exec i s = .next (a.queueSeal { r with
      cached := true, transport := p.transport, ip := p.srcIp, port := p.srcPort, mac := p.srcMac })) ∧
    (∀ e, ¬ bad → seqCheck a op p = .resend e → e.last = none → exec i s = .next a) ∧
    (¬ bad → seqCheck a op p = .fresh → a.faults.fatal.isSome = true → alwaysServed op = false →
      exec i s = .next (a.answer op p .lastingFault)) ∧
    (∀ st, ¬ bad → seqCheck a op p = .fresh → (a.faults.fatal = none ∨ alwaysServed op = true) →
      tableCheck a op p.chan p = some st → exec i s = .next (answered (s.takenOf op p) ((s.accepted op p).notOpened op p) st []))

/-- A packet whose turn to be read has not come waits: in its ring, whose CMD_TAIL the host has moved past it, or with its
datagram's channel, while the director takes packets at all; a datagram whose frame would pass 9,216 bytes is only counted
(R54, R122, R126, R139). -/
def Obligations.PacketsWaitForIntake : Prop :=
  ∀ (i : Instr) (op : Nat) (p : Pkt) (s : State), i.packet = some (op, p) → s.readsNow op p = false →
    (p.transport = .mailbox → exec i s = .next (s.inserted op p)) ∧
    (p.transport = .eth0 → s.takesPackets = true → p.params.length ≤ 9154 → ∃ t : State, exec i s = .next t ∧
      (∀ c, c ≠ p.chan → t.chan c = s.chan c) ∧
      (p.chan < s.chans.length → t.chan p.chan = { s.chan p.chan with waiting := (s.chan p.chan).waiting ++ [(op, p)] }) ∧
      t = { s with chans := t.chans, eth0 := t.eth0 }) ∧
    (p.transport = .eth0 → s.takesPackets = true → 9154 < p.params.length → ∃ t : State, exec i s = .next t ∧
      t = { s with eth0 := t.eth0 }) ∧
    (p.transport = .eth0 → s.takesPackets = false → exec i s = .next s)

/-- Taking a command in touches its channel and nothing else: it counts as taken, and, but for a chan.open, its sequence
becomes the baseline of its channel (R130, R131, R140). -/
def Obligations.AcceptanceTouchesTheChannel : Prop :=
  ∀ (s : State) (op : Nat) (p : Pkt), s.takesIn op p = true →
    s.accepted op p = { s with chans := (s.accepted op p).chans } ∧
    (∀ c, c ≠ p.chan → (s.accepted op p).chan c = s.chan c) ∧
    (p.chan < s.chans.length → ((s.accepted op p).chan p.chan).taken = (s.chan p.chan).taken + 1) ∧
    (p.chan < s.chans.length → (op ≠ 0x0D01 ∨ p.chan = 0) → ((s.accepted op p).chan p.chan).baseline = some p.seq)
end

