-- ==== Sys2Proof/Laws/Kept.lean ====
section
/-! SUPPORT. What commands and their operations keep: the queue, the fuses, the visible state, the tick and its phase, and the commit
credits. One lemma for each operation that changes none of these, in the order in which the operations use one another. -/
namespace Sys2Proof.Machine
set_option linter.all false
set_option Elab.async false

/-- What only a few commands change: the queue, the fuses, the visible state, the tick and its phase, the commit credits. -/
def State.core (s : State) : List Instr × Fuses × Fabric × Tick × Phase × Nat :=
  (s.pending, s.fuses, s.vis, s.clk.now, s.clk.phase, s.ledger.credits)
theorem core_fold {α : Type} {f : State → α → State} (h : ∀ s x, (f s x).core = s.core) (l : List α) (s : State) :
    (l.foldl f s).core = s.core := by
  induction l generalizing s with
  | nil => rfl
  | cons a l ih => simp [ih, h]
theorem core_foldF {α β : Type} {f : State × β → α → State × β} (h : ∀ s x, (f s x).1.core = s.1.core) (l : List α) (s) :
    (l.foldl f s).1.core = s.1.core := by
  induction l generalizing s with
  | nil => rfl
  | cons a l ih => simp [ih, h]
theorem core_foldS {α β : Type} {f : β × State → α → β × State} (h : ∀ s x, (f s x).2.core = s.2.core) (l : List α) (s) :
    (l.foldl f s).2.core = s.2.core := by
  induction l generalizing s with
  | nil => rfl
  | cons a l ih => simp [ih, h]
theorem core_foldWith {α : Type} {f : State → α → State} {l : List α} {s : State} (h : ∀ s x, (f s x).core = s.core) {u : State} (hu : s.core = u.core) :
    (l.foldl f s).core = u.core := (core_fold h l s).trans hu
theorem core_ite (c : Prop) [Decidable c] (a b : State) : (if c then a else b).core = if c then a.core else b.core := by split <;> rfl
theorem updArc_credits (g : Ledger) (d : Dev) (f : ADev → ADev) : (g.updArc d f).credits = g.credits := by cases d <;> rfl
theorem putFolio_credits (g : Ledger) (d : Dev) (f : Folio) : (g.putFolio d f).credits = g.credits := by cases d <;> rfl
theorem sealRaw_credits (g : Ledger) (a : Anchor) (n : Tick) (w : AnchorWrite) : (g.sealRaw a n w).credits = g.credits := by unfold Ledger.sealRaw; rfl
theorem readAnchor_credits (g : Ledger) : (g.readAnchor).credits = g.credits := by unfold Ledger.readAnchor; split <;> (try split) <;> rfl
theorem sealFolio_credits (g : Ledger) (f : Folio) : (g.sealFolio f).credits = g.credits := by unfold Ledger.sealFolio; rfl
theorem histWant_credits (g : Ledger) : g.histWant.credits = g.credits := rfl
theorem core_mk (a0 a1 a2 a3 a4 a5 a6 a7 a8 a9 a10 a11 a12 a13 a14 a15 a16 a17 a18 a19 a20 a21 a22 a23 a24 a25 a26 a27 a28 a29 a30 a31 a32 a33) : (State.mk a0 a1 a2 a3 a4 a5 a6 a7 a8 a9 a10 a11 a12 a13 a14 a15 a16 a17 a18 a19 a20 a21 a22 a23 a24 a25 a26 a27 a28 a29 a30 a31 a32 a33).core = (a0, a2, a6, a4.now, a4.phase, a8.credits) := id rfl
theorem core_eta (t : State) : (t.pending, t.fuses, t.vis, t.clk.now, t.clk.phase, t.ledger.credits) = t.core := id rfl

theorem keep_rules :
    (∀ a0 a1 a2 a3 a4 a5 a6 a7 a8 a9 a10 a11 a12 a13 a14 a15 a16 a17 a18 a19 a20 a21 a22 a23 a24 a25 a26 a27 a28 a29 a30 a31 a32 a33,
      (State.mk a0 a1 a2 a3 a4 a5 a6 a7 a8 a9 a10 a11 a12 a13 a14 a15 a16 a17 a18 a19 a20 a21 a22 a23 a24 a25 a26 a27 a28 a29 a30 a31 a32 a33).core = (a0, a2, a6, a4.now, a4.phase, a8.credits)) ∧
    (∀ t : State, (t.pending, t.fuses, t.vis, t.clk.now, t.clk.phase, t.ledger.credits) = t.core) ∧
    (∀ (s : State) f, s.updLedger f = { s with ledger := f s.ledger }) ∧
    (∀ (g : Ledger) d f, (g.updArc d f).credits = g.credits) ∧ (∀ (g : Ledger) d f, (g.putFolio d f).credits = g.credits) ∧
    (∀ (g : Ledger) a n w, (g.sealRaw a n w).credits = g.credits) ∧ (∀ g : Ledger, g.readAnchor.credits = g.credits) ∧
    (∀ (g : Ledger) f, (g.sealFolio f).credits = g.credits) ∧ (∀ g : Ledger, g.histWant.credits = g.credits) ∧
    (∀ (c : Prop) [Decidable c] (a b : State), (if c then a else b).core = if c then a.core else b.core) :=
  ⟨core_mk, core_eta, fun _ _ => rfl, updArc_credits, putFolio_credits, sealRaw_credits, readAnchor_credits, sealFolio_credits,
    histWant_credits, core_ite⟩
namespace Kept
theorem State_updChan_kept (x0) (x1) (x2) : (@State.updChan x0 x1 x2).core = x0.core := by
  unfold State.updChan
  (repeat' first | with_reducible rfl | (intros; simp only [keep_rules, ite_self, implies_true, core_fold, core_foldF, core_foldS]) | split | (rename _ = (_, _) => hh; obtain ⟨rfl, rfl⟩ := Prod.ext_iff.mp hh) | refine core_foldWith (fun s x => ?_) ?_ | refine Eq.trans (core_foldF (fun s x => ?_) _ _) ?_ | refine Eq.trans (core_foldS (fun s x => ?_) _ _) ?_)
theorem State_updPort_kept (x0) (x1) (x2) : (@State.updPort x0 x1 x2).core = x0.core := by
  unfold State.updPort
  (repeat' first | with_reducible rfl | (intros; simp only [keep_rules, ite_self, implies_true, core_fold, core_foldF, core_foldS]) | split | (rename _ = (_, _) => hh; obtain ⟨rfl, rfl⟩ := Prod.ext_iff.mp hh) | refine core_foldWith (fun s x => ?_) ?_ | refine Eq.trans (core_foldF (fun s x => ?_) _ _) ?_ | refine Eq.trans (core_foldS (fun s x => ?_) _ _) ?_)
theorem State_updLed_kept (x0) (x1) : (@State.updLed x0 x1).core = x0.core := by
  unfold State.updLed
  (repeat' first | with_reducible rfl | (intros; simp only [keep_rules, ite_self, implies_true, core_fold, core_foldF, core_foldS]) | split | (rename _ = (_, _) => hh; obtain ⟨rfl, rfl⟩ := Prod.ext_iff.mp hh) | refine core_foldWith (fun s x => ?_) ?_ | refine Eq.trans (core_foldF (fun s x => ?_) _ _) ?_ | refine Eq.trans (core_foldS (fun s x => ?_) _ _) ?_)
theorem State_updVol_kept (x0) (x1) : (@State.updVol x0 x1).core = x0.core := by
  unfold State.updVol
  (repeat' first | with_reducible rfl | (intros; simp only [keep_rules, ite_self, implies_true, core_fold, core_foldF, core_foldS]) | split | (rename _ = (_, _) => hh; obtain ⟨rfl, rfl⟩ := Prod.ext_iff.mp hh) | refine core_foldWith (fun s x => ?_) ?_ | refine Eq.trans (core_foldF (fun s x => ?_) _ _) ?_ | refine Eq.trans (core_foldS (fun s x => ?_) _ _) ?_)
theorem State_freeNat_kept (x0) : (@State.freeNat x0).2.core = x0.core := by
  unfold State.freeNat
  (repeat' first | with_reducible rfl | (intros; simp only [keep_rules, ite_self, implies_true, core_fold, core_foldF, core_foldS]) | split | (rename _ = (_, _) => hh; obtain ⟨rfl, rfl⟩ := Prod.ext_iff.mp hh) | refine core_foldWith (fun s x => ?_) ?_ | refine Eq.trans (core_foldF (fun s x => ?_) _ _) ?_ | refine Eq.trans (core_foldS (fun s x => ?_) _ _) ?_)
theorem State_freeBool_kept (x0) : (@State.freeBool x0).2.core = x0.core := by
  unfold State.freeBool
  (repeat' first | with_reducible rfl | (intros; simp only [keep_rules, ite_self, implies_true, core_fold, core_foldF, core_foldS]) | split | (rename _ = (_, _) => hh; obtain ⟨rfl, rfl⟩ := Prod.ext_iff.mp hh) | refine core_foldWith (fun s x => ?_) ?_ | refine Eq.trans (core_foldF (fun s x => ?_) _ _) ?_ | refine Eq.trans (core_foldS (fun s x => ?_) _ _) ?_)
theorem State_freeBytes_kept (x0) (x1) : (@State.freeBytes x0 x1).2.core = x0.core := by
  unfold State.freeBytes
  (repeat' first | with_reducible rfl | (intros; simp only [keep_rules, ite_self, implies_true, core_fold, core_foldF, core_foldS]) | split | (rename _ = (_, _) => hh; obtain ⟨rfl, rfl⟩ := Prod.ext_iff.mp hh) | refine core_foldWith (fun s x => ?_) ?_ | refine Eq.trans (core_foldF (fun s x => ?_) _ _) ?_ | refine Eq.trans (core_foldS (fun s x => ?_) _ _) ?_)
theorem State_updQuireVol_kept (x0) (x1) (x2) : (@State.updQuireVol x0 x1 x2).core = x0.core := by
  unfold State.updQuireVol
  (repeat' first | with_reducible rfl | (intros; simp only [State_updVol_kept, keep_rules, ite_self, implies_true, core_fold, core_foldF, core_foldS]) | split | (rename _ = (_, _) => hh; obtain ⟨rfl, rfl⟩ := Prod.ext_iff.mp hh) | refine core_foldWith (fun s x => ?_) ?_ | refine Eq.trans (core_foldF (fun s x => ?_) _ _) ?_ | refine Eq.trans (core_foldS (fun s x => ?_) _ _) ?_)
theorem State_raiseNow_kept (x0) (x1) : (@State.raiseNow x0 x1).core = x0.core := by
  unfold State.raiseNow
  (repeat' first | with_reducible rfl | (intros; simp only [keep_rules, ite_self, implies_true, core_fold, core_foldF, core_foldS]) | split | (rename _ = (_, _) => hh; obtain ⟨rfl, rfl⟩ := Prod.ext_iff.mp hh) | refine core_foldWith (fun s x => ?_) ?_ | refine Eq.trans (core_foldF (fun s x => ?_) _ _) ?_ | refine Eq.trans (core_foldS (fun s x => ?_) _ _) ?_)
theorem State_raiseNext_kept (x0) (x1) : (@State.raiseNext x0 x1).core = x0.core := by
  unfold State.raiseNext
  (repeat' first | with_reducible rfl | (intros; simp only [keep_rules, ite_self, implies_true, core_fold, core_foldF, core_foldS]) | split | (rename _ = (_, _) => hh; obtain ⟨rfl, rfl⟩ := Prod.ext_iff.mp hh) | refine core_foldWith (fun s x => ?_) ?_ | refine Eq.trans (core_foldF (fun s x => ?_) _ _) ?_ | refine Eq.trans (core_foldS (fun s x => ?_) _ _) ?_)
theorem State_stage_kept (x0) (x1) : (@State.stage x0 x1).core = x0.core := by
  unfold State.stage
  (repeat' first | with_reducible rfl | (intros; simp only [keep_rules, ite_self, implies_true, core_fold, core_foldF, core_foldS]) | split | (rename _ = (_, _) => hh; obtain ⟨rfl, rfl⟩ := Prod.ext_iff.mp hh) | refine core_foldWith (fun s x => ?_) ?_ | refine Eq.trans (core_foldF (fun s x => ?_) _ _) ?_ | refine Eq.trans (core_foldS (fun s x => ?_) _ _) ?_)
theorem State_stageOwn_kept (x0) (x1) : (@State.stageOwn x0 x1).core = x0.core := by
  unfold State.stageOwn
  (repeat' first | with_reducible rfl | (intros; simp only [State_updLed_kept, State_stage_kept, keep_rules, ite_self, implies_true, core_fold, core_foldF, core_foldS]) | split | (rename _ = (_, _) => hh; obtain ⟨rfl, rfl⟩ := Prod.ext_iff.mp hh) | refine core_foldWith (fun s x => ?_) ?_ | refine Eq.trans (core_foldF (fun s x => ?_) _ _) ?_ | refine Eq.trans (core_foldS (fun s x => ?_) _ _) ?_)
theorem State_stageHist_kept (x0) (x1) (x2) : (@State.stageHist x0 x1 x2).core = x0.core := by
  unfold State.stageHist
  (repeat' first | with_reducible rfl | (intros; simp only [State_stage_kept, keep_rules, ite_self, implies_true, core_fold, core_foldF, core_foldS]) | split | (rename _ = (_, _) => hh; obtain ⟨rfl, rfl⟩ := Prod.ext_iff.mp hh) | refine core_foldWith (fun s x => ?_) ?_ | refine Eq.trans (core_foldF (fun s x => ?_) _ _) ?_ | refine Eq.trans (core_foldS (fun s x => ?_) _ _) ?_)
theorem State_addFault_kept (x0) (x1) : (@State.addFault x0 x1).core = x0.core := by
  unfold State.addFault
  (repeat' first | with_reducible rfl | (intros; simp only [State_stageHist_kept, State_raiseNext_kept, keep_rules, ite_self, implies_true, core_fold, core_foldF, core_foldS]) | split | (rename _ = (_, _) => hh; obtain ⟨rfl, rfl⟩ := Prod.ext_iff.mp hh) | refine core_foldWith (fun s x => ?_) ?_ | refine Eq.trans (core_foldF (fun s x => ?_) _ _) ?_ | refine Eq.trans (core_foldS (fun s x => ?_) _ _) ?_)
theorem State_fault_kept (x0) (x1) (x2) (x3) : (@State.fault x0 x1 x2 x3).core = x0.core := by
  unfold State.fault
  (repeat' first | with_reducible rfl | (intros; simp only [State_addFault_kept, keep_rules, ite_self, implies_true, core_fold, core_foldF, core_foldS]) | split | (rename _ = (_, _) => hh; obtain ⟨rfl, rfl⟩ := Prod.ext_iff.mp hh) | refine core_foldWith (fun s x => ?_) ?_ | refine Eq.trans (core_foldF (fun s x => ?_) _ _) ?_ | refine Eq.trans (core_foldS (fun s x => ?_) _ _) ?_)
theorem State_setDegraded_kept (x0) (x1) (x2) : (@State.setDegraded x0 x1 x2).core = x0.core := by
  unfold State.setDegraded
  (repeat' first | with_reducible rfl | (intros; simp only [keep_rules, ite_self, implies_true, core_fold, core_foldF, core_foldS]) | split | (rename _ = (_, _) => hh; obtain ⟨rfl, rfl⟩ := Prod.ext_iff.mp hh) | refine core_foldWith (fun s x => ?_) ?_ | refine Eq.trans (core_foldF (fun s x => ?_) _ _) ?_ | refine Eq.trans (core_foldS (fun s x => ?_) _ _) ?_)
theorem State_lasting_kept (x0) (x1) (x2) : (@State.lasting x0 x1 x2).core = x0.core := by
  unfold State.lasting
  (repeat' first | with_reducible rfl | (intros; simp only [State_fault_kept, State_setDegraded_kept, keep_rules, ite_self, implies_true, core_fold, core_foldF, core_foldS]) | split | (rename _ = (_, _) => hh; obtain ⟨rfl, rfl⟩ := Prod.ext_iff.mp hh) | refine core_foldWith (fun s x => ?_) ?_ | refine Eq.trans (core_foldF (fun s x => ?_) _ _) ?_ | refine Eq.trans (core_foldS (fun s x => ?_) _ _) ?_)
theorem State_post_kept (x0) (x1) : (@State.post x0 x1).core = x0.core := by
  unfold State.post
  (repeat' first | with_reducible rfl | (intros; simp only [State_updChan_kept, State_raiseNow_kept, keep_rules, ite_self, implies_true, core_fold, core_foldF, core_foldS]) | split | (rename _ = (_, _) => hh; obtain ⟨rfl, rfl⟩ := Prod.ext_iff.mp hh) | refine core_foldWith (fun s x => ?_) ?_ | refine Eq.trans (core_foldF (fun s x => ?_) _ _) ?_ | refine Eq.trans (core_foldS (fun s x => ?_) _ _) ?_)
theorem State_postAll_kept (x0) (x1) : (@State.postAll x0 x1).1.core = x0.core := by
  induction x1 generalizing x0 with
  | nil => exact id rfl
  | cons a l ih =>
    unfold State.postAll
    split
    · exact (ih _).trans (State_post_kept _ _)
    · with_reducible rfl
theorem State_flushDue_kept (x0) (x1) : (@State.flushDue x0 x1).core = x0.core := by
  unfold State.flushDue
  (repeat' first | with_reducible rfl | (intros; simp only [State_updChan_kept, State_postAll_kept, keep_rules, ite_self, implies_true, core_fold, core_foldF, core_foldS]) | split | (rename _ = (_, _) => hh; obtain ⟨rfl, rfl⟩ := Prod.ext_iff.mp hh) | refine core_foldWith (fun s x => ?_) ?_ | refine Eq.trans (core_foldF (fun s x => ?_) _ _) ?_ | refine Eq.trans (core_foldS (fun s x => ?_) _ _) ?_)
theorem State_flushSeal_kept (x0) (x1) : (@State.flushSeal x0 x1).core = x0.core := by
  unfold State.flushSeal
  (repeat' first | with_reducible rfl | (intros; simp only [State_updChan_kept, State_flushDue_kept, keep_rules, ite_self, implies_true, core_fold, core_foldF, core_foldS]) | split | (rename _ = (_, _) => hh; obtain ⟨rfl, rfl⟩ := Prod.ext_iff.mp hh) | refine core_foldWith (fun s x => ?_) ?_ | refine Eq.trans (core_foldF (fun s x => ?_) _ _) ?_ | refine Eq.trans (core_foldS (fun s x => ?_) _ _) ?_)
theorem State_postDue_kept (x0) (x1) : (@State.postDue x0 x1).core = x0.core := by
  unfold State.postDue
  (repeat' first | with_reducible rfl | (intros; simp only [State_updChan_kept, State_flushDue_kept, keep_rules, ite_self, implies_true, core_fold, core_foldF, core_foldS]) | split | (rename _ = (_, _) => hh; obtain ⟨rfl, rfl⟩ := Prod.ext_iff.mp hh) | refine core_foldWith (fun s x => ?_) ?_ | refine Eq.trans (core_foldF (fun s x => ?_) _ _) ?_ | refine Eq.trans (core_foldS (fun s x => ?_) _ _) ?_)
theorem State_queueSeal_kept (x0) (x1) : (@State.queueSeal x0 x1).core = x0.core := by
  unfold State.queueSeal
  (repeat' first | with_reducible rfl | (intros; simp only [State_updChan_kept, State_flushSeal_kept, keep_rules, ite_self, implies_true, core_fold, core_foldF, core_foldS]) | split | (rename _ = (_, _) => hh; obtain ⟨rfl, rfl⟩ := Prod.ext_iff.mp hh) | refine core_foldWith (fun s x => ?_) ?_ | refine Eq.trans (core_foldF (fun s x => ?_) _ _) ?_ | refine Eq.trans (core_foldS (fun s x => ?_) _ _) ?_)
theorem State_queueIntake_kept (x0) (x1) : (@State.queueIntake x0 x1).core = x0.core := by
  unfold State.queueIntake
  (repeat' first | with_reducible rfl | (intros; simp only [State_updChan_kept, keep_rules, ite_self, implies_true, core_fold, core_foldF, core_foldS]) | split | (rename _ = (_, _) => hh; obtain ⟨rfl, rfl⟩ := Prod.ext_iff.mp hh) | refine core_foldWith (fun s x => ?_) ?_ | refine Eq.trans (core_foldF (fun s x => ?_) _ _) ?_ | refine Eq.trans (core_foldS (fun s x => ?_) _ _) ?_)
theorem refuse_kept (x0) (x1) : (@refuse x0 x1).1.core = x0.core := by
  unfold refuse
  (repeat' first | with_reducible rfl | (intros; simp only [keep_rules, ite_self, implies_true, core_fold, core_foldF, core_foldS]) | split | (rename _ = (_, _) => hh; obtain ⟨rfl, rfl⟩ := Prod.ext_iff.mp hh) | refine core_foldWith (fun s x => ?_) ?_ | refine Eq.trans (core_foldF (fun s x => ?_) _ _) ?_ | refine Eq.trans (core_foldS (fun s x => ?_) _ _) ?_)
theorem volatileOk_kept (x0) (x1) (x2) : (@volatileOk x0 x1 x2).1.core = x1.core := by
  unfold volatileOk
  (repeat' first | with_reducible rfl | (intros; simp only [State_queueIntake_kept, keep_rules, ite_self, implies_true, core_fold, core_foldF, core_foldS]) | split | (rename _ = (_, _) => hh; obtain ⟨rfl, rfl⟩ := Prod.ext_iff.mp hh) | refine core_foldWith (fun s x => ?_) ?_ | refine Eq.trans (core_foldF (fun s x => ?_) _ _) ?_ | refine Eq.trans (core_foldS (fun s x => ?_) _ _) ?_)
theorem State_failCmd_kept (x0) (x1) (x2) (x3) (x4) : (@State.failCmd x0 x1 x2 x3 x4).core = x0.core := by
  unfold State.failCmd
  (repeat' first | with_reducible rfl | (intros; simp only [State_queueSeal_kept, keep_rules, ite_self, implies_true, core_fold, core_foldF, core_foldS]) | split | (rename _ = (_, _) => hh; obtain ⟨rfl, rfl⟩ := Prod.ext_iff.mp hh) | refine core_foldWith (fun s x => ?_) ?_ | refine Eq.trans (core_foldF (fun s x => ?_) _ _) ?_ | refine Eq.trans (core_foldS (fun s x => ?_) _ _) ?_)
theorem State_completeCmd_kept (x0) (x1) (x2) (x3) (x4) : (@State.completeCmd x0 x1 x2 x3 x4).core = x0.core := by
  unfold State.completeCmd
  (repeat' first | with_reducible rfl | (intros; simp only [State_queueIntake_kept, keep_rules, ite_self, implies_true, core_fold, core_foldF, core_foldS]) | split | (rename _ = (_, _) => hh; obtain ⟨rfl, rfl⟩ := Prod.ext_iff.mp hh) | refine core_foldWith (fun s x => ?_) ?_ | refine Eq.trans (core_foldF (fun s x => ?_) _ _) ?_ | refine Eq.trans (core_foldS (fun s x => ?_) _ _) ?_)
theorem durable_kept (x0) (x1) (x2) (x3) (x4) : (@durable x0 x1 x2 x3 x4).1.core = x1.core := by
  unfold durable
  (repeat' first | with_reducible rfl | (intros; simp only [refuse_kept, State_stage_kept, keep_rules, ite_self, implies_true, core_fold, core_foldF, core_foldS]) | split | (rename _ = (_, _) => hh; obtain ⟨rfl, rfl⟩ := Prod.ext_iff.mp hh) | refine core_foldWith (fun s x => ?_) ?_ | refine Eq.trans (core_foldF (fun s x => ?_) _ _) ?_ | refine Eq.trans (core_foldS (fun s x => ?_) _ _) ?_)
theorem State_startTask_kept (x0) (x1) (x2) (x3) : (@State.startTask x0 x1 x2 x3).core = x0.core := by
  unfold State.startTask
  (repeat' first | with_reducible rfl | (intros; simp only [keep_rules, ite_self, implies_true, core_fold, core_foldF, core_foldS]) | split | (rename _ = (_, _) => hh; obtain ⟨rfl, rfl⟩ := Prod.ext_iff.mp hh) | refine core_foldWith (fun s x => ?_) ?_ | refine Eq.trans (core_foldF (fun s x => ?_) _ _) ?_ | refine Eq.trans (core_foldS (fun s x => ?_) _ _) ?_)
theorem multi_kept (x0) (x1) (x2) : (@multi x0 x1 x2).1.core = x1.core := by
  unfold multi
  (repeat' first | with_reducible rfl | (intros; simp only [State_startTask_kept, keep_rules, ite_self, implies_true, core_fold, core_foldF, core_foldS]) | split | (rename _ = (_, _) => hh; obtain ⟨rfl, rfl⟩ := Prod.ext_iff.mp hh) | refine core_foldWith (fun s x => ?_) ?_ | refine Eq.trans (core_foldF (fun s x => ?_) _ _) ?_ | refine Eq.trans (core_foldS (fun s x => ?_) _ _) ?_)
theorem State_updTask_kept (x0) (x1) (x2) : (@State.updTask x0 x1 x2).core = x0.core := by
  unfold State.updTask
  (repeat' first | with_reducible rfl | (intros; simp only [keep_rules, ite_self, implies_true, core_fold, core_foldF, core_foldS]) | split | (rename _ = (_, _) => hh; obtain ⟨rfl, rfl⟩ := Prod.ext_iff.mp hh) | refine core_foldWith (fun s x => ?_) ?_ | refine Eq.trans (core_foldF (fun s x => ?_) _ _) ?_ | refine Eq.trans (core_foldS (fun s x => ?_) _ _) ?_)
theorem State_dropTask_kept (x0) (x1) : (@State.dropTask x0 x1).core = x0.core := by
  unfold State.dropTask
  (repeat' first | with_reducible rfl | (intros; simp only [keep_rules, ite_self, implies_true, core_fold, core_foldF, core_foldS]) | split | (rename _ = (_, _) => hh; obtain ⟨rfl, rfl⟩ := Prod.ext_iff.mp hh) | refine core_foldWith (fun s x => ?_) ?_ | refine Eq.trans (core_foldF (fun s x => ?_) _ _) ?_ | refine Eq.trans (core_foldS (fun s x => ?_) _ _) ?_)
theorem State_failTask_kept (x0) (x1) (x2) (x3) : (@State.failTask x0 x1 x2 x3).core = x0.core := by
  unfold State.failTask
  (repeat' first | with_reducible rfl | (intros; simp only [State_dropTask_kept, State_failCmd_kept, keep_rules, ite_self, implies_true, core_fold, core_foldF, core_foldS]) | split | (rename _ = (_, _) => hh; obtain ⟨rfl, rfl⟩ := Prod.ext_iff.mp hh) | refine core_foldWith (fun s x => ?_) ?_ | refine Eq.trans (core_foldF (fun s x => ?_) _ _) ?_ | refine Eq.trans (core_foldS (fun s x => ?_) _ _) ?_)
theorem State_endTask_kept (x0) (x1) (x2) (x3) : (@State.endTask x0 x1 x2 x3).core = x0.core := by
  unfold State.endTask
  (repeat' first | with_reducible rfl | (intros; simp only [State_dropTask_kept, State_completeCmd_kept, keep_rules, ite_self, implies_true, core_fold, core_foldF, core_foldS]) | split | (rename _ = (_, _) => hh; obtain ⟨rfl, rfl⟩ := Prod.ext_iff.mp hh) | refine core_foldWith (fun s x => ?_) ?_ | refine Eq.trans (core_foldF (fun s x => ?_) _ _) ?_ | refine Eq.trans (core_foldS (fun s x => ?_) _ _) ?_)
theorem State_sealTask_kept (x0) (x1) (x2) (x3) : (@State.sealTask x0 x1 x2 x3).core = x0.core := by
  unfold State.sealTask
  (repeat' first | with_reducible rfl | (intros; simp only [State_failTask_kept, keep_rules, ite_self, implies_true, core_fold, core_foldF, core_foldS]) | split | (rename _ = (_, _) => hh; obtain ⟨rfl, rfl⟩ := Prod.ext_iff.mp hh) | refine core_foldWith (fun s x => ?_) ?_ | refine Eq.trans (core_foldF (fun s x => ?_) _ _) ?_ | refine Eq.trans (core_foldS (fun s x => ?_) _ _) ?_)
theorem State_stageTask_kept (x0) (x1) (x2) (x3) (x4) : (@State.stageTask x0 x1 x2 x3 x4).core = x0.core := by
  unfold State.stageTask
  (repeat' first | with_reducible rfl | (intros; simp only [State_updTask_kept, State_stage_kept, keep_rules, ite_self, implies_true, core_fold, core_foldF, core_foldS]) | split | (rename _ = (_, _) => hh; obtain ⟨rfl, rfl⟩ := Prod.ext_iff.mp hh) | refine core_foldWith (fun s x => ?_) ?_ | refine Eq.trans (core_foldF (fun s x => ?_) _ _) ?_ | refine Eq.trans (core_foldS (fun s x => ?_) _ _) ?_)
theorem State_latchRegs_kept (x0) : (@State.latchRegs x0).core = x0.core := by
  unfold State.latchRegs
  (repeat' first | with_reducible rfl | (intros; simp only [keep_rules, ite_self, implies_true, core_fold, core_foldF, core_foldS]) | split | (rename _ = (_, _) => hh; obtain ⟨rfl, rfl⟩ := Prod.ext_iff.mp hh) | refine core_foldWith (fun s x => ?_) ?_ | refine Eq.trans (core_foldF (fun s x => ?_) _ _) ?_ | refine Eq.trans (core_foldS (fun s x => ?_) _ _) ?_)
theorem State_earlyRegs_kept (x0) : (@State.earlyRegs x0).core = x0.core := by
  unfold State.earlyRegs
  (repeat' first | with_reducible rfl | (intros; simp only [keep_rules, ite_self, implies_true, core_fold, core_foldF, core_foldS]) | split | (rename _ = (_, _) => hh; obtain ⟨rfl, rfl⟩ := Prod.ext_iff.mp hh) | refine core_foldWith (fun s x => ?_) ?_ | refine Eq.trans (core_foldF (fun s x => ?_) _ _) ?_ | refine Eq.trans (core_foldS (fun s x => ?_) _ _) ?_)
theorem State_fatalRegs_kept (x0) (x1) : (@State.fatalRegs x0 x1).core = x0.core := by
  unfold State.fatalRegs
  (repeat' first | with_reducible rfl | (intros; simp only [keep_rules, ite_self, implies_true, core_fold, core_foldF, core_foldS]) | split | (rename _ = (_, _) => hh; obtain ⟨rfl, rfl⟩ := Prod.ext_iff.mp hh) | refine core_foldWith (fun s x => ?_) ?_ | refine Eq.trans (core_foldF (fun s x => ?_) _ _) ?_ | refine Eq.trans (core_foldS (fun s x => ?_) _ _) ?_)
theorem State_drew_kept (x0) : (@State.drew x0).core = x0.core := by
  unfold State.drew
  (repeat' first | with_reducible rfl | (intros; simp only [keep_rules, ite_self, implies_true, core_fold, core_foldF, core_foldS]) | split | (rename _ = (_, _) => hh; obtain ⟨rfl, rfl⟩ := Prod.ext_iff.mp hh) | refine core_foldWith (fun s x => ?_) ?_ | refine Eq.trans (core_foldF (fun s x => ?_) _ _) ?_ | refine Eq.trans (core_foldS (fun s x => ?_) _ _) ?_)
theorem State_answer_kept (x0) (x1) (x2) (x3) : (@State.answer x0 x1 x2 x3).core = x0.core := by
  unfold State.answer
  (repeat' first | with_reducible rfl | (intros; simp only [State_updChan_kept, State_queueSeal_kept, keep_rules, ite_self, implies_true, core_fold, core_foldF, core_foldS]) | split | (rename _ = (_, _) => hh; obtain ⟨rfl, rfl⟩ := Prod.ext_iff.mp hh) | refine core_foldWith (fun s x => ?_) ?_ | refine Eq.trans (core_foldF (fun s x => ?_) _ _) ?_ | refine Eq.trans (core_foldS (fun s x => ?_) _ _) ?_)
theorem State_take_kept (x0) (x1) (x2) (x3) : (@State.take x0 x1 x2 x3).core = x0.core := by
  unfold State.take
  (repeat' first | with_reducible rfl | (intros; simp only [State_updChan_kept, keep_rules, ite_self, implies_true, core_fold, core_foldF, core_foldS]) | split | (rename _ = (_, _) => hh; obtain ⟨rfl, rfl⟩ := Prod.ext_iff.mp hh) | refine core_foldWith (fun s x => ?_) ?_ | refine Eq.trans (core_foldF (fun s x => ?_) _ _) ?_ | refine Eq.trans (core_foldS (fun s x => ?_) _ _) ?_)
theorem State_notOpened_kept (x0) (x1) (x2) : (@State.notOpened x0 x1 x2).core = x0.core := by
  unfold State.notOpened
  (repeat' first | with_reducible rfl | (intros; simp only [State_updChan_kept, keep_rules, ite_self, implies_true, core_fold, core_foldF, core_foldS]) | split | (rename _ = (_, _) => hh; obtain ⟨rfl, rfl⟩ := Prod.ext_iff.mp hh) | refine core_foldWith (fun s x => ?_) ?_ | refine Eq.trans (core_foldF (fun s x => ?_) _ _) ?_ | refine Eq.trans (core_foldS (fun s x => ?_) _ _) ?_)
theorem State_read_kept (x0) (x1) (x2 : Handler) (x3) (hh : ∀ c s, (x2 c s).1.core = s.core) : (@State.read x0 x1 x2 x3).core = x0.core := by
  have hc : ∀ (c : Taken) (r : State × Verdict), (conclude c r).core = r.1.core := by
    intro c r
    unfold conclude
    split <;> exact State_queueSeal_kept _ _
  unfold State.read
  (repeat' first | with_reducible rfl | split | (simp only [hc, hh, State_queueSeal_kept, State_notOpened_kept, State_take_kept, State_answer_kept, State_updChan_kept]))
theorem State_checkRing_kept (x0) (x1) : (@State.checkRing x0 x1).core = x0.core := by
  unfold State.checkRing
  (repeat' first | with_reducible rfl | (intros; simp only [State_raiseNext_kept, State_updChan_kept, keep_rules, ite_self, implies_true, core_fold, core_foldF, core_foldS]) | split | (rename _ = (_, _) => hh; obtain ⟨rfl, rfl⟩ := Prod.ext_iff.mp hh) | refine core_foldWith (fun s x => ?_) ?_ | refine Eq.trans (core_foldF (fun s x => ?_) _ _) ?_ | refine Eq.trans (core_foldS (fun s x => ?_) _ _) ?_)
theorem State_hostWrite_kept (x0) (x1) (x2) (x3) : (@State.hostWrite x0 x1 x2 x3).core = x0.core := by
  unfold State.hostWrite
  (repeat' first | with_reducible rfl | (intros; simp only [State_updChan_kept, State_checkRing_kept, keep_rules, ite_self, implies_true, core_fold, core_foldF, core_foldS]) | split | (rename _ = (_, _) => hh; obtain ⟨rfl, rfl⟩ := Prod.ext_iff.mp hh) | refine core_foldWith (fun s x => ?_) ?_ | refine Eq.trans (core_foldF (fun s x => ?_) _ _) ?_ | refine Eq.trans (core_foldS (fun s x => ?_) _ _) ?_)
theorem State_inserted_kept (x0) (x1) (x2) : (@State.inserted x0 x1 x2).core = x0.core := by
  unfold State.inserted
  (repeat' first | with_reducible rfl | (intros; simp only [State_hostWrite_kept, keep_rules, ite_self, implies_true, core_fold, core_foldF, core_foldS]) | split | (rename _ = (_, _) => hh; obtain ⟨rfl, rfl⟩ := Prod.ext_iff.mp hh) | refine core_foldWith (fun s x => ?_) ?_ | refine Eq.trans (core_foldF (fun s x => ?_) _ _) ?_ | refine Eq.trans (core_foldS (fun s x => ?_) _ _) ?_)
theorem State_datagram_kept (x0) (x1) (x2) : (@State.datagram x0 x1 x2).core = x0.core := by
  unfold State.datagram
  (repeat' first | with_reducible rfl | (intros; simp only [State_updChan_kept, keep_rules, ite_self, implies_true, core_fold, core_foldF, core_foldS]) | split | (rename _ = (_, _) => hh; obtain ⟨rfl, rfl⟩ := Prod.ext_iff.mp hh) | refine core_foldWith (fun s x => ?_) ?_ | refine Eq.trans (core_foldF (fun s x => ?_) _ _) ?_ | refine Eq.trans (core_foldS (fun s x => ?_) _ _) ?_)
theorem State_delivered_kept (x0) (x1) (x2) : (@State.delivered x0 x1 x2).core = x0.core := by
  unfold State.delivered
  (repeat' first | with_reducible rfl | (intros; simp only [State_inserted_kept, State_datagram_kept, keep_rules, ite_self, implies_true, core_fold, core_foldF, core_foldS]) | split | (rename _ = (_, _) => hh; obtain ⟨rfl, rfl⟩ := Prod.ext_iff.mp hh) | refine core_foldWith (fun s x => ?_) ?_ | refine Eq.trans (core_foldF (fun s x => ?_) _ _) ?_ | refine Eq.trans (core_foldS (fun s x => ?_) _ _) ?_)
theorem State_turn_kept (x0) (x1) : (@State.turn x0 x1).core = x0.core := by
  unfold State.turn
  (repeat' first | with_reducible rfl | (intros; simp only [State_updChan_kept, keep_rules, ite_self, implies_true, core_fold, core_foldF, core_foldS]) | split | (rename _ = (_, _) => hh; obtain ⟨rfl, rfl⟩ := Prod.ext_iff.mp hh) | refine core_foldWith (fun s x => ?_) ?_ | refine Eq.trans (core_foldF (fun s x => ?_) _ _) ?_ | refine Eq.trans (core_foldS (fun s x => ?_) _ _) ?_)
theorem State_present_kept (x0) (x1) (x2 : Handler) (x3) (hh : ∀ c s, (x2 c s).1.core = s.core) : (@State.present x0 x1 x2 x3).core = x0.core := by
  unfold State.present
  split
  · exact (State_read_kept _ _ _ _ hh).trans (State_turn_kept _ _)
  · exact State_delivered_kept _ _ _
theorem hChanOpen_kept (x0) (x1) : (@hChanOpen x0 x1).1.core = x1.core := by
  unfold hChanOpen
  (repeat' first | with_reducible rfl | (intros; simp only [volatileOk_kept, State_updChan_kept, keep_rules, ite_self, implies_true, core_fold, core_foldF, core_foldS]) | split | (rename _ = (_, _) => hh; obtain ⟨rfl, rfl⟩ := Prod.ext_iff.mp hh) | refine core_foldWith (fun s x => ?_) ?_ | refine Eq.trans (core_foldF (fun s x => ?_) _ _) ?_ | refine Eq.trans (core_foldS (fun s x => ?_) _ _) ?_)
theorem execChanOpen_kept (x0) (x1) : ∃ t, (@execChanOpen x0 x1) = .next t ∧ t.core = x1.core := by unfold execChanOpen; exact ⟨_, rfl, by (repeat' first | with_reducible rfl | (intros; simp only [State_present_kept, hChanOpen_kept, keep_rules, ite_self, implies_true, core_fold, core_foldF, core_foldS]) | split | (rename _ = (_, _) => hh; obtain ⟨rfl, rfl⟩ := Prod.ext_iff.mp hh) | refine core_foldWith (fun s x => ?_) ?_ | refine Eq.trans (core_foldF (fun s x => ?_) _ _) ?_ | refine Eq.trans (core_foldS (fun s x => ?_) _ _) ?_)⟩
theorem hChanClose_kept (x0) (x1) : (@hChanClose x0 x1).1.core = x1.core := by
  unfold hChanClose
  (repeat' first | with_reducible rfl | (intros; simp only [refuse_kept, volatileOk_kept, State_updChan_kept, keep_rules, ite_self, implies_true, core_fold, core_foldF, core_foldS]) | split | (rename _ = (_, _) => hh; obtain ⟨rfl, rfl⟩ := Prod.ext_iff.mp hh) | refine core_foldWith (fun s x => ?_) ?_ | refine Eq.trans (core_foldF (fun s x => ?_) _ _) ?_ | refine Eq.trans (core_foldS (fun s x => ?_) _ _) ?_)
theorem execChanClose_kept (x0) (x1) : ∃ t, (@execChanClose x0 x1) = .next t ∧ t.core = x1.core := by unfold execChanClose; exact ⟨_, rfl, by (repeat' first | with_reducible rfl | (intros; simp only [State_present_kept, hChanClose_kept, keep_rules, ite_self, implies_true, core_fold, core_foldF, core_foldS]) | split | (rename _ = (_, _) => hh; obtain ⟨rfl, rfl⟩ := Prod.ext_iff.mp hh) | refine core_foldWith (fun s x => ?_) ?_ | refine Eq.trans (core_foldF (fun s x => ?_) _ _) ?_ | refine Eq.trans (core_foldS (fun s x => ?_) _ _) ?_)⟩
theorem State_closeChan_kept (x0) (x1) : (@State.closeChan x0 x1).core = x0.core := by
  unfold State.closeChan
  (repeat' first | with_reducible rfl | (intros; simp only [State_updChan_kept, keep_rules, ite_self, implies_true, core_fold, core_foldF, core_foldS]) | split | (rename _ = (_, _) => hh; obtain ⟨rfl, rfl⟩ := Prod.ext_iff.mp hh) | refine core_foldWith (fun s x => ?_) ?_ | refine Eq.trans (core_foldF (fun s x => ?_) _ _) ?_ | refine Eq.trans (core_foldS (fun s x => ?_) _ _) ?_)
theorem hChanNop_kept (x0) (x1) : (@hChanNop x0 x1).1.core = x1.core := by
  unfold hChanNop
  (repeat' first | with_reducible rfl | (intros; simp only [keep_rules, ite_self, implies_true, core_fold, core_foldF, core_foldS]) | split | (rename _ = (_, _) => hh; obtain ⟨rfl, rfl⟩ := Prod.ext_iff.mp hh) | refine core_foldWith (fun s x => ?_) ?_ | refine Eq.trans (core_foldF (fun s x => ?_) _ _) ?_ | refine Eq.trans (core_foldS (fun s x => ?_) _ _) ?_)
theorem execChanNop_kept (x0) (x1) : ∃ t, (@execChanNop x0 x1) = .next t ∧ t.core = x1.core := by unfold execChanNop; exact ⟨_, rfl, by (repeat' first | with_reducible rfl | (intros; simp only [State_present_kept, hChanNop_kept, keep_rules, ite_self, implies_true, core_fold, core_foldF, core_foldS]) | split | (rename _ = (_, _) => hh; obtain ⟨rfl, rfl⟩ := Prod.ext_iff.mp hh) | refine core_foldWith (fun s x => ?_) ?_ | refine Eq.trans (core_foldF (fun s x => ?_) _ _) ?_ | refine Eq.trans (core_foldS (fun s x => ?_) _ _) ?_)⟩
theorem hChanFence_kept (x0) (x1) : (@hChanFence x0 x1).1.core = x1.core := by
  unfold hChanFence
  (repeat' first | with_reducible rfl | (intros; simp only [refuse_kept, multi_kept, State_updChan_kept, keep_rules, ite_self, implies_true, core_fold, core_foldF, core_foldS]) | split | (rename _ = (_, _) => hh; obtain ⟨rfl, rfl⟩ := Prod.ext_iff.mp hh) | refine core_foldWith (fun s x => ?_) ?_ | refine Eq.trans (core_foldF (fun s x => ?_) _ _) ?_ | refine Eq.trans (core_foldS (fun s x => ?_) _ _) ?_)
theorem execChanFence_kept (x0) (x1) : ∃ t, (@execChanFence x0 x1) = .next t ∧ t.core = x1.core := by unfold execChanFence; exact ⟨_, rfl, by (repeat' first | with_reducible rfl | (intros; simp only [State_present_kept, hChanFence_kept, keep_rules, ite_self, implies_true, core_fold, core_foldF, core_foldS]) | split | (rename _ = (_, _) => hh; obtain ⟨rfl, rfl⟩ := Prod.ext_iff.mp hh) | refine core_foldWith (fun s x => ?_) ?_ | refine Eq.trans (core_foldF (fun s x => ?_) _ _) ?_ | refine Eq.trans (core_foldS (fun s x => ?_) _ _) ?_)⟩
theorem State_endFences_kept (x0) : (@State.endFences x0).core = x0.core := by
  unfold State.endFences
  (repeat' first | with_reducible rfl | (intros; simp only [State_endTask_kept, State_updChan_kept, keep_rules, ite_self, implies_true, core_fold, core_foldF, core_foldS]) | split | (rename _ = (_, _) => hh; obtain ⟨rfl, rfl⟩ := Prod.ext_iff.mp hh) | refine core_foldWith (fun s x => ?_) ?_ | refine Eq.trans (core_foldF (fun s x => ?_) _ _) ?_ | refine Eq.trans (core_foldS (fun s x => ?_) _ _) ?_)
theorem hIdentColophon_kept (x0) (x1) : (@hIdentColophon x0 x1).1.core = x1.core := by
  unfold hIdentColophon
  (repeat' first | with_reducible rfl | (intros; simp only [keep_rules, ite_self, implies_true, core_fold, core_foldF, core_foldS]) | split | (rename _ = (_, _) => hh; obtain ⟨rfl, rfl⟩ := Prod.ext_iff.mp hh) | refine core_foldWith (fun s x => ?_) ?_ | refine Eq.trans (core_foldF (fun s x => ?_) _ _) ?_ | refine Eq.trans (core_foldS (fun s x => ?_) _ _) ?_)
theorem execIdentColophon_kept (x0) (x1) : ∃ t, (@execIdentColophon x0 x1) = .next t ∧ t.core = x1.core := by unfold execIdentColophon; exact ⟨_, rfl, by (repeat' first | with_reducible rfl | (intros; simp only [State_present_kept, hIdentColophon_kept, keep_rules, ite_self, implies_true, core_fold, core_foldF, core_foldS]) | split | (rename _ = (_, _) => hh; obtain ⟨rfl, rfl⟩ := Prod.ext_iff.mp hh) | refine core_foldWith (fun s x => ?_) ?_ | refine Eq.trans (core_foldF (fun s x => ?_) _ _) ?_ | refine Eq.trans (core_foldS (fun s x => ?_) _ _) ?_)⟩
theorem hIdentCaps_kept (x0) (x1) : (@hIdentCaps x0 x1).1.core = x1.core := by
  unfold hIdentCaps
  (repeat' first | with_reducible rfl | (intros; simp only [keep_rules, ite_self, implies_true, core_fold, core_foldF, core_foldS]) | split | (rename _ = (_, _) => hh; obtain ⟨rfl, rfl⟩ := Prod.ext_iff.mp hh) | refine core_foldWith (fun s x => ?_) ?_ | refine Eq.trans (core_foldF (fun s x => ?_) _ _) ?_ | refine Eq.trans (core_foldS (fun s x => ?_) _ _) ?_)
theorem execIdentCaps_kept (x0) (x1) : ∃ t, (@execIdentCaps x0 x1) = .next t ∧ t.core = x1.core := by unfold execIdentCaps; exact ⟨_, rfl, by (repeat' first | with_reducible rfl | (intros; simp only [State_present_kept, hIdentCaps_kept, keep_rules, ite_self, implies_true, core_fold, core_foldF, core_foldS]) | split | (rename _ = (_, _) => hh; obtain ⟨rfl, rfl⟩ := Prod.ext_iff.mp hh) | refine core_foldWith (fun s x => ?_) ?_ | refine Eq.trans (core_foldF (fun s x => ?_) _ _) ?_ | refine Eq.trans (core_foldS (fun s x => ?_) _ _) ?_)⟩
theorem hIdentAttest_kept (x0) (x1) : (@hIdentAttest x0 x1).1.core = x1.core := by
  unfold hIdentAttest
  (repeat' first | with_reducible rfl | (intros; simp only [multi_kept, keep_rules, ite_self, implies_true, core_fold, core_foldF, core_foldS]) | split | (rename _ = (_, _) => hh; obtain ⟨rfl, rfl⟩ := Prod.ext_iff.mp hh) | refine core_foldWith (fun s x => ?_) ?_ | refine Eq.trans (core_foldF (fun s x => ?_) _ _) ?_ | refine Eq.trans (core_foldS (fun s x => ?_) _ _) ?_)
theorem execIdentAttest_kept (x0) (x1) : ∃ t, (@execIdentAttest x0 x1) = .next t ∧ t.core = x1.core := by unfold execIdentAttest; exact ⟨_, rfl, by (repeat' first | with_reducible rfl | (intros; simp only [State_present_kept, hIdentAttest_kept, keep_rules, ite_self, implies_true, core_fold, core_foldF, core_foldS]) | split | (rename _ = (_, _) => hh; obtain ⟨rfl, rfl⟩ := Prod.ext_iff.mp hh) | refine core_foldWith (fun s x => ?_) ?_ | refine Eq.trans (core_foldF (fun s x => ?_) _ _) ?_ | refine Eq.trans (core_foldS (fun s x => ?_) _ _) ?_)⟩
theorem hPosAssign_kept (x0) (x1) : (@hPosAssign x0 x1).1.core = x1.core := by
  unfold hPosAssign
  (repeat' first | with_reducible rfl | (intros; simp only [refuse_kept, volatileOk_kept, durable_kept, keep_rules, ite_self, implies_true, core_fold, core_foldF, core_foldS]) | split | (rename _ = (_, _) => hh; obtain ⟨rfl, rfl⟩ := Prod.ext_iff.mp hh) | refine core_foldWith (fun s x => ?_) ?_ | refine Eq.trans (core_foldF (fun s x => ?_) _ _) ?_ | refine Eq.trans (core_foldS (fun s x => ?_) _ _) ?_)
theorem execPosAssign_kept (x0) (x1) : ∃ t, (@execPosAssign x0 x1) = .next t ∧ t.core = x1.core := by unfold execPosAssign; exact ⟨_, rfl, by (repeat' first | with_reducible rfl | (intros; simp only [State_present_kept, hPosAssign_kept, keep_rules, ite_self, implies_true, core_fold, core_foldF, core_foldS]) | split | (rename _ = (_, _) => hh; obtain ⟨rfl, rfl⟩ := Prod.ext_iff.mp hh) | refine core_foldWith (fun s x => ?_) ?_ | refine Eq.trans (core_foldF (fun s x => ?_) _ _) ?_ | refine Eq.trans (core_foldS (fun s x => ?_) _ _) ?_)⟩
theorem hPosLock_kept (x0) (x1) : (@hPosLock x0 x1).1.core = x1.core := by
  unfold hPosLock
  (repeat' first | with_reducible rfl | (intros; simp only [refuse_kept, durable_kept, keep_rules, ite_self, implies_true, core_fold, core_foldF, core_foldS]) | split | (rename _ = (_, _) => hh; obtain ⟨rfl, rfl⟩ := Prod.ext_iff.mp hh) | refine core_foldWith (fun s x => ?_) ?_ | refine Eq.trans (core_foldF (fun s x => ?_) _ _) ?_ | refine Eq.trans (core_foldS (fun s x => ?_) _ _) ?_)
theorem execPosLock_kept (x0) (x1) : ∃ t, (@execPosLock x0 x1) = .next t ∧ t.core = x1.core := by unfold execPosLock; exact ⟨_, rfl, by (repeat' first | with_reducible rfl | (intros; simp only [State_present_kept, hPosLock_kept, keep_rules, ite_self, implies_true, core_fold, core_foldF, core_foldS]) | split | (rename _ = (_, _) => hh; obtain ⟨rfl, rfl⟩ := Prod.ext_iff.mp hh) | refine core_foldWith (fun s x => ?_) ?_ | refine Eq.trans (core_foldF (fun s x => ?_) _ _) ?_ | refine Eq.trans (core_foldS (fun s x => ?_) _ _) ?_)⟩
theorem hDiscManifest_kept (x0) (x1) : (@hDiscManifest x0 x1).1.core = x1.core := by
  unfold hDiscManifest
  (repeat' first | with_reducible rfl | (intros; simp only [refuse_kept, volatileOk_kept, durable_kept, keep_rules, ite_self, implies_true, core_fold, core_foldF, core_foldS]) | split | (rename _ = (_, _) => hh; obtain ⟨rfl, rfl⟩ := Prod.ext_iff.mp hh) | refine core_foldWith (fun s x => ?_) ?_ | refine Eq.trans (core_foldF (fun s x => ?_) _ _) ?_ | refine Eq.trans (core_foldS (fun s x => ?_) _ _) ?_)
theorem execDiscManifest_kept (x0) (x1) : ∃ t, (@execDiscManifest x0 x1) = .next t ∧ t.core = x1.core := by unfold execDiscManifest; exact ⟨_, rfl, by (repeat' first | with_reducible rfl | (intros; simp only [State_present_kept, hDiscManifest_kept, keep_rules, ite_self, implies_true, core_fold, core_foldF, core_foldS]) | split | (rename _ = (_, _) => hh; obtain ⟨rfl, rfl⟩ := Prod.ext_iff.mp hh) | refine core_foldWith (fun s x => ?_) ?_ | refine Eq.trans (core_foldF (fun s x => ?_) _ _) ?_ | refine Eq.trans (core_foldS (fun s x => ?_) _ _) ?_)⟩
theorem hDiscMap_kept (x0) (x1) : (@hDiscMap x0 x1).1.core = x1.core := by
  unfold hDiscMap
  (repeat' first | with_reducible rfl | (intros; simp only [refuse_kept, keep_rules, ite_self, implies_true, core_fold, core_foldF, core_foldS]) | split | (rename _ = (_, _) => hh; obtain ⟨rfl, rfl⟩ := Prod.ext_iff.mp hh) | refine core_foldWith (fun s x => ?_) ?_ | refine Eq.trans (core_foldF (fun s x => ?_) _ _) ?_ | refine Eq.trans (core_foldS (fun s x => ?_) _ _) ?_)
theorem execDiscMap_kept (x0) (x1) : ∃ t, (@execDiscMap x0 x1) = .next t ∧ t.core = x1.core := by unfold execDiscMap; exact ⟨_, rfl, by (repeat' first | with_reducible rfl | (intros; simp only [State_present_kept, hDiscMap_kept, keep_rules, ite_self, implies_true, core_fold, core_foldF, core_foldS]) | split | (rename _ = (_, _) => hh; obtain ⟨rfl, rfl⟩ := Prod.ext_iff.mp hh) | refine core_foldWith (fun s x => ?_) ?_ | refine Eq.trans (core_foldF (fun s x => ?_) _ _) ?_ | refine Eq.trans (core_foldS (fun s x => ?_) _ _) ?_)⟩
theorem hTableLoad_kept (x0) (x1) : (@hTableLoad x0 x1).1.core = x1.core := by
  unfold hTableLoad
  (repeat' first | with_reducible rfl | (intros; simp only [refuse_kept, volatileOk_kept, durable_kept, keep_rules, ite_self, implies_true, core_fold, core_foldF, core_foldS]) | split | (rename _ = (_, _) => hh; obtain ⟨rfl, rfl⟩ := Prod.ext_iff.mp hh) | refine core_foldWith (fun s x => ?_) ?_ | refine Eq.trans (core_foldF (fun s x => ?_) _ _) ?_ | refine Eq.trans (core_foldS (fun s x => ?_) _ _) ?_)
theorem execTableLoad_kept (x0) (x1) : ∃ t, (@execTableLoad x0 x1) = .next t ∧ t.core = x1.core := by unfold execTableLoad; exact ⟨_, rfl, by (repeat' first | with_reducible rfl | (intros; simp only [State_present_kept, hTableLoad_kept, keep_rules, ite_self, implies_true, core_fold, core_foldF, core_foldS]) | split | (rename _ = (_, _) => hh; obtain ⟨rfl, rfl⟩ := Prod.ext_iff.mp hh) | refine core_foldWith (fun s x => ?_) ?_ | refine Eq.trans (core_foldF (fun s x => ?_) _ _) ?_ | refine Eq.trans (core_foldS (fun s x => ?_) _ _) ?_)⟩
theorem hTableRead_kept (x0) (x1) : (@hTableRead x0 x1).1.core = x1.core := by
  unfold hTableRead
  (repeat' first | with_reducible rfl | (intros; simp only [refuse_kept, keep_rules, ite_self, implies_true, core_fold, core_foldF, core_foldS]) | split | (rename _ = (_, _) => hh; obtain ⟨rfl, rfl⟩ := Prod.ext_iff.mp hh) | refine core_foldWith (fun s x => ?_) ?_ | refine Eq.trans (core_foldF (fun s x => ?_) _ _) ?_ | refine Eq.trans (core_foldS (fun s x => ?_) _ _) ?_)
theorem execTableRead_kept (x0) (x1) : ∃ t, (@execTableRead x0 x1) = .next t ∧ t.core = x1.core := by unfold execTableRead; exact ⟨_, rfl, by (repeat' first | with_reducible rfl | (intros; simp only [State_present_kept, hTableRead_kept, keep_rules, ite_self, implies_true, core_fold, core_foldF, core_foldS]) | split | (rename _ = (_, _) => hh; obtain ⟨rfl, rfl⟩ := Prod.ext_iff.mp hh) | refine core_foldWith (fun s x => ?_) ?_ | refine Eq.trans (core_foldF (fun s x => ?_) _ _) ?_ | refine Eq.trans (core_foldS (fun s x => ?_) _ _) ?_)⟩
theorem hTableActivate_kept (x0) (x1) : (@hTableActivate x0 x1).1.core = x1.core := by
  unfold hTableActivate
  (repeat' first | with_reducible rfl | (intros; simp only [refuse_kept, State_startTask_kept, State_stageTask_kept, multi_kept, keep_rules, ite_self, implies_true, core_fold, core_foldF, core_foldS]) | split | (rename _ = (_, _) => hh; obtain ⟨rfl, rfl⟩ := Prod.ext_iff.mp hh) | refine core_foldWith (fun s x => ?_) ?_ | refine Eq.trans (core_foldF (fun s x => ?_) _ _) ?_ | refine Eq.trans (core_foldS (fun s x => ?_) _ _) ?_)
theorem execTableActivate_kept (x0) (x1) : ∃ t, (@execTableActivate x0 x1) = .next t ∧ t.core = x1.core := by unfold execTableActivate; exact ⟨_, rfl, by (repeat' first | with_reducible rfl | (intros; simp only [State_present_kept, hTableActivate_kept, keep_rules, ite_self, implies_true, core_fold, core_foldF, core_foldS]) | split | (rename _ = (_, _) => hh; obtain ⟨rfl, rfl⟩ := Prod.ext_iff.mp hh) | refine core_foldWith (fun s x => ?_) ?_ | refine Eq.trans (core_foldF (fun s x => ?_) _ _) ?_ | refine Eq.trans (core_foldS (fun s x => ?_) _ _) ?_)⟩
theorem State_ctlOn_kept (x0) (x1) (x2) (x3) (x4) (x5) : (@State.ctlOn x0 x1 x2 x3 x4 x5).core = x0.core := by
  unfold State.ctlOn
  (repeat' first | with_reducible rfl | (intros; simp only [State_take_kept, State_updPort_kept, keep_rules, ite_self, implies_true, core_fold, core_foldF, core_foldS]) | split | (rename _ = (_, _) => hh; obtain ⟨rfl, rfl⟩ := Prod.ext_iff.mp hh) | refine core_foldWith (fun s x => ?_) ?_ | refine Eq.trans (core_foldF (fun s x => ?_) _ _) ?_ | refine Eq.trans (core_foldS (fun s x => ?_) _ _) ?_)
theorem State_sendCtl_kept (x0) (x1) (x2) (x3) : (@State.sendCtl x0 x1 x2 x3).core = x0.core := by
  unfold State.sendCtl
  (repeat' first | with_reducible rfl | (intros; simp only [State_ctlOn_kept, keep_rules, ite_self, implies_true, core_fold, core_foldF, core_foldS]) | split | (rename _ = (_, _) => hh; obtain ⟨rfl, rfl⟩ := Prod.ext_iff.mp hh) | refine core_foldWith (fun s x => ?_) ?_ | refine Eq.trans (core_foldF (fun s x => ?_) _ _) ?_ | refine Eq.trans (core_foldS (fun s x => ?_) _ _) ?_)
theorem State_sendCtls_kept (x0) (x1) (x2) (x3) : (@State.sendCtls x0 x1 x2 x3).core = x0.core := by
  unfold State.sendCtls
  (repeat' first | with_reducible rfl | (intros; simp only [State_sendCtl_kept, keep_rules, ite_self, implies_true, core_fold, core_foldF, core_foldS]) | split | (rename _ = (_, _) => hh; obtain ⟨rfl, rfl⟩ := Prod.ext_iff.mp hh) | refine core_foldWith (fun s x => ?_) ?_ | refine Eq.trans (core_foldF (fun s x => ?_) _ _) ?_ | refine Eq.trans (core_foldS (fun s x => ?_) _ _) ?_)
theorem State_latch_kept (x0) (x1) (x2) : (@State.latch x0 x1 x2).core = x0.core := by
  unfold State.latch
  (repeat' first | with_reducible rfl | (intros; simp only [State_updPort_kept, keep_rules, ite_self, implies_true, core_fold, core_foldF, core_foldS]) | split | (rename _ = (_, _) => hh; obtain ⟨rfl, rfl⟩ := Prod.ext_iff.mp hh) | refine core_foldWith (fun s x => ?_) ?_ | refine Eq.trans (core_foldF (fun s x => ?_) _ _) ?_ | refine Eq.trans (core_foldS (fun s x => ?_) _ _) ?_)
theorem State_announceQuire_kept (x0) (x1) (x2) (x3) : (@State.announceQuire x0 x1 x2 x3).core = x0.core := by
  unfold State.announceQuire
  (repeat' first | with_reducible rfl | (intros; simp only [State_sendCtls_kept, keep_rules, ite_self, implies_true, core_fold, core_foldF, core_foldS]) | split | (rename _ = (_, _) => hh; obtain ⟨rfl, rfl⟩ := Prod.ext_iff.mp hh) | refine core_foldWith (fun s x => ?_) ?_ | refine Eq.trans (core_foldF (fun s x => ?_) _ _) ?_ | refine Eq.trans (core_foldS (fun s x => ?_) _ _) ?_)
theorem State_stopAdmission_kept (x0) (x1) (x2) : (@State.stopAdmission x0 x1 x2).core = x0.core := by
  unfold State.stopAdmission
  (repeat' first | with_reducible rfl | (intros; simp only [State_updQuireVol_kept, State_announceQuire_kept, keep_rules, ite_self, implies_true, core_fold, core_foldF, core_foldS]) | split | (rename _ = (_, _) => hh; obtain ⟨rfl, rfl⟩ := Prod.ext_iff.mp hh) | refine core_foldWith (fun s x => ?_) ?_ | refine Eq.trans (core_foldF (fun s x => ?_) _ _) ?_ | refine Eq.trans (core_foldS (fun s x => ?_) _ _) ?_)
theorem State_resumeAdmission_kept (x0) (x1) (x2) : (@State.resumeAdmission x0 x1 x2).core = x0.core := by
  unfold State.resumeAdmission
  (repeat' first | with_reducible rfl | (intros; simp only [State_updQuireVol_kept, State_announceQuire_kept, keep_rules, ite_self, implies_true, core_fold, core_foldF, core_foldS]) | split | (rename _ = (_, _) => hh; obtain ⟨rfl, rfl⟩ := Prod.ext_iff.mp hh) | refine core_foldWith (fun s x => ?_) ?_ | refine Eq.trans (core_foldF (fun s x => ?_) _ _) ?_ | refine Eq.trans (core_foldS (fun s x => ?_) _ _) ?_)
theorem State_tellEnd_kept (x0) (x1) (x2) (x3) : (@State.tellEnd x0 x1 x2 x3).core = x0.core := by
  unfold State.tellEnd
  (repeat' first | with_reducible rfl | (intros; simp only [State_latch_kept, State_sendCtl_kept, keep_rules, ite_self, implies_true, core_fold, core_foldF, core_foldS]) | split | (rename _ = (_, _) => hh; obtain ⟨rfl, rfl⟩ := Prod.ext_iff.mp hh) | refine core_foldWith (fun s x => ?_) ?_ | refine Eq.trans (core_foldF (fun s x => ?_) _ _) ?_ | refine Eq.trans (core_foldS (fun s x => ?_) _ _) ?_)
theorem State_tellBores_kept (x0) (x1) (x2) : (@State.tellBores x0 x1 x2).core = x0.core := by
  unfold State.tellBores
  (repeat' first | with_reducible rfl | (intros; simp only [State_tellEnd_kept, keep_rules, ite_self, implies_true, core_fold, core_foldF, core_foldS]) | split | (rename _ = (_, _) => hh; obtain ⟨rfl, rfl⟩ := Prod.ext_iff.mp hh) | refine core_foldWith (fun s x => ?_) ?_ | refine Eq.trans (core_foldF (fun s x => ?_) _ _) ?_ | refine Eq.trans (core_foldS (fun s x => ?_) _ _) ?_)
theorem State_assignCoord_kept (x0) (x1) (x2) (x3) : (@State.assignCoord x0 x1 x2 x3).core = x0.core := by
  unfold State.assignCoord
  (repeat' first | with_reducible rfl | (intros; simp only [State_sendCtl_kept, keep_rules, ite_self, implies_true, core_fold, core_foldF, core_foldS]) | split | (rename _ = (_, _) => hh; obtain ⟨rfl, rfl⟩ := Prod.ext_iff.mp hh) | refine core_foldWith (fun s x => ?_) ?_ | refine Eq.trans (core_foldF (fun s x => ?_) _ _) ?_ | refine Eq.trans (core_foldS (fun s x => ?_) _ _) ?_)
theorem State_askRetrain_kept (x0) (x1) (x2) : (@State.askRetrain x0 x1 x2).core = x0.core := by
  unfold State.askRetrain
  (repeat' first | with_reducible rfl | (intros; simp only [State_latch_kept, State_sendCtl_kept, keep_rules, ite_self, implies_true, core_fold, core_foldF, core_foldS]) | split | (rename _ = (_, _) => hh; obtain ⟨rfl, rfl⟩ := Prod.ext_iff.mp hh) | refine core_foldWith (fun s x => ?_) ?_ | refine Eq.trans (core_foldF (fun s x => ?_) _ _) ?_ | refine Eq.trans (core_foldS (fun s x => ?_) _ _) ?_)
theorem State_sendWrites_kept (x0) (x1) (x2) (x3) : (@State.sendWrites x0 x1 x2 x3).core = x0.core := by
  unfold State.sendWrites
  (repeat' first | with_reducible rfl | (intros; simp only [State_take_kept, State_sendCtl_kept, keep_rules, ite_self, implies_true, core_fold, core_foldF, core_foldS]) | split | (rename _ = (_, _) => hh; obtain ⟨rfl, rfl⟩ := Prod.ext_iff.mp hh) | refine core_foldWith (fun s x => ?_) ?_ | refine Eq.trans (core_foldF (fun s x => ?_) _ _) ?_ | refine Eq.trans (core_foldS (fun s x => ?_) _ _) ?_)
theorem State_sendSwitch_kept (x0) (x1) (x2) (x3) (x4) : (@State.sendSwitch x0 x1 x2 x3 x4).core = x0.core := by
  unfold State.sendSwitch
  (repeat' first | with_reducible rfl | (intros; simp only [State_sendCtl_kept, keep_rules, ite_self, implies_true, core_fold, core_foldF, core_foldS]) | split | (rename _ = (_, _) => hh; obtain ⟨rfl, rfl⟩ := Prod.ext_iff.mp hh) | refine core_foldWith (fun s x => ?_) ?_ | refine Eq.trans (core_foldF (fun s x => ?_) _ _) ?_ | refine Eq.trans (core_foldS (fun s x => ?_) _ _) ?_)
theorem State_switchJobs_kept (x0) (x1) (x2) (x3) : (@State.switchJobs x0 x1 x2 x3).core = x0.core := by
  unfold State.switchJobs
  (repeat' first | with_reducible rfl | (intros; simp only [State_sendSwitch_kept, keep_rules, ite_self, implies_true, core_fold, core_foldF, core_foldS]) | split | (rename _ = (_, _) => hh; obtain ⟨rfl, rfl⟩ := Prod.ext_iff.mp hh) | refine core_foldWith (fun s x => ?_) ?_ | refine Eq.trans (core_foldF (fun s x => ?_) _ _) ?_ | refine Eq.trans (core_foldS (fun s x => ?_) _ _) ?_)
theorem State_putOcs_kept (x0) (x1) : (@State.putOcs x0 x1).core = x0.core := by
  unfold State.putOcs
  (repeat' first | with_reducible rfl | (intros; simp only [keep_rules, ite_self, implies_true, core_fold, core_foldF, core_foldS]) | split | (rename _ = (_, _) => hh; obtain ⟨rfl, rfl⟩ := Prod.ext_iff.mp hh) | refine core_foldWith (fun s x => ?_) ?_ | refine Eq.trans (core_foldF (fun s x => ?_) _ _) ?_ | refine Eq.trans (core_foldS (fun s x => ?_) _ _) ?_)
theorem State_sendOcs_kept (x0) (x1) (x2) (x3) : (@State.sendOcs x0 x1 x2 x3).core = x0.core := by
  unfold State.sendOcs
  (repeat' first | with_reducible rfl | (intros; simp only [State_putOcs_kept, keep_rules, ite_self, implies_true, core_fold, core_foldF, core_foldS]) | split | (rename _ = (_, _) => hh; obtain ⟨rfl, rfl⟩ := Prod.ext_iff.mp hh) | refine core_foldWith (fun s x => ?_) ?_ | refine Eq.trans (core_foldF (fun s x => ?_) _ _) ?_ | refine Eq.trans (core_foldS (fun s x => ?_) _ _) ?_)
theorem State_sendSet_kept (x0) (x1) (x2) (x3) : (@State.sendSet x0 x1 x2 x3).core = x0.core := by
  unfold State.sendSet
  (repeat' first | with_reducible rfl | (intros; simp only [State_sendOcs_kept, keep_rules, ite_self, implies_true, core_fold, core_foldF, core_foldS]) | split | (rename _ = (_, _) => hh; obtain ⟨rfl, rfl⟩ := Prod.ext_iff.mp hh) | refine core_foldWith (fun s x => ?_) ?_ | refine Eq.trans (core_foldF (fun s x => ?_) _ _) ?_ | refine Eq.trans (core_foldS (fun s x => ?_) _ _) ?_)
theorem State_nextGen_kept (x0) : (@State.nextGen x0).2.core = x0.core := by
  unfold State.nextGen
  (repeat' first | with_reducible rfl | (intros; simp only [keep_rules, ite_self, implies_true, core_fold, core_foldF, core_foldS]) | split | (rename _ = (_, _) => hh; obtain ⟨rfl, rfl⟩ := Prod.ext_iff.mp hh) | refine core_foldWith (fun s x => ?_) ?_ | refine Eq.trans (core_foldF (fun s x => ?_) _ _) ?_ | refine Eq.trans (core_foldS (fun s x => ?_) _ _) ?_)
theorem State_tellMasks_kept (x0) (x1) (x2) (x3) (x4) (x5) : (@State.tellMasks x0 x1 x2 x3 x4 x5).core = x0.core := by
  unfold State.tellMasks
  (repeat' first | with_reducible rfl | (intros; simp only [State_sendCtls_kept, keep_rules, ite_self, implies_true, core_fold, core_foldF, core_foldS]) | split | (rename _ = (_, _) => hh; obtain ⟨rfl, rfl⟩ := Prod.ext_iff.mp hh) | refine core_foldWith (fun s x => ?_) ?_ | refine Eq.trans (core_foldF (fun s x => ?_) _ _) ?_ | refine Eq.trans (core_foldS (fun s x => ?_) _ _) ?_)
theorem execPathMaskClear_kept (x0) (x1) (x2) (x3) (x4) : ∃ t, (@execPathMaskClear x0 x1 x2 x3 x4) = .next t ∧ t.core = x4.core := by unfold execPathMaskClear; (try dsimp only); (repeat' first | (split) | (rename _ = (_, _) => hh; obtain ⟨rfl, rfl⟩ := Prod.ext_iff.mp hh)) <;> exact ⟨_, rfl, by (repeat' first | with_reducible rfl | (intros; simp only [State_updQuireVol_kept, State_tellMasks_kept, keep_rules, ite_self, implies_true, core_fold, core_foldF, core_foldS]) | split | (rename _ = (_, _) => hh; obtain ⟨rfl, rfl⟩ := Prod.ext_iff.mp hh) | refine core_foldWith (fun s x => ?_) ?_ | refine Eq.trans (core_foldF (fun s x => ?_) _ _) ?_ | refine Eq.trans (core_foldS (fun s x => ?_) _ _) ?_)⟩
theorem State_beginDrain_kept (x0) (x1) (x2) : (@State.beginDrain x0 x1 x2).1.core = x0.core := by
  unfold State.beginDrain
  (repeat' first | with_reducible rfl | (intros; simp only [State_stopAdmission_kept, keep_rules, ite_self, implies_true, core_fold, core_foldF, core_foldS]) | split | (rename _ = (_, _) => hh; obtain ⟨rfl, rfl⟩ := Prod.ext_iff.mp hh) | refine core_foldWith (fun s x => ?_) ?_ | refine Eq.trans (core_foldF (fun s x => ?_) _ _) ?_ | refine Eq.trans (core_foldS (fun s x => ?_) _ _) ?_)
theorem hRouteSolve_kept (x0) (x1) : (@hRouteSolve x0 x1).1.core = x1.core := by
  unfold hRouteSolve
  (repeat' first | with_reducible rfl | (intros; simp only [refuse_kept, multi_kept, keep_rules, ite_self, implies_true, core_fold, core_foldF, core_foldS]) | split | (rename _ = (_, _) => hh; obtain ⟨rfl, rfl⟩ := Prod.ext_iff.mp hh) | refine core_foldWith (fun s x => ?_) ?_ | refine Eq.trans (core_foldF (fun s x => ?_) _ _) ?_ | refine Eq.trans (core_foldS (fun s x => ?_) _ _) ?_)
theorem execRouteSolve_kept (x0) (x1) : ∃ t, (@execRouteSolve x0 x1) = .next t ∧ t.core = x1.core := by unfold execRouteSolve; exact ⟨_, rfl, by (repeat' first | with_reducible rfl | (intros; simp only [State_present_kept, hRouteSolve_kept, keep_rules, ite_self, implies_true, core_fold, core_foldF, core_foldS]) | split | (rename _ = (_, _) => hh; obtain ⟨rfl, rfl⟩ := Prod.ext_iff.mp hh) | refine core_foldWith (fun s x => ?_) ?_ | refine Eq.trans (core_foldF (fun s x => ?_) _ _) ?_ | refine Eq.trans (core_foldS (fun s x => ?_) _ _) ?_)⟩
theorem State_workSolve_kept (x0) (x1) (x2) (x3) : (@State.workSolve x0 x1 x2 x3).1.core = x0.core := by
  unfold State.workSolve
  (repeat' first | with_reducible rfl | (intros; simp only [State_failTask_kept, State_updQuireVol_kept, State_endTask_kept, State_updTask_kept, keep_rules, ite_self, implies_true, core_fold, core_foldF, core_foldS]) | split | (rename _ = (_, _) => hh; obtain ⟨rfl, rfl⟩ := Prod.ext_iff.mp hh) | refine core_foldWith (fun s x => ?_) ?_ | refine Eq.trans (core_foldF (fun s x => ?_) _ _) ?_ | refine Eq.trans (core_foldS (fun s x => ?_) _ _) ?_)
theorem State_cancelSolves_kept (x0) (x1) : (@State.cancelSolves x0 x1).core = x0.core := by
  unfold State.cancelSolves
  (repeat' first | with_reducible rfl | (intros; simp only [State_failTask_kept, keep_rules, ite_self, implies_true, core_fold, core_foldF, core_foldS]) | split | (rename _ = (_, _) => hh; obtain ⟨rfl, rfl⟩ := Prod.ext_iff.mp hh) | refine core_foldWith (fun s x => ?_) ?_ | refine Eq.trans (core_foldF (fun s x => ?_) _ _) ?_ | refine Eq.trans (core_foldS (fun s x => ?_) _ _) ?_)
theorem State_startInstall_kept (x0) (x1) (x2) (x3) (x4) (x5) : (@State.startInstall x0 x1 x2 x3 x4 x5).core = x0.core := by
  unfold State.startInstall
  (repeat' first | with_reducible rfl | (intros; simp only [State_startTask_kept, keep_rules, ite_self, implies_true, core_fold, core_foldF, core_foldS]) | split | (rename _ = (_, _) => hh; obtain ⟨rfl, rfl⟩ := Prod.ext_iff.mp hh) | refine core_foldWith (fun s x => ?_) ?_ | refine Eq.trans (core_foldF (fun s x => ?_) _ _) ?_ | refine Eq.trans (core_foldS (fun s x => ?_) _ _) ?_)
theorem hRouteInstall_kept (x0) (x1) : (@hRouteInstall x0 x1).1.core = x1.core := by
  unfold hRouteInstall
  (repeat' first | with_reducible rfl | (intros; simp only [refuse_kept, State_startInstall_kept, keep_rules, ite_self, implies_true, core_fold, core_foldF, core_foldS]) | split | (rename _ = (_, _) => hh; obtain ⟨rfl, rfl⟩ := Prod.ext_iff.mp hh) | refine core_foldWith (fun s x => ?_) ?_ | refine Eq.trans (core_foldF (fun s x => ?_) _ _) ?_ | refine Eq.trans (core_foldS (fun s x => ?_) _ _) ?_)
theorem execRouteInstall_kept (x0) (x1) : ∃ t, (@execRouteInstall x0 x1) = .next t ∧ t.core = x1.core := by unfold execRouteInstall; exact ⟨_, rfl, by (repeat' first | with_reducible rfl | (intros; simp only [State_present_kept, hRouteInstall_kept, keep_rules, ite_self, implies_true, core_fold, core_foldF, core_foldS]) | split | (rename _ = (_, _) => hh; obtain ⟨rfl, rfl⟩ := Prod.ext_iff.mp hh) | refine core_foldWith (fun s x => ?_) ?_ | refine Eq.trans (core_foldF (fun s x => ?_) _ _) ?_ | refine Eq.trans (core_foldS (fun s x => ?_) _ _) ?_)⟩
theorem State_writeShadows_kept (x0) (x1) (x2) (x3) (x4) (x5) (x6) (x7) : (@State.writeShadows x0 x1 x2 x3 x4 x5 x6 x7).1.core = x0.core := by
  induction x5 generalizing x0 x6 x7 with
  | nil => exact id rfl
  | cons a l ih =>
    unfold State.writeShadows
    split
    · with_reducible rfl
    · exact (ih _ _ _).trans (core_fold (fun s j => State_sendWrites_kept _ _ _ _) _ _)
theorem State_writeAgain_kept (x0) (x1) (x2) : (@State.writeAgain x0 x1 x2).1.core = x0.core := by
  unfold State.writeAgain
  (repeat' first | with_reducible rfl | (intros; simp only [State_sendWrites_kept, keep_rules, ite_self, implies_true, core_fold, core_foldF, core_foldS]) | split | (rename _ = (_, _) => hh; obtain ⟨rfl, rfl⟩ := Prod.ext_iff.mp hh) | refine core_foldWith (fun s x => ?_) ?_ | refine Eq.trans (core_foldF (fun s x => ?_) _ _) ?_ | refine Eq.trans (core_foldS (fun s x => ?_) _ _) ?_)
theorem State_failInstall_kept (x0) (x1) (x2) (x3) : (@State.failInstall x0 x1 x2 x3).core = x0.core := by
  unfold State.failInstall
  (repeat' first | with_reducible rfl | (intros; simp only [State_failTask_kept, State_resumeAdmission_kept, keep_rules, ite_self, implies_true, core_fold, core_foldF, core_foldS]) | split | (rename _ = (_, _) => hh; obtain ⟨rfl, rfl⟩ := Prod.ext_iff.mp hh) | refine core_foldWith (fun s x => ?_) ?_ | refine Eq.trans (core_foldF (fun s x => ?_) _ _) ?_ | refine Eq.trans (core_foldS (fun s x => ?_) _ _) ?_)
theorem State_workInstall_kept (x0) (x1) (x2) (x3) (x4) (x5) (x6) (x7) (x8) : (@State.workInstall x0 x1 x2 x3 x4 x5 x6 x7 x8).1.core = x0.core := by
  unfold State.workInstall
  (repeat' first | with_reducible rfl | (intros; simp only [State_writeAgain_kept, State_writeShadows_kept, State_failInstall_kept, State_updTask_kept, State_stageTask_kept, keep_rules, ite_self, implies_true, core_fold, core_foldF, core_foldS]) | split | (rename _ = (_, _) => hh; obtain ⟨rfl, rfl⟩ := Prod.ext_iff.mp hh) | refine core_foldWith (fun s x => ?_) ?_ | refine Eq.trans (core_foldF (fun s x => ?_) _ _) ?_ | refine Eq.trans (core_foldS (fun s x => ?_) _ _) ?_)
theorem State_installSealed_kept (x0) (x1) (x2) (x3) : (@State.installSealed x0 x1 x2 x3).core = x0.core := by
  unfold State.installSealed
  (repeat' first | with_reducible rfl | (intros; simp only [State_switchJobs_kept, State_updQuireVol_kept, State_resumeAdmission_kept, State_endTask_kept, keep_rules, ite_self, implies_true, core_fold, core_foldF, core_foldS]) | split | (rename _ = (_, _) => hh; obtain ⟨rfl, rfl⟩ := Prod.ext_iff.mp hh) | refine core_foldWith (fun s x => ?_) ?_ | refine Eq.trans (core_foldF (fun s x => ?_) _ _) ?_ | refine Eq.trans (core_foldS (fun s x => ?_) _ _) ?_)
theorem routeDrainHold_kept (x0) (x1) : (@routeDrainHold x0 x1).1.core = x1.core := by
  unfold routeDrainHold
  (repeat' first | with_reducible rfl | (intros; simp only [refuse_kept, multi_kept, keep_rules, ite_self, implies_true, core_fold, core_foldF, core_foldS]) | split | (rename _ = (_, _) => hh; obtain ⟨rfl, rfl⟩ := Prod.ext_iff.mp hh) | refine core_foldWith (fun s x => ?_) ?_ | refine Eq.trans (core_foldF (fun s x => ?_) _ _) ?_ | refine Eq.trans (core_foldS (fun s x => ?_) _ _) ?_)
theorem routeDrainResume_kept (x0) (x1) : (@routeDrainResume x0 x1).1.core = x1.core := by
  unfold routeDrainResume
  (repeat' first | with_reducible rfl | (intros; simp only [refuse_kept, State_updQuireVol_kept, volatileOk_kept, State_resumeAdmission_kept, keep_rules, ite_self, implies_true, core_fold, core_foldF, core_foldS]) | split | (rename _ = (_, _) => hh; obtain ⟨rfl, rfl⟩ := Prod.ext_iff.mp hh) | refine core_foldWith (fun s x => ?_) ?_ | refine Eq.trans (core_foldF (fun s x => ?_) _ _) ?_ | refine Eq.trans (core_foldS (fun s x => ?_) _ _) ?_)
theorem hRouteDrain_kept (x0) (x1) : (@hRouteDrain x0 x1).1.core = x1.core := by
  unfold hRouteDrain
  (repeat' first | with_reducible rfl | (intros; simp only [routeDrainHold_kept, routeDrainResume_kept, refuse_kept, keep_rules, ite_self, implies_true, core_fold, core_foldF, core_foldS]) | split | (rename _ = (_, _) => hh; obtain ⟨rfl, rfl⟩ := Prod.ext_iff.mp hh) | refine core_foldWith (fun s x => ?_) ?_ | refine Eq.trans (core_foldF (fun s x => ?_) _ _) ?_ | refine Eq.trans (core_foldS (fun s x => ?_) _ _) ?_)
theorem execRouteDrainHold_kept (x0) (x1) : ∃ t, (@execRouteDrainHold x0 x1) = .next t ∧ t.core = x1.core := by unfold execRouteDrainHold; exact ⟨_, rfl, by (repeat' first | with_reducible rfl | (intros; simp only [State_present_kept, hRouteDrain_kept, keep_rules, ite_self, implies_true, core_fold, core_foldF, core_foldS]) | split | (rename _ = (_, _) => hh; obtain ⟨rfl, rfl⟩ := Prod.ext_iff.mp hh) | refine core_foldWith (fun s x => ?_) ?_ | refine Eq.trans (core_foldF (fun s x => ?_) _ _) ?_ | refine Eq.trans (core_foldS (fun s x => ?_) _ _) ?_)⟩
theorem execRouteDrainResume_kept (x0) (x1) : ∃ t, (@execRouteDrainResume x0 x1) = .next t ∧ t.core = x1.core := by unfold execRouteDrainResume; exact ⟨_, rfl, by (repeat' first | with_reducible rfl | (intros; simp only [State_present_kept, hRouteDrain_kept, keep_rules, ite_self, implies_true, core_fold, core_foldF, core_foldS]) | split | (rename _ = (_, _) => hh; obtain ⟨rfl, rfl⟩ := Prod.ext_iff.mp hh) | refine core_foldWith (fun s x => ?_) ?_ | refine Eq.trans (core_foldF (fun s x => ?_) _ _) ?_ | refine Eq.trans (core_foldS (fun s x => ?_) _ _) ?_)⟩
theorem State_queueClaim_kept (x0) (x1) (x2) : (@State.queueClaim x0 x1 x2).core = x0.core := by
  unfold State.queueClaim
  (repeat' first | with_reducible rfl | (intros; simp only [keep_rules, ite_self, implies_true, core_fold, core_foldF, core_foldS]) | split | (rename _ = (_, _) => hh; obtain ⟨rfl, rfl⟩ := Prod.ext_iff.mp hh) | refine core_foldWith (fun s x => ?_) ?_ | refine Eq.trans (core_foldF (fun s x => ?_) _ _) ?_ | refine Eq.trans (core_foldS (fun s x => ?_) _ _) ?_)
theorem State_updOp_kept (x0) (x1) (x2) (x3) : (@State.updOp x0 x1 x2 x3).core = x0.core := by
  unfold State.updOp
  (repeat' first | with_reducible rfl | (intros; simp only [State_updVol_kept, keep_rules, ite_self, implies_true, core_fold, core_foldF, core_foldS]) | split | (rename _ = (_, _) => hh; obtain ⟨rfl, rfl⟩ := Prod.ext_iff.mp hh) | refine core_foldWith (fun s x => ?_) ?_ | refine Eq.trans (core_foldF (fun s x => ?_) _ _) ?_ | refine Eq.trans (core_foldS (fun s x => ?_) _ _) ?_)
theorem State_scramble_kept (x0) (x1) (x2) : (@State.scramble x0 x1 x2).core = x0.core := by
  induction x2 generalizing x0 with
  | nil => exact id rfl
  | cons a l ih =>
    rcases a with ⟨a, n⟩
    unfold State.scramble
    exact (ih _).trans (by simp only [State_updVol_kept, State_freeBytes_kept, core_mk, core_eta])
theorem State_endOp_kept (x0) (x1) (x2) : (@State.endOp x0 x1 x2).core = x0.core := by
  unfold State.endOp
  (repeat' first | with_reducible rfl | (intros; simp only [State_updOp_kept, State_scramble_kept, State_failTask_kept, State_endTask_kept, keep_rules, ite_self, implies_true, core_fold, core_foldF, core_foldS]) | split | (rename _ = (_, _) => hh; obtain ⟨rfl, rfl⟩ := Prod.ext_iff.mp hh) | refine core_foldWith (fun s x => ?_) ?_ | refine Eq.trans (core_foldF (fun s x => ?_) _ _) ?_ | refine Eq.trans (core_foldS (fun s x => ?_) _ _) ?_)
theorem State_failOp_kept (x0) (x1) (x2) : (@State.failOp x0 x1 x2).core = x0.core := by
  unfold State.failOp
  (repeat' first | with_reducible rfl | (intros; simp only [State_endOp_kept, State_queueClaim_kept, keep_rules, ite_self, implies_true, core_fold, core_foldF, core_foldS]) | split | (rename _ = (_, _) => hh; obtain ⟨rfl, rfl⟩ := Prod.ext_iff.mp hh) | refine core_foldWith (fun s x => ?_) ?_ | refine Eq.trans (core_foldF (fun s x => ?_) _ _) ?_ | refine Eq.trans (core_foldS (fun s x => ?_) _ _) ?_)
theorem State_endOps_kept (x0) (x1) (x2) : (@State.endOps x0 x1 x2).core = x0.core := by
  unfold State.endOps
  (repeat' first | with_reducible rfl | (intros; simp only [State_failOp_kept, keep_rules, ite_self, implies_true, core_fold, core_foldF, core_foldS]) | split | (rename _ = (_, _) => hh; obtain ⟨rfl, rfl⟩ := Prod.ext_iff.mp hh) | refine core_foldWith (fun s x => ?_) ?_ | refine Eq.trans (core_foldF (fun s x => ?_) _ _) ?_ | refine Eq.trans (core_foldS (fun s x => ?_) _ _) ?_)
theorem State_countSlots_kept (x0) (x1) (x2) (x3) (x4) : (@State.countSlots x0 x1 x2 x3 x4).core = x0.core := by
  unfold State.countSlots
  (repeat' first | with_reducible rfl | (intros; simp only [keep_rules, ite_self, implies_true, core_fold, core_foldF, core_foldS]) | split | (rename _ = (_, _) => hh; obtain ⟨rfl, rfl⟩ := Prod.ext_iff.mp hh) | refine core_foldWith (fun s x => ?_) ?_ | refine Eq.trans (core_foldF (fun s x => ?_) _ _) ?_ | refine Eq.trans (core_foldS (fun s x => ?_) _ _) ?_)
theorem State_restartSlots_kept (x0) (x1) : (@State.restartSlots x0 x1).core = x0.core := by
  unfold State.restartSlots
  (repeat' first | with_reducible rfl | (intros; simp only [keep_rules, ite_self, implies_true, core_fold, core_foldF, core_foldS]) | split | (rename _ = (_, _) => hh; obtain ⟨rfl, rfl⟩ := Prod.ext_iff.mp hh) | refine core_foldWith (fun s x => ?_) ?_ | refine Eq.trans (core_foldF (fun s x => ?_) _ _) ?_ | refine Eq.trans (core_foldS (fun s x => ?_) _ _) ?_)
theorem State_zeroTiles_kept (x0) (x1) : (@State.zeroTiles x0 x1).core = x0.core := by
  unfold State.zeroTiles
  (repeat' first | with_reducible rfl | (intros; simp only [keep_rules, ite_self, implies_true, core_fold, core_foldF, core_foldS]) | split | (rename _ = (_, _) => hh; obtain ⟨rfl, rfl⟩ := Prod.ext_iff.mp hh) | refine core_foldWith (fun s x => ?_) ?_ | refine Eq.trans (core_foldF (fun s x => ?_) _ _) ?_ | refine Eq.trans (core_foldS (fun s x => ?_) _ _) ?_)
theorem hQuireCarve_kept (x0) (x1) : (@hQuireCarve x0 x1).1.core = x1.core := by
  unfold hQuireCarve
  (repeat' first | with_reducible rfl | (intros; simp only [refuse_kept, durable_kept, State_zeroTiles_kept, keep_rules, ite_self, implies_true, core_fold, core_foldF, core_foldS]) | split | (rename _ = (_, _) => hh; obtain ⟨rfl, rfl⟩ := Prod.ext_iff.mp hh) | refine core_foldWith (fun s x => ?_) ?_ | refine Eq.trans (core_foldF (fun s x => ?_) _ _) ?_ | refine Eq.trans (core_foldS (fun s x => ?_) _ _) ?_)
theorem execQuireCarve_kept (x0) (x1) : ∃ t, (@execQuireCarve x0 x1) = .next t ∧ t.core = x1.core := by unfold execQuireCarve; exact ⟨_, rfl, by (repeat' first | with_reducible rfl | (intros; simp only [State_present_kept, hQuireCarve_kept, keep_rules, ite_self, implies_true, core_fold, core_foldF, core_foldS]) | split | (rename _ = (_, _) => hh; obtain ⟨rfl, rfl⟩ := Prod.ext_iff.mp hh) | refine core_foldWith (fun s x => ?_) ?_ | refine Eq.trans (core_foldF (fun s x => ?_) _ _) ?_ | refine Eq.trans (core_foldS (fun s x => ?_) _ _) ?_)⟩
theorem State_soil_kept (x0) (x1) : (@State.soil x0 x1).core = x0.core := by
  unfold State.soil
  (repeat' first | with_reducible rfl | (intros; simp only [State_updVol_kept, keep_rules, ite_self, implies_true, core_fold, core_foldF, core_foldS]) | split | (rename _ = (_, _) => hh; obtain ⟨rfl, rfl⟩ := Prod.ext_iff.mp hh) | refine core_foldWith (fun s x => ?_) ?_ | refine Eq.trans (core_foldF (fun s x => ?_) _ _) ?_ | refine Eq.trans (core_foldS (fun s x => ?_) _ _) ?_)
theorem hQuireGrow_kept (x0) (x1) : (@hQuireGrow x0 x1).1.core = x1.core := by
  unfold hQuireGrow
  (repeat' first | with_reducible rfl | (intros; simp only [refuse_kept, State_take_kept, State_zeroTiles_kept, State_soil_kept, durable_kept, keep_rules, ite_self, implies_true, core_fold, core_foldF, core_foldS]) | split | (rename _ = (_, _) => hh; obtain ⟨rfl, rfl⟩ := Prod.ext_iff.mp hh) | refine core_foldWith (fun s x => ?_) ?_ | refine Eq.trans (core_foldF (fun s x => ?_) _ _) ?_ | refine Eq.trans (core_foldS (fun s x => ?_) _ _) ?_)
theorem execQuireGrow_kept (x0) (x1) : ∃ t, (@execQuireGrow x0 x1) = .next t ∧ t.core = x1.core := by unfold execQuireGrow; exact ⟨_, rfl, by (repeat' first | with_reducible rfl | (intros; simp only [State_present_kept, hQuireGrow_kept, keep_rules, ite_self, implies_true, core_fold, core_foldF, core_foldS]) | split | (rename _ = (_, _) => hh; obtain ⟨rfl, rfl⟩ := Prod.ext_iff.mp hh) | refine core_foldWith (fun s x => ?_) ?_ | refine Eq.trans (core_foldF (fun s x => ?_) _ _) ?_ | refine Eq.trans (core_foldS (fun s x => ?_) _ _) ?_)⟩
theorem State_maskTransit_kept (x0) (x1) (x2) : (@State.maskTransit x0 x1 x2).core = x0.core := by
  unfold State.maskTransit
  (repeat' first | with_reducible rfl | (intros; simp only [State_updQuireVol_kept, State_tellMasks_kept, keep_rules, ite_self, implies_true, core_fold, core_foldF, core_foldS]) | split | (rename _ = (_, _) => hh; obtain ⟨rfl, rfl⟩ := Prod.ext_iff.mp hh) | refine core_foldWith (fun s x => ?_) ?_ | refine Eq.trans (core_foldF (fun s x => ?_) _ _) ?_ | refine Eq.trans (core_foldS (fun s x => ?_) _ _) ?_)
theorem State_resetStart_kept (x0) (x1) : (@State.resetStart x0 x1).core = x0.core := by
  unfold State.resetStart
  (repeat' first | with_reducible rfl | (intros; simp only [State_endOps_kept, State_cancelSolves_kept, State_zeroTiles_kept, State_updQuireVol_kept, State_restartSlots_kept, keep_rules, ite_self, implies_true, core_fold, core_foldF, core_foldS]) | split | (rename _ = (_, _) => hh; obtain ⟨rfl, rfl⟩ := Prod.ext_iff.mp hh) | refine core_foldWith (fun s x => ?_) ?_ | refine Eq.trans (core_foldF (fun s x => ?_) _ _) ?_ | refine Eq.trans (core_foldS (fun s x => ?_) _ _) ?_)
theorem State_setReset_kept (x0) (x1) (x2) (x3) (x4) : (@State.setReset x0 x1 x2 x3 x4).core = x0.core := by
  unfold State.setReset
  (repeat' first | with_reducible rfl | (intros; simp only [State_updTask_kept, keep_rules, ite_self, implies_true, core_fold, core_foldF, core_foldS]) | split | (rename _ = (_, _) => hh; obtain ⟨rfl, rfl⟩ := Prod.ext_iff.mp hh) | refine core_foldWith (fun s x => ?_) ?_ | refine Eq.trans (core_foldF (fun s x => ?_) _ _) ?_ | refine Eq.trans (core_foldS (fun s x => ?_) _ _) ?_)
theorem resetAccept_kept (x0) (x1) (x2) (x3) (x4) (x5) : (@resetAccept x0 x1 x2 x3 x4 x5).1.core = x1.core := by
  unfold resetAccept
  (repeat' first | with_reducible rfl | (intros; simp only [refuse_kept, State_startTask_kept, State_maskTransit_kept, State_startInstall_kept, State_resetStart_kept, State_setReset_kept, keep_rules, ite_self, implies_true, core_fold, core_foldF, core_foldS]) | split | (rename _ = (_, _) => hh; obtain ⟨rfl, rfl⟩ := Prod.ext_iff.mp hh) | refine core_foldWith (fun s x => ?_) ?_ | refine Eq.trans (core_foldF (fun s x => ?_) _ _) ?_ | refine Eq.trans (core_foldS (fun s x => ?_) _ _) ?_)
theorem hQuireReset_kept (x0) (x1) : (@hQuireReset x0 x1).1.core = x1.core := by
  unfold hQuireReset
  (repeat' first | with_reducible rfl | (intros; simp only [refuse_kept, resetAccept_kept, keep_rules, ite_self, implies_true, core_fold, core_foldF, core_foldS]) | split | (rename _ = (_, _) => hh; obtain ⟨rfl, rfl⟩ := Prod.ext_iff.mp hh) | refine core_foldWith (fun s x => ?_) ?_ | refine Eq.trans (core_foldF (fun s x => ?_) _ _) ?_ | refine Eq.trans (core_foldS (fun s x => ?_) _ _) ?_)
theorem execQuireReset_kept (x0) (x1) : ∃ t, (@execQuireReset x0 x1) = .next t ∧ t.core = x1.core := by unfold execQuireReset; exact ⟨_, rfl, by (repeat' first | with_reducible rfl | (intros; simp only [State_present_kept, hQuireReset_kept, keep_rules, ite_self, implies_true, core_fold, core_foldF, core_foldS]) | split | (rename _ = (_, _) => hh; obtain ⟨rfl, rfl⟩ := Prod.ext_iff.mp hh) | refine core_foldWith (fun s x => ?_) ?_ | refine Eq.trans (core_foldF (fun s x => ?_) _ _) ?_ | refine Eq.trans (core_foldS (fun s x => ?_) _ _) ?_)⟩
theorem hQuireRelease_kept (x0) (x1) : (@hQuireRelease x0 x1).1.core = x1.core := by
  unfold hQuireRelease
  (repeat' first | with_reducible rfl | (intros; simp only [refuse_kept, resetAccept_kept, keep_rules, ite_self, implies_true, core_fold, core_foldF, core_foldS]) | split | (rename _ = (_, _) => hh; obtain ⟨rfl, rfl⟩ := Prod.ext_iff.mp hh) | refine core_foldWith (fun s x => ?_) ?_ | refine Eq.trans (core_foldF (fun s x => ?_) _ _) ?_ | refine Eq.trans (core_foldS (fun s x => ?_) _ _) ?_)
theorem execQuireRelease_kept (x0) (x1) : ∃ t, (@execQuireRelease x0 x1) = .next t ∧ t.core = x1.core := by unfold execQuireRelease; exact ⟨_, rfl, by (repeat' first | with_reducible rfl | (intros; simp only [State_present_kept, hQuireRelease_kept, keep_rules, ite_self, implies_true, core_fold, core_foldF, core_foldS]) | split | (rename _ = (_, _) => hh; obtain ⟨rfl, rfl⟩ := Prod.ext_iff.mp hh) | refine core_foldWith (fun s x => ?_) ?_ | refine Eq.trans (core_foldF (fun s x => ?_) _ _) ?_ | refine Eq.trans (core_foldS (fun s x => ?_) _ _) ?_)⟩
theorem State_workReset_kept (x0) (x1) (x2) (x3) : (@State.workReset x0 x1 x2 x3).1.core = x0.core := by
  unfold State.workReset
  (repeat' first | with_reducible rfl | (intros; simp only [State_resetStart_kept, State_setReset_kept, keep_rules, ite_self, implies_true, core_fold, core_foldF, core_foldS]) | split | (rename _ = (_, _) => hh; obtain ⟨rfl, rfl⟩ := Prod.ext_iff.mp hh) | refine core_foldWith (fun s x => ?_) ?_ | refine Eq.trans (core_foldF (fun s x => ?_) _ _) ?_ | refine Eq.trans (core_foldS (fun s x => ?_) _ _) ?_)
theorem State_boundaryReset_kept (x0) (x1) (x2) : (@State.boundaryReset x0 x1 x2).core = x0.core := by
  unfold State.boundaryReset
  (repeat' first | with_reducible rfl | (intros; simp only [State_sendCtls_kept, State_setReset_kept, keep_rules, ite_self, implies_true, core_fold, core_foldF, core_foldS]) | split | (rename _ = (_, _) => hh; obtain ⟨rfl, rfl⟩ := Prod.ext_iff.mp hh) | refine core_foldWith (fun s x => ?_) ?_ | refine Eq.trans (core_foldF (fun s x => ?_) _ _) ?_ | refine Eq.trans (core_foldS (fun s x => ?_) _ _) ?_)
theorem State_zeroiseSlot_kept (x0) (x1) : (@State.zeroiseSlot x0 x1).core = x0.core := by
  unfold State.zeroiseSlot
  (repeat' first | with_reducible rfl | (intros; simp only [keep_rules, ite_self, implies_true, core_fold, core_foldF, core_foldS]) | split | (rename _ = (_, _) => hh; obtain ⟨rfl, rfl⟩ := Prod.ext_iff.mp hh) | refine core_foldWith (fun s x => ?_) ?_ | refine Eq.trans (core_foldF (fun s x => ?_) _ _) ?_ | refine Eq.trans (core_foldS (fun s x => ?_) _ _) ?_)
theorem State_takeRefs_kept (x0) (x1) : (@State.takeRefs x0 x1).core = x0.core := by
  unfold State.takeRefs
  (repeat' first | with_reducible rfl | (intros; simp only [State_freeNat_kept, keep_rules, ite_self, implies_true, core_fold, core_foldF, core_foldS]) | split | (rename _ = (_, _) => hh; obtain ⟨rfl, rfl⟩ := Prod.ext_iff.mp hh) | refine core_foldWith (fun s x => ?_) ?_ | refine Eq.trans (core_foldF (fun s x => ?_) _ _) ?_ | refine Eq.trans (core_foldS (fun s x => ?_) _ _) ?_)
theorem State_lessRefs_kept (x0) (x1) : (@State.lessRefs x0 x1).core = x0.core := by
  unfold State.lessRefs
  (repeat' first | with_reducible rfl | (intros; simp only [State_freeNat_kept, keep_rules, ite_self, implies_true, core_fold, core_foldF, core_foldS]) | split | (rename _ = (_, _) => hh; obtain ⟨rfl, rfl⟩ := Prod.ext_iff.mp hh) | refine core_foldWith (fun s x => ?_) ?_ | refine Eq.trans (core_foldF (fun s x => ?_) _ _) ?_ | refine Eq.trans (core_foldS (fun s x => ?_) _ _) ?_)
theorem State_endUses_kept (x0) (x1) : (@State.endUses x0 x1).core = x0.core := by
  unfold State.endUses
  (repeat' first | with_reducible rfl | (intros; simp only [State_failTask_kept, keep_rules, ite_self, implies_true, core_fold, core_foldF, core_foldS]) | split | (rename _ = (_, _) => hh; obtain ⟨rfl, rfl⟩ := Prod.ext_iff.mp hh) | refine core_foldWith (fun s x => ?_) ?_ | refine Eq.trans (core_foldF (fun s x => ?_) _ _) ?_ | refine Eq.trans (core_foldS (fun s x => ?_) _ _) ?_)
theorem State_restartBooks_kept (x0) (x1) : (@State.restartBooks x0 x1).core = x0.core := by
  unfold State.restartBooks
  (repeat' first | with_reducible rfl | (intros; simp only [State_latch_kept, State_restartSlots_kept, keep_rules, ite_self, implies_true, core_fold, core_foldF, core_foldS]) | split | (rename _ = (_, _) => hh; obtain ⟨rfl, rfl⟩ := Prod.ext_iff.mp hh) | refine core_foldWith (fun s x => ?_) ?_ | refine Eq.trans (core_foldF (fun s x => ?_) _ _) ?_ | refine Eq.trans (core_foldS (fun s x => ?_) _ _) ?_)
theorem State_stageReset_kept (x0) (x1) (x2) : (@State.stageReset x0 x1 x2).core = x0.core := by
  unfold State.stageReset
  (repeat' first | with_reducible rfl | (intros; simp only [State_restartBooks_kept, State_setReset_kept, State_stageTask_kept, keep_rules, ite_self, implies_true, core_fold, core_foldF, core_foldS]) | split | (rename _ = (_, _) => hh; obtain ⟨rfl, rfl⟩ := Prod.ext_iff.mp hh) | refine core_foldWith (fun s x => ?_) ?_ | refine Eq.trans (core_foldF (fun s x => ?_) _ _) ?_ | refine Eq.trans (core_foldS (fun s x => ?_) _ _) ?_)
theorem State_stageRelease_kept (x0) (x1) (x2) : (@State.stageRelease x0 x1 x2).core = x0.core := by
  unfold State.stageRelease
  (repeat' first | with_reducible rfl | (intros; simp only [State_setReset_kept, State_stageTask_kept, keep_rules, ite_self, implies_true, core_fold, core_foldF, core_foldS]) | split | (rename _ = (_, _) => hh; obtain ⟨rfl, rfl⟩ := Prod.ext_iff.mp hh) | refine core_foldWith (fun s x => ?_) ?_ | refine Eq.trans (core_foldF (fun s x => ?_) _ _) ?_ | refine Eq.trans (core_foldS (fun s x => ?_) _ _) ?_)
theorem State_releaseLeaves_kept (x0) (x1) (x2) : (@State.releaseLeaves x0 x1 x2).core = x0.core := by
  unfold State.releaseLeaves
  (repeat' first | with_reducible rfl | (intros; simp only [State_soil_kept, State_setReset_kept, State_stageTask_kept, keep_rules, ite_self, implies_true, core_fold, core_foldF, core_foldS]) | split | (rename _ = (_, _) => hh; obtain ⟨rfl, rfl⟩ := Prod.ext_iff.mp hh) | refine core_foldWith (fun s x => ?_) ?_ | refine Eq.trans (core_foldF (fun s x => ?_) _ _) ?_ | refine Eq.trans (core_foldS (fun s x => ?_) _ _) ?_)
theorem State_resetConfirmed_kept (x0) (x1) (x2) : (@State.resetConfirmed x0 x1 x2).core = x0.core := by
  unfold State.resetConfirmed
  (repeat' first | with_reducible rfl | (intros; simp only [State_stageReset_kept, State_releaseLeaves_kept, keep_rules, ite_self, implies_true, core_fold, core_foldF, core_foldS]) | split | (rename _ = (_, _) => hh; obtain ⟨rfl, rfl⟩ := Prod.ext_iff.mp hh) | refine core_foldWith (fun s x => ?_) ?_ | refine Eq.trans (core_foldF (fun s x => ?_) _ _) ?_ | refine Eq.trans (core_foldS (fun s x => ?_) _ _) ?_)
theorem State_releaseScrub_kept (x0) (x1) (x2) (x3) : (@State.releaseScrub x0 x1 x2 x3).core = x0.core := by
  unfold State.releaseScrub
  (repeat' first | with_reducible rfl | (intros; simp only [State_soil_kept, State_stageRelease_kept, State_setReset_kept, keep_rules, ite_self, implies_true, core_fold, core_foldF, core_foldS]) | split | (rename _ = (_, _) => hh; obtain ⟨rfl, rfl⟩ := Prod.ext_iff.mp hh) | refine core_foldWith (fun s x => ?_) ?_ | refine Eq.trans (core_foldF (fun s x => ?_) _ _) ?_ | refine Eq.trans (core_foldS (fun s x => ?_) _ _) ?_)
theorem State_sealReset_kept (x0) (x1) (x2) (x3) (x4) : (@State.sealReset x0 x1 x2 x3 x4).core = x0.core := by
  unfold State.sealReset
  (repeat' first | with_reducible rfl | (intros; simp only [State_resetConfirmed_kept, State_setReset_kept, State_lessRefs_kept, State_zeroiseSlot_kept, State_releaseScrub_kept, State_stageRelease_kept, keep_rules, ite_self, implies_true, core_fold, core_foldF, core_foldS]) | split | (rename _ = (_, _) => hh; obtain ⟨rfl, rfl⟩ := Prod.ext_iff.mp hh) | refine core_foldWith (fun s x => ?_) ?_ | refine Eq.trans (core_foldF (fun s x => ?_) _ _) ?_ | refine Eq.trans (core_foldS (fun s x => ?_) _ _) ?_)
theorem execResetConfirmTimeout_kept (x0) (x1) : ∃ t, (@execResetConfirmTimeout x0 x1) = .next t ∧ t.core = x1.core := by unfold execResetConfirmTimeout; (try dsimp only); (repeat' first | (split) | (rename _ = (_, _) => hh; obtain ⟨rfl, rfl⟩ := Prod.ext_iff.mp hh)) <;> exact ⟨_, rfl, by (repeat' first | with_reducible rfl | (intros; simp only [State_fault_kept, State_updQuireVol_kept, State_resetConfirmed_kept, keep_rules, ite_self, implies_true, core_fold, core_foldF, core_foldS]) | split | (rename _ = (_, _) => hh; obtain ⟨rfl, rfl⟩ := Prod.ext_iff.mp hh) | refine core_foldWith (fun s x => ?_) ?_ | refine Eq.trans (core_foldF (fun s x => ?_) _ _) ?_ | refine Eq.trans (core_foldS (fun s x => ?_) _ _) ?_)⟩
theorem State_dropBores_kept (x0) (x1) : (@State.dropBores x0 x1).core = x0.core := by
  unfold State.dropBores
  (repeat' first | with_reducible rfl | (intros; simp only [keep_rules, ite_self, implies_true, core_fold, core_foldF, core_foldS]) | split | (rename _ = (_, _) => hh; obtain ⟨rfl, rfl⟩ := Prod.ext_iff.mp hh) | refine core_foldWith (fun s x => ?_) ?_ | refine Eq.trans (core_foldF (fun s x => ?_) _ _) ?_ | refine Eq.trans (core_foldS (fun s x => ?_) _ _) ?_)
theorem State_resetSealed_kept (x0) (x1) (x2) : (@State.resetSealed x0 x1 x2).core = x0.core := by
  unfold State.resetSealed
  (repeat' first | with_reducible rfl | (intros; simp only [State_updQuireVol_kept, State_resumeAdmission_kept, State_endTask_kept, State_announceQuire_kept, State_takeRefs_kept, State_setReset_kept, State_updVol_kept, State_dropBores_kept, keep_rules, ite_self, implies_true, core_fold, core_foldF, core_foldS]) | split | (rename _ = (_, _) => hh; obtain ⟨rfl, rfl⟩ := Prod.ext_iff.mp hh) | refine core_foldWith (fun s x => ?_) ?_ | refine Eq.trans (core_foldF (fun s x => ?_) _ _) ?_ | refine Eq.trans (core_foldS (fun s x => ?_) _ _) ?_)
theorem hQuireStatus_kept (x0) (x1) : (@hQuireStatus x0 x1).1.core = x1.core := by
  unfold hQuireStatus
  (repeat' first | with_reducible rfl | (intros; simp only [refuse_kept, keep_rules, ite_self, implies_true, core_fold, core_foldF, core_foldS]) | split | (rename _ = (_, _) => hh; obtain ⟨rfl, rfl⟩ := Prod.ext_iff.mp hh) | refine core_foldWith (fun s x => ?_) ?_ | refine Eq.trans (core_foldF (fun s x => ?_) _ _) ?_ | refine Eq.trans (core_foldS (fun s x => ?_) _ _) ?_)
theorem execQuireStatus_kept (x0) (x1) : ∃ t, (@execQuireStatus x0 x1) = .next t ∧ t.core = x1.core := by unfold execQuireStatus; exact ⟨_, rfl, by (repeat' first | with_reducible rfl | (intros; simp only [State_present_kept, hQuireStatus_kept, keep_rules, ite_self, implies_true, core_fold, core_foldF, core_foldS]) | split | (rename _ = (_, _) => hh; obtain ⟨rfl, rfl⟩ := Prod.ext_iff.mp hh) | refine core_foldWith (fun s x => ?_) ?_ | refine Eq.trans (core_foldF (fun s x => ?_) _ _) ?_ | refine Eq.trans (core_foldS (fun s x => ?_) _ _) ?_)⟩
theorem State_announcePart_kept (x0) (x1) (x2) : (@State.announcePart x0 x1 x2).core = x0.core := by
  unfold State.announcePart
  (repeat' first | with_reducible rfl | (intros; simp only [State_sendCtls_kept, keep_rules, ite_self, implies_true, core_fold, core_foldF, core_foldS]) | split | (rename _ = (_, _) => hh; obtain ⟨rfl, rfl⟩ := Prod.ext_iff.mp hh) | refine core_foldWith (fun s x => ?_) ?_ | refine Eq.trans (core_foldF (fun s x => ?_) _ _) ?_ | refine Eq.trans (core_foldS (fun s x => ?_) _ _) ?_)
theorem State_announceAll_kept (x0) : (@State.announceAll x0).core = x0.core := by
  unfold State.announceAll
  (repeat' first | with_reducible rfl | (intros; simp only [State_announcePart_kept, keep_rules, ite_self, implies_true, core_fold, core_foldF, core_foldS]) | split | (rename _ = (_, _) => hh; obtain ⟨rfl, rfl⟩ := Prod.ext_iff.mp hh) | refine core_foldWith (fun s x => ?_) ?_ | refine Eq.trans (core_foldF (fun s x => ?_) _ _) ?_ | refine Eq.trans (core_foldS (fun s x => ?_) _ _) ?_)
theorem execQuireAnnouncementRx_kept (x0) (x1) (x2) : ∃ t, (@execQuireAnnouncementRx x0 x1 x2) = .next t ∧ t.core = x2.core := by unfold execQuireAnnouncementRx; (try dsimp only); (repeat' first | (split) | (rename _ = (_, _) => hh; obtain ⟨rfl, rfl⟩ := Prod.ext_iff.mp hh)) <;> exact ⟨_, rfl, by (repeat' first | with_reducible rfl | (intros; simp only [State_updVol_kept, State_updQuireVol_kept, keep_rules, ite_self, implies_true, core_fold, core_foldF, core_foldS]) | split | (rename _ = (_, _) => hh; obtain ⟨rfl, rfl⟩ := Prod.ext_iff.mp hh) | refine core_foldWith (fun s x => ?_) ?_ | refine Eq.trans (core_foldF (fun s x => ?_) _ _) ?_ | refine Eq.trans (core_foldS (fun s x => ?_) _ _) ?_)⟩
theorem State_updUnit_kept (x0) (x1) (x2) : (@State.updUnit x0 x1 x2).core = x0.core := by
  unfold State.updUnit
  (repeat' first | with_reducible rfl | (intros; simp only [keep_rules, ite_self, implies_true, core_fold, core_foldF, core_foldS]) | split | (rename _ = (_, _) => hh; obtain ⟨rfl, rfl⟩ := Prod.ext_iff.mp hh) | refine core_foldWith (fun s x => ?_) ?_ | refine Eq.trans (core_foldF (fun s x => ?_) _ _) ?_ | refine Eq.trans (core_foldS (fun s x => ?_) _ _) ?_)
theorem State_setPlane_kept (x0) (x1) (x2) : (@State.setPlane x0 x1 x2).core = x0.core := by
  unfold State.setPlane
  (repeat' first | with_reducible rfl | (intros; simp only [keep_rules, ite_self, implies_true, core_fold, core_foldF, core_foldS]) | split | (rename _ = (_, _) => hh; obtain ⟨rfl, rfl⟩ := Prod.ext_iff.mp hh) | refine core_foldWith (fun s x => ?_) ?_ | refine Eq.trans (core_foldF (fun s x => ?_) _ _) ?_ | refine Eq.trans (core_foldS (fun s x => ?_) _ _) ?_)
theorem State_unitFault_kept (x0) (x1) : (@State.unitFault x0 x1).core = x0.core := by
  unfold State.unitFault
  (repeat' first | with_reducible rfl | (intros; simp only [State_fault_kept, State_updUnit_kept, State_setDegraded_kept, keep_rules, ite_self, implies_true, core_fold, core_foldF, core_foldS]) | split | (rename _ = (_, _) => hh; obtain ⟨rfl, rfl⟩ := Prod.ext_iff.mp hh) | refine core_foldWith (fun s x => ?_) ?_ | refine Eq.trans (core_foldF (fun s x => ?_) _ _) ?_ | refine Eq.trans (core_foldS (fun s x => ?_) _ _) ?_)
theorem State_unitFaultOf_kept (x0) (x1) (x2) (x3) : (@State.unitFaultOf x0 x1 x2 x3).core = x0.core := by
  unfold State.unitFaultOf
  (repeat' first | with_reducible rfl | (intros; simp only [State_addFault_kept, State_updUnit_kept, State_setDegraded_kept, State_unitFault_kept, keep_rules, ite_self, implies_true, core_fold, core_foldF, core_foldS]) | split | (rename _ = (_, _) => hh; obtain ⟨rfl, rfl⟩ := Prod.ext_iff.mp hh) | refine core_foldWith (fun s x => ?_) ?_ | refine Eq.trans (core_foldF (fun s x => ?_) _ _) ?_ | refine Eq.trans (core_foldS (fun s x => ?_) _ _) ?_)
theorem State_planeChange_kept (x0) (x1) (x2) (x3) : (@State.planeChange x0 x1 x2 x3).core = x0.core := by
  unfold State.planeChange
  (repeat' first | with_reducible rfl | (intros; simp only [State_setPlane_kept, keep_rules, ite_self, implies_true, core_fold, core_foldF, core_foldS]) | split | (rename _ = (_, _) => hh; obtain ⟨rfl, rfl⟩ := Prod.ext_iff.mp hh) | refine core_foldWith (fun s x => ?_) ?_ | refine Eq.trans (core_foldF (fun s x => ?_) _ _) ?_ | refine Eq.trans (core_foldS (fun s x => ?_) _ _) ?_)
theorem State_sendChange_kept (x0) (x1) (x2) : (@State.sendChange x0 x1 x2).core = x0.core := by
  unfold State.sendChange
  (repeat' first | with_reducible rfl | (intros; simp only [State_nextGen_kept, State_sendSet_kept, State_setPlane_kept, State_tellBores_kept, keep_rules, ite_self, implies_true, core_fold, core_foldF, core_foldS]) | split | (rename _ = (_, _) => hh; obtain ⟨rfl, rfl⟩ := Prod.ext_iff.mp hh) | refine core_foldWith (fun s x => ?_) ?_ | refine Eq.trans (core_foldF (fun s x => ?_) _ _) ?_ | refine Eq.trans (core_foldS (fun s x => ?_) _ _) ?_)
theorem hBoreOpen_kept (x0) (x1) : (@hBoreOpen x0 x1).1.core = x1.core := by
  unfold hBoreOpen
  (repeat' first | with_reducible rfl | (intros; simp only [refuse_kept, multi_kept, State_planeChange_kept, durable_kept, keep_rules, ite_self, implies_true, core_fold, core_foldF, core_foldS]) | split | (rename _ = (_, _) => hh; obtain ⟨rfl, rfl⟩ := Prod.ext_iff.mp hh) | refine core_foldWith (fun s x => ?_) ?_ | refine Eq.trans (core_foldF (fun s x => ?_) _ _) ?_ | refine Eq.trans (core_foldS (fun s x => ?_) _ _) ?_)
theorem execBoreOpen_kept (x0) (x1) : ∃ t, (@execBoreOpen x0 x1) = .next t ∧ t.core = x1.core := by unfold execBoreOpen; exact ⟨_, rfl, by (repeat' first | with_reducible rfl | (intros; simp only [State_present_kept, hBoreOpen_kept, keep_rules, ite_self, implies_true, core_fold, core_foldF, core_foldS]) | split | (rename _ = (_, _) => hh; obtain ⟨rfl, rfl⟩ := Prod.ext_iff.mp hh) | refine core_foldWith (fun s x => ?_) ?_ | refine Eq.trans (core_foldF (fun s x => ?_) _ _) ?_ | refine Eq.trans (core_foldS (fun s x => ?_) _ _) ?_)⟩
theorem hBoreClose_kept (x0) (x1) : (@hBoreClose x0 x1).1.core = x1.core := by
  unfold hBoreClose
  (repeat' first | with_reducible rfl | (intros; simp only [refuse_kept, State_setPlane_kept, durable_kept, keep_rules, ite_self, implies_true, core_fold, core_foldF, core_foldS]) | split | (rename _ = (_, _) => hh; obtain ⟨rfl, rfl⟩ := Prod.ext_iff.mp hh) | refine core_foldWith (fun s x => ?_) ?_ | refine Eq.trans (core_foldF (fun s x => ?_) _ _) ?_ | refine Eq.trans (core_foldS (fun s x => ?_) _ _) ?_)
theorem execBoreClose_kept (x0) (x1) : ∃ t, (@execBoreClose x0 x1) = .next t ∧ t.core = x1.core := by unfold execBoreClose; exact ⟨_, rfl, by (repeat' first | with_reducible rfl | (intros; simp only [State_present_kept, hBoreClose_kept, keep_rules, ite_self, implies_true, core_fold, core_foldF, core_foldS]) | split | (rename _ = (_, _) => hh; obtain ⟨rfl, rfl⟩ := Prod.ext_iff.mp hh) | refine core_foldWith (fun s x => ?_) ?_ | refine Eq.trans (core_foldF (fun s x => ?_) _ _) ?_ | refine Eq.trans (core_foldS (fun s x => ?_) _ _) ?_)⟩
theorem State_closeSealed_kept (x0) : (@State.closeSealed x0).core = x0.core := by
  unfold State.closeSealed
  (repeat' first | with_reducible rfl | (intros; simp only [State_planeChange_kept, keep_rules, ite_self, implies_true, core_fold, core_foldF, core_foldS]) | split | (rename _ = (_, _) => hh; obtain ⟨rfl, rfl⟩ := Prod.ext_iff.mp hh) | refine core_foldWith (fun s x => ?_) ?_ | refine Eq.trans (core_foldF (fun s x => ?_) _ _) ?_ | refine Eq.trans (core_foldS (fun s x => ?_) _ _) ?_)
theorem State_closeDropped_kept (x0) (x1) : (@State.closeDropped x0 x1).core = x0.core := by
  unfold State.closeDropped
  (repeat' first | with_reducible rfl | (intros; simp only [State_setPlane_kept, keep_rules, ite_self, implies_true, core_fold, core_foldF, core_foldS]) | split | (rename _ = (_, _) => hh; obtain ⟨rfl, rfl⟩ := Prod.ext_iff.mp hh) | refine core_foldWith (fun s x => ?_) ?_ | refine Eq.trans (core_foldF (fun s x => ?_) _ _) ?_ | refine Eq.trans (core_foldS (fun s x => ?_) _ _) ?_)
theorem State_askMap_kept (x0) (x1) (x2) : (@State.askMap x0 x1 x2).core = x0.core := by
  unfold State.askMap
  (repeat' first | with_reducible rfl | (intros; simp only [State_sendOcs_kept, keep_rules, ite_self, implies_true, core_fold, core_foldF, core_foldS]) | split | (rename _ = (_, _) => hh; obtain ⟨rfl, rfl⟩ := Prod.ext_iff.mp hh) | refine core_foldWith (fun s x => ?_) ?_ | refine Eq.trans (core_foldF (fun s x => ?_) _ _) ?_ | refine Eq.trans (core_foldS (fun s x => ?_) _ _) ?_)
theorem State_startReconcile_kept (x0) (x1) : (@State.startReconcile x0 x1).core = x0.core := by
  unfold State.startReconcile
  (repeat' first | with_reducible rfl | (intros; simp only [State_updUnit_kept, State_setPlane_kept, State_askMap_kept, keep_rules, ite_self, implies_true, core_fold, core_foldF, core_foldS]) | split | (rename _ = (_, _) => hh; obtain ⟨rfl, rfl⟩ := Prod.ext_iff.mp hh) | refine core_foldWith (fun s x => ?_) ?_ | refine Eq.trans (core_foldF (fun s x => ?_) _ _) ?_ | refine Eq.trans (core_foldS (fun s x => ?_) _ _) ?_)
theorem State_mapTo_kept (x0) (x1) : (@State.mapTo x0 x1).core = x0.core := by
  unfold State.mapTo
  (repeat' first | with_reducible rfl | (intros; simp only [State_stageOwn_kept, keep_rules, ite_self, implies_true, core_fold, core_foldF, core_foldS]) | split | (rename _ = (_, _) => hh; obtain ⟨rfl, rfl⟩ := Prod.ext_iff.mp hh) | refine core_foldWith (fun s x => ?_) ?_ | refine Eq.trans (core_foldF (fun s x => ?_) _ _) ?_ | refine Eq.trans (core_foldS (fun s x => ?_) _ _) ?_)
theorem State_forget_kept (x0) (x1) : (@State.forget x0 x1).core = x0.core := by
  unfold State.forget
  (repeat' first | with_reducible rfl | (intros; simp only [keep_rules, ite_self, implies_true, core_fold, core_foldF, core_foldS]) | split | (rename _ = (_, _) => hh; obtain ⟨rfl, rfl⟩ := Prod.ext_iff.mp hh) | refine core_foldWith (fun s x => ?_) ?_ | refine Eq.trans (core_foldF (fun s x => ?_) _ _) ?_ | refine Eq.trans (core_foldS (fun s x => ?_) _ _) ?_)
theorem State_startRound_kept (x0) (x1) (x2) (x3) (x4) : (@State.startRound x0 x1 x2 x3 x4).core = x0.core := by
  unfold State.startRound
  (repeat' first | with_reducible rfl | (intros; simp only [State_mapTo_kept, State_forget_kept, State_planeChange_kept, keep_rules, ite_self, implies_true, core_fold, core_foldF, core_foldS]) | split | (rename _ = (_, _) => hh; obtain ⟨rfl, rfl⟩ := Prod.ext_iff.mp hh) | refine core_foldWith (fun s x => ?_) ?_ | refine Eq.trans (core_foldF (fun s x => ?_) _ _) ?_ | refine Eq.trans (core_foldS (fun s x => ?_) _ _) ?_)
theorem hDiscScan_kept (x0) (x1) : (@hDiscScan x0 x1).1.core = x1.core := by
  unfold hDiscScan
  (repeat' first | with_reducible rfl | (intros; simp only [refuse_kept, multi_kept, State_stage_kept, State_updUnit_kept, State_sendOcs_kept, keep_rules, ite_self, implies_true, core_fold, core_foldF, core_foldS]) | split | (rename _ = (_, _) => hh; obtain ⟨rfl, rfl⟩ := Prod.ext_iff.mp hh) | refine core_foldWith (fun s x => ?_) ?_ | refine Eq.trans (core_foldF (fun s x => ?_) _ _) ?_ | refine Eq.trans (core_foldS (fun s x => ?_) _ _) ?_)
theorem execDiscScan_kept (x0) (x1) : ∃ t, (@execDiscScan x0 x1) = .next t ∧ t.core = x1.core := by unfold execDiscScan; exact ⟨_, rfl, by (repeat' first | with_reducible rfl | (intros; simp only [State_present_kept, hDiscScan_kept, keep_rules, ite_self, implies_true, core_fold, core_foldF, core_foldS]) | split | (rename _ = (_, _) => hh; obtain ⟨rfl, rfl⟩ := Prod.ext_iff.mp hh) | refine core_foldWith (fun s x => ?_) ?_ | refine Eq.trans (core_foldF (fun s x => ?_) _ _) ?_ | refine Eq.trans (core_foldS (fun s x => ?_) _ _) ?_)⟩
theorem State_nextChange_kept (x0) (x1) : (@State.nextChange x0 x1).core = x0.core := by
  unfold State.nextChange
  (repeat' first | with_reducible rfl | (intros; simp only [State_startReconcile_kept, State_planeChange_kept, State_failTask_kept, State_startRound_kept, keep_rules, ite_self, implies_true, core_fold, core_foldF, core_foldS]) | split | (rename _ = (_, _) => hh; obtain ⟨rfl, rfl⟩ := Prod.ext_iff.mp hh) | refine core_foldWith (fun s x => ?_) ?_ | refine Eq.trans (core_foldF (fun s x => ?_) _ _) ?_ | refine Eq.trans (core_foldS (fun s x => ?_) _ _) ?_)
theorem State_nextChanges_kept (x0) : (@State.nextChanges x0).core = x0.core := by
  unfold State.nextChanges
  (repeat' first | with_reducible rfl | (intros; simp only [State_nextChange_kept, keep_rules, ite_self, implies_true, core_fold, core_foldF, core_foldS]) | split | (rename _ = (_, _) => hh; obtain ⟨rfl, rfl⟩ := Prod.ext_iff.mp hh) | refine core_foldWith (fun s x => ?_) ?_ | refine Eq.trans (core_foldF (fun s x => ?_) _ _) ?_ | refine Eq.trans (core_foldS (fun s x => ?_) _ _) ?_)
theorem State_stageMap_kept (x0) (x1) (x2) (x3) (x4) : (@State.stageMap x0 x1 x2 x3 x4).core = x0.core := by
  unfold State.stageMap
  (repeat' first | with_reducible rfl | (intros; simp only [State_stage_kept, keep_rules, ite_self, implies_true, core_fold, core_foldF, core_foldS]) | split | (rename _ = (_, _) => hh; obtain ⟨rfl, rfl⟩ := Prod.ext_iff.mp hh) | refine core_foldWith (fun s x => ?_) ?_ | refine Eq.trans (core_foldF (fun s x => ?_) _ _) ?_ | refine Eq.trans (core_foldS (fun s x => ?_) _ _) ?_)
theorem State_scanEnded_kept (x0) (x1) (x2) (x3) : (@State.scanEnded x0 x1 x2 x3).core = x0.core := by
  unfold State.scanEnded
  (repeat' first | with_reducible rfl | (intros; simp only [State_planeChange_kept, State_stageMap_kept, State_stageOwn_kept, State_failTask_kept, keep_rules, ite_self, implies_true, core_fold, core_foldF, core_foldS]) | split | (rename _ = (_, _) => hh; obtain ⟨rfl, rfl⟩ := Prod.ext_iff.mp hh) | refine core_foldWith (fun s x => ?_) ?_ | refine Eq.trans (core_foldF (fun s x => ?_) _ _) ?_ | refine Eq.trans (core_foldS (fun s x => ?_) _ _) ?_)
theorem execScanRoundEnd_kept (x0) (x1) : ∃ t, (@execScanRoundEnd x0 x1) = .next t ∧ t.core = x1.core := by unfold execScanRoundEnd; (try dsimp only); (repeat' first | (split) | (rename _ = (_, _) => hh; obtain ⟨rfl, rfl⟩ := Prod.ext_iff.mp hh)) <;> exact ⟨_, rfl, by (repeat' first | with_reducible rfl | (intros; simp only [State_startRound_kept, State_scanEnded_kept, keep_rules, ite_self, implies_true, core_fold, core_foldF, core_foldS]) | split | (rename _ = (_, _) => hh; obtain ⟨rfl, rfl⟩ := Prod.ext_iff.mp hh) | refine core_foldWith (fun s x => ?_) ?_ | refine Eq.trans (core_foldF (fun s x => ?_) _ _) ?_ | refine Eq.trans (core_foldS (fun s x => ?_) _ _) ?_)⟩
theorem State_finishChange_kept (x0) (x1) (x2) : (@State.finishChange x0 x1 x2).core = x0.core := by
  unfold State.finishChange
  (repeat' first | with_reducible rfl | (intros; simp only [State_unitFaultOf_kept, State_setPlane_kept, State_failTask_kept, State_stageTask_kept, State_updUnit_kept, State_updTask_kept, State_mapTo_kept, keep_rules, ite_self, implies_true, core_fold, core_foldF, core_foldS]) | split | (rename _ = (_, _) => hh; obtain ⟨rfl, rfl⟩ := Prod.ext_iff.mp hh) | refine core_foldWith (fun s x => ?_) ?_ | refine Eq.trans (core_foldF (fun s x => ?_) _ _) ?_ | refine Eq.trans (core_foldS (fun s x => ?_) _ _) ?_)
theorem State_checkChange_kept (x0) (x1) : (@State.checkChange x0 x1).core = x0.core := by
  unfold State.checkChange
  (repeat' first | with_reducible rfl | (intros; simp only [State_sendChange_kept, State_finishChange_kept, keep_rules, ite_self, implies_true, core_fold, core_foldF, core_foldS]) | split | (rename _ = (_, _) => hh; obtain ⟨rfl, rfl⟩ := Prod.ext_iff.mp hh) | refine core_foldWith (fun s x => ?_) ?_ | refine Eq.trans (core_foldF (fun s x => ?_) _ _) ?_ | refine Eq.trans (core_foldS (fun s x => ?_) _ _) ?_)
theorem State_sendChanges_kept (x0) : (@State.sendChanges x0).core = x0.core := by
  unfold State.sendChanges
  (repeat' first | with_reducible rfl | (intros; simp only [State_sendChange_kept, State_checkChange_kept, keep_rules, ite_self, implies_true, core_fold, core_foldF, core_foldS]) | split | (rename _ = (_, _) => hh; obtain ⟨rfl, rfl⟩ := Prod.ext_iff.mp hh) | refine core_foldWith (fun s x => ?_) ?_ | refine Eq.trans (core_foldF (fun s x => ?_) _ _) ?_ | refine Eq.trans (core_foldS (fun s x => ?_) _ _) ?_)
theorem State_updPart_kept (x0) (x1) (x2) : (@State.updPart x0 x1 x2).core = x0.core := by
  unfold State.updPart
  (repeat' first | with_reducible rfl | (intros; simp only [State_setPlane_kept, keep_rules, ite_self, implies_true, core_fold, core_foldF, core_foldS]) | split | (rename _ = (_, _) => hh; obtain ⟨rfl, rfl⟩ := Prod.ext_iff.mp hh) | refine core_foldWith (fun s x => ?_) ?_ | refine Eq.trans (core_foldF (fun s x => ?_) _ _) ?_ | refine Eq.trans (core_foldS (fun s x => ?_) _ _) ?_)
theorem State_failPart_kept (x0) (x1) (x2) : (@State.failPart x0 x1 x2).core = x0.core := by
  unfold State.failPart
  (repeat' first | with_reducible rfl | (intros; simp only [State_updPart_kept, State_sendSet_kept, State_nextGen_kept, State_checkChange_kept, keep_rules, ite_self, implies_true, core_fold, core_foldF, core_foldS]) | split | (rename _ = (_, _) => hh; obtain ⟨rfl, rfl⟩ := Prod.ext_iff.mp hh) | refine core_foldWith (fun s x => ?_) ?_ | refine Eq.trans (core_foldF (fun s x => ?_) _ _) ?_ | refine Eq.trans (core_foldS (fun s x => ?_) _ _) ?_)
theorem State_ocsSetAck_kept (x0) (x1) (x2) : (@State.ocsSetAck x0 x1 x2).core = x0.core := by
  unfold State.ocsSetAck
  (repeat' first | with_reducible rfl | (intros; simp only [State_failPart_kept, keep_rules, ite_self, implies_true, core_fold, core_foldF, core_foldS]) | split | (rename _ = (_, _) => hh; obtain ⟨rfl, rfl⟩ := Prod.ext_iff.mp hh) | refine core_foldWith (fun s x => ?_) ?_ | refine Eq.trans (core_foldF (fun s x => ?_) _ _) ?_ | refine Eq.trans (core_foldS (fun s x => ?_) _ _) ?_)
theorem State_ocsSetDone_kept (x0) (x1) (x2) : (@State.ocsSetDone x0 x1 x2).core = x0.core := by
  unfold State.ocsSetDone
  (repeat' first | with_reducible rfl | (intros; simp only [State_updPart_kept, State_checkChange_kept, State_failPart_kept, keep_rules, ite_self, implies_true, core_fold, core_foldF, core_foldS]) | split | (rename _ = (_, _) => hh; obtain ⟨rfl, rfl⟩ := Prod.ext_iff.mp hh) | refine core_foldWith (fun s x => ?_) ?_ | refine Eq.trans (core_foldF (fun s x => ?_) _ _) ?_ | refine Eq.trans (core_foldS (fun s x => ?_) _ _) ?_)
theorem State_ocsMap_kept (x0) (x1) (x2) : (@State.ocsMap x0 x1 x2).core = x0.core := by
  unfold State.ocsMap
  (repeat' first | with_reducible rfl | (intros; simp only [State_updUnit_kept, State_askMap_kept, State_setPlane_kept, keep_rules, ite_self, implies_true, core_fold, core_foldF, core_foldS]) | split | (rename _ = (_, _) => hh; obtain ⟨rfl, rfl⟩ := Prod.ext_iff.mp hh) | refine core_foldWith (fun s x => ?_) ?_ | refine Eq.trans (core_foldF (fun s x => ?_) _ _) ?_ | refine Eq.trans (core_foldS (fun s x => ?_) _ _) ?_)
theorem State_ocsIdent_kept (x0) (x1) (x2) : (@State.ocsIdent x0 x1 x2).core = x0.core := by
  unfold State.ocsIdent
  (repeat' first | with_reducible rfl | (intros; simp only [State_updUnit_kept, State_mapTo_kept, State_fault_kept, keep_rules, ite_self, implies_true, core_fold, core_foldF, core_foldS]) | split | (rename _ = (_, _) => hh; obtain ⟨rfl, rfl⟩ := Prod.ext_iff.mp hh) | refine core_foldWith (fun s x => ?_) ?_ | refine Eq.trans (core_foldF (fun s x => ?_) _ _) ?_ | refine Eq.trans (core_foldS (fun s x => ?_) _ _) ?_)
theorem State_ocsAlarm_kept (x0) (x1) (x2) : (@State.ocsAlarm x0 x1 x2).core = x0.core := by
  unfold State.ocsAlarm
  (repeat' first | with_reducible rfl | (intros; simp only [State_fault_kept, State_updUnit_kept, State_sendOcs_kept, keep_rules, ite_self, implies_true, core_fold, core_foldF, core_foldS]) | split | (rename _ = (_, _) => hh; obtain ⟨rfl, rfl⟩ := Prod.ext_iff.mp hh) | refine core_foldWith (fun s x => ?_) ?_ | refine Eq.trans (core_foldF (fun s x => ?_) _ _) ?_ | refine Eq.trans (core_foldS (fun s x => ?_) _ _) ?_)
theorem State_ethDiscard1_kept (x0) (x1) : (@State.ethDiscard1 x0 x1).core = x0.core := by
  unfold State.ethDiscard1
  (repeat' first | with_reducible rfl | (intros; simp only [keep_rules, ite_self, implies_true, core_fold, core_foldF, core_foldS]) | split | (rename _ = (_, _) => hh; obtain ⟨rfl, rfl⟩ := Prod.ext_iff.mp hh) | refine core_foldWith (fun s x => ?_) ?_ | refine Eq.trans (core_foldF (fun s x => ?_) _ _) ?_ | refine Eq.trans (core_foldS (fun s x => ?_) _ _) ?_)
theorem State_ocsReceive_kept (x0) (x1) (x2) : (@State.ocsReceive x0 x1 x2).core = x0.core := by
  unfold State.ocsReceive
  (repeat' first | with_reducible rfl | (intros; simp only [State_ethDiscard1_kept, State_take_kept, State_fault_kept, State_updUnit_kept, State_mapTo_kept, State_ocsIdent_kept, State_ocsSetAck_kept, State_ocsSetDone_kept, State_ocsMap_kept, State_ocsAlarm_kept, keep_rules, ite_self, implies_true, core_fold, core_foldF, core_foldS]) | split | (rename _ = (_, _) => hh; obtain ⟨rfl, rfl⟩ := Prod.ext_iff.mp hh) | refine core_foldWith (fun s x => ?_) ?_ | refine Eq.trans (core_foldF (fun s x => ?_) _ _) ?_ | refine Eq.trans (core_foldS (fun s x => ?_) _ _) ?_)
theorem execIdentRx_kept (x0) (x1) (x2) : ∃ t, (@execIdentRx x0 x1 x2) = .next t ∧ t.core = x2.core := by unfold execIdentRx; exact ⟨_, rfl, by (repeat' first | with_reducible rfl | (intros; simp only [State_ocsReceive_kept, keep_rules, ite_self, implies_true, core_fold, core_foldF, core_foldS]) | split | (rename _ = (_, _) => hh; obtain ⟨rfl, rfl⟩ := Prod.ext_iff.mp hh) | refine core_foldWith (fun s x => ?_) ?_ | refine Eq.trans (core_foldF (fun s x => ?_) _ _) ?_ | refine Eq.trans (core_foldS (fun s x => ?_) _ _) ?_)⟩
theorem execSetAckRx_kept (x0) (x1) (x2) : ∃ t, (@execSetAckRx x0 x1 x2) = .next t ∧ t.core = x2.core := by unfold execSetAckRx; exact ⟨_, rfl, by (repeat' first | with_reducible rfl | (intros; simp only [State_ocsReceive_kept, keep_rules, ite_self, implies_true, core_fold, core_foldF, core_foldS]) | split | (rename _ = (_, _) => hh; obtain ⟨rfl, rfl⟩ := Prod.ext_iff.mp hh) | refine core_foldWith (fun s x => ?_) ?_ | refine Eq.trans (core_foldF (fun s x => ?_) _ _) ?_ | refine Eq.trans (core_foldS (fun s x => ?_) _ _) ?_)⟩
theorem execSetDoneRx_kept (x0) (x1) (x2) : ∃ t, (@execSetDoneRx x0 x1 x2) = .next t ∧ t.core = x2.core := by unfold execSetDoneRx; exact ⟨_, rfl, by (repeat' first | with_reducible rfl | (intros; simp only [State_ocsReceive_kept, keep_rules, ite_self, implies_true, core_fold, core_foldF, core_foldS]) | split | (rename _ = (_, _) => hh; obtain ⟨rfl, rfl⟩ := Prod.ext_iff.mp hh) | refine core_foldWith (fun s x => ?_) ?_ | refine Eq.trans (core_foldF (fun s x => ?_) _ _) ?_ | refine Eq.trans (core_foldS (fun s x => ?_) _ _) ?_)⟩
theorem execMapRx_kept (x0) (x1) (x2) : ∃ t, (@execMapRx x0 x1 x2) = .next t ∧ t.core = x2.core := by unfold execMapRx; exact ⟨_, rfl, by (repeat' first | with_reducible rfl | (intros; simp only [State_ocsReceive_kept, keep_rules, ite_self, implies_true, core_fold, core_foldF, core_foldS]) | split | (rename _ = (_, _) => hh; obtain ⟨rfl, rfl⟩ := Prod.ext_iff.mp hh) | refine core_foldWith (fun s x => ?_) ?_ | refine Eq.trans (core_foldF (fun s x => ?_) _ _) ?_ | refine Eq.trans (core_foldS (fun s x => ?_) _ _) ?_)⟩
theorem execAlarmRx_kept (x0) (x1) (x2) : ∃ t, (@execAlarmRx x0 x1 x2) = .next t ∧ t.core = x2.core := by unfold execAlarmRx; exact ⟨_, rfl, by (repeat' first | with_reducible rfl | (intros; simp only [State_ocsReceive_kept, keep_rules, ite_self, implies_true, core_fold, core_foldF, core_foldS]) | split | (rename _ = (_, _) => hh; obtain ⟨rfl, rfl⟩ := Prod.ext_iff.mp hh) | refine core_foldWith (fun s x => ?_) ?_ | refine Eq.trans (core_foldF (fun s x => ?_) _ _) ?_ | refine Eq.trans (core_foldS (fun s x => ?_) _ _) ?_)⟩
theorem execSetDeadlineExpiry_kept (x0) (x1) : ∃ t, (@execSetDeadlineExpiry x0 x1) = .next t ∧ t.core = x1.core := by unfold execSetDeadlineExpiry; exact ⟨_, rfl, by (repeat' first | with_reducible rfl | (intros; simp only [State_failPart_kept, keep_rules, ite_self, implies_true, core_fold, core_foldF, core_foldS]) | split | (rename _ = (_, _) => hh; obtain ⟨rfl, rfl⟩ := Prod.ext_iff.mp hh) | refine core_foldWith (fun s x => ?_) ?_ | refine Eq.trans (core_foldF (fun s x => ?_) _ _) ?_ | refine Eq.trans (core_foldS (fun s x => ?_) _ _) ?_)⟩
theorem State_identReq_kept (x0) (x1) : (@State.identReq x0 x1).core = x0.core := by
  unfold State.identReq
  (repeat' first | with_reducible rfl | (intros; simp only [State_updUnit_kept, State_unitFault_kept, State_sendOcs_kept, keep_rules, ite_self, implies_true, core_fold, core_foldF, core_foldS]) | split | (rename _ = (_, _) => hh; obtain ⟨rfl, rfl⟩ := Prod.ext_iff.mp hh) | refine core_foldWith (fun s x => ?_) ?_ | refine Eq.trans (core_foldF (fun s x => ?_) _ _) ?_ | refine Eq.trans (core_foldS (fun s x => ?_) _ _) ?_)
theorem execIdentReqTimer_kept (x0) : ∃ t, (@execIdentReqTimer x0) = .next t ∧ t.core = x0.core := by unfold execIdentReqTimer; (try dsimp only); (repeat' first | (split) | (rename _ = (_, _) => hh; obtain ⟨rfl, rfl⟩ := Prod.ext_iff.mp hh)) <;> exact ⟨_, rfl, by (repeat' first | with_reducible rfl | (intros; simp only [State_identReq_kept, keep_rules, ite_self, implies_true, core_fold, core_foldF, core_foldS]) | split | (rename _ = (_, _) => hh; obtain ⟨rfl, rfl⟩ := Prod.ext_iff.mp hh) | refine core_foldWith (fun s x => ?_) ?_ | refine Eq.trans (core_foldF (fun s x => ?_) _ _) ?_ | refine Eq.trans (core_foldS (fun s x => ?_) _ _) ?_)⟩
theorem State_loseReach_kept (x0) (x1) : (@State.loseReach x0 x1).core = x0.core := by
  unfold State.loseReach
  (repeat' first | with_reducible rfl | (intros; simp only [State_lasting_kept, State_mapTo_kept, keep_rules, ite_self, implies_true, core_fold, core_foldF, core_foldS]) | split | (rename _ = (_, _) => hh; obtain ⟨rfl, rfl⟩ := Prod.ext_iff.mp hh) | refine core_foldWith (fun s x => ?_) ?_ | refine Eq.trans (core_foldF (fun s x => ?_) _ _) ?_ | refine Eq.trans (core_foldS (fun s x => ?_) _ _) ?_)
theorem execHouseBoreMove_kept (x0) (x1) : ∃ t, (@execHouseBoreMove x0 x1) = .next t ∧ t.core = x1.core := by unfold execHouseBoreMove; (try dsimp only); (repeat' first | (split) | (rename _ = (_, _) => hh; obtain ⟨rfl, rfl⟩ := Prod.ext_iff.mp hh)) <;> exact ⟨_, rfl, by (repeat' first | with_reducible rfl | (intros; simp only [State_loseReach_kept, State_mapTo_kept, State_planeChange_kept, keep_rules, ite_self, implies_true, core_fold, core_foldF, core_foldS]) | split | (rename _ = (_, _) => hh; obtain ⟨rfl, rfl⟩ := Prod.ext_iff.mp hh) | refine core_foldWith (fun s x => ?_) ?_ | refine Eq.trans (core_foldF (fun s x => ?_) _ _) ?_ | refine Eq.trans (core_foldS (fun s x => ?_) _ _) ?_)⟩
theorem hRebindPlan_kept (x0) (x1) : (@hRebindPlan x0 x1).1.core = x1.core := by
  unfold hRebindPlan
  (repeat' first | with_reducible rfl | (intros; simp only [refuse_kept, volatileOk_kept, State_updQuireVol_kept, multi_kept, keep_rules, ite_self, implies_true, core_fold, core_foldF, core_foldS]) | split | (rename _ = (_, _) => hh; obtain ⟨rfl, rfl⟩ := Prod.ext_iff.mp hh) | refine core_foldWith (fun s x => ?_) ?_ | refine Eq.trans (core_foldF (fun s x => ?_) _ _) ?_ | refine Eq.trans (core_foldS (fun s x => ?_) _ _) ?_)
theorem execRebindPlan_kept (x0) (x1) : ∃ t, (@execRebindPlan x0 x1) = .next t ∧ t.core = x1.core := by unfold execRebindPlan; exact ⟨_, rfl, by (repeat' first | with_reducible rfl | (intros; simp only [State_present_kept, hRebindPlan_kept, keep_rules, ite_self, implies_true, core_fold, core_foldF, core_foldS]) | split | (rename _ = (_, _) => hh; obtain ⟨rfl, rfl⟩ := Prod.ext_iff.mp hh) | refine core_foldWith (fun s x => ?_) ?_ | refine Eq.trans (core_foldF (fun s x => ?_) _ _) ?_ | refine Eq.trans (core_foldS (fun s x => ?_) _ _) ?_)⟩
theorem State_workPlan_kept (x0) (x1) (x2) (x3) (x4) : (@State.workPlan x0 x1 x2 x3 x4).1.core = x0.core := by
  unfold State.workPlan
  (repeat' first | with_reducible rfl | (intros; simp only [State_failTask_kept, State_updTask_kept, State_updQuireVol_kept, State_endTask_kept, keep_rules, ite_self, implies_true, core_fold, core_foldF, core_foldS]) | split | (rename _ = (_, _) => hh; obtain ⟨rfl, rfl⟩ := Prod.ext_iff.mp hh) | refine core_foldWith (fun s x => ?_) ?_ | refine Eq.trans (core_foldF (fun s x => ?_) _ _) ?_ | refine Eq.trans (core_foldS (fun s x => ?_) _ _) ?_)
theorem hRebindCommit_kept (x0) (x1) : (@hRebindCommit x0 x1).1.core = x1.core := by
  unfold hRebindCommit
  (repeat' first | with_reducible rfl | (intros; simp only [refuse_kept, State_updQuireVol_kept, multi_kept, keep_rules, ite_self, implies_true, core_fold, core_foldF, core_foldS]) | split | (rename _ = (_, _) => hh; obtain ⟨rfl, rfl⟩ := Prod.ext_iff.mp hh) | refine core_foldWith (fun s x => ?_) ?_ | refine Eq.trans (core_foldF (fun s x => ?_) _ _) ?_ | refine Eq.trans (core_foldS (fun s x => ?_) _ _) ?_)
theorem execRebindCommit_kept (x0) (x1) : ∃ t, (@execRebindCommit x0 x1) = .next t ∧ t.core = x1.core := by unfold execRebindCommit; exact ⟨_, rfl, by (repeat' first | with_reducible rfl | (intros; simp only [State_present_kept, hRebindCommit_kept, keep_rules, ite_self, implies_true, core_fold, core_foldF, core_foldS]) | split | (rename _ = (_, _) => hh; obtain ⟨rfl, rfl⟩ := Prod.ext_iff.mp hh) | refine core_foldWith (fun s x => ?_) ?_ | refine Eq.trans (core_foldF (fun s x => ?_) _ _) ?_ | refine Eq.trans (core_foldS (fun s x => ?_) _ _) ?_)⟩
theorem hRebindStatus_kept (x0) (x1) : (@hRebindStatus x0 x1).1.core = x1.core := by
  unfold hRebindStatus
  (repeat' first | with_reducible rfl | (intros; simp only [keep_rules, ite_self, implies_true, core_fold, core_foldF, core_foldS]) | split | (rename _ = (_, _) => hh; obtain ⟨rfl, rfl⟩ := Prod.ext_iff.mp hh) | refine core_foldWith (fun s x => ?_) ?_ | refine Eq.trans (core_foldF (fun s x => ?_) _ _) ?_ | refine Eq.trans (core_foldS (fun s x => ?_) _ _) ?_)
theorem execRebindStatus_kept (x0) (x1) : ∃ t, (@execRebindStatus x0 x1) = .next t ∧ t.core = x1.core := by unfold execRebindStatus; exact ⟨_, rfl, by (repeat' first | with_reducible rfl | (intros; simp only [State_present_kept, hRebindStatus_kept, keep_rules, ite_self, implies_true, core_fold, core_foldF, core_foldS]) | split | (rename _ = (_, _) => hh; obtain ⟨rfl, rfl⟩ := Prod.ext_iff.mp hh) | refine core_foldWith (fun s x => ?_) ?_ | refine Eq.trans (core_foldF (fun s x => ?_) _ _) ?_ | refine Eq.trans (core_foldS (fun s x => ?_) _ _) ?_)⟩
theorem State_setRebind_kept (x0) (x1) (x2) : (@State.setRebind x0 x1 x2).core = x0.core := by
  unfold State.setRebind
  (repeat' first | with_reducible rfl | (intros; simp only [State_updTask_kept, State_updQuireVol_kept, keep_rules, ite_self, implies_true, core_fold, core_foldF, core_foldS]) | split | (rename _ = (_, _) => hh; obtain ⟨rfl, rfl⟩ := Prod.ext_iff.mp hh) | refine core_foldWith (fun s x => ?_) ?_ | refine Eq.trans (core_foldF (fun s x => ?_) _ _) ?_ | refine Eq.trans (core_foldS (fun s x => ?_) _ _) ?_)
theorem State_rebindOver_kept (x0) (x1) (x2) (x3) : (@State.rebindOver x0 x1 x2 x3).core = x0.core := by
  unfold State.rebindOver
  (repeat' first | with_reducible rfl | (intros; simp only [State_updQuireVol_kept, keep_rules, ite_self, implies_true, core_fold, core_foldF, core_foldS]) | split | (rename _ = (_, _) => hh; obtain ⟨rfl, rfl⟩ := Prod.ext_iff.mp hh) | refine core_foldWith (fun s x => ?_) ?_ | refine Eq.trans (core_foldF (fun s x => ?_) _ _) ?_ | refine Eq.trans (core_foldS (fun s x => ?_) _ _) ?_)
theorem State_rebindBegin_kept (x0) (x1) (x2) : (@State.rebindBegin x0 x1 x2).core = x0.core := by
  unfold State.rebindBegin
  (repeat' first | with_reducible rfl | (intros; simp only [State_setRebind_kept, State_stage_kept, keep_rules, ite_self, implies_true, core_fold, core_foldF, core_foldS]) | split | (rename _ = (_, _) => hh; obtain ⟨rfl, rfl⟩ := Prod.ext_iff.mp hh) | refine core_foldWith (fun s x => ?_) ?_ | refine Eq.trans (core_foldF (fun s x => ?_) _ _) ?_ | refine Eq.trans (core_foldS (fun s x => ?_) _ _) ?_)
theorem State_rebindAbort_kept (x0) (x1) (x2) : (@State.rebindAbort x0 x1 x2).core = x0.core := by
  unfold State.rebindAbort
  (repeat' first | with_reducible rfl | (intros; simp only [State_failTask_kept, State_rebindOver_kept, State_resumeAdmission_kept, keep_rules, ite_self, implies_true, core_fold, core_foldF, core_foldS]) | split | (rename _ = (_, _) => hh; obtain ⟨rfl, rfl⟩ := Prod.ext_iff.mp hh) | refine core_foldWith (fun s x => ?_) ?_ | refine Eq.trans (core_foldF (fun s x => ?_) _ _) ?_ | refine Eq.trans (core_foldS (fun s x => ?_) _ _) ?_)
theorem State_mendPlanes_kept (x0) (x1) : (@State.mendPlanes x0 x1).core = x0.core := by
  unfold State.mendPlanes
  (repeat' first | with_reducible rfl | (intros; simp only [State_updUnit_kept, keep_rules, ite_self, implies_true, core_fold, core_foldF, core_foldS]) | split | (rename _ = (_, _) => hh; obtain ⟨rfl, rfl⟩ := Prod.ext_iff.mp hh) | refine core_foldWith (fun s x => ?_) ?_ | refine Eq.trans (core_foldF (fun s x => ?_) _ _) ?_ | refine Eq.trans (core_foldS (fun s x => ?_) _ _) ?_)
theorem State_rebindRollback_kept (x0) (x1) (x2) (x3) : (@State.rebindRollback x0 x1 x2 x3).core = x0.core := by
  unfold State.rebindRollback
  (repeat' first | with_reducible rfl | (intros; simp only [State_mendPlanes_kept, State_soil_kept, State_rebindAbort_kept, State_setRebind_kept, State_stageTask_kept, keep_rules, ite_self, implies_true, core_fold, core_foldF, core_foldS]) | split | (rename _ = (_, _) => hh; obtain ⟨rfl, rfl⟩ := Prod.ext_iff.mp hh) | refine core_foldWith (fun s x => ?_) ?_ | refine Eq.trans (core_foldF (fun s x => ?_) _ _) ?_ | refine Eq.trans (core_foldS (fun s x => ?_) _ _) ?_)
theorem State_rebindPlanes_kept (x0) (x1) (x2) : (@State.rebindPlanes x0 x1 x2).core = x0.core := by
  unfold State.rebindPlanes
  (repeat' first | with_reducible rfl | (intros; simp only [State_planeChange_kept, keep_rules, ite_self, implies_true, core_fold, core_foldF, core_foldS]) | split | (rename _ = (_, _) => hh; obtain ⟨rfl, rfl⟩ := Prod.ext_iff.mp hh) | refine core_foldWith (fun s x => ?_) ?_ | refine Eq.trans (core_foldF (fun s x => ?_) _ _) ?_ | refine Eq.trans (core_foldS (fun s x => ?_) _ _) ?_)
theorem State_rebindBegun_kept (x0) (x1) (x2) : (@State.rebindBegun x0 x1 x2).core = x0.core := by
  unfold State.rebindBegun
  (repeat' first | with_reducible rfl | (intros; simp only [State_setRebind_kept, State_rebindPlanes_kept, keep_rules, ite_self, implies_true, core_fold, core_foldF, core_foldS]) | split | (rename _ = (_, _) => hh; obtain ⟨rfl, rfl⟩ := Prod.ext_iff.mp hh) | refine core_foldWith (fun s x => ?_) ?_ | refine Eq.trans (core_foldF (fun s x => ?_) _ _) ?_ | refine Eq.trans (core_foldS (fun s x => ?_) _ _) ?_)
theorem State_copySome_kept (x0) (x1) : (@State.copySome x0 x1).core = x0.core := by
  unfold State.copySome
  (repeat' first | with_reducible rfl | (intros; simp only [State_updQuireVol_kept, keep_rules, ite_self, implies_true, core_fold, core_foldF, core_foldS]) | split | (rename _ = (_, _) => hh; obtain ⟨rfl, rfl⟩ := Prod.ext_iff.mp hh) | refine core_foldWith (fun s x => ?_) ?_ | refine Eq.trans (core_foldF (fun s x => ?_) _ _) ?_ | refine Eq.trans (core_foldS (fun s x => ?_) _ _) ?_)
theorem State_workRebind_kept (x0) (x1) (x2) (x3) : (@State.workRebind x0 x1 x2 x3).1.core = x0.core := by
  unfold State.workRebind
  (repeat' first | with_reducible rfl | (intros; simp only [State_copySome_kept, State_rebindRollback_kept, State_writeAgain_kept, State_writeShadows_kept, State_setRebind_kept, State_rebindPlanes_kept, keep_rules, ite_self, implies_true, core_fold, core_foldF, core_foldS]) | split | (rename _ = (_, _) => hh; obtain ⟨rfl, rfl⟩ := Prod.ext_iff.mp hh) | refine core_foldWith (fun s x => ?_) ?_ | refine Eq.trans (core_foldF (fun s x => ?_) _ _) ?_ | refine Eq.trans (core_foldS (fun s x => ?_) _ _) ?_)
theorem execRebindCopyDone_kept (x0) (x1) (x2) : ∃ t, (@execRebindCopyDone x0 x1 x2) = .next t ∧ t.core = x2.core := by unfold execRebindCopyDone; (try dsimp only); (repeat' first | (split) | (rename _ = (_, _) => hh; obtain ⟨rfl, rfl⟩ := Prod.ext_iff.mp hh)) <;> exact ⟨_, rfl, by (repeat' first | with_reducible rfl | (intros; simp only [State_rebindRollback_kept, State_updQuireVol_kept, State_setRebind_kept, State_updVol_kept, keep_rules, ite_self, implies_true, core_fold, core_foldF, core_foldS]) | split | (rename _ = (_, _) => hh; obtain ⟨rfl, rfl⟩ := Prod.ext_iff.mp hh) | refine core_foldWith (fun s x => ?_) ?_ | refine Eq.trans (core_foldF (fun s x => ?_) _ _) ?_ | refine Eq.trans (core_foldS (fun s x => ?_) _ _) ?_)⟩
theorem State_verifyEnd_kept (x0) (x1) (x2) (x3) : (@State.verifyEnd x0 x1 x2 x3).core = x0.core := by
  unfold State.verifyEnd
  (repeat' first | with_reducible rfl | (intros; simp only [State_setRebind_kept, keep_rules, ite_self, implies_true, core_fold, core_foldF, core_foldS]) | split | (rename _ = (_, _) => hh; obtain ⟨rfl, rfl⟩ := Prod.ext_iff.mp hh) | refine core_foldWith (fun s x => ?_) ?_ | refine Eq.trans (core_foldF (fun s x => ?_) _ _) ?_ | refine Eq.trans (core_foldS (fun s x => ?_) _ _) ?_)
theorem State_boundaryRebind_kept (x0) (x1) (x2) : (@State.boundaryRebind x0 x1 x2).core = x0.core := by
  unfold State.boundaryRebind
  (repeat' first | with_reducible rfl | (intros; simp only [State_rebindBegin_kept, State_beginDrain_kept, State_setRebind_kept, State_updQuireVol_kept, keep_rules, ite_self, implies_true, core_fold, core_foldF, core_foldS]) | split | (rename _ = (_, _) => hh; obtain ⟨rfl, rfl⟩ := Prod.ext_iff.mp hh) | refine core_foldWith (fun s x => ?_) ?_ | refine Eq.trans (core_foldF (fun s x => ?_) _ _) ?_ | refine Eq.trans (core_foldS (fun s x => ?_) _ _) ?_)
theorem execRebindVerifyTimeout_kept (x0) (x1) : ∃ t, (@execRebindVerifyTimeout x0 x1) = .next t ∧ t.core = x1.core := by unfold execRebindVerifyTimeout; (try dsimp only); (repeat' first | (split) | (rename _ = (_, _) => hh; obtain ⟨rfl, rfl⟩ := Prod.ext_iff.mp hh)) <;> exact ⟨_, rfl, by (repeat' first | with_reducible rfl | (intros; simp only [State_askRetrain_kept, State_setRebind_kept, State_addFault_kept, State_mapTo_kept, State_rebindRollback_kept, keep_rules, ite_self, implies_true, core_fold, core_foldF, core_foldS]) | split | (rename _ = (_, _) => hh; obtain ⟨rfl, rfl⟩ := Prod.ext_iff.mp hh) | refine core_foldWith (fun s x => ?_) ?_ | refine Eq.trans (core_foldF (fun s x => ?_) _ _) ?_ | refine Eq.trans (core_foldS (fun s x => ?_) _ _) ?_)⟩
theorem State_rebindCommitReady_kept (x0) (x1) (x2) : (@State.rebindCommitReady x0 x1 x2).core = x0.core := by
  unfold State.rebindCommitReady
  (repeat' first | with_reducible rfl | (intros; simp only [State_rebindRollback_kept, State_setRebind_kept, State_stage_kept, keep_rules, ite_self, implies_true, core_fold, core_foldF, core_foldS]) | split | (rename _ = (_, _) => hh; obtain ⟨rfl, rfl⟩ := Prod.ext_iff.mp hh) | refine core_foldWith (fun s x => ?_) ?_ | refine Eq.trans (core_foldF (fun s x => ?_) _ _) ?_ | refine Eq.trans (core_foldS (fun s x => ?_) _ _) ?_)
theorem State_sealRebind_kept (x0) (x1) (x2) : (@State.sealRebind x0 x1 x2).core = x0.core := by
  unfold State.sealRebind
  (repeat' first | with_reducible rfl | (intros; simp only [State_rebindBegin_kept, State_setRebind_kept, State_rebindCommitReady_kept, keep_rules, ite_self, implies_true, core_fold, core_foldF, core_foldS]) | split | (rename _ = (_, _) => hh; obtain ⟨rfl, rfl⟩ := Prod.ext_iff.mp hh) | refine core_foldWith (fun s x => ?_) ?_ | refine Eq.trans (core_foldF (fun s x => ?_) _ _) ?_ | refine Eq.trans (core_foldS (fun s x => ?_) _ _) ?_)
theorem State_rebindCommitted_kept (x0) (x1) (x2) (x3) : (@State.rebindCommitted x0 x1 x2 x3).core = x0.core := by
  unfold State.rebindCommitted
  (repeat' first | with_reducible rfl | (intros; simp only [State_switchJobs_kept, State_updQuireVol_kept, State_soil_kept, State_resumeAdmission_kept, State_rebindOver_kept, State_endTask_kept, State_stageOwn_kept, keep_rules, ite_self, implies_true, core_fold, core_foldF, core_foldS]) | split | (rename _ = (_, _) => hh; obtain ⟨rfl, rfl⟩ := Prod.ext_iff.mp hh) | refine core_foldWith (fun s x => ?_) ?_ | refine Eq.trans (core_foldF (fun s x => ?_) _ _) ?_ | refine Eq.trans (core_foldS (fun s x => ?_) _ _) ?_)
theorem State_rebindUndone_kept (x0) (x1) (x2) : (@State.rebindUndone x0 x1 x2).core = x0.core := by
  unfold State.rebindUndone
  (repeat' first | with_reducible rfl | (intros; simp only [State_failTask_kept, State_rebindOver_kept, State_resumeAdmission_kept, keep_rules, ite_self, implies_true, core_fold, core_foldF, core_foldS]) | split | (rename _ = (_, _) => hh; obtain ⟨rfl, rfl⟩ := Prod.ext_iff.mp hh) | refine core_foldWith (fun s x => ?_) ?_ | refine Eq.trans (core_foldF (fun s x => ?_) _ _) ?_ | refine Eq.trans (core_foldS (fun s x => ?_) _ _) ?_)
theorem State_rebindSealed_kept (x0) (x1) (x2) (x3) : (@State.rebindSealed x0 x1 x2 x3).core = x0.core := by
  unfold State.rebindSealed
  (repeat' first | with_reducible rfl | (intros; simp only [State_rebindBegun_kept, State_rebindCommitted_kept, State_rebindUndone_kept, keep_rules, ite_self, implies_true, core_fold, core_foldF, core_foldS]) | split | (rename _ = (_, _) => hh; obtain ⟨rfl, rfl⟩ := Prod.ext_iff.mp hh) | refine core_foldWith (fun s x => ?_) ?_ | refine Eq.trans (core_foldF (fun s x => ?_) _ _) ?_ | refine Eq.trans (core_foldS (fun s x => ?_) _ _) ?_)
theorem State_rebindStop_kept (x0) (x1) (x2) (x3) : (@State.rebindStop x0 x1 x2 x3).core = x0.core := by
  unfold State.rebindStop
  (repeat' first | with_reducible rfl | (intros; simp only [State_rebindAbort_kept, State_rebindRollback_kept, keep_rules, ite_self, implies_true, core_fold, core_foldF, core_foldS]) | split | (rename _ = (_, _) => hh; obtain ⟨rfl, rfl⟩ := Prod.ext_iff.mp hh) | refine core_foldWith (fun s x => ?_) ?_ | refine Eq.trans (core_foldF (fun s x => ?_) _ _) ?_ | refine Eq.trans (core_foldS (fun s x => ?_) _ _) ?_)
theorem hPortConfig_kept (x0) (x1) : (@hPortConfig x0 x1).1.core = x1.core := by
  unfold hPortConfig
  (repeat' first | with_reducible rfl | (intros; simp only [refuse_kept, multi_kept, durable_kept, keep_rules, ite_self, implies_true, core_fold, core_foldF, core_foldS]) | split | (rename _ = (_, _) => hh; obtain ⟨rfl, rfl⟩ := Prod.ext_iff.mp hh) | refine core_foldWith (fun s x => ?_) ?_ | refine Eq.trans (core_foldF (fun s x => ?_) _ _) ?_ | refine Eq.trans (core_foldS (fun s x => ?_) _ _) ?_)
theorem execPortConfig_kept (x0) (x1) : ∃ t, (@execPortConfig x0 x1) = .next t ∧ t.core = x1.core := by unfold execPortConfig; exact ⟨_, rfl, by (repeat' first | with_reducible rfl | (intros; simp only [State_present_kept, hPortConfig_kept, keep_rules, ite_self, implies_true, core_fold, core_foldF, core_foldS]) | split | (rename _ = (_, _) => hh; obtain ⟨rfl, rfl⟩ := Prod.ext_iff.mp hh) | refine core_foldWith (fun s x => ?_) ?_ | refine Eq.trans (core_foldF (fun s x => ?_) _ _) ?_ | refine Eq.trans (core_foldS (fun s x => ?_) _ _) ?_)⟩
theorem hShaperSet_kept (x0) (x1) : (@hShaperSet x0 x1).1.core = x1.core := by
  unfold hShaperSet
  (repeat' first | with_reducible rfl | (intros; simp only [refuse_kept, durable_kept, multi_kept, keep_rules, ite_self, implies_true, core_fold, core_foldF, core_foldS]) | split | (rename _ = (_, _) => hh; obtain ⟨rfl, rfl⟩ := Prod.ext_iff.mp hh) | refine core_foldWith (fun s x => ?_) ?_ | refine Eq.trans (core_foldF (fun s x => ?_) _ _) ?_ | refine Eq.trans (core_foldS (fun s x => ?_) _ _) ?_)
theorem execShaperSet_kept (x0) (x1) : ∃ t, (@execShaperSet x0 x1) = .next t ∧ t.core = x1.core := by unfold execShaperSet; exact ⟨_, rfl, by (repeat' first | with_reducible rfl | (intros; simp only [State_present_kept, hShaperSet_kept, keep_rules, ite_self, implies_true, core_fold, core_foldF, core_foldS]) | split | (rename _ = (_, _) => hh; obtain ⟨rfl, rfl⟩ := Prod.ext_iff.mp hh) | refine core_foldWith (fun s x => ?_) ?_ | refine Eq.trans (core_foldF (fun s x => ?_) _ _) ?_ | refine Eq.trans (core_foldS (fun s x => ?_) _ _) ?_)⟩
theorem State_putBucket_kept (x0) (x1) : (@State.putBucket x0 x1).core = x0.core := by
  unfold State.putBucket
  (repeat' first | with_reducible rfl | (intros; simp only [keep_rules, ite_self, implies_true, core_fold, core_foldF, core_foldS]) | split | (rename _ = (_, _) => hh; obtain ⟨rfl, rfl⟩ := Prod.ext_iff.mp hh) | refine core_foldWith (fun s x => ?_) ?_ | refine Eq.trans (core_foldF (fun s x => ?_) _ _) ?_ | refine Eq.trans (core_foldS (fun s x => ?_) _ _) ?_)
theorem State_refillAll_kept (x0) (x1) : (@State.refillAll x0 x1).core = x0.core := by
  unfold State.refillAll
  (repeat' first | with_reducible rfl | (intros; simp only [keep_rules, ite_self, implies_true, core_fold, core_foldF, core_foldS]) | split | (rename _ = (_, _) => hh; obtain ⟨rfl, rfl⟩ := Prod.ext_iff.mp hh) | refine core_foldWith (fun s x => ?_) ?_ | refine Eq.trans (core_foldF (fun s x => ?_) _ _) ?_ | refine Eq.trans (core_foldS (fun s x => ?_) _ _) ?_)
theorem hPortCounters_kept (x0) (x1) : (@hPortCounters x0 x1).1.core = x1.core := by
  unfold hPortCounters
  (repeat' first | with_reducible rfl | (intros; simp only [State_answer_kept, refuse_kept, keep_rules, ite_self, implies_true, core_fold, core_foldF, core_foldS]) | split | (rename _ = (_, _) => hh; obtain ⟨rfl, rfl⟩ := Prod.ext_iff.mp hh) | refine core_foldWith (fun s x => ?_) ?_ | refine Eq.trans (core_foldF (fun s x => ?_) _ _) ?_ | refine Eq.trans (core_foldS (fun s x => ?_) _ _) ?_)
theorem execPortCounters_kept (x0) (x1) : ∃ t, (@execPortCounters x0 x1) = .next t ∧ t.core = x1.core := by unfold execPortCounters; exact ⟨_, rfl, by (repeat' first | with_reducible rfl | (intros; simp only [State_present_kept, hPortCounters_kept, keep_rules, ite_self, implies_true, core_fold, core_foldF, core_foldS]) | split | (rename _ = (_, _) => hh; obtain ⟨rfl, rfl⟩ := Prod.ext_iff.mp hh) | refine core_foldWith (fun s x => ?_) ?_ | refine Eq.trans (core_foldF (fun s x => ?_) _ _) ?_ | refine Eq.trans (core_foldS (fun s x => ?_) _ _) ?_)⟩
theorem State_count_kept (x0) (x1) (x2) (x3) : (@State.count x0 x1 x2 x3).core = x0.core := by
  unfold State.count
  (repeat' first | with_reducible rfl | (intros; simp only [State_updPort_kept, keep_rules, ite_self, implies_true, core_fold, core_foldF, core_foldS]) | split | (rename _ = (_, _) => hh; obtain ⟨rfl, rfl⟩ := Prod.ext_iff.mp hh) | refine core_foldWith (fun s x => ?_) ?_ | refine Eq.trans (core_foldF (fun s x => ?_) _ _) ?_ | refine Eq.trans (core_foldS (fun s x => ?_) _ _) ?_)
theorem State_toRings_kept (x0) (x1) (x2) (x3) (x4) : (@State.toRings x0 x1 x2 x3 x4).core = x0.core := by
  unfold State.toRings
  (repeat' first | with_reducible rfl | (intros; simp only [State_countSlots_kept, keep_rules, ite_self, implies_true, core_fold, core_foldF, core_foldS]) | split | (rename _ = (_, _) => hh; obtain ⟨rfl, rfl⟩ := Prod.ext_iff.mp hh) | refine core_foldWith (fun s x => ?_) ?_ | refine Eq.trans (core_foldF (fun s x => ?_) _ _) ?_ | refine Eq.trans (core_foldS (fun s x => ?_) _ _) ?_)
theorem State_useNonce_kept (x0) (x1) (x2) : (@State.useNonce x0 x1 x2).core = x0.core := by
  unfold State.useNonce
  (repeat' first | with_reducible rfl | (intros; simp only [keep_rules, ite_self, implies_true, core_fold, core_foldF, core_foldS]) | split | (rename _ = (_, _) => hh; obtain ⟨rfl, rfl⟩ := Prod.ext_iff.mp hh) | refine core_foldWith (fun s x => ?_) ?_ | refine Eq.trans (core_foldF (fun s x => ?_) _ _) ?_ | refine Eq.trans (core_foldS (fun s x => ?_) _ _) ?_)
theorem State_sealBody_kept (s : State) (q h fmt body) : (s.sealBody q h fmt body).2.2.2.core = s.core := by
  unfold State.sealBody
  dsimp only
  split
  · split
    · exact State_useNonce_kept _ _ _
    · with_reducible rfl
  · split
    · split <;> rfl
    · with_reducible rfl
theorem State_originate_kept (x0) (x1) (x2) (x3) (x4) (x5) (x6) : (@State.originate x0 x1 x2 x3 x4 x5 x6).core = x0.core := by
  unfold State.originate
  (try dsimp only)
  split
  · with_reducible rfl
  · exact (State_toRings_kept _ _ _ _ _).trans (State_sealBody_kept _ _ _ _ _)
theorem State_putFlow_kept (x0) (x1) : (@State.putFlow x0 x1).core = x0.core := by
  unfold State.putFlow
  (repeat' first | with_reducible rfl | (intros; simp only [keep_rules, ite_self, implies_true, core_fold, core_foldF, core_foldS]) | split | (rename _ = (_, _) => hh; obtain ⟨rfl, rfl⟩ := Prod.ext_iff.mp hh) | refine core_foldWith (fun s x => ?_) ?_ | refine Eq.trans (core_foldF (fun s x => ?_) _ _) ?_ | refine Eq.trans (core_foldS (fun s x => ?_) _ _) ?_)
theorem State_flushFlow_kept (x0) (x1) (x2) (x3) : (@State.flushFlow x0 x1 x2 x3).core = x0.core := by
  induction x3 generalizing x0 with
  | zero => exact id rfl
  | succ n ih =>
    unfold State.flushFlow
    (try dsimp only)
    split
    · with_reducible rfl
    · split
      · with_reducible rfl
      · exact (ih _).trans ((State_originate_kept _ _ _ _ _ _ _).trans (by simp only [State_updQuireVol_kept, State_putFlow_kept]))
theorem State_sendBody_kept (x0) (x1) (x2) (x3) (x4) : (@State.sendBody x0 x1 x2 x3 x4).core = x0.core := by
  unfold State.sendBody
  (repeat' first | with_reducible rfl | (intros; simp only [State_putFlow_kept, State_flushFlow_kept, keep_rules, ite_self, implies_true, core_fold, core_foldF, core_foldS]) | split | (rename _ = (_, _) => hh; obtain ⟨rfl, rfl⟩ := Prod.ext_iff.mp hh) | refine core_foldWith (fun s x => ?_) ?_ | refine Eq.trans (core_foldF (fun s x => ?_) _ _) ?_ | refine Eq.trans (core_foldS (fun s x => ?_) _ _) ?_)
theorem State_flowAcked_kept (x0) (x1) (x2) (x3) : (@State.flowAcked x0 x1 x2 x3).core = x0.core := by
  unfold State.flowAcked
  (repeat' first | with_reducible rfl | (intros; simp only [State_putFlow_kept, State_flushFlow_kept, keep_rules, ite_self, implies_true, core_fold, core_foldF, core_foldS]) | split | (rename _ = (_, _) => hh; obtain ⟨rfl, rfl⟩ := Prod.ext_iff.mp hh) | refine core_foldWith (fun s x => ?_) ?_ | refine Eq.trans (core_foldF (fun s x => ?_) _ _) ?_ | refine Eq.trans (core_foldS (fun s x => ?_) _ _) ?_)
theorem State_resendFlow_kept (x0) (x1) : (@State.resendFlow x0 x1).core = x0.core := by
  unfold State.resendFlow
  (repeat' first | with_reducible rfl | (intros; simp only [State_flushFlow_kept, State_putFlow_kept, State_updQuireVol_kept, State_originate_kept, keep_rules, ite_self, implies_true, core_fold, core_foldF, core_foldS]) | split | (rename _ = (_, _) => hh; obtain ⟨rfl, rfl⟩ := Prod.ext_iff.mp hh) | refine core_foldWith (fun s x => ?_) ?_ | refine Eq.trans (core_foldF (fun s x => ?_) _ _) ?_ | refine Eq.trans (core_foldS (fun s x => ?_) _ _) ?_)
theorem State_resendFlows_kept (x0) : (@State.resendFlows x0).core = x0.core := by
  unfold State.resendFlows
  (repeat' first | with_reducible rfl | (intros; simp only [State_resendFlow_kept, keep_rules, ite_self, implies_true, core_fold, core_foldF, core_foldS]) | split | (rename _ = (_, _) => hh; obtain ⟨rfl, rfl⟩ := Prod.ext_iff.mp hh) | refine core_foldWith (fun s x => ?_) ?_ | refine Eq.trans (core_foldF (fun s x => ?_) _ _) ?_ | refine Eq.trans (core_foldS (fun s x => ?_) _ _) ?_)
theorem State_tookSeq_kept (x0) (x1) (x2) (x3) : (@State.tookSeq x0 x1 x2 x3).core = x0.core := by
  unfold State.tookSeq
  (repeat' first | with_reducible rfl | (intros; simp only [State_updQuireVol_kept, State_sendCtl_kept, keep_rules, ite_self, implies_true, core_fold, core_foldF, core_foldS]) | split | (rename _ = (_, _) => hh; obtain ⟨rfl, rfl⟩ := Prod.ext_iff.mp hh) | refine core_foldWith (fun s x => ?_) ?_ | refine Eq.trans (core_foldF (fun s x => ?_) _ _) ?_ | refine Eq.trans (core_foldS (fun s x => ?_) _ _) ?_)
theorem State_acceptSeq_kept (x0) (x1) (x2) (x3) : ∀ t, (@State.acceptSeq x0 x1 x2 x3) = some t → t.core = x0.core := by
  intro t h
  unfold State.acceptSeq at h
  obtain ⟨g, _, rfl⟩ := Option.map_eq_some_iff.mp h
  exact State_tookSeq_kept _ _ _ _
theorem State_reportFlows_kept (x0) : (@State.reportFlows x0).core = x0.core := by
  unfold State.reportFlows
  (repeat' first | with_reducible rfl | (intros; simp only [State_sendCtl_kept, keep_rules, ite_self, implies_true, core_fold, core_foldF, core_foldS]) | split | (rename _ = (_, _) => hh; obtain ⟨rfl, rfl⟩ := Prod.ext_iff.mp hh) | refine core_foldWith (fun s x => ?_) ?_ | refine Eq.trans (core_foldF (fun s x => ?_) _ _) ?_ | refine Eq.trans (core_foldS (fun s x => ?_) _ _) ?_)
theorem State_transfer_kept (x0) (x1) (x2) (x3) (x4) : (@State.transfer x0 x1 x2 x3 x4).core = x0.core := by
  unfold State.transfer
  (repeat' first | with_reducible rfl | (intros; simp only [State_updQuireVol_kept, State_updVol_kept, State_sendBody_kept, keep_rules, ite_self, implies_true, core_fold, core_foldF, core_foldS]) | split | (rename _ = (_, _) => hh; obtain ⟨rfl, rfl⟩ := Prod.ext_iff.mp hh) | refine core_foldWith (fun s x => ?_) ?_ | refine Eq.trans (core_foldF (fun s x => ?_) _ _) ?_ | refine Eq.trans (core_foldS (fun s x => ?_) _ _) ?_)
theorem State_forwardPkt_kept (x0) (x1) (x2) (x3) : (@State.forwardPkt x0 x1 x2 x3).core = x0.core := by
  unfold State.forwardPkt
  (repeat' first | with_reducible rfl | (intros; simp only [State_take_kept, State_count_kept, State_toRings_kept, keep_rules, ite_self, implies_true, core_fold, core_foldF, core_foldS]) | split | (rename _ = (_, _) => hh; obtain ⟨rfl, rfl⟩ := Prod.ext_iff.mp hh) | refine core_foldWith (fun s x => ?_) ?_ | refine Eq.trans (core_foldF (fun s x => ?_) _ _) ?_ | refine Eq.trans (core_foldS (fun s x => ?_) _ _) ?_)
theorem State_rxCount_kept (x0) (x1) (x2) : (@State.rxCount x0 x1 x2).core = x0.core := by
  unfold State.rxCount
  (repeat' first | with_reducible rfl | (intros; simp only [State_count_kept, keep_rules, ite_self, implies_true, core_fold, core_foldF, core_foldS]) | split | (rename _ = (_, _) => hh; obtain ⟨rfl, rfl⟩ := Prod.ext_iff.mp hh) | refine core_foldWith (fun s x => ?_) ?_ | refine Eq.trans (core_foldF (fun s x => ?_) _ _) ?_ | refine Eq.trans (core_foldS (fun s x => ?_) _ _) ?_)
theorem execUncorrectableCodeword_kept (x0) (x1) (x2) : ∃ t, (@execUncorrectableCodeword x0 x1 x2) = .next t ∧ t.core = x2.core := by unfold execUncorrectableCodeword; exact ⟨_, rfl, by (repeat' first | with_reducible rfl | (intros; simp only [State_count_kept, State_updPort_kept, keep_rules, ite_self, implies_true, core_fold, core_foldF, core_foldS]) | split | (rename _ = (_, _) => hh; obtain ⟨rfl, rfl⟩ := Prod.ext_iff.mp hh) | refine core_foldWith (fun s x => ?_) ?_ | refine Eq.trans (core_foldF (fun s x => ?_) _ _) ?_ | refine Eq.trans (core_foldS (fun s x => ?_) _ _) ?_)⟩
theorem execFirstStartDisagreement_kept (x0) (x1) : ∃ t, (@execFirstStartDisagreement x0 x1) = .next t ∧ t.core = x1.core := by unfold execFirstStartDisagreement; (try dsimp only); (repeat' first | (split) | (rename _ = (_, _) => hh; obtain ⟨rfl, rfl⟩ := Prod.ext_iff.mp hh)) <;> exact ⟨_, rfl, by (repeat' first | with_reducible rfl | (intros; simp only [State_count_kept, keep_rules, ite_self, implies_true, core_fold, core_foldF, core_foldS]) | split | (rename _ = (_, _) => hh; obtain ⟨rfl, rfl⟩ := Prod.ext_iff.mp hh) | refine core_foldWith (fun s x => ?_) ?_ | refine Eq.trans (core_foldF (fun s x => ?_) _ _) ?_ | refine Eq.trans (core_foldS (fun s x => ?_) _ _) ?_)⟩
theorem State_ringCount_kept (x0) (x1) (x2) (x3) : (@State.ringCount x0 x1 x2 x3).core = x0.core := by
  unfold State.ringCount
  (repeat' first | with_reducible rfl | (intros; simp only [keep_rules, ite_self, implies_true, core_fold, core_foldF, core_foldS]) | split | (rename _ = (_, _) => hh; obtain ⟨rfl, rfl⟩ := Prod.ext_iff.mp hh) | refine core_foldWith (fun s x => ?_) ?_ | refine Eq.trans (core_foldF (fun s x => ?_) _ _) ?_ | refine Eq.trans (core_foldS (fun s x => ?_) _ _) ?_)
theorem State_updBook_kept (x0) (x1) (x2) (x3) (x4) : (@State.updBook x0 x1 x2 x3 x4).core = x0.core := by
  unfold State.updBook
  (repeat' first | with_reducible rfl | (intros; simp only [keep_rules, ite_self, implies_true, core_fold, core_foldF, core_foldS]) | split | (rename _ = (_, _) => hh; obtain ⟨rfl, rfl⟩ := Prod.ext_iff.mp hh) | refine core_foldWith (fun s x => ?_) ?_ | refine Eq.trans (core_foldF (fun s x => ?_) _ _) ?_ | refine Eq.trans (core_foldS (fun s x => ?_) _ _) ?_)
theorem State_latchRings_kept (x0) : (@State.latchRings x0).core = x0.core := by
  unfold State.latchRings
  (repeat' first | with_reducible rfl | (intros; simp only [State_latch_kept, keep_rules, ite_self, implies_true, core_fold, core_foldF, core_foldS]) | split | (rename _ = (_, _) => hh; obtain ⟨rfl, rfl⟩ := Prod.ext_iff.mp hh) | refine core_foldWith (fun s x => ?_) ?_ | refine Eq.trans (core_foldF (fun s x => ?_) _ _) ?_ | refine Eq.trans (core_foldS (fun s x => ?_) _ _) ?_)
theorem State_assembled_kept (x0) (x1) : (@State.assembled x0 x1).core = x0.core := by
  unfold State.assembled
  (repeat' first | with_reducible rfl | (intros; simp only [State_count_kept, State_updPort_kept, keep_rules, ite_self, implies_true, core_fold, core_foldF, core_foldS]) | split | (rename _ = (_, _) => hh; obtain ⟨rfl, rfl⟩ := Prod.ext_iff.mp hh) | refine core_foldWith (fun s x => ?_) ?_ | refine Eq.trans (core_foldF (fun s x => ?_) _ _) ?_ | refine Eq.trans (core_foldS (fun s x => ?_) _ _) ?_)
theorem State_seeDepth_kept (x0) (x1) : (@State.seeDepth x0 x1).core = x0.core := by
  unfold State.seeDepth
  (repeat' first | with_reducible rfl | (intros; simp only [State_updPort_kept, keep_rules, ite_self, implies_true, core_fold, core_foldF, core_foldS]) | split | (rename _ = (_, _) => hh; obtain ⟨rfl, rfl⟩ := Prod.ext_iff.mp hh) | refine core_foldWith (fun s x => ?_) ?_ | refine Eq.trans (core_foldF (fun s x => ?_) _ _) ?_ | refine Eq.trans (core_foldS (fun s x => ?_) _ _) ?_)
theorem State_fragEnded_kept (x0) (x1) (x2) : (@State.fragEnded x0 x1 x2).core = x0.core := by
  unfold State.fragEnded
  (repeat' first | with_reducible rfl | (intros; simp only [State_assembled_kept, State_seeDepth_kept, keep_rules, ite_self, implies_true, core_fold, core_foldF, core_foldS]) | split | (rename _ = (_, _) => hh; obtain ⟨rfl, rfl⟩ := Prod.ext_iff.mp hh) | refine core_foldWith (fun s x => ?_) ?_ | refine Eq.trans (core_foldF (fun s x => ?_) _ _) ?_ | refine Eq.trans (core_foldS (fun s x => ?_) _ _) ?_)
theorem State_takeEjected_kept (x0) (x1) : (@State.takeEjected x0 x1).core = x0.core := by
  unfold State.takeEjected
  (repeat' first | with_reducible rfl | (intros; simp only [State_updBook_kept, State_fragEnded_kept, keep_rules, ite_self, implies_true, core_fold, core_foldF, core_foldS]) | split | (rename _ = (_, _) => hh; obtain ⟨rfl, rfl⟩ := Prod.ext_iff.mp hh) | refine core_foldWith (fun s x => ?_) ?_ | refine Eq.trans (core_foldF (fun s x => ?_) _ _) ?_ | refine Eq.trans (core_foldS (fun s x => ?_) _ _) ?_)
theorem State_drainPort_kept (x0) (x1) (x2) : (@State.drainPort x0 x1 x2).core = x0.core := by
  induction x2 generalizing x0 with
  | nil => exact id rfl
  | cons a l ih =>
    unfold State.drainPort
    split
    · exact (ih _).trans (State_takeEjected_kept _ _)
    · with_reducible rfl
theorem State_drainEgress_kept (x0) (x1) : (@State.drainEgress x0 x1).core = x0.core := by
  unfold State.drainEgress
  (repeat' first | with_reducible rfl | (intros; simp only [State_takeEjected_kept, State_drainPort_kept, keep_rules, ite_self, implies_true, core_fold, core_foldF, core_foldS]) | split | (rename _ = (_, _) => hh; obtain ⟨rfl, rfl⟩ := Prod.ext_iff.mp hh) | refine core_foldWith (fun s x => ?_) ?_ | refine Eq.trans (core_foldF (fun s x => ?_) _ _) ?_ | refine Eq.trans (core_foldS (fun s x => ?_) _ _) ?_)
theorem State_retireRing_kept (x0) (x1) (x2) (x3) (x4) (x5) : (@State.retireRing x0 x1 x2 x3 x4 x5).core = x0.core := by
  unfold State.retireRing
  (repeat' first | with_reducible rfl | (intros; simp only [State_updBook_kept, State_ringCount_kept, State_fragEnded_kept, keep_rules, ite_self, implies_true, core_fold, core_foldF, core_foldS]) | split | (rename _ = (_, _) => hh; obtain ⟨rfl, rfl⟩ := Prod.ext_iff.mp hh) | refine core_foldWith (fun s x => ?_) ?_ | refine Eq.trans (core_foldF (fun s x => ?_) _ _) ?_ | refine Eq.trans (core_foldS (fun s x => ?_) _ _) ?_)
theorem State_chargeLap_kept (x0) (x1) (x2) : (@State.chargeLap x0 x1 x2).core = x0.core := by
  unfold State.chargeLap
  (repeat' first | with_reducible rfl | (intros; simp only [State_count_kept, keep_rules, ite_self, implies_true, core_fold, core_foldF, core_foldS]) | split | (rename _ = (_, _) => hh; obtain ⟨rfl, rfl⟩ := Prod.ext_iff.mp hh) | refine core_foldWith (fun s x => ?_) ?_ | refine Eq.trans (core_foldF (fun s x => ?_) _ _) ?_ | refine Eq.trans (core_foldS (fun s x => ?_) _ _) ?_)
theorem State_retireLap_kept (x0) (x1) : (@State.retireLap x0 x1).core = x0.core := by
  unfold State.retireLap
  (repeat' first | with_reducible rfl | (intros; simp only [State_chargeLap_kept, State_retireRing_kept, State_drainEgress_kept, keep_rules, ite_self, implies_true, core_fold, core_foldF, core_foldS]) | split | (rename _ = (_, _) => hh; obtain ⟨rfl, rfl⟩ := Prod.ext_iff.mp hh) | refine core_foldWith (fun s x => ?_) ?_ | refine Eq.trans (core_foldF (fun s x => ?_) _ _) ?_ | refine Eq.trans (core_foldS (fun s x => ?_) _ _) ?_)
theorem State_deflect_kept (x0) (x1) : (@State.deflect x0 x1).core = x0.core := by
  unfold State.deflect
  (repeat' first | with_reducible rfl | (intros; simp only [State_ringCount_kept, State_count_kept, State_retireLap_kept, keep_rules, ite_self, implies_true, core_fold, core_foldF, core_foldS]) | split | (rename _ = (_, _) => hh; obtain ⟨rfl, rfl⟩ := Prod.ext_iff.mp hh) | refine core_foldWith (fun s x => ?_) ?_ | refine Eq.trans (core_foldF (fun s x => ?_) _ _) ?_ | refine Eq.trans (core_foldS (fun s x => ?_) _ _) ?_)
theorem State_ejectRing_kept (x0) (x1) : (@State.ejectRing x0 x1).core = x0.core := by
  unfold State.ejectRing
  (repeat' first | with_reducible rfl | (intros; simp only [State_ringCount_kept, State_drainEgress_kept, keep_rules, ite_self, implies_true, core_fold, core_foldF, core_foldS]) | split | (rename _ = (_, _) => hh; obtain ⟨rfl, rfl⟩ := Prod.ext_iff.mp hh) | refine core_foldWith (fun s x => ?_) ?_ | refine Eq.trans (core_foldF (fun s x => ?_) _ _) ?_ | refine Eq.trans (core_foldS (fun s x => ?_) _ _) ?_)
theorem State_arrive_kept (x0) (x1) : (@State.arrive x0 x1).core = x0.core := by
  unfold State.arrive
  (repeat' first | with_reducible rfl | (intros; simp only [State_retireLap_kept, State_retireRing_kept, State_ejectRing_kept, State_deflect_kept, keep_rules, ite_self, implies_true, core_fold, core_foldF, core_foldS]) | split | (rename _ = (_, _) => hh; obtain ⟨rfl, rfl⟩ := Prod.ext_iff.mp hh) | refine core_foldWith (fun s x => ?_) ?_ | refine Eq.trans (core_foldF (fun s x => ?_) _ _) ?_ | refine Eq.trans (core_foldS (fun s x => ?_) _ _) ?_)
theorem State_arriveTwo_kept (x0) (x1) (x2) : (@State.arriveTwo x0 x1 x2).core = x0.core := by
  unfold State.arriveTwo
  (repeat' first | with_reducible rfl | (intros; simp only [State_arrive_kept, State_deflect_kept, keep_rules, ite_self, implies_true, core_fold, core_foldF, core_foldS]) | split | (rename _ = (_, _) => hh; obtain ⟨rfl, rfl⟩ := Prod.ext_iff.mp hh) | refine core_foldWith (fun s x => ?_) ?_ | refine Eq.trans (core_foldF (fun s x => ?_) _ _) ?_ | refine Eq.trans (core_foldS (fun s x => ?_) _ _) ?_)
theorem State_enterRing_kept (x0) (x1) : (@State.enterRing x0 x1).core = x0.core := by
  unfold State.enterRing
  (repeat' first | with_reducible rfl | (intros; simp only [State_updBook_kept, State_ringCount_kept, keep_rules, ite_self, implies_true, core_fold, core_foldF, core_foldS]) | split | (rename _ = (_, _) => hh; obtain ⟨rfl, rfl⟩ := Prod.ext_iff.mp hh) | refine core_foldWith (fun s x => ?_) ?_ | refine Eq.trans (core_foldF (fun s x => ?_) _ _) ?_ | refine Eq.trans (core_foldS (fun s x => ?_) _ _) ?_)
theorem State_turnEnter_kept (x0) (x1) : (@State.turnEnter x0 x1).core = x0.core := by
  unfold State.turnEnter
  (repeat' first | with_reducible rfl | (intros; simp only [State_updBook_kept, State_enterRing_kept, State_ringCount_kept, keep_rules, ite_self, implies_true, core_fold, core_foldF, core_foldS]) | split | (rename _ = (_, _) => hh; obtain ⟨rfl, rfl⟩ := Prod.ext_iff.mp hh) | refine core_foldWith (fun s x => ?_) ?_ | refine Eq.trans (core_foldF (fun s x => ?_) _ _) ?_ | refine Eq.trans (core_foldS (fun s x => ?_) _ _) ?_)
theorem State_advance_kept (x0) (x1) : (@State.advance x0 x1).core = x0.core := by
  unfold State.advance
  (repeat' first | with_reducible rfl | (intros; simp only [keep_rules, ite_self, implies_true, core_fold, core_foldF, core_foldS]) | split | (rename _ = (_, _) => hh; obtain ⟨rfl, rfl⟩ := Prod.ext_iff.mp hh) | refine core_foldWith (fun s x => ?_) ?_ | refine Eq.trans (core_foldF (fun s x => ?_) _ _) ?_ | refine Eq.trans (core_foldS (fun s x => ?_) _ _) ?_)
theorem State_arrival_kept (x0) (x1) (x2) : (@State.arrival x0 x1 x2).core = x0.core := by
  unfold State.arrival
  (repeat' first | with_reducible rfl | (intros; simp only [State_arrive_kept, State_arriveTwo_kept, keep_rules, ite_self, implies_true, core_fold, core_foldF, core_foldS]) | split | (rename _ = (_, _) => hh; obtain ⟨rfl, rfl⟩ := Prod.ext_iff.mp hh) | refine core_foldWith (fun s x => ?_) ?_ | refine Eq.trans (core_foldF (fun s x => ?_) _ _) ?_ | refine Eq.trans (core_foldS (fun s x => ?_) _ _) ?_)
theorem State_agentTakes_kept (x0) (x1) : (@State.agentTakes x0 x1).core = x0.core := by
  unfold State.agentTakes
  (repeat' first | with_reducible rfl | (intros; simp only [State_freeBool_kept, State_takeEjected_kept, keep_rules, ite_self, implies_true, core_fold, core_foldF, core_foldS]) | split | (rename _ = (_, _) => hh; obtain ⟨rfl, rfl⟩ := Prod.ext_iff.mp hh) | refine core_foldWith (fun s x => ?_) ?_ | refine Eq.trans (core_foldF (fun s x => ?_) _ _) ?_ | refine Eq.trans (core_foldS (fun s x => ?_) _ _) ?_)
theorem State_ringCycle_kept (x0) : (@State.ringCycle x0).core = x0.core := by
  unfold State.ringCycle
  (repeat' first | with_reducible rfl | (intros; simp only [State_turnEnter_kept, State_advance_kept, State_arrival_kept, State_agentTakes_kept, keep_rules, ite_self, implies_true, core_fold, core_foldF, core_foldS]) | split | (rename _ = (_, _) => hh; obtain ⟨rfl, rfl⟩ := Prod.ext_iff.mp hh) | refine core_foldWith (fun s x => ?_) ?_ | refine Eq.trans (core_foldF (fun s x => ?_) _ _) ?_ | refine Eq.trans (core_foldS (fun s x => ?_) _ _) ?_)
theorem State_untilArrived_kept (x0) (x1) (x2) : (@State.untilArrived x0 x1 x2).core = x2.core := by
  induction x1 generalizing x2 with
  | zero => exact id rfl
  | succ n ih =>
    unfold State.untilArrived
    split
    · with_reducible rfl
    · split
      · exact State_ringCycle_kept _
      · exact (ih _).trans (State_ringCycle_kept _)
theorem State_fragEntered_kept (x0) (x1) (x2) : (@State.fragEntered x0 x1 x2).core = x0.core := by
  unfold State.fragEntered
  (repeat' first | with_reducible rfl | (intros; simp only [State_countSlots_kept, keep_rules, ite_self, implies_true, core_fold, core_foldF, core_foldS]) | split | (rename _ = (_, _) => hh; obtain ⟨rfl, rfl⟩ := Prod.ext_iff.mp hh) | refine core_foldWith (fun s x => ?_) ?_ | refine Eq.trans (core_foldF (fun s x => ?_) _ _) ?_ | refine Eq.trans (core_foldS (fun s x => ?_) _ _) ?_)
theorem execRingEntry_kept (x0) (x1) : ∃ t, (@execRingEntry x0 x1) = .next t ∧ t.core = x1.core := by unfold execRingEntry; (try dsimp only); (repeat' first | (split) | (rename _ = (_, _) => hh; obtain ⟨rfl, rfl⟩ := Prod.ext_iff.mp hh)) <;> exact ⟨_, rfl, by (repeat' first | with_reducible rfl | (intros; simp only [State_freeBool_kept, State_fragEntered_kept, State_enterRing_kept, State_ringCount_kept, State_ringCycle_kept, keep_rules, ite_self, implies_true, core_fold, core_foldF, core_foldS]) | split | (rename _ = (_, _) => hh; obtain ⟨rfl, rfl⟩ := Prod.ext_iff.mp hh) | refine core_foldWith (fun s x => ?_) ?_ | refine Eq.trans (core_foldF (fun s x => ?_) _ _) ?_ | refine Eq.trans (core_foldS (fun s x => ?_) _ _) ?_)⟩
theorem execRingEjectArrival_kept (x0) (x1) (x2) : ∃ t, (@execRingEjectArrival x0 x1 x2) = .next t ∧ t.core = x2.core := by unfold execRingEjectArrival; (try dsimp only); (repeat' first | (split) | (rename _ = (_, _) => hh; obtain ⟨rfl, rfl⟩ := Prod.ext_iff.mp hh)) <;> exact ⟨_, rfl, by (repeat' first | with_reducible rfl | (intros; simp only [State_untilArrived_kept, keep_rules, ite_self, implies_true, core_fold, core_foldF, core_foldS]) | split | (rename _ = (_, _) => hh; obtain ⟨rfl, rfl⟩ := Prod.ext_iff.mp hh) | refine core_foldWith (fun s x => ?_) ?_ | refine Eq.trans (core_foldF (fun s x => ?_) _ _) ?_ | refine Eq.trans (core_foldS (fun s x => ?_) _ _) ?_)⟩
theorem execSlotEccError_kept (x0) (x1) (x2) (x3) (x4) (x5) : ∃ t, (@execSlotEccError x0 x1 x2 x3 x4 x5) = .next t ∧ t.core = x5.core := by unfold execSlotEccError; (try dsimp only); (repeat' first | (split) | (rename _ = (_, _) => hh; obtain ⟨rfl, rfl⟩ := Prod.ext_iff.mp hh)) <;> exact ⟨_, rfl, by (repeat' first | with_reducible rfl | (intros; simp only [State_ringCount_kept, State_retireRing_kept, State_turn_kept, keep_rules, ite_self, implies_true, core_fold, core_foldF, core_foldS]) | split | (rename _ = (_, _) => hh; obtain ⟨rfl, rfl⟩ := Prod.ext_iff.mp hh) | refine core_foldWith (fun s x => ?_) ?_ | refine Eq.trans (core_foldF (fun s x => ?_) _ _) ?_ | refine Eq.trans (core_foldS (fun s x => ?_) _ _) ?_)⟩
theorem State_retireEject_kept (x0) : (@State.retireEject x0).core = x0.core := by
  unfold State.retireEject
  (repeat' first | with_reducible rfl | (intros; simp only [State_retireRing_kept, keep_rules, ite_self, implies_true, core_fold, core_foldF, core_foldS]) | split | (rename _ = (_, _) => hh; obtain ⟨rfl, rfl⟩ := Prod.ext_iff.mp hh) | refine core_foldWith (fun s x => ?_) ?_ | refine Eq.trans (core_foldF (fun s x => ?_) _ _) ?_ | refine Eq.trans (core_foldS (fun s x => ?_) _ _) ?_)
theorem execPortSend_kept (x0) (x1) : ∃ t, (@execPortSend x0 x1) = .next t ∧ t.core = x1.core := by unfold execPortSend; (try dsimp only); (repeat' first | (split) | (rename _ = (_, _) => hh; obtain ⟨rfl, rfl⟩ := Prod.ext_iff.mp hh)) <;> exact ⟨_, rfl, by (repeat' first | with_reducible rfl | (intros; simp only [State_updPort_kept, State_count_kept, State_putBucket_kept, State_drainEgress_kept, State_turn_kept, keep_rules, ite_self, implies_true, core_fold, core_foldF, core_foldS]) | split | (rename _ = (_, _) => hh; obtain ⟨rfl, rfl⟩ := Prod.ext_iff.mp hh) | refine core_foldWith (fun s x => ?_) ?_ | refine Eq.trans (core_foldF (fun s x => ?_) _ _) ?_ | refine Eq.trans (core_foldS (fun s x => ?_) _ _) ?_)⟩
theorem hRedDefine_kept (x0) (x1) : (@hRedDefine x0 x1).1.core = x1.core := by
  unfold hRedDefine
  (repeat' first | with_reducible rfl | (intros; simp only [refuse_kept, volatileOk_kept, State_updQuireVol_kept, keep_rules, ite_self, implies_true, core_fold, core_foldF, core_foldS]) | split | (rename _ = (_, _) => hh; obtain ⟨rfl, rfl⟩ := Prod.ext_iff.mp hh) | refine core_foldWith (fun s x => ?_) ?_ | refine Eq.trans (core_foldF (fun s x => ?_) _ _) ?_ | refine Eq.trans (core_foldS (fun s x => ?_) _ _) ?_)
theorem execRedDefine_kept (x0) (x1) : ∃ t, (@execRedDefine x0 x1) = .next t ∧ t.core = x1.core := by unfold execRedDefine; exact ⟨_, rfl, by (repeat' first | with_reducible rfl | (intros; simp only [State_present_kept, hRedDefine_kept, keep_rules, ite_self, implies_true, core_fold, core_foldF, core_foldS]) | split | (rename _ = (_, _) => hh; obtain ⟨rfl, rfl⟩ := Prod.ext_iff.mp hh) | refine core_foldWith (fun s x => ?_) ?_ | refine Eq.trans (core_foldF (fun s x => ?_) _ _) ?_ | refine Eq.trans (core_foldS (fun s x => ?_) _ _) ?_)⟩
theorem hCollLaunch_kept (x0) (x1) : (@hCollLaunch x0 x1).1.core = x1.core := by
  unfold hCollLaunch
  (repeat' first | with_reducible rfl | (intros; simp only [refuse_kept, State_updVol_kept, multi_kept, State_queueClaim_kept, keep_rules, ite_self, implies_true, core_fold, core_foldF, core_foldS]) | split | (rename _ = (_, _) => hh; obtain ⟨rfl, rfl⟩ := Prod.ext_iff.mp hh) | refine core_foldWith (fun s x => ?_) ?_ | refine Eq.trans (core_foldF (fun s x => ?_) _ _) ?_ | refine Eq.trans (core_foldS (fun s x => ?_) _ _) ?_)
theorem execCollLaunch_kept (x0) (x1) : ∃ t, (@execCollLaunch x0 x1) = .next t ∧ t.core = x1.core := by unfold execCollLaunch; exact ⟨_, rfl, by (repeat' first | with_reducible rfl | (intros; simp only [State_present_kept, hCollLaunch_kept, keep_rules, ite_self, implies_true, core_fold, core_foldF, core_foldS]) | split | (rename _ = (_, _) => hh; obtain ⟨rfl, rfl⟩ := Prod.ext_iff.mp hh) | refine core_foldWith (fun s x => ?_) ?_ | refine Eq.trans (core_foldF (fun s x => ?_) _ _) ?_ | refine Eq.trans (core_foldS (fun s x => ?_) _ _) ?_)⟩
theorem hCollStatus_kept (x0) (x1) : (@hCollStatus x0 x1).1.core = x1.core := by
  unfold hCollStatus
  (repeat' first | with_reducible rfl | (intros; simp only [refuse_kept, keep_rules, ite_self, implies_true, core_fold, core_foldF, core_foldS]) | split | (rename _ = (_, _) => hh; obtain ⟨rfl, rfl⟩ := Prod.ext_iff.mp hh) | refine core_foldWith (fun s x => ?_) ?_ | refine Eq.trans (core_foldF (fun s x => ?_) _ _) ?_ | refine Eq.trans (core_foldS (fun s x => ?_) _ _) ?_)
theorem execCollStatus_kept (x0) (x1) : ∃ t, (@execCollStatus x0 x1) = .next t ∧ t.core = x1.core := by unfold execCollStatus; exact ⟨_, rfl, by (repeat' first | with_reducible rfl | (intros; simp only [State_present_kept, hCollStatus_kept, keep_rules, ite_self, implies_true, core_fold, core_foldF, core_foldS]) | split | (rename _ = (_, _) => hh; obtain ⟨rfl, rfl⟩ := Prod.ext_iff.mp hh) | refine core_foldWith (fun s x => ?_) ?_ | refine Eq.trans (core_foldF (fun s x => ?_) _ _) ?_ | refine Eq.trans (core_foldS (fun s x => ?_) _ _) ?_)⟩
theorem hCollCancel_kept (x0) (x1) : (@hCollCancel x0 x1).1.core = x1.core := by
  unfold hCollCancel
  (repeat' first | with_reducible rfl | (intros; simp only [refuse_kept, volatileOk_kept, State_failOp_kept, keep_rules, ite_self, implies_true, core_fold, core_foldF, core_foldS]) | split | (rename _ = (_, _) => hh; obtain ⟨rfl, rfl⟩ := Prod.ext_iff.mp hh) | refine core_foldWith (fun s x => ?_) ?_ | refine Eq.trans (core_foldF (fun s x => ?_) _ _) ?_ | refine Eq.trans (core_foldS (fun s x => ?_) _ _) ?_)
theorem execCollCancel_kept (x0) (x1) : ∃ t, (@execCollCancel x0 x1) = .next t ∧ t.core = x1.core := by unfold execCollCancel; exact ⟨_, rfl, by (repeat' first | with_reducible rfl | (intros; simp only [State_present_kept, hCollCancel_kept, keep_rules, ite_self, implies_true, core_fold, core_foldF, core_foldS]) | split | (rename _ = (_, _) => hh; obtain ⟨rfl, rfl⟩ := Prod.ext_iff.mp hh) | refine core_foldWith (fun s x => ?_) ?_ | refine Eq.trans (core_foldF (fun s x => ?_) _ _) ?_ | refine Eq.trans (core_foldS (fun s x => ?_) _ _) ?_)⟩
theorem hTileRead_kept (x0) (x1) : (@hTileRead x0 x1).1.core = x1.core := by
  unfold hTileRead
  (repeat' first | with_reducible rfl | (intros; simp only [refuse_kept, keep_rules, ite_self, implies_true, core_fold, core_foldF, core_foldS]) | split | (rename _ = (_, _) => hh; obtain ⟨rfl, rfl⟩ := Prod.ext_iff.mp hh) | refine core_foldWith (fun s x => ?_) ?_ | refine Eq.trans (core_foldF (fun s x => ?_) _ _) ?_ | refine Eq.trans (core_foldS (fun s x => ?_) _ _) ?_)
theorem execTileRead_kept (x0) (x1) : ∃ t, (@execTileRead x0 x1) = .next t ∧ t.core = x1.core := by unfold execTileRead; exact ⟨_, rfl, by (repeat' first | with_reducible rfl | (intros; simp only [State_present_kept, hTileRead_kept, keep_rules, ite_self, implies_true, core_fold, core_foldF, core_foldS]) | split | (rename _ = (_, _) => hh; obtain ⟨rfl, rfl⟩ := Prod.ext_iff.mp hh) | refine core_foldWith (fun s x => ?_) ?_ | refine Eq.trans (core_foldF (fun s x => ?_) _ _) ?_ | refine Eq.trans (core_foldS (fun s x => ?_) _ _) ?_)⟩
theorem hTileWrite_kept (x0) (x1) : (@hTileWrite x0 x1).1.core = x1.core := by
  unfold hTileWrite
  (repeat' first | with_reducible rfl | (intros; simp only [refuse_kept, volatileOk_kept, State_updVol_kept, keep_rules, ite_self, implies_true, core_fold, core_foldF, core_foldS]) | split | (rename _ = (_, _) => hh; obtain ⟨rfl, rfl⟩ := Prod.ext_iff.mp hh) | refine core_foldWith (fun s x => ?_) ?_ | refine Eq.trans (core_foldF (fun s x => ?_) _ _) ?_ | refine Eq.trans (core_foldS (fun s x => ?_) _ _) ?_)
theorem execTileWrite_kept (x0) (x1) : ∃ t, (@execTileWrite x0 x1) = .next t ∧ t.core = x1.core := by unfold execTileWrite; exact ⟨_, rfl, by (repeat' first | with_reducible rfl | (intros; simp only [State_present_kept, hTileWrite_kept, keep_rules, ite_self, implies_true, core_fold, core_foldF, core_foldS]) | split | (rename _ = (_, _) => hh; obtain ⟨rfl, rfl⟩ := Prod.ext_iff.mp hh) | refine core_foldWith (fun s x => ?_) ?_ | refine Eq.trans (core_foldF (fun s x => ?_) _ _) ?_ | refine Eq.trans (core_foldS (fun s x => ?_) _ _) ?_)⟩
theorem State_contribution_kept (x0) (x1) (x2) (x3) (x4) : (@State.contribution x0 x1 x2 x3 x4).core = x0.core := by
  unfold State.contribution
  (repeat' first | with_reducible rfl | (intros; simp only [State_updOp_kept, State_updVol_kept, State_updQuireVol_kept, keep_rules, ite_self, implies_true, core_fold, core_foldF, core_foldS]) | split | (rename _ = (_, _) => hh; obtain ⟨rfl, rfl⟩ := Prod.ext_iff.mp hh) | refine core_foldWith (fun s x => ?_) ?_ | refine Eq.trans (core_foldF (fun s x => ?_) _ _) ?_ | refine Eq.trans (core_foldS (fun s x => ?_) _ _) ?_)
theorem State_castSeq_kept (x0) (x1) : (@State.castSeq x0 x1).2.core = x0.core := by
  unfold State.castSeq
  (repeat' first | with_reducible rfl | (intros; simp only [State_putFlow_kept, keep_rules, ite_self, implies_true, core_fold, core_foldF, core_foldS]) | split | (rename _ = (_, _) => hh; obtain ⟨rfl, rfl⟩ := Prod.ext_iff.mp hh) | refine core_foldWith (fun s x => ?_) ?_ | refine Eq.trans (core_foldF (fun s x => ?_) _ _) ?_ | refine Eq.trans (core_foldS (fun s x => ?_) _ _) ?_)
theorem State_sendChunk_kept (x0) (x1) (x2) (x3) : (@State.sendChunk x0 x1 x2 x3).core = x0.core := by
  unfold State.sendChunk
  (repeat' first | with_reducible rfl | (intros; simp only [State_castSeq_kept, State_originate_kept, State_updQuireVol_kept, State_updOp_kept, State_sendBody_kept, keep_rules, ite_self, implies_true, core_fold, core_foldF, core_foldS]) | split | (rename _ = (_, _) => hh; obtain ⟨rfl, rfl⟩ := Prod.ext_iff.mp hh) | refine core_foldWith (fun s x => ?_) ?_ | refine Eq.trans (core_foldF (fun s x => ?_) _ _) ?_ | refine Eq.trans (core_foldS (fun s x => ?_) _ _) ?_)
theorem State_sendReady_kept (x0) (x1) (x2) : (@State.sendReady x0 x1 x2).core = x0.core := by
  unfold State.sendReady
  (repeat' first | with_reducible rfl | (intros; simp only [State_sendChunk_kept, keep_rules, ite_self, implies_true, core_fold, core_foldF, core_foldS]) | split | (rename _ = (_, _) => hh; obtain ⟨rfl, rfl⟩ := Prod.ext_iff.mp hh) | refine core_foldWith (fun s x => ?_) ?_ | refine Eq.trans (core_foldF (fun s x => ?_) _ _) ?_ | refine Eq.trans (core_foldS (fun s x => ?_) _ _) ?_)
theorem State_sendFar_kept (x0) (x1) : (@State.sendFar x0 x1).core = x0.core := by
  unfold State.sendFar
  (repeat' first | with_reducible rfl | (intros; simp only [State_sendBody_kept, keep_rules, ite_self, implies_true, core_fold, core_foldF, core_foldS]) | split | (rename _ = (_, _) => hh; obtain ⟨rfl, rfl⟩ := Prod.ext_iff.mp hh) | refine core_foldWith (fun s x => ?_) ?_ | refine Eq.trans (core_foldF (fun s x => ?_) _ _) ?_ | refine Eq.trans (core_foldS (fun s x => ?_) _ _) ?_)
theorem State_passFar_kept (x0) (x1) (x2) (x3) : (@State.passFar x0 x1 x2 x3).core = x0.core := by
  unfold State.passFar
  (repeat' first | with_reducible rfl | (intros; simp only [State_sendFar_kept, keep_rules, ite_self, implies_true, core_fold, core_foldF, core_foldS]) | split | (rename _ = (_, _) => hh; obtain ⟨rfl, rfl⟩ := Prod.ext_iff.mp hh) | refine core_foldWith (fun s x => ?_) ?_ | refine Eq.trans (core_foldF (fun s x => ?_) _ _) ?_ | refine Eq.trans (core_foldS (fun s x => ?_) _ _) ?_)
theorem State_chunkPassed_kept (x0) (x1) (x2) (x3) : (@State.chunkPassed x0 x1 x2 x3).core = x0.core := by
  unfold State.chunkPassed
  (repeat' first | with_reducible rfl | (intros; simp only [State_passFar_kept, State_updOp_kept, keep_rules, ite_self, implies_true, core_fold, core_foldF, core_foldS]) | split | (rename _ = (_, _) => hh; obtain ⟨rfl, rfl⟩ := Prod.ext_iff.mp hh) | refine core_foldWith (fun s x => ?_) ?_ | refine Eq.trans (core_foldF (fun s x => ?_) _ _) ?_ | refine Eq.trans (core_foldS (fun s x => ?_) _ _) ?_)
theorem State_finishFar_kept (x0) (x1) (x2) (x3) : (@State.finishFar x0 x1 x2 x3).core = x0.core := by
  unfold State.finishFar
  (repeat' first | with_reducible rfl | (intros; simp only [State_updVol_kept, State_updOp_kept, State_sendReady_kept, keep_rules, ite_self, implies_true, core_fold, core_foldF, core_foldS]) | split | (rename _ = (_, _) => hh; obtain ⟨rfl, rfl⟩ := Prod.ext_iff.mp hh) | refine core_foldWith (fun s x => ?_) ?_ | refine Eq.trans (core_foldF (fun s x => ?_) _ _) ?_ | refine Eq.trans (core_foldS (fun s x => ?_) _ _) ?_)
theorem State_farRx_kept (x0) (x1) : (@State.farRx x0 x1).core = x0.core := by
  unfold State.farRx
  (repeat' first | with_reducible rfl | (intros; simp only [State_sendFar_kept, State_updOp_kept, State_finishFar_kept, keep_rules, ite_self, implies_true, core_fold, core_foldF, core_foldS]) | split | (rename _ = (_, _) => hh; obtain ⟨rfl, rfl⟩ := Prod.ext_iff.mp hh) | refine core_foldWith (fun s x => ?_) ?_ | refine Eq.trans (core_foldF (fun s x => ?_) _ _) ?_ | refine Eq.trans (core_foldS (fun s x => ?_) _ _) ?_)
theorem State_retireCluster_kept (x0) (x1) : (@State.retireCluster x0 x1).core = x0.core := by
  unfold State.retireCluster
  (repeat' first | with_reducible rfl | (intros; simp only [State_zeroTiles_kept, State_setDegraded_kept, State_stageOwn_kept, keep_rules, ite_self, implies_true, core_fold, core_foldF, core_foldS]) | split | (rename _ = (_, _) => hh; obtain ⟨rfl, rfl⟩ := Prod.ext_iff.mp hh) | refine core_foldWith (fun s x => ?_) ?_ | refine Eq.trans (core_foldF (fun s x => ?_) _ _) ?_ | refine Eq.trans (core_foldS (fun s x => ?_) _ _) ?_)
theorem State_opFault_kept (x0) (x1) (x2) (x3) (x4) (x5) : (@State.opFault x0 x1 x2 x3 x4 x5).core = x0.core := by
  unfold State.opFault
  (repeat' first | with_reducible rfl | (intros; simp only [State_addFault_kept, keep_rules, ite_self, implies_true, core_fold, core_foldF, core_foldS]) | split | (rename _ = (_, _) => hh; obtain ⟨rfl, rfl⟩ := Prod.ext_iff.mp hh) | refine core_foldWith (fun s x => ?_) ?_ | refine Eq.trans (core_foldF (fun s x => ?_) _ _) ?_ | refine Eq.trans (core_foldS (fun s x => ?_) _ _) ?_)
theorem State_itemRan_kept (x0) (x1) (x2) (x3) (x4) : (@State.itemRan x0 x1 x2 x3 x4).core = x0.core := by
  unfold State.itemRan
  (repeat' first | with_reducible rfl | (intros; simp only [State_opFault_kept, State_updVol_kept, State_updOp_kept, keep_rules, ite_self, implies_true, core_fold, core_foldF, core_foldS]) | split | (rename _ = (_, _) => hh; obtain ⟨rfl, rfl⟩ := Prod.ext_iff.mp hh) | refine core_foldWith (fun s x => ?_) ?_ | refine Eq.trans (core_foldF (fun s x => ?_) _ _) ?_ | refine Eq.trans (core_foldS (fun s x => ?_) _ _) ?_)
theorem execWorkItemDone_kept (x0) (x1) (x2) (x3) (x4) (x5) : ∃ t, (@execWorkItemDone x0 x1 x2 x3 x4 x5) = .next t ∧ t.core = x5.core := by unfold execWorkItemDone; (try dsimp only); (repeat' first | (split) | (rename _ = (_, _) => hh; obtain ⟨rfl, rfl⟩ := Prod.ext_iff.mp hh)) <;> exact ⟨_, rfl, by (repeat' first | with_reducible rfl | (intros; simp only [State_failOp_kept, State_itemRan_kept, State_chunkPassed_kept, State_sendReady_kept, State_retireCluster_kept, State_opFault_kept, State_updOp_kept, keep_rules, ite_self, implies_true, core_fold, core_foldF, core_foldS]) | split | (rename _ = (_, _) => hh; obtain ⟨rfl, rfl⟩ := Prod.ext_iff.mp hh) | refine core_foldWith (fun s x => ?_) ?_ | refine Eq.trans (core_foldF (fun s x => ?_) _ _) ?_ | refine Eq.trans (core_foldS (fun s x => ?_) _ _) ?_)⟩
theorem State_suspect_kept (x0) (x1) : (@State.suspect x0 x1).core = x0.core := by
  unfold State.suspect
  (repeat' first | with_reducible rfl | (intros; simp only [State_raiseNext_kept, keep_rules, ite_self, implies_true, core_fold, core_foldF, core_foldS]) | split | (rename _ = (_, _) => hh; obtain ⟨rfl, rfl⟩ := Prod.ext_iff.mp hh) | refine core_foldWith (fun s x => ?_) ?_ | refine Eq.trans (core_foldF (fun s x => ?_) _ _) ?_ | refine Eq.trans (core_foldS (fun s x => ?_) _ _) ?_)
theorem State_suspectPath_kept (x0) (x1) (x2) (x3) (x4) (x5) (x6) : (@State.suspectPath x0 x1 x2 x3 x4 x5 x6).core = x0.core := by
  unfold State.suspectPath
  (repeat' first | with_reducible rfl | (intros; simp only [State_suspect_kept, keep_rules, ite_self, implies_true, core_fold, core_foldF, core_foldS]) | split | (rename _ = (_, _) => hh; obtain ⟨rfl, rfl⟩ := Prod.ext_iff.mp hh) | refine core_foldWith (fun s x => ?_) ?_ | refine Eq.trans (core_foldF (fun s x => ?_) _ _) ?_ | refine Eq.trans (core_foldS (fun s x => ?_) _ _) ?_)
theorem State_lostChunk_kept (x0) (x1) (x2) : (@State.lostChunk x0 x1 x2).core = x0.core := by
  unfold State.lostChunk
  (repeat' first | with_reducible rfl | (intros; simp only [State_freeNat_kept, State_suspectPath_kept, State_opFault_kept, State_failOp_kept, keep_rules, ite_self, implies_true, core_fold, core_foldF, core_foldS]) | split | (rename _ = (_, _) => hh; obtain ⟨rfl, rfl⟩ := Prod.ext_iff.mp hh) | refine core_foldWith (fun s x => ?_) ?_ | refine Eq.trans (core_foldF (fun s x => ?_) _ _) ?_ | refine Eq.trans (core_foldS (fun s x => ?_) _ _) ?_)
theorem State_lostLeg_kept (x0) (x1) (x2) : (@State.lostLeg x0 x1 x2).core = x0.core := by
  unfold State.lostLeg
  (repeat' first | with_reducible rfl | (intros; simp only [State_updOp_kept, State_suspectPath_kept, State_opFault_kept, keep_rules, ite_self, implies_true, core_fold, core_foldF, core_foldS]) | split | (rename _ = (_, _) => hh; obtain ⟨rfl, rfl⟩ := Prod.ext_iff.mp hh) | refine core_foldWith (fun s x => ?_) ?_ | refine Eq.trans (core_foldF (fun s x => ?_) _ _) ?_ | refine Eq.trans (core_foldS (fun s x => ?_) _ _) ?_)
theorem State_retryFar_kept (x0) (x1) (x2) (x3) : (@State.retryFar x0 x1 x2 x3).core = x0.core := by
  unfold State.retryFar
  (repeat' first | with_reducible rfl | (intros; simp only [State_opFault_kept, State_failOp_kept, State_suspect_kept, State_passFar_kept, State_updOp_kept, keep_rules, ite_self, implies_true, core_fold, core_foldF, core_foldS]) | split | (rename _ = (_, _) => hh; obtain ⟨rfl, rfl⟩ := Prod.ext_iff.mp hh) | refine core_foldWith (fun s x => ?_) ?_ | refine Eq.trans (core_foldF (fun s x => ?_) _ _) ?_ | refine Eq.trans (core_foldS (fun s x => ?_) _ _) ?_)
theorem execRetryHorizon_kept (x0) (x1) (x2) (x3) : ∃ t, (@execRetryHorizon x0 x1 x2 x3) = .next t ∧ t.core = x3.core := by unfold execRetryHorizon; (try dsimp only); (repeat' first | (split) | (rename _ = (_, _) => hh; obtain ⟨rfl, rfl⟩ := Prod.ext_iff.mp hh)) <;> exact ⟨_, rfl, by (repeat' first | with_reducible rfl | (intros; simp only [State_lostChunk_kept, State_updOp_kept, State_sendCtl_kept, State_retryFar_kept, State_lostLeg_kept, State_sendBody_kept, keep_rules, ite_self, implies_true, core_fold, core_foldF, core_foldS]) | split | (rename _ = (_, _) => hh; obtain ⟨rfl, rfl⟩ := Prod.ext_iff.mp hh) | refine core_foldWith (fun s x => ?_) ?_ | refine Eq.trans (core_foldF (fun s x => ?_) _ _) ?_ | refine Eq.trans (core_foldS (fun s x => ?_) _ _) ?_)⟩
theorem execMulticastHorizon_kept (x0) (x1) (x2) : ∃ t, (@execMulticastHorizon x0 x1 x2) = .next t ∧ t.core = x2.core := by unfold execMulticastHorizon; (try dsimp only); (repeat' first | (split) | (rename _ = (_, _) => hh; obtain ⟨rfl, rfl⟩ := Prod.ext_iff.mp hh)) <;> exact ⟨_, rfl, by (repeat' first | with_reducible rfl | (intros; simp only [State_originate_kept, State_updOp_kept, State_lostLeg_kept, keep_rules, ite_self, implies_true, core_fold, core_foldF, core_foldS]) | split | (rename _ = (_, _) => hh; obtain ⟨rfl, rfl⟩ := Prod.ext_iff.mp hh) | refine core_foldWith (fun s x => ?_) ?_ | refine Eq.trans (core_foldF (fun s x => ?_) _ _) ?_ | refine Eq.trans (core_foldS (fun s x => ?_) _ _) ?_)⟩
theorem State_ackLegs_kept (x0) (x1) (x2) (x3) : (@State.ackLegs x0 x1 x2 x3).core = x0.core := by
  unfold State.ackLegs
  (repeat' first | with_reducible rfl | (intros; simp only [State_updOp_kept, keep_rules, ite_self, implies_true, core_fold, core_foldF, core_foldS]) | split | (rename _ = (_, _) => hh; obtain ⟨rfl, rfl⟩ := Prod.ext_iff.mp hh) | refine core_foldWith (fun s x => ?_) ?_ | refine Eq.trans (core_foldF (fun s x => ?_) _ _) ?_ | refine Eq.trans (core_foldS (fun s x => ?_) _ _) ?_)
theorem execTagCloseEnd_kept (x0) (x1) (x2) : ∃ t, (@execTagCloseEnd x0 x1 x2) = .next t ∧ t.core = x2.core := by unfold execTagCloseEnd; exact ⟨_, rfl, by (repeat' first | with_reducible rfl | (intros; simp only [State_updVol_kept, keep_rules, ite_self, implies_true, core_fold, core_foldF, core_foldS]) | split | (rename _ = (_, _) => hh; obtain ⟨rfl, rfl⟩ := Prod.ext_iff.mp hh) | refine core_foldWith (fun s x => ?_) ?_ | refine Eq.trans (core_foldF (fun s x => ?_) _ _) ?_ | refine Eq.trans (core_foldS (fun s x => ?_) _ _) ?_)⟩
theorem execLaunchMatchTimeout_kept (x0) (x1) (x2) : ∃ t, (@execLaunchMatchTimeout x0 x1 x2) = .next t ∧ t.core = x2.core := by unfold execLaunchMatchTimeout; (try dsimp only); (repeat' first | (split) | (rename _ = (_, _) => hh; obtain ⟨rfl, rfl⟩ := Prod.ext_iff.mp hh)) <;> exact ⟨_, rfl, by (repeat' first | with_reducible rfl | (intros; simp only [State_endOp_kept, keep_rules, ite_self, implies_true, core_fold, core_foldF, core_foldS]) | split | (rename _ = (_, _) => hh; obtain ⟨rfl, rfl⟩ := Prod.ext_iff.mp hh) | refine core_foldWith (fun s x => ?_) ?_ | refine Eq.trans (core_foldF (fun s x => ?_) _ _) ?_ | refine Eq.trans (core_foldS (fun s x => ?_) _ _) ?_)⟩
theorem State_tellOp_kept (x0) (x1) : (@State.tellOp x0 x1).core = x0.core := by
  unfold State.tellOp
  (repeat' first | with_reducible rfl | (intros; simp only [State_updOp_kept, State_sendCtls_kept, State_sendChunk_kept, keep_rules, ite_self, implies_true, core_fold, core_foldF, core_foldS]) | split | (rename _ = (_, _) => hh; obtain ⟨rfl, rfl⟩ := Prod.ext_iff.mp hh) | refine core_foldWith (fun s x => ?_) ?_ | refine Eq.trans (core_foldF (fun s x => ?_) _ _) ?_ | refine Eq.trans (core_foldS (fun s x => ?_) _ _) ?_)
theorem State_boundaryOps_kept (x0) : (@State.boundaryOps x0).core = x0.core := by
  unfold State.boundaryOps
  (repeat' first | with_reducible rfl | (intros; simp only [State_tellOp_kept, State_updVol_kept, keep_rules, ite_self, implies_true, core_fold, core_foldF, core_foldS]) | split | (rename _ = (_, _) => hh; obtain ⟨rfl, rfl⟩ := Prod.ext_iff.mp hh) | refine core_foldWith (fun s x => ?_) ?_ | refine Eq.trans (core_foldF (fun s x => ?_) _ _) ?_ | refine Eq.trans (core_foldS (fun s x => ?_) _ _) ?_)
theorem State_sealOp_kept (x0) (x1) : (@State.sealOp x0 x1).core = x0.core := by
  unfold State.sealOp
  (repeat' first | with_reducible rfl | (intros; simp only [State_opFault_kept, State_failOp_kept, State_updOp_kept, State_endOp_kept, keep_rules, ite_self, implies_true, core_fold, core_foldF, core_foldS]) | split | (rename _ = (_, _) => hh; obtain ⟨rfl, rfl⟩ := Prod.ext_iff.mp hh) | refine core_foldWith (fun s x => ?_) ?_ | refine Eq.trans (core_foldF (fun s x => ?_) _ _) ?_ | refine Eq.trans (core_foldS (fun s x => ?_) _ _) ?_)
theorem State_sealOps_kept (x0) : (@State.sealOps x0).core = x0.core := by
  unfold State.sealOps
  (repeat' first | with_reducible rfl | (intros; simp only [State_sealOp_kept, keep_rules, ite_self, implies_true, core_fold, core_foldF, core_foldS]) | split | (rename _ = (_, _) => hh; obtain ⟨rfl, rfl⟩ := Prod.ext_iff.mp hh) | refine core_foldWith (fun s x => ?_) ?_ | refine Eq.trans (core_foldF (fun s x => ?_) _ _) ?_ | refine Eq.trans (core_foldS (fun s x => ?_) _ _) ?_)
theorem State_setActivate_kept (x0) (x1) (x2) : (@State.setActivate x0 x1 x2).core = x0.core := by
  unfold State.setActivate
  (repeat' first | with_reducible rfl | (intros; simp only [State_updTask_kept, keep_rules, ite_self, implies_true, core_fold, core_foldF, core_foldS]) | split | (rename _ = (_, _) => hh; obtain ⟨rfl, rfl⟩ := Prod.ext_iff.mp hh) | refine core_foldWith (fun s x => ?_) ?_ | refine Eq.trans (core_foldF (fun s x => ?_) _ _) ?_ | refine Eq.trans (core_foldS (fun s x => ?_) _ _) ?_)
theorem State_stageSwap_kept (x0) (x1) (x2) : (@State.stageSwap x0 x1 x2).core = x0.core := by
  unfold State.stageSwap
  (repeat' first | with_reducible rfl | (intros; simp only [State_stageTask_kept, keep_rules, ite_self, implies_true, core_fold, core_foldF, core_foldS]) | split | (rename _ = (_, _) => hh; obtain ⟨rfl, rfl⟩ := Prod.ext_iff.mp hh) | refine core_foldWith (fun s x => ?_) ?_ | refine Eq.trans (core_foldF (fun s x => ?_) _ _) ?_ | refine Eq.trans (core_foldS (fun s x => ?_) _ _) ?_)
theorem State_activateDrained_kept (x0) (x1) (x2) (x3) (x4) : (@State.activateDrained x0 x1 x2 x3 x4).core = x0.core := by
  unfold State.activateDrained
  (repeat' first | with_reducible rfl | (intros; simp only [State_setActivate_kept, State_count_kept, State_stageSwap_kept, keep_rules, ite_self, implies_true, core_fold, core_foldF, core_foldS]) | split | (rename _ = (_, _) => hh; obtain ⟨rfl, rfl⟩ := Prod.ext_iff.mp hh) | refine core_foldWith (fun s x => ?_) ?_ | refine Eq.trans (core_foldF (fun s x => ?_) _ _) ?_ | refine Eq.trans (core_foldS (fun s x => ?_) _ _) ?_)
theorem State_resumeAll_kept (x0) (x1) (x2) : (@State.resumeAll x0 x1 x2).core = x0.core := by
  unfold State.resumeAll
  (repeat' first | with_reducible rfl | (intros; simp only [State_resumeAdmission_kept, keep_rules, ite_self, implies_true, core_fold, core_foldF, core_foldS]) | split | (rename _ = (_, _) => hh; obtain ⟨rfl, rfl⟩ := Prod.ext_iff.mp hh) | refine core_foldWith (fun s x => ?_) ?_ | refine Eq.trans (core_foldF (fun s x => ?_) _ _) ?_ | refine Eq.trans (core_foldS (fun s x => ?_) _ _) ?_)
theorem State_failActivate_kept (x0) (x1) (x2) (x3) : (@State.failActivate x0 x1 x2 x3).core = x0.core := by
  unfold State.failActivate
  (repeat' first | with_reducible rfl | (intros; simp only [State_failTask_kept, State_resumeAll_kept, keep_rules, ite_self, implies_true, core_fold, core_foldF, core_foldS]) | split | (rename _ = (_, _) => hh; obtain ⟨rfl, rfl⟩ := Prod.ext_iff.mp hh) | refine core_foldWith (fun s x => ?_) ?_ | refine Eq.trans (core_foldF (fun s x => ?_) _ _) ?_ | refine Eq.trans (core_foldS (fun s x => ?_) _ _) ?_)
theorem State_writePfts_kept (x0) (x1) (x2) (x3) (x4) : (@State.writePfts x0 x1 x2 x3 x4).1.core = x0.core := by
  induction x2 generalizing x0 x3 x4 with
  | nil => exact id rfl
  | cons a l ih =>
    unfold State.writePfts
    split
    · with_reducible rfl
    · exact (ih _ _ _).trans (State_sendWrites_kept _ _ _ _)
theorem State_workActivate_kept (x0) (x1) (x2) (x3) (x4) (x5) (x6) (x7) : (@State.workActivate x0 x1 x2 x3 x4 x5 x6 x7).1.core = x0.core := by
  unfold State.workActivate
  (repeat' first | with_reducible rfl | (intros; simp only [State_failActivate_kept, State_writeAgain_kept, State_writePfts_kept, State_setActivate_kept, State_stageSwap_kept, keep_rules, ite_self, implies_true, core_fold, core_foldF, core_foldS]) | split | (rename _ = (_, _) => hh; obtain ⟨rfl, rfl⟩ := Prod.ext_iff.mp hh) | refine core_foldWith (fun s x => ?_) ?_ | refine Eq.trans (core_foldF (fun s x => ?_) _ _) ?_ | refine Eq.trans (core_foldS (fun s x => ?_) _ _) ?_)
theorem State_activateSealed_kept (x0) (x1) (x2) (x3) (x4) : (@State.activateSealed x0 x1 x2 x3 x4).core = x0.core := by
  unfold State.activateSealed
  (repeat' first | with_reducible rfl | (intros; simp only [State_sendCtl_kept, State_updVol_kept, State_resumeAll_kept, State_endTask_kept, keep_rules, ite_self, implies_true, core_fold, core_foldF, core_foldS]) | split | (rename _ = (_, _) => hh; obtain ⟨rfl, rfl⟩ := Prod.ext_iff.mp hh) | refine core_foldWith (fun s x => ?_) ?_ | refine Eq.trans (core_foldF (fun s x => ?_) _ _) ?_ | refine Eq.trans (core_foldS (fun s x => ?_) _ _) ?_)
theorem State_boundaryDrain_kept (x0) (x1) : (@State.boundaryDrain x0 x1).core = x0.core := by
  unfold State.boundaryDrain
  (repeat' first | with_reducible rfl | (intros; simp only [State_beginDrain_kept, State_updTask_kept, State_stopAdmission_kept, keep_rules, ite_self, implies_true, core_fold, core_foldF, core_foldS]) | split | (rename _ = (_, _) => hh; obtain ⟨rfl, rfl⟩ := Prod.ext_iff.mp hh) | refine core_foldWith (fun s x => ?_) ?_ | refine Eq.trans (core_foldF (fun s x => ?_) _ _) ?_ | refine Eq.trans (core_foldS (fun s x => ?_) _ _) ?_)
theorem State_sealDrain_kept (x0) (x1) : (@State.sealDrain x0 x1).core = x0.core := by
  unfold State.sealDrain
  (repeat' first | with_reducible rfl | (intros; simp only [State_updTask_kept, State_count_kept, State_updQuireVol_kept, State_sealTask_kept, State_activateDrained_kept, keep_rules, ite_self, implies_true, core_fold, core_foldF, core_foldS]) | split | (rename _ = (_, _) => hh; obtain ⟨rfl, rfl⟩ := Prod.ext_iff.mp hh) | refine core_foldWith (fun s x => ?_) ?_ | refine Eq.trans (core_foldF (fun s x => ?_) _ _) ?_ | refine Eq.trans (core_foldS (fun s x => ?_) _ _) ?_)
theorem State_drainOut_kept (x0) (x1) (x2) : (@State.drainOut x0 x1 x2).core = x0.core := by
  unfold State.drainOut
  (repeat' first | with_reducible rfl | (intros; simp only [State_failInstall_kept, State_failTask_kept, State_resumeAdmission_kept, State_failActivate_kept, State_rebindAbort_kept, keep_rules, ite_self, implies_true, core_fold, core_foldF, core_foldS]) | split | (rename _ = (_, _) => hh; obtain ⟨rfl, rfl⟩ := Prod.ext_iff.mp hh) | refine core_foldWith (fun s x => ?_) ?_ | refine Eq.trans (core_foldF (fun s x => ?_) _ _) ?_ | refine Eq.trans (core_foldS (fun s x => ?_) _ _) ?_)
theorem execDrainTimeout_kept (x0) (x1) : ∃ t, (@execDrainTimeout x0 x1) = .next t ∧ t.core = x1.core := by unfold execDrainTimeout; exact ⟨_, rfl, by (repeat' first | with_reducible rfl | (intros; simp only [State_drainOut_kept, keep_rules, ite_self, implies_true, core_fold, core_foldF, core_foldS]) | split | (rename _ = (_, _) => hh; obtain ⟨rfl, rfl⟩ := Prod.ext_iff.mp hh) | refine core_foldWith (fun s x => ?_) ?_ | refine Eq.trans (core_foldF (fun s x => ?_) _ _) ?_ | refine Eq.trans (core_foldS (fun s x => ?_) _ _) ?_)⟩
theorem State_rxGood_kept (x0) (x1) (x2) : (@State.rxGood x0 x1 x2).core = x0.core := by
  unfold State.rxGood
  (repeat' first | with_reducible rfl | (intros; simp only [State_rxCount_kept, State_updPort_kept, keep_rules, ite_self, implies_true, core_fold, core_foldF, core_foldS]) | split | (rename _ = (_, _) => hh; obtain ⟨rfl, rfl⟩ := Prod.ext_iff.mp hh) | refine core_foldWith (fun s x => ?_) ?_ | refine Eq.trans (core_foldF (fun s x => ?_) _ _) ?_ | refine Eq.trans (core_foldS (fun s x => ?_) _ _) ?_)
theorem State_rxDrop_kept (x0) (x1) (x2) (x3) (x4) : (@State.rxDrop x0 x1 x2 x3 x4).core = x0.core := by
  unfold State.rxDrop
  (repeat' first | with_reducible rfl | (intros; simp only [State_count_kept, State_updPort_kept, keep_rules, ite_self, implies_true, core_fold, core_foldF, core_foldS]) | split | (rename _ = (_, _) => hh; obtain ⟨rfl, rfl⟩ := Prod.ext_iff.mp hh) | refine core_foldWith (fun s x => ?_) ?_ | refine Eq.trans (core_foldF (fun s x => ?_) _ _) ?_ | refine Eq.trans (core_foldS (fun s x => ?_) _ _) ?_)
theorem State_consume_kept (x0) (x1) (x2) (x3) (x4) (x5) (x6) (x7) : (@State.consume x0 x1 x2 x3 x4 x5 x6 x7).core = x0.core := by
  unfold State.consume
  (repeat' first | with_reducible rfl | (intros; simp only [State_updQuireVol_kept, State_transfer_kept, State_farRx_kept, State_contribution_kept, keep_rules, ite_self, implies_true, core_fold, core_foldF, core_foldS]) | (rename @State.acceptSeq _ _ _ _ = some _ => hh; have h1 := State_acceptSeq_kept _ _ _ _ _ hh; clear hh; simp only [h1, State_updQuireVol_kept, State_transfer_kept, State_farRx_kept, State_contribution_kept, keep_rules, ite_self, implies_true, core_fold, core_foldF, core_foldS]) | split | (rename _ = (_, _) => hh; obtain ⟨rfl, rfl⟩ := Prod.ext_iff.mp hh) | refine core_foldWith (fun s x => ?_) ?_ | refine Eq.trans (core_foldF (fun s x => ?_) _ _) ?_ | refine Eq.trans (core_foldS (fun s x => ?_) _ _) ?_)
theorem State_dataRx_kept (x0) (x1) (x2) (x3) : (@State.dataRx x0 x1 x2 x3).core = x0.core := by
  unfold State.dataRx
  (repeat' first | with_reducible rfl | (intros; simp only [State_count_kept, State_rxDrop_kept, State_rxGood_kept, State_forwardPkt_kept, State_consume_kept, keep_rules, ite_self, implies_true, core_fold, core_foldF, core_foldS]) | split | (rename _ = (_, _) => hh; obtain ⟨rfl, rfl⟩ := Prod.ext_iff.mp hh) | refine core_foldWith (fun s x => ?_) ?_ | refine Eq.trans (core_foldF (fun s x => ?_) _ _) ?_ | refine Eq.trans (core_foldS (fun s x => ?_) _ _) ?_)
theorem execDataPacketRx_kept (x0) (x1) (x2) (x3) : ∃ t, (@execDataPacketRx x0 x1 x2 x3) = .next t ∧ t.core = x3.core := by unfold execDataPacketRx; exact ⟨_, rfl, by (repeat' first | with_reducible rfl | (intros; simp only [State_dataRx_kept, keep_rules, ite_self, implies_true, core_fold, core_foldF, core_foldS]) | split | (rename _ = (_, _) => hh; obtain ⟨rfl, rfl⟩ := Prod.ext_iff.mp hh) | refine core_foldWith (fun s x => ?_) ?_ | refine Eq.trans (core_foldF (fun s x => ?_) _ _) ?_ | refine Eq.trans (core_foldS (fun s x => ?_) _ _) ?_)⟩
theorem State_forwardCtl_kept (x0) (x1) (x2) (x3) : (@State.forwardCtl x0 x1 x2 x3).core = x0.core := by
  unfold State.forwardCtl
  (repeat' first | with_reducible rfl | (intros; simp only [State_updPort_kept, State_count_kept, keep_rules, ite_self, implies_true, core_fold, core_foldF, core_foldS]) | split | (rename _ = (_, _) => hh; obtain ⟨rfl, rfl⟩ := Prod.ext_iff.mp hh) | refine core_foldWith (fun s x => ?_) ?_ | refine Eq.trans (core_foldF (fun s x => ?_) _ _) ?_ | refine Eq.trans (core_foldS (fun s x => ?_) _ _) ?_)
theorem State_ctlRx_kept (x0 : State) (x1 x2 x3 x4 x5 x6) (hh : ∀ s c b t, x6 s c b = some t → t.core = s.core) : (@State.ctlRx x0 x1 x2 x3 x4 x5 x6).core = x0.core := by
  unfold State.ctlRx
  split
  · with_reducible rfl
  · split
    · exact State_rxDrop_kept _ _ _ _ _
    · with_reducible rfl
    · exact State_rxGood_kept _ _ _
    · exact (State_forwardCtl_kept _ _ _ _).trans (State_rxGood_kept _ _ _)
    · split
      · rename_i h; exact (hh _ _ _ _ h).trans (State_rxGood_kept _ _ _)
      · exact State_count_kept _ _ _ _
theorem State_legAck_kept (x0) (x1) (x2) : ∀ t, (@State.legAck x0 x1 x2) = some t → t.core = x0.core := by unfold State.legAck; intro t h; (try dsimp only at h); (repeat' (split at h)) <;> first | (cases h; done) | (cases h; (repeat' first | with_reducible rfl | (intros; simp only [State_ackLegs_kept, keep_rules, ite_self, implies_true, core_fold, core_foldF, core_foldS]) | split | (rename _ = (_, _) => hh; obtain ⟨rfl, rfl⟩ := Prod.ext_iff.mp hh) | refine core_foldWith (fun s x => ?_) ?_ | refine Eq.trans (core_foldF (fun s x => ?_) _ _) ?_ | refine Eq.trans (core_foldS (fun s x => ?_) _ _) ?_); done) | (simp only [Option.some.injEq] at h; subst h; (repeat' first | with_reducible rfl | (intros; simp only [State_ackLegs_kept, keep_rules, ite_self, implies_true, core_fold, core_foldF, core_foldS]) | split | (rename _ = (_, _) => hh; obtain ⟨rfl, rfl⟩ := Prod.ext_iff.mp hh) | refine core_foldWith (fun s x => ?_) ?_ | refine Eq.trans (core_foldF (fun s x => ?_) _ _) ?_ | refine Eq.trans (core_foldS (fun s x => ?_) _ _) ?_))
theorem execLegAckRx_kept (x0) (x1) (x2) (x3) : ∃ t, (@execLegAckRx x0 x1 x2 x3) = .next t ∧ t.core = x3.core := ⟨_, rfl, State_ctlRx_kept _ _ _ _ _ _ _ (fun s c b t h => State_legAck_kept _ _ _ _ h)⟩
theorem State_quireSummary_kept (x0) (x1) (x2) : (@State.quireSummary x0 x1 x2).core = x0.core := by
  unfold State.quireSummary
  (repeat' first | with_reducible rfl | (intros; simp only [State_updQuireVol_kept, keep_rules, ite_self, implies_true, core_fold, core_foldF, core_foldS]) | split | (rename _ = (_, _) => hh; obtain ⟨rfl, rfl⟩ := Prod.ext_iff.mp hh) | refine core_foldWith (fun s x => ?_) ?_ | refine Eq.trans (core_foldF (fun s x => ?_) _ _) ?_ | refine Eq.trans (core_foldS (fun s x => ?_) _ _) ?_)
theorem State_opReport_kept (x0) (x1) (x2) : (@State.opReport x0 x1 x2).core = x0.core := by
  unfold State.opReport
  (repeat' first | with_reducible rfl | (intros; simp only [State_updOp_kept, State_ackLegs_kept, keep_rules, ite_self, implies_true, core_fold, core_foldF, core_foldS]) | split | (rename _ = (_, _) => hh; obtain ⟨rfl, rfl⟩ := Prod.ext_iff.mp hh) | refine core_foldWith (fun s x => ?_) ?_ | refine Eq.trans (core_foldF (fun s x => ?_) _ _) ?_ | refine Eq.trans (core_foldS (fun s x => ?_) _ _) ?_)
theorem State_resetConfirm_kept (x0) (x1) (x2) : (@State.resetConfirm x0 x1 x2).core = x0.core := by
  unfold State.resetConfirm
  (repeat' first | with_reducible rfl | (intros; simp only [State_count_kept, State_updQuireVol_kept, keep_rules, ite_self, implies_true, core_fold, core_foldF, core_foldS]) | split | (rename _ = (_, _) => hh; obtain ⟨rfl, rfl⟩ := Prod.ext_iff.mp hh) | refine core_foldWith (fun s x => ?_) ?_ | refine Eq.trans (core_foldF (fun s x => ?_) _ _) ?_ | refine Eq.trans (core_foldS (fun s x => ?_) _ _) ?_)
theorem State_completionReport_kept (x0) (x1) (x2) : ∀ t, (@State.completionReport x0 x1 x2) = some t → t.core = x0.core := by unfold State.completionReport; intro t h; (try dsimp only at h); (repeat' (split at h)) <;> first | (cases h; done) | (cases h; (repeat' first | with_reducible rfl | (intros; simp only [State_quireSummary_kept, State_opReport_kept, State_flowAcked_kept, State_resetConfirm_kept, keep_rules, ite_self, implies_true, core_fold, core_foldF, core_foldS]) | split | (rename _ = (_, _) => hh; obtain ⟨rfl, rfl⟩ := Prod.ext_iff.mp hh) | refine core_foldWith (fun s x => ?_) ?_ | refine Eq.trans (core_foldF (fun s x => ?_) _ _) ?_ | refine Eq.trans (core_foldS (fun s x => ?_) _ _) ?_); done) | (simp only [Option.some.injEq] at h; subst h; (repeat' first | with_reducible rfl | (intros; simp only [State_quireSummary_kept, State_opReport_kept, State_flowAcked_kept, State_resetConfirm_kept, keep_rules, ite_self, implies_true, core_fold, core_foldF, core_foldS]) | split | (rename _ = (_, _) => hh; obtain ⟨rfl, rfl⟩ := Prod.ext_iff.mp hh) | refine core_foldWith (fun s x => ?_) ?_ | refine Eq.trans (core_foldF (fun s x => ?_) _ _) ?_ | refine Eq.trans (core_foldS (fun s x => ?_) _ _) ?_))
theorem execCompletionReportRx_kept (x0) (x1) (x2) (x3) : ∃ t, (@execCompletionReportRx x0 x1 x2 x3) = .next t ∧ t.core = x3.core := ⟨_, rfl, State_ctlRx_kept _ _ _ _ _ _ _ (fun s c b t h => State_completionReport_kept _ _ _ _ h)⟩
theorem State_counterReport_kept (x0) (x1) (x2) : ∀ t, (@State.counterReport x0 x1 x2) = some t → t.core = x0.core := by unfold State.counterReport; intro t h; (try dsimp only at h); (repeat' (split at h)) <;> first | (cases h; done) | (cases h; (repeat' first | with_reducible rfl | (intros; simp only [keep_rules, ite_self, implies_true, core_fold, core_foldF, core_foldS]) | split | (rename _ = (_, _) => hh; obtain ⟨rfl, rfl⟩ := Prod.ext_iff.mp hh) | refine core_foldWith (fun s x => ?_) ?_ | refine Eq.trans (core_foldF (fun s x => ?_) _ _) ?_ | refine Eq.trans (core_foldS (fun s x => ?_) _ _) ?_); done) | (simp only [Option.some.injEq] at h; subst h; (repeat' first | with_reducible rfl | (intros; simp only [keep_rules, ite_self, implies_true, core_fold, core_foldF, core_foldS]) | split | (rename _ = (_, _) => hh; obtain ⟨rfl, rfl⟩ := Prod.ext_iff.mp hh) | refine core_foldWith (fun s x => ?_) ?_ | refine Eq.trans (core_foldF (fun s x => ?_) _ _) ?_ | refine Eq.trans (core_foldS (fun s x => ?_) _ _) ?_))
theorem execCounterReportRx_kept (x0) (x1) (x2) (x3) : ∃ t, (@execCounterReportRx x0 x1 x2 x3) = .next t ∧ t.core = x3.core := ⟨_, rfl, State_ctlRx_kept _ _ _ _ _ _ _ (fun s c b t h => State_counterReport_kept _ _ _ _ h)⟩
theorem State_retrainAsked_kept (x0) (x1) : ∀ t, (@State.retrainAsked x0 x1) = some t → t.core = x0.core := by unfold State.retrainAsked; intro t h; (try dsimp only at h); (repeat' (split at h)) <;> first | (cases h; done) | (cases h; (repeat' first | with_reducible rfl | (intros; simp only [State_latch_kept, keep_rules, ite_self, implies_true, core_fold, core_foldF, core_foldS]) | split | (rename _ = (_, _) => hh; obtain ⟨rfl, rfl⟩ := Prod.ext_iff.mp hh) | refine core_foldWith (fun s x => ?_) ?_ | refine Eq.trans (core_foldF (fun s x => ?_) _ _) ?_ | refine Eq.trans (core_foldS (fun s x => ?_) _ _) ?_); done) | (simp only [Option.some.injEq] at h; subst h; (repeat' first | with_reducible rfl | (intros; simp only [State_latch_kept, keep_rules, ite_self, implies_true, core_fold, core_foldF, core_foldS]) | split | (rename _ = (_, _) => hh; obtain ⟨rfl, rfl⟩ := Prod.ext_iff.mp hh) | refine core_foldWith (fun s x => ?_) ?_ | refine Eq.trans (core_foldF (fun s x => ?_) _ _) ?_ | refine Eq.trans (core_foldS (fun s x => ?_) _ _) ?_))
theorem execRetrainRequestRx_kept (x0) (x1) (x2) (x3) : ∃ t, (@execRetrainRequestRx x0 x1 x2 x3) = .next t ∧ t.core = x3.core := ⟨_, rfl, State_ctlRx_kept _ _ _ _ _ _ _ (fun s c b t h => State_retrainAsked_kept _ _ _ h)⟩
theorem State_shadowFailed_kept (x0) (x1) (x2) : (@State.shadowFailed x0 x1 x2).core = x0.core := by
  unfold State.shadowFailed
  (repeat' first | with_reducible rfl | (intros; simp only [State_fault_kept, State_addFault_kept, State_failInstall_kept, State_setRebind_kept, State_failActivate_kept, State_updTask_kept, keep_rules, ite_self, implies_true, core_fold, core_foldF, core_foldS]) | split | (rename _ = (_, _) => hh; obtain ⟨rfl, rfl⟩ := Prod.ext_iff.mp hh) | refine core_foldWith (fun s x => ?_) ?_ | refine Eq.trans (core_foldF (fun s x => ?_) _ _) ?_ | refine Eq.trans (core_foldS (fun s x => ?_) _ _) ?_)
theorem State_updJobs_kept (x0) (x1) (x2) (x3) : (@State.updJobs x0 x1 x2 x3).core = x0.core := by
  unfold State.updJobs
  (repeat' first | with_reducible rfl | (intros; simp only [State_updTask_kept, keep_rules, ite_self, implies_true, core_fold, core_foldF, core_foldS]) | split | (rename _ = (_, _) => hh; obtain ⟨rfl, rfl⟩ := Prod.ext_iff.mp hh) | refine core_foldWith (fun s x => ?_) ?_ | refine Eq.trans (core_foldF (fun s x => ?_) _ _) ?_ | refine Eq.trans (core_foldS (fun s x => ?_) _ _) ?_)
theorem State_jobAck_kept (x0) (x1) (x2) (x3) (x4) : (@State.jobAck x0 x1 x2 x3 x4).core = x0.core := by
  unfold State.jobAck
  (repeat' first | with_reducible rfl | (intros; simp only [State_updJobs_kept, State_shadowFailed_kept, State_sendWrites_kept, keep_rules, ite_self, implies_true, core_fold, core_foldF, core_foldS]) | split | (rename _ = (_, _) => hh; obtain ⟨rfl, rfl⟩ := Prod.ext_iff.mp hh) | refine core_foldWith (fun s x => ?_) ?_ | refine Eq.trans (core_foldF (fun s x => ?_) _ _) ?_ | refine Eq.trans (core_foldS (fun s x => ?_) _ _) ?_)
theorem State_tableAck_kept (x0) (x1) (x2) : ∀ t, (@State.tableAck x0 x1 x2) = some t → t.core = x0.core := by unfold State.tableAck; intro t h; (try dsimp only at h); (repeat' (split at h)) <;> first | (cases h; done) | (cases h; (repeat' first | with_reducible rfl | (intros; simp only [State_jobAck_kept, keep_rules, ite_self, implies_true, core_fold, core_foldF, core_foldS]) | split | (rename _ = (_, _) => hh; obtain ⟨rfl, rfl⟩ := Prod.ext_iff.mp hh) | refine core_foldWith (fun s x => ?_) ?_ | refine Eq.trans (core_foldF (fun s x => ?_) _ _) ?_ | refine Eq.trans (core_foldS (fun s x => ?_) _ _) ?_); done) | (simp only [Option.some.injEq] at h; subst h; (repeat' first | with_reducible rfl | (intros; simp only [State_jobAck_kept, keep_rules, ite_self, implies_true, core_fold, core_foldF, core_foldS]) | split | (rename _ = (_, _) => hh; obtain ⟨rfl, rfl⟩ := Prod.ext_iff.mp hh) | refine core_foldWith (fun s x => ?_) ?_ | refine Eq.trans (core_foldF (fun s x => ?_) _ _) ?_ | refine Eq.trans (core_foldS (fun s x => ?_) _ _) ?_))
theorem execTableWriteAckRx_kept (x0) (x1) (x2) (x3) : ∃ t, (@execTableWriteAckRx x0 x1 x2 x3) = .next t ∧ t.core = x3.core := ⟨_, rfl, State_ctlRx_kept _ _ _ _ _ _ _ (fun s c b t h => State_tableAck_kept _ _ _ _ h)⟩
theorem State_jobRetry_kept (x0) (x1) (x2) : (@State.jobRetry x0 x1 x2).core = x0.core := by
  unfold State.jobRetry
  (repeat' first | with_reducible rfl | (intros; simp only [State_shadowFailed_kept, State_updJobs_kept, State_sendWrites_kept, keep_rules, ite_self, implies_true, core_fold, core_foldF, core_foldS]) | split | (rename _ = (_, _) => hh; obtain ⟨rfl, rfl⟩ := Prod.ext_iff.mp hh) | refine core_foldWith (fun s x => ?_) ?_ | refine Eq.trans (core_foldF (fun s x => ?_) _ _) ?_ | refine Eq.trans (core_foldS (fun s x => ?_) _ _) ?_)
theorem execShadowWriteRetry_kept (x0) (x1) (x2) : ∃ t, (@execShadowWriteRetry x0 x1 x2) = .next t ∧ t.core = x2.core := by unfold execShadowWriteRetry; exact ⟨_, rfl, by (repeat' first | with_reducible rfl | (intros; simp only [State_jobRetry_kept, keep_rules, ite_self, implies_true, core_fold, core_foldF, core_foldS]) | split | (rename _ = (_, _) => hh; obtain ⟨rfl, rfl⟩ := Prod.ext_iff.mp hh) | refine core_foldWith (fun s x => ?_) ?_ | refine Eq.trans (core_foldF (fun s x => ?_) _ _) ?_ | refine Eq.trans (core_foldS (fun s x => ?_) _ _) ?_)⟩
theorem State_assignAll_kept (x0) (x1) (x2) : (@State.assignAll x0 x1 x2).core = x0.core := by
  unfold State.assignAll
  (repeat' first | with_reducible rfl | (intros; simp only [State_assignCoord_kept, keep_rules, ite_self, implies_true, core_fold, core_foldF, core_foldS]) | split | (rename _ = (_, _) => hh; obtain ⟨rfl, rfl⟩ := Prod.ext_iff.mp hh) | refine core_foldWith (fun s x => ?_) ?_ | refine Eq.trans (core_foldF (fun s x => ?_) _ _) ?_ | refine Eq.trans (core_foldS (fun s x => ?_) _ _) ?_)
theorem State_scanAll_kept (x0) : (@State.scanAll x0).core = x0.core := by
  unfold State.scanAll
  (repeat' first | with_reducible rfl | (intros; simp only [keep_rules, ite_self, implies_true, core_fold, core_foldF, core_foldS]) | split | (rename _ = (_, _) => hh; obtain ⟨rfl, rfl⟩ := Prod.ext_iff.mp hh) | refine core_foldWith (fun s x => ?_) ?_ | refine Eq.trans (core_foldF (fun s x => ?_) _ _) ?_ | refine Eq.trans (core_foldS (fun s x => ?_) _ _) ?_)
theorem State_reachReturns_kept (x0) (x1) (x2) : (@State.reachReturns x0 x1 x2).core = x0.core := by
  unfold State.reachReturns
  (repeat' first | with_reducible rfl | (intros; simp only [State_setDegraded_kept, State_fault_kept, keep_rules, ite_self, implies_true, core_fold, core_foldF, core_foldS]) | split | (rename _ = (_, _) => hh; obtain ⟨rfl, rfl⟩ := Prod.ext_iff.mp hh) | refine core_foldWith (fun s x => ?_) ?_ | refine Eq.trans (core_foldF (fun s x => ?_) _ _) ?_ | refine Eq.trans (core_foldS (fun s x => ?_) _ _) ?_)
theorem State_boardJudged_kept (x0) (x1) (x2) : (@State.boardJudged x0 x1 x2).core = x0.core := by
  unfold State.boardJudged
  (repeat' first | with_reducible rfl | (intros; simp only [State_assignAll_kept, State_scanAll_kept, keep_rules, ite_self, implies_true, core_fold, core_foldF, core_foldS]) | split | (rename _ = (_, _) => hh; obtain ⟨rfl, rfl⟩ := Prod.ext_iff.mp hh) | refine core_foldWith (fun s x => ?_) ?_ | refine Eq.trans (core_foldF (fun s x => ?_) _ _) ?_ | refine Eq.trans (core_foldS (fun s x => ?_) _ _) ?_)
theorem State_accelBeacon_kept (x0) (x1) (x2) (x3) : (@State.accelBeacon x0 x1 x2 x3).core = x0.core := by
  unfold State.accelBeacon
  (repeat' first | with_reducible rfl | (intros; simp only [State_updPort_kept, State_latch_kept, State_verifyEnd_kept, State_mapTo_kept, State_reachReturns_kept, State_boardJudged_kept, keep_rules, ite_self, implies_true, core_fold, core_foldF, core_foldS]) | split | (rename _ = (_, _) => hh; obtain ⟨rfl, rfl⟩ := Prod.ext_iff.mp hh) | refine core_foldWith (fun s x => ?_) ?_ | refine Eq.trans (core_foldF (fun s x => ?_) _ _) ?_ | refine Eq.trans (core_foldS (fun s x => ?_) _ _) ?_)
theorem State_directorBeacon_kept (x0) (x1) (x2) (x3) : (@State.directorBeacon x0 x1 x2 x3).core = x0.core := by
  unfold State.directorBeacon
  (repeat' first | with_reducible rfl | (intros; simp only [State_updPort_kept, State_latch_kept, State_mapTo_kept, keep_rules, ite_self, implies_true, core_fold, core_foldF, core_foldS]) | split | (rename _ = (_, _) => hh; obtain ⟨rfl, rfl⟩ := Prod.ext_iff.mp hh) | refine core_foldWith (fun s x => ?_) ?_ | refine Eq.trans (core_foldF (fun s x => ?_) _ _) ?_ | refine Eq.trans (core_foldS (fun s x => ?_) _ _) ?_)
theorem State_linkBeacon_kept (x0) (x1) (x2) (x3) : ∀ t, (@State.linkBeacon x0 x1 x2 x3) = some t → t.core = x0.core := by unfold State.linkBeacon; intro t h; (try dsimp only at h); (repeat' (split at h)) <;> first | (cases h; done) | (cases h; (repeat' first | with_reducible rfl | (intros; simp only [State_directorBeacon_kept, State_accelBeacon_kept, keep_rules, ite_self, implies_true, core_fold, core_foldF, core_foldS]) | split | (rename _ = (_, _) => hh; obtain ⟨rfl, rfl⟩ := Prod.ext_iff.mp hh) | refine core_foldWith (fun s x => ?_) ?_ | refine Eq.trans (core_foldF (fun s x => ?_) _ _) ?_ | refine Eq.trans (core_foldS (fun s x => ?_) _ _) ?_); done) | (simp only [Option.some.injEq] at h; subst h; (repeat' first | with_reducible rfl | (intros; simp only [State_directorBeacon_kept, State_accelBeacon_kept, keep_rules, ite_self, implies_true, core_fold, core_foldF, core_foldS]) | split | (rename _ = (_, _) => hh; obtain ⟨rfl, rfl⟩ := Prod.ext_iff.mp hh) | refine core_foldWith (fun s x => ?_) ?_ | refine Eq.trans (core_foldF (fun s x => ?_) _ _) ?_ | refine Eq.trans (core_foldS (fun s x => ?_) _ _) ?_))
theorem execLinkBeaconRx_kept (x0) (x1) (x2) (x3) : ∃ t, (@execLinkBeaconRx x0 x1 x2 x3) = .next t ∧ t.core = x3.core := ⟨_, rfl, State_ctlRx_kept _ _ _ _ _ _ _ (fun s c b t h => State_linkBeacon_kept _ _ _ _ _ h)⟩
theorem State_peerReport_kept (x0) (x1) (x2) : ∀ t, (@State.peerReport x0 x1 x2) = some t → t.core = x0.core := by unfold State.peerReport; intro t h; (try dsimp only at h); (repeat' (split at h)) <;> first | (cases h; done) | (cases h; (repeat' first | with_reducible rfl | (intros; simp only [State_mapTo_kept, State_verifyEnd_kept, keep_rules, ite_self, implies_true, core_fold, core_foldF, core_foldS]) | split | (rename _ = (_, _) => hh; obtain ⟨rfl, rfl⟩ := Prod.ext_iff.mp hh) | refine core_foldWith (fun s x => ?_) ?_ | refine Eq.trans (core_foldF (fun s x => ?_) _ _) ?_ | refine Eq.trans (core_foldS (fun s x => ?_) _ _) ?_); done) | (simp only [Option.some.injEq] at h; subst h; (repeat' first | with_reducible rfl | (intros; simp only [State_mapTo_kept, State_verifyEnd_kept, keep_rules, ite_self, implies_true, core_fold, core_foldF, core_foldS]) | split | (rename _ = (_, _) => hh; obtain ⟨rfl, rfl⟩ := Prod.ext_iff.mp hh) | refine core_foldWith (fun s x => ?_) ?_ | refine Eq.trans (core_foldF (fun s x => ?_) _ _) ?_ | refine Eq.trans (core_foldS (fun s x => ?_) _ _) ?_))
theorem execPeerReportRx_kept (x0) (x1) (x2) (x3) : ∃ t, (@execPeerReportRx x0 x1 x2 x3) = .next t ∧ t.core = x3.core := ⟨_, rfl, State_ctlRx_kept _ _ _ _ _ _ _ (fun s c b t h => State_peerReport_kept _ _ _ _ h)⟩
theorem State_confirmed_kept (x0) (x1) (x2) : (@State.confirmed x0 x1 x2).core = x0.core := by
  unfold State.confirmed
  (repeat' first | with_reducible rfl | (intros; simp only [State_mapTo_kept, State_updVol_kept, keep_rules, ite_self, implies_true, core_fold, core_foldF, core_foldS]) | split | (rename _ = (_, _) => hh; obtain ⟨rfl, rfl⟩ := Prod.ext_iff.mp hh) | refine core_foldWith (fun s x => ?_) ?_ | refine Eq.trans (core_foldF (fun s x => ?_) _ _) ?_ | refine Eq.trans (core_foldS (fun s x => ?_) _ _) ?_)
theorem State_confirmation_kept (x0) (x1) (x2) (x3) : (@State.confirmation x0 x1 x2 x3).core = x0.core := by
  unfold State.confirmation
  (repeat' first | with_reducible rfl | (intros; simp only [State_confirmed_kept, State_mapTo_kept, keep_rules, ite_self, implies_true, core_fold, core_foldF, core_foldS]) | split | (rename _ = (_, _) => hh; obtain ⟨rfl, rfl⟩ := Prod.ext_iff.mp hh) | refine core_foldWith (fun s x => ?_) ?_ | refine Eq.trans (core_foldF (fun s x => ?_) _ _) ?_ | refine Eq.trans (core_foldS (fun s x => ?_) _ _) ?_)
theorem execCoordinateConfirmationRx_kept (x0) (x1) (x2) (x3) : ∃ t, (@execCoordinateConfirmationRx x0 x1 x2 x3) = .next t ∧ t.core = x3.core := ⟨_, rfl, State_ctlRx_kept _ _ _ _ _ _ _ (fun s c b t h => by cases h; exact State_confirmation_kept _ _ _ _)⟩
theorem execUplinkSilent_kept (x0) (x1) (x2) : ∃ t, (@execUplinkSilent x0 x1 x2) = .next t ∧ t.core = x2.core := by unfold execUplinkSilent; (try dsimp only); (repeat' first | (split) | (rename _ = (_, _) => hh; obtain ⟨rfl, rfl⟩ := Prod.ext_iff.mp hh)) <;> exact ⟨_, rfl, by (repeat' first | with_reducible rfl | (intros; simp only [State_updVol_kept, State_mapTo_kept, keep_rules, ite_self, implies_true, core_fold, core_foldF, core_foldS]) | split | (rename _ = (_, _) => hh; obtain ⟨rfl, rfl⟩ := Prod.ext_iff.mp hh) | refine core_foldWith (fun s x => ?_) ?_ | refine Eq.trans (core_foldF (fun s x => ?_) _ _) ?_ | refine Eq.trans (core_foldS (fun s x => ?_) _ _) ?_)⟩
theorem execBoardMissing_kept (x0) (x1) : ∃ t, (@execBoardMissing x0 x1) = .next t ∧ t.core = x1.core := by
  unfold execBoardMissing
  dsimp only
  split
  · exact ⟨_, rfl, rfl⟩
  · split
    · exact ⟨_, rfl, (State_loseReach_kept _ _).trans (by simp only [keep_rules])⟩
    · split
      · obtain ⟨t, h, k⟩ := execHouseBoreMove_kept x0 { x1 with disc := { x1.disc with judged := insertSorted x0 x1.disc.judged } }
        exact ⟨t, h, k.trans (by simp only [keep_rules])⟩
      · refine ⟨_, rfl, ?_⟩
        simp only [State_mapTo_kept, keep_rules]
theorem execDiscoveryComplete_kept (x0) : ∃ t, (@execDiscoveryComplete x0) = .next t ∧ t.core = x0.core := by unfold execDiscoveryComplete; (try dsimp only); (repeat' first | (split) | (rename _ = (_, _) => hh; obtain ⟨rfl, rfl⟩ := Prod.ext_iff.mp hh)) <;> exact ⟨_, rfl, by (repeat' first | with_reducible rfl | (intros; simp only [State_stage_kept, State_mapTo_kept, keep_rules, ite_self, implies_true, core_fold, core_foldF, core_foldS]) | split | (rename _ = (_, _) => hh; obtain ⟨rfl, rfl⟩ := Prod.ext_iff.mp hh) | refine core_foldWith (fun s x => ?_) ?_ | refine Eq.trans (core_foldF (fun s x => ?_) _ _) ?_ | refine Eq.trans (core_foldS (fun s x => ?_) _ _) ?_)⟩
theorem State_updDice_kept (x0) (x1) : (@State.updDice x0 x1).core = x0.core := by
  unfold State.updDice
  (repeat' first | with_reducible rfl | (intros; simp only [keep_rules, ite_self, implies_true, core_fold, core_foldF, core_foldS]) | split | (rename _ = (_, _) => hh; obtain ⟨rfl, rfl⟩ := Prod.ext_iff.mp hh) | refine core_foldWith (fun s x => ?_) ?_ | refine Eq.trans (core_foldF (fun s x => ?_) _ _) ?_ | refine Eq.trans (core_foldS (fun s x => ?_) _ _) ?_)
theorem State_deriveDevice_kept (x0) : (@State.deriveDevice x0).core = x0.core := by
  unfold State.deriveDevice
  (repeat' first | with_reducible rfl | (intros; simp only [State_updDice_kept, keep_rules, ite_self, implies_true, core_fold, core_foldF, core_foldS]) | split | (rename _ = (_, _) => hh; obtain ⟨rfl, rfl⟩ := Prod.ext_iff.mp hh) | refine core_foldWith (fun s x => ?_) ?_ | refine Eq.trans (core_foldF (fun s x => ?_) _ _) ?_ | refine Eq.trans (core_foldS (fun s x => ?_) _ _) ?_)
theorem State_deriveLayer_kept (x0) (x1) : (@State.deriveLayer x0 x1).core = x0.core := by
  unfold State.deriveLayer
  (repeat' first | with_reducible rfl | (intros; simp only [State_updDice_kept, keep_rules, ite_self, implies_true, core_fold, core_foldF, core_foldS]) | split | (rename _ = (_, _) => hh; obtain ⟨rfl, rfl⟩ := Prod.ext_iff.mp hh) | refine core_foldWith (fun s x => ?_) ?_ | refine Eq.trans (core_foldF (fun s x => ?_) _ _) ?_ | refine Eq.trans (core_foldS (fun s x => ?_) _ _) ?_)
theorem State_deriveHouse_kept (x0) : (@State.deriveHouse x0).core = x0.core := by
  unfold State.deriveHouse
  (repeat' first | with_reducible rfl | (intros; simp only [State_updDice_kept, keep_rules, ite_self, implies_true, core_fold, core_foldF, core_foldS]) | split | (rename _ = (_, _) => hh; obtain ⟨rfl, rfl⟩ := Prod.ext_iff.mp hh) | refine core_foldWith (fun s x => ?_) ?_ | refine Eq.trans (core_foldF (fun s x => ?_) _ _) ?_ | refine Eq.trans (core_foldS (fun s x => ?_) _ _) ?_)
theorem State_attested_kept (x0) (x1) (x2) (x3) (x4) (x5) (x6) : (@State.attested x0 x1 x2 x3 x4 x5 x6).core = x0.core := by
  unfold State.attested
  (repeat' first | with_reducible rfl | (intros; simp only [State_freeBytes_kept, State_sealTask_kept, State_take_kept, State_freeNat_kept, State_drew_kept, keep_rules, ite_self, implies_true, core_fold, core_foldF, core_foldS]) | split | (rename _ = (_, _) => hh; obtain ⟨rfl, rfl⟩ := Prod.ext_iff.mp hh) | refine core_foldWith (fun s x => ?_) ?_ | refine Eq.trans (core_foldF (fun s x => ?_) _ _) ?_ | refine Eq.trans (core_foldS (fun s x => ?_) _ _) ?_)
theorem execSpdmResponse_kept (x0) (x1) (x2) (x3) (x4) (x5) : ∃ t, (@execSpdmResponse x0 x1 x2 x3 x4 x5) = .next t ∧ t.core = x5.core := by unfold execSpdmResponse; (try dsimp only); (repeat' first | (split) | (rename _ = (_, _) => hh; obtain ⟨rfl, rfl⟩ := Prod.ext_iff.mp hh)) <;> exact ⟨_, rfl, by (repeat' first | with_reducible rfl | (intros; simp only [State_failTask_kept, State_attested_kept, keep_rules, ite_self, implies_true, core_fold, core_foldF, core_foldS]) | split | (rename _ = (_, _) => hh; obtain ⟨rfl, rfl⟩ := Prod.ext_iff.mp hh) | refine core_foldWith (fun s x => ?_) ?_ | refine Eq.trans (core_foldF (fun s x => ?_) _ _) ?_ | refine Eq.trans (core_foldS (fun s x => ?_) _ _) ?_)⟩
theorem State_rotSend_kept (x0) (x1) (x2) : (@State.rotSend x0 x1 x2).core = x0.core := by
  unfold State.rotSend
  (repeat' first | with_reducible rfl | (intros; simp only [State_sendBody_kept, keep_rules, ite_self, implies_true, core_fold, core_foldF, core_foldS]) | split | (rename _ = (_, _) => hh; obtain ⟨rfl, rfl⟩ := Prod.ext_iff.mp hh) | refine core_foldWith (fun s x => ?_) ?_ | refine Eq.trans (core_foldF (fun s x => ?_) _ _) ?_ | refine Eq.trans (core_foldS (fun s x => ?_) _ _) ?_)
theorem State_sendKeys_kept (x0) (x1) (x2) (x3) (x4) : (@State.sendKeys x0 x1 x2 x3 x4).core = x0.core := by
  unfold State.sendKeys
  (repeat' first | with_reducible rfl | (intros; simp only [State_rotSend_kept, keep_rules, ite_self, implies_true, core_fold, core_foldF, core_foldS]) | split | (rename _ = (_, _) => hh; obtain ⟨rfl, rfl⟩ := Prod.ext_iff.mp hh) | refine core_foldWith (fun s x => ?_) ?_ | refine Eq.trans (core_foldF (fun s x => ?_) _ _) ?_ | refine Eq.trans (core_foldS (fun s x => ?_) _ _) ?_)
theorem hTenantOpen_kept (x0) (x1) : (@hTenantOpen x0 x1).1.core = x1.core := by
  unfold hTenantOpen
  (repeat' first | with_reducible rfl | (intros; simp only [refuse_kept, State_startTask_kept, State_drew_kept, State_soil_kept, State_stageTask_kept, keep_rules, ite_self, implies_true, core_fold, core_foldF, core_foldS]) | split | (rename _ = (_, _) => hh; obtain ⟨rfl, rfl⟩ := Prod.ext_iff.mp hh) | refine core_foldWith (fun s x => ?_) ?_ | refine Eq.trans (core_foldF (fun s x => ?_) _ _) ?_ | refine Eq.trans (core_foldS (fun s x => ?_) _ _) ?_)
theorem execTenantOpen_kept (x0) (x1) : ∃ t, (@execTenantOpen x0 x1) = .next t ∧ t.core = x1.core := by unfold execTenantOpen; exact ⟨_, rfl, by (repeat' first | with_reducible rfl | (intros; simp only [State_present_kept, hTenantOpen_kept, keep_rules, ite_self, implies_true, core_fold, core_foldF, core_foldS]) | split | (rename _ = (_, _) => hh; obtain ⟨rfl, rfl⟩ := Prod.ext_iff.mp hh) | refine core_foldWith (fun s x => ?_) ?_ | refine Eq.trans (core_foldF (fun s x => ?_) _ _) ?_ | refine Eq.trans (core_foldS (fun s x => ?_) _ _) ?_)⟩
theorem State_tenantOpened_kept (x0) (x1) (x2) : (@State.tenantOpened x0 x1 x2).core = x0.core := by
  unfold State.tenantOpened
  (repeat' first | with_reducible rfl | (intros; simp only [State_resumeAdmission_kept, State_endTask_kept, keep_rules, ite_self, implies_true, core_fold, core_foldF, core_foldS]) | split | (rename _ = (_, _) => hh; obtain ⟨rfl, rfl⟩ := Prod.ext_iff.mp hh) | refine core_foldWith (fun s x => ?_) ?_ | refine Eq.trans (core_foldF (fun s x => ?_) _ _) ?_ | refine Eq.trans (core_foldS (fun s x => ?_) _ _) ?_)
theorem State_keyReady_kept (x0) (x1) (x2) (x3) (x4) : (@State.keyReady x0 x1 x2 x3 x4).core = x0.core := by
  unfold State.keyReady
  (repeat' first | with_reducible rfl | (intros; simp only [State_failTask_kept, State_freeBytes_kept, State_dropTask_kept, State_stage_kept, State_drew_kept, keep_rules, ite_self, implies_true, core_fold, core_foldF, core_foldS]) | split | (rename _ = (_, _) => hh; obtain ⟨rfl, rfl⟩ := Prod.ext_iff.mp hh) | refine core_foldWith (fun s x => ?_) ?_ | refine Eq.trans (core_foldF (fun s x => ?_) _ _) ?_ | refine Eq.trans (core_foldS (fun s x => ?_) _ _) ?_)
theorem State_keysAnswered_kept (x0) (x1) : (@State.keysAnswered x0 x1).core = x0.core := by
  unfold State.keysAnswered
  (repeat' first | with_reducible rfl | (intros; simp only [State_keyReady_kept, keep_rules, ite_self, implies_true, core_fold, core_foldF, core_foldS]) | split | (rename _ = (_, _) => hh; obtain ⟨rfl, rfl⟩ := Prod.ext_iff.mp hh) | refine core_foldWith (fun s x => ?_) ?_ | refine Eq.trans (core_foldF (fun s x => ?_) _ _) ?_ | refine Eq.trans (core_foldS (fun s x => ?_) _ _) ?_)
theorem installKey_kept (x0) (x1) : (@installKey x0 x1).1.core = x1.core := by
  unfold installKey
  (repeat' first | with_reducible rfl | (intros; simp only [multi_kept, State_sendKeys_kept, State_keysAnswered_kept, keep_rules, ite_self, implies_true, core_fold, core_foldF, core_foldS]) | split | (rename _ = (_, _) => hh; obtain ⟨rfl, rfl⟩ := Prod.ext_iff.mp hh) | refine core_foldWith (fun s x => ?_) ?_ | refine Eq.trans (core_foldF (fun s x => ?_) _ _) ?_ | refine Eq.trans (core_foldS (fun s x => ?_) _ _) ?_)
theorem hKeyInstall_kept (x0) (x1) : (@hKeyInstall x0 x1).1.core = x1.core := by
  unfold hKeyInstall
  (repeat' first | with_reducible rfl | (intros; simp only [refuse_kept, installKey_kept, durable_kept, State_sendKeys_kept, keep_rules, ite_self, implies_true, core_fold, core_foldF, core_foldS]) | split | (rename _ = (_, _) => hh; obtain ⟨rfl, rfl⟩ := Prod.ext_iff.mp hh) | refine core_foldWith (fun s x => ?_) ?_ | refine Eq.trans (core_foldF (fun s x => ?_) _ _) ?_ | refine Eq.trans (core_foldS (fun s x => ?_) _ _) ?_)
theorem execInstallLinkKey_kept (x0) (x1) : ∃ t, (@execInstallLinkKey x0 x1) = .next t ∧ t.core = x1.core := by unfold execInstallLinkKey; exact ⟨_, rfl, by (repeat' first | with_reducible rfl | (intros; simp only [State_present_kept, hKeyInstall_kept, keep_rules, ite_self, implies_true, core_fold, core_foldF, core_foldS]) | split | (rename _ = (_, _) => hh; obtain ⟨rfl, rfl⟩ := Prod.ext_iff.mp hh) | refine core_foldWith (fun s x => ?_) ?_ | refine Eq.trans (core_foldF (fun s x => ?_) _ _) ?_ | refine Eq.trans (core_foldS (fun s x => ?_) _ _) ?_)⟩
theorem execRetirePrevious_kept (x0) (x1) : ∃ t, (@execRetirePrevious x0 x1) = .next t ∧ t.core = x1.core := by unfold execRetirePrevious; exact ⟨_, rfl, by (repeat' first | with_reducible rfl | (intros; simp only [State_present_kept, hKeyInstall_kept, keep_rules, ite_self, implies_true, core_fold, core_foldF, core_foldS]) | split | (rename _ = (_, _) => hh; obtain ⟨rfl, rfl⟩ := Prod.ext_iff.mp hh) | refine core_foldWith (fun s x => ?_) ?_ | refine Eq.trans (core_foldF (fun s x => ?_) _ _) ?_ | refine Eq.trans (core_foldS (fun s x => ?_) _ _) ?_)⟩
theorem execAddTrustRoot_kept (x0) (x1) : ∃ t, (@execAddTrustRoot x0 x1) = .next t ∧ t.core = x1.core := by unfold execAddTrustRoot; exact ⟨_, rfl, by (repeat' first | with_reducible rfl | (intros; simp only [State_present_kept, hKeyInstall_kept, keep_rules, ite_self, implies_true, core_fold, core_foldF, core_foldS]) | split | (rename _ = (_, _) => hh; obtain ⟨rfl, rfl⟩ := Prod.ext_iff.mp hh) | refine core_foldWith (fun s x => ?_) ?_ | refine Eq.trans (core_foldF (fun s x => ?_) _ _) ?_ | refine Eq.trans (core_foldS (fun s x => ?_) _ _) ?_)⟩
theorem execRemoveTrustRoot_kept (x0) (x1) : ∃ t, (@execRemoveTrustRoot x0 x1) = .next t ∧ t.core = x1.core := by unfold execRemoveTrustRoot; exact ⟨_, rfl, by (repeat' first | with_reducible rfl | (intros; simp only [State_present_kept, hKeyInstall_kept, keep_rules, ite_self, implies_true, core_fold, core_foldF, core_foldS]) | split | (rename _ = (_, _) => hh; obtain ⟨rfl, rfl⟩ := Prod.ext_iff.mp hh) | refine core_foldWith (fun s x => ?_) ?_ | refine Eq.trans (core_foldF (fun s x => ?_) _ _) ?_ | refine Eq.trans (core_foldS (fun s x => ?_) _ _) ?_)⟩
theorem State_zeroiseOld_kept (x0) : (@State.zeroiseOld x0).core = x0.core := by
  unfold State.zeroiseOld
  (repeat' first | with_reducible rfl | (intros; simp only [keep_rules, ite_self, implies_true, core_fold, core_foldF, core_foldS]) | split | (rename _ = (_, _) => hh; obtain ⟨rfl, rfl⟩ := Prod.ext_iff.mp hh) | refine core_foldWith (fun s x => ?_) ?_ | refine Eq.trans (core_foldF (fun s x => ?_) _ _) ?_ | refine Eq.trans (core_foldS (fun s x => ?_) _ _) ?_)
theorem State_raiseNonces_kept (x0) : (@State.raiseNonces x0).core = x0.core := by
  unfold State.raiseNonces
  (repeat' first | with_reducible rfl | (intros; simp only [State_stageOwn_kept, keep_rules, ite_self, implies_true, core_fold, core_foldF, core_foldS]) | split | (rename _ = (_, _) => hh; obtain ⟨rfl, rfl⟩ := Prod.ext_iff.mp hh) | refine core_foldWith (fun s x => ?_) ?_ | refine Eq.trans (core_foldF (fun s x => ?_) _ _) ?_ | refine Eq.trans (core_foldS (fun s x => ?_) _ _) ?_)
theorem hTenantEvict_kept (x0) (x1) : (@hTenantEvict x0 x1).1.core = x1.core := by
  unfold hTenantEvict
  (repeat' first | with_reducible rfl | (intros; simp only [refuse_kept, State_endOps_kept, State_startTask_kept, State_stageTask_kept, keep_rules, ite_self, implies_true, core_fold, core_foldF, core_foldS]) | split | (rename _ = (_, _) => hh; obtain ⟨rfl, rfl⟩ := Prod.ext_iff.mp hh) | refine core_foldWith (fun s x => ?_) ?_ | refine Eq.trans (core_foldF (fun s x => ?_) _ _) ?_ | refine Eq.trans (core_foldS (fun s x => ?_) _ _) ?_)
theorem execTenantEvict_kept (x0) (x1) : ∃ t, (@execTenantEvict x0 x1) = .next t ∧ t.core = x1.core := by unfold execTenantEvict; exact ⟨_, rfl, by (repeat' first | with_reducible rfl | (intros; simp only [State_present_kept, hTenantEvict_kept, keep_rules, ite_self, implies_true, core_fold, core_foldF, core_foldS]) | split | (rename _ = (_, _) => hh; obtain ⟨rfl, rfl⟩ := Prod.ext_iff.mp hh) | refine core_foldWith (fun s x => ?_) ?_ | refine Eq.trans (core_foldF (fun s x => ?_) _ _) ?_ | refine Eq.trans (core_foldS (fun s x => ?_) _ _) ?_)⟩
theorem State_setEvict_kept (x0) (x1) (x2) (x3) (x4) (x5) : (@State.setEvict x0 x1 x2 x3 x4 x5).core = x0.core := by
  unfold State.setEvict
  (repeat' first | with_reducible rfl | (intros; simp only [State_updTask_kept, keep_rules, ite_self, implies_true, core_fold, core_foldF, core_foldS]) | split | (rename _ = (_, _) => hh; obtain ⟨rfl, rfl⟩ := Prod.ext_iff.mp hh) | refine core_foldWith (fun s x => ?_) ?_ | refine Eq.trans (core_foldF (fun s x => ?_) _ _) ?_ | refine Eq.trans (core_foldS (fun s x => ?_) _ _) ?_)
theorem State_boundaryEvict_kept (x0) (x1) (x2) (x3) (x4) (x5) : (@State.boundaryEvict x0 x1 x2 x3 x4 x5).core = x0.core := by
  unfold State.boundaryEvict
  (repeat' first | with_reducible rfl | (intros; simp only [State_stopAdmission_kept, State_setEvict_kept, keep_rules, ite_self, implies_true, core_fold, core_foldF, core_foldS]) | split | (rename _ = (_, _) => hh; obtain ⟨rfl, rfl⟩ := Prod.ext_iff.mp hh) | refine core_foldWith (fun s x => ?_) ?_ | refine Eq.trans (core_foldF (fun s x => ?_) _ _) ?_ | refine Eq.trans (core_foldS (fun s x => ?_) _ _) ?_)
theorem State_evictZero_kept (x0) (x1) (x2) (x3) : (@State.evictZero x0 x1 x2 x3).core = x0.core := by
  unfold State.evictZero
  (repeat' first | with_reducible rfl | (intros; simp only [State_endUses_kept, State_zeroiseSlot_kept, State_sendKeys_kept, State_soil_kept, State_setEvict_kept, keep_rules, ite_self, implies_true, core_fold, core_foldF, core_foldS]) | split | (rename _ = (_, _) => hh; obtain ⟨rfl, rfl⟩ := Prod.ext_iff.mp hh) | refine core_foldWith (fun s x => ?_) ?_ | refine Eq.trans (core_foldF (fun s x => ?_) _ _) ?_ | refine Eq.trans (core_foldS (fun s x => ?_) _ _) ?_)
theorem State_evictFinish_kept (x0) (x1) (x2) (x3) : (@State.evictFinish x0 x1 x2 x3).core = x0.core := by
  unfold State.evictFinish
  (repeat' first | with_reducible rfl | (intros; simp only [State_failTask_kept, State_setEvict_kept, State_stageTask_kept, keep_rules, ite_self, implies_true, core_fold, core_foldF, core_foldS]) | split | (rename _ = (_, _) => hh; obtain ⟨rfl, rfl⟩ := Prod.ext_iff.mp hh) | refine core_foldWith (fun s x => ?_) ?_ | refine Eq.trans (core_foldF (fun s x => ?_) _ _) ?_ | refine Eq.trans (core_foldS (fun s x => ?_) _ _) ?_)
theorem State_sealEvict_kept (x0) (x1) (x2) (x3) (x4) (x5) : (@State.sealEvict x0 x1 x2 x3 x4 x5).core = x0.core := by
  unfold State.sealEvict
  (repeat' first | with_reducible rfl | (intros; simp only [State_lessRefs_kept, State_evictZero_kept, State_setEvict_kept, State_evictFinish_kept, keep_rules, ite_self, implies_true, core_fold, core_foldF, core_foldS]) | split | (rename _ = (_, _) => hh; obtain ⟨rfl, rfl⟩ := Prod.ext_iff.mp hh) | refine core_foldWith (fun s x => ?_) ?_ | refine Eq.trans (core_foldF (fun s x => ?_) _ _) ?_ | refine Eq.trans (core_foldS (fun s x => ?_) _ _) ?_)
theorem execEvictBound_kept (x0) (x1) : ∃ t, (@execEvictBound x0 x1) = .next t ∧ t.core = x1.core := by unfold execEvictBound; exact ⟨_, rfl, by (repeat' first | with_reducible rfl | (intros; simp only [State_evictZero_kept, State_endUses_kept, State_zeroiseSlot_kept, State_releaseScrub_kept, keep_rules, ite_self, implies_true, core_fold, core_foldF, core_foldS]) | split | (rename _ = (_, _) => hh; obtain ⟨rfl, rfl⟩ := Prod.ext_iff.mp hh) | refine core_foldWith (fun s x => ?_) ?_ | refine Eq.trans (core_foldF (fun s x => ?_) _ _) ?_ | refine Eq.trans (core_foldS (fun s x => ?_) _ _) ?_)⟩
theorem State_evictSealed_kept (x0) (x1) (x2) (x3) (x4) : (@State.evictSealed x0 x1 x2 x3 x4).core = x0.core := by
  unfold State.evictSealed
  (repeat' first | with_reducible rfl | (intros; simp only [State_setEvict_kept, State_announceQuire_kept, State_takeRefs_kept, State_endTask_kept, keep_rules, ite_self, implies_true, core_fold, core_foldF, core_foldS]) | split | (rename _ = (_, _) => hh; obtain ⟨rfl, rfl⟩ := Prod.ext_iff.mp hh) | refine core_foldWith (fun s x => ?_) ?_ | refine Eq.trans (core_foldF (fun s x => ?_) _ _) ?_ | refine Eq.trans (core_foldS (fun s x => ?_) _ _) ?_)
theorem hMemScrub_kept (x0) (x1) : (@hMemScrub x0 x1).1.core = x1.core := by
  unfold hMemScrub
  (repeat' first | with_reducible rfl | (intros; simp only [refuse_kept, multi_kept, keep_rules, ite_self, implies_true, core_fold, core_foldF, core_foldS]) | split | (rename _ = (_, _) => hh; obtain ⟨rfl, rfl⟩ := Prod.ext_iff.mp hh) | refine core_foldWith (fun s x => ?_) ?_ | refine Eq.trans (core_foldF (fun s x => ?_) _ _) ?_ | refine Eq.trans (core_foldS (fun s x => ?_) _ _) ?_)
theorem execMemScrub_kept (x0) (x1) : ∃ t, (@execMemScrub x0 x1) = .next t ∧ t.core = x1.core := by unfold execMemScrub; exact ⟨_, rfl, by (repeat' first | with_reducible rfl | (intros; simp only [State_present_kept, hMemScrub_kept, keep_rules, ite_self, implies_true, core_fold, core_foldF, core_foldS]) | split | (rename _ = (_, _) => hh; obtain ⟨rfl, rfl⟩ := Prod.ext_iff.mp hh) | refine core_foldWith (fun s x => ?_) ?_ | refine Eq.trans (core_foldF (fun s x => ?_) _ _) ?_ | refine Eq.trans (core_foldS (fun s x => ?_) _ _) ?_)⟩
theorem execScrubDone_kept (x0) (x1) : ∃ t, (@execScrubDone x0 x1) = .next t ∧ t.core = x1.core := by unfold execScrubDone; (try dsimp only); (repeat' first | (split) | (rename _ = (_, _) => hh; obtain ⟨rfl, rfl⟩ := Prod.ext_iff.mp hh)) <;> exact ⟨_, rfl, by (repeat' first | with_reducible rfl | (intros; simp only [State_updVol_kept, State_endTask_kept, keep_rules, ite_self, implies_true, core_fold, core_foldF, core_foldS]) | split | (rename _ = (_, _) => hh; obtain ⟨rfl, rfl⟩ := Prod.ext_iff.mp hh) | refine core_foldWith (fun s x => ?_) ?_ | refine Eq.trans (core_foldF (fun s x => ?_) _ _) ?_ | refine Eq.trans (core_foldS (fun s x => ?_) _ _) ?_)⟩
theorem execPatrolScrub_kept (x0) (x1) : ∃ t, (@execPatrolScrub x0 x1) = .next t ∧ t.core = x1.core := by unfold execPatrolScrub; exact ⟨_, rfl, by (repeat' first | with_reducible rfl | (intros; simp only [keep_rules, ite_self, implies_true, core_fold, core_foldF, core_foldS]) | split | (rename _ = (_, _) => hh; obtain ⟨rfl, rfl⟩ := Prod.ext_iff.mp hh) | refine core_foldWith (fun s x => ?_) ?_ | refine Eq.trans (core_foldF (fun s x => ?_) _ _) ?_ | refine Eq.trans (core_foldS (fun s x => ?_) _ _) ?_)⟩
theorem execHbmEccError_kept (x0) (x1) (x2) : ∃ t, (@execHbmEccError x0 x1 x2) = .next t ∧ t.core = x2.core := by unfold execHbmEccError; (try dsimp only); (repeat' first | (split) | (rename _ = (_, _) => hh; obtain ⟨rfl, rfl⟩ := Prod.ext_iff.mp hh)) <;> exact ⟨_, rfl, by (repeat' first | with_reducible rfl | (intros; simp only [State_lasting_kept, State_updVol_kept, State_stageOwn_kept, State_failOp_kept, keep_rules, ite_self, implies_true, core_fold, core_foldF, core_foldS]) | split | (rename _ = (_, _) => hh; obtain ⟨rfl, rfl⟩ := Prod.ext_iff.mp hh) | refine core_foldWith (fun s x => ?_) ?_ | refine Eq.trans (core_foldF (fun s x => ?_) _ _) ?_ | refine Eq.trans (core_foldS (fun s x => ?_) _ _) ?_)⟩
theorem State_requestSession_kept (x0) (x1) : (@State.requestSession x0 x1).core = x0.core := by
  unfold State.requestSession
  (repeat' first | with_reducible rfl | (intros; simp only [State_rotSend_kept, keep_rules, ite_self, implies_true, core_fold, core_foldF, core_foldS]) | split | (rename _ = (_, _) => hh; obtain ⟨rfl, rfl⟩ := Prod.ext_iff.mp hh) | refine core_foldWith (fun s x => ?_) ?_ | refine Eq.trans (core_foldF (fun s x => ?_) _ _) ?_ | refine Eq.trans (core_foldS (fun s x => ?_) _ _) ?_)
theorem execHouseSessionStart_kept (x0) (x1) : ∃ t, (@execHouseSessionStart x0 x1) = .next t ∧ t.core = x1.core := by unfold execHouseSessionStart; (try dsimp only); (repeat' first | (split) | (rename _ = (_, _) => hh; obtain ⟨rfl, rfl⟩ := Prod.ext_iff.mp hh)) <;> exact ⟨_, rfl, by (repeat' first | with_reducible rfl | (intros; simp only [State_requestSession_kept, keep_rules, ite_self, implies_true, core_fold, core_foldF, core_foldS]) | split | (rename _ = (_, _) => hh; obtain ⟨rfl, rfl⟩ := Prod.ext_iff.mp hh) | refine core_foldWith (fun s x => ?_) ?_ | refine Eq.trans (core_foldF (fun s x => ?_) _ _) ?_ | refine Eq.trans (core_foldS (fun s x => ?_) _ _) ?_)⟩
theorem State_updHouse_kept (x0) (x1) (x2) : (@State.updHouse x0 x1 x2).core = x0.core := by
  unfold State.updHouse
  (repeat' first | with_reducible rfl | (intros; simp only [keep_rules, ite_self, implies_true, core_fold, core_foldF, core_foldS]) | split | (rename _ = (_, _) => hh; obtain ⟨rfl, rfl⟩ := Prod.ext_iff.mp hh) | refine core_foldWith (fun s x => ?_) ?_ | refine Eq.trans (core_foldF (fun s x => ?_) _ _) ?_ | refine Eq.trans (core_foldS (fun s x => ?_) _ _) ?_)
theorem State_sessionLost_kept (x0) (x1) : (@State.sessionLost x0 x1).core = x0.core := by
  unfold State.sessionLost
  (repeat' first | with_reducible rfl | (intros; simp only [State_updHouse_kept, State_fault_kept, keep_rules, ite_self, implies_true, core_fold, core_foldF, core_foldS]) | split | (rename _ = (_, _) => hh; obtain ⟨rfl, rfl⟩ := Prod.ext_iff.mp hh) | refine core_foldWith (fun s x => ?_) ?_ | refine Eq.trans (core_foldF (fun s x => ?_) _ _) ?_ | refine Eq.trans (core_foldS (fun s x => ?_) _ _) ?_)
theorem execHouseSessionRetry_kept (x0) (x1) : ∃ t, (@execHouseSessionRetry x0 x1) = .next t ∧ t.core = x1.core := by unfold execHouseSessionRetry; (try dsimp only); (repeat' first | (split) | (rename _ = (_, _) => hh; obtain ⟨rfl, rfl⟩ := Prod.ext_iff.mp hh)) <;> exact ⟨_, rfl, by (repeat' first | with_reducible rfl | (intros; simp only [State_sessionLost_kept, State_updHouse_kept, State_requestSession_kept, keep_rules, ite_self, implies_true, core_fold, core_foldF, core_foldS]) | split | (rename _ = (_, _) => hh; obtain ⟨rfl, rfl⟩ := Prod.ext_iff.mp hh) | refine core_foldWith (fun s x => ?_) ?_ | refine Eq.trans (core_foldF (fun s x => ?_) _ _) ?_ | refine Eq.trans (core_foldS (fun s x => ?_) _ _) ?_)⟩
theorem execSpdmMessageRx_kept (x0) (x1) (x2) (x3) (x4) : ∃ t, (@execSpdmMessageRx x0 x1 x2 x3 x4) = .next t ∧ t.core = x4.core := by unfold execSpdmMessageRx; (try dsimp only); (repeat' first | (split) | (rename _ = (_, _) => hh; obtain ⟨rfl, rfl⟩ := Prod.ext_iff.mp hh)) <;> exact ⟨_, rfl, by (repeat' first | with_reducible rfl | (intros; simp only [State_freeNat_kept, State_freeBytes_kept, State_rotSend_kept, State_updHouse_kept, State_announceAll_kept, State_sessionLost_kept, State_drew_kept, keep_rules, ite_self, implies_true, core_fold, core_foldF, core_foldS]) | split | (rename _ = (_, _) => hh; obtain ⟨rfl, rfl⟩ := Prod.ext_iff.mp hh) | refine core_foldWith (fun s x => ?_) ?_ | refine Eq.trans (core_foldF (fun s x => ?_) _ _) ?_ | refine Eq.trans (core_foldS (fun s x => ?_) _ _) ?_)⟩
theorem State_endSessions_kept (x0) : (@State.endSessions x0).core = x0.core := by
  unfold State.endSessions
  (repeat' first | with_reducible rfl | (intros; simp only [keep_rules, ite_self, implies_true, core_fold, core_foldF, core_foldS]) | split | (rename _ = (_, _) => hh; obtain ⟨rfl, rfl⟩ := Prod.ext_iff.mp hh) | refine core_foldWith (fun s x => ?_) ?_ | refine Eq.trans (core_foldF (fun s x => ?_) _ _) ?_ | refine Eq.trans (core_foldS (fun s x => ?_) _ _) ?_)
theorem execKeyMessageAnswerRx_kept (x0) (x1) (x2) : ∃ t, (@execKeyMessageAnswerRx x0 x1 x2) = .next t ∧ t.core = x2.core := by unfold execKeyMessageAnswerRx; (try dsimp only); (repeat' first | (split) | (rename _ = (_, _) => hh; obtain ⟨rfl, rfl⟩ := Prod.ext_iff.mp hh)) <;> exact ⟨_, rfl, by (repeat' first | with_reducible rfl | (intros; simp only [State_keysAnswered_kept, keep_rules, ite_self, implies_true, core_fold, core_foldF, core_foldS]) | split | (rename _ = (_, _) => hh; obtain ⟨rfl, rfl⟩ := Prod.ext_iff.mp hh) | refine core_foldWith (fun s x => ?_) ?_ | refine Eq.trans (core_foldF (fun s x => ?_) _ _) ?_ | refine Eq.trans (core_foldS (fun s x => ?_) _ _) ?_)⟩
theorem execKeyMessageTimeout_kept (x0) (x1) (x2) : ∃ t, (@execKeyMessageTimeout x0 x1 x2) = .next t ∧ t.core = x2.core := by unfold execKeyMessageTimeout; (try dsimp only); (repeat' first | (split) | (rename _ = (_, _) => hh; obtain ⟨rfl, rfl⟩ := Prod.ext_iff.mp hh)) <;> exact ⟨_, rfl, by (repeat' first | with_reducible rfl | (intros; simp only [State_fault_kept, State_keysAnswered_kept, keep_rules, ite_self, implies_true, core_fold, core_foldF, core_foldS]) | split | (rename _ = (_, _) => hh; obtain ⟨rfl, rfl⟩ := Prod.ext_iff.mp hh) | refine core_foldWith (fun s x => ?_) ?_ | refine Eq.trans (core_foldF (fun s x => ?_) _ _) ?_ | refine Eq.trans (core_foldS (fun s x => ?_) _ _) ?_)⟩
theorem execTileZeroDone_kept (x0) (x1) : ∃ t, (@execTileZeroDone x0 x1) = .next t ∧ t.core = x1.core := by unfold execTileZeroDone; exact ⟨_, rfl, by (repeat' first | with_reducible rfl | (intros; simp only [keep_rules, ite_self, implies_true, core_fold, core_foldF, core_foldS]) | split | (rename _ = (_, _) => hh; obtain ⟨rfl, rfl⟩ := Prod.ext_iff.mp hh) | refine core_foldWith (fun s x => ?_) ?_ | refine Eq.trans (core_foldF (fun s x => ?_) _ _) ?_ | refine Eq.trans (core_foldS (fun s x => ?_) _ _) ?_)⟩
theorem hLedgerStatus_kept (x0) (x1) : (@hLedgerStatus x0 x1).1.core = x1.core := by
  unfold hLedgerStatus
  (repeat' first | with_reducible rfl | (intros; simp only [State_freeNat_kept, keep_rules, ite_self, implies_true, core_fold, core_foldF, core_foldS]) | split | (rename _ = (_, _) => hh; obtain ⟨rfl, rfl⟩ := Prod.ext_iff.mp hh) | refine core_foldWith (fun s x => ?_) ?_ | refine Eq.trans (core_foldF (fun s x => ?_) _ _) ?_ | refine Eq.trans (core_foldS (fun s x => ?_) _ _) ?_)
theorem execLedgerStatus_kept (x0) (x1) : ∃ t, (@execLedgerStatus x0 x1) = .next t ∧ t.core = x1.core := by unfold execLedgerStatus; exact ⟨_, rfl, by (repeat' first | with_reducible rfl | (intros; simp only [State_present_kept, hLedgerStatus_kept, keep_rules, ite_self, implies_true, core_fold, core_foldF, core_foldS]) | split | (rename _ = (_, _) => hh; obtain ⟨rfl, rfl⟩ := Prod.ext_iff.mp hh) | refine core_foldWith (fun s x => ?_) ?_ | refine Eq.trans (core_foldF (fun s x => ?_) _ _) ?_ | refine Eq.trans (core_foldS (fun s x => ?_) _ _) ?_)⟩
theorem hLedgerCheckpoint_kept (x0) (x1) : (@hLedgerCheckpoint x0 x1).1.core = x1.core := by
  unfold hLedgerCheckpoint
  (repeat' first | with_reducible rfl | (intros; simp only [refuse_kept, multi_kept, keep_rules, ite_self, implies_true, core_fold, core_foldF, core_foldS]) | split | (rename _ = (_, _) => hh; obtain ⟨rfl, rfl⟩ := Prod.ext_iff.mp hh) | refine core_foldWith (fun s x => ?_) ?_ | refine Eq.trans (core_foldF (fun s x => ?_) _ _) ?_ | refine Eq.trans (core_foldS (fun s x => ?_) _ _) ?_)
theorem execLedgerCheckpoint_kept (x0) (x1) : ∃ t, (@execLedgerCheckpoint x0 x1) = .next t ∧ t.core = x1.core := by unfold execLedgerCheckpoint; exact ⟨_, rfl, by (repeat' first | with_reducible rfl | (intros; simp only [State_present_kept, hLedgerCheckpoint_kept, keep_rules, ite_self, implies_true, core_fold, core_foldF, core_foldS]) | split | (rename _ = (_, _) => hh; obtain ⟨rfl, rfl⟩ := Prod.ext_iff.mp hh) | refine core_foldWith (fun s x => ?_) ?_ | refine Eq.trans (core_foldF (fun s x => ?_) _ _) ?_ | refine Eq.trans (core_foldS (fun s x => ?_) _ _) ?_)⟩
theorem hLedgerRead_kept (x0) (x1) : (@hLedgerRead x0 x1).1.core = x1.core := by
  unfold hLedgerRead
  (repeat' first | with_reducible rfl | (intros; simp only [refuse_kept, keep_rules, ite_self, implies_true, core_fold, core_foldF, core_foldS]) | split | (rename _ = (_, _) => hh; obtain ⟨rfl, rfl⟩ := Prod.ext_iff.mp hh) | refine core_foldWith (fun s x => ?_) ?_ | refine Eq.trans (core_foldF (fun s x => ?_) _ _) ?_ | refine Eq.trans (core_foldS (fun s x => ?_) _ _) ?_)
theorem execLedgerRead_kept (x0) (x1) : ∃ t, (@execLedgerRead x0 x1) = .next t ∧ t.core = x1.core := by unfold execLedgerRead; exact ⟨_, rfl, by (repeat' first | with_reducible rfl | (intros; simp only [State_present_kept, hLedgerRead_kept, keep_rules, ite_self, implies_true, core_fold, core_foldF, core_foldS]) | split | (rename _ = (_, _) => hh; obtain ⟨rfl, rfl⟩ := Prod.ext_iff.mp hh) | refine core_foldWith (fun s x => ?_) ?_ | refine Eq.trans (core_foldF (fun s x => ?_) _ _) ?_ | refine Eq.trans (core_foldS (fun s x => ?_) _ _) ?_)⟩
theorem hFwStatus_kept (x0) (x1) : (@hFwStatus x0 x1).1.core = x1.core := by
  unfold hFwStatus
  (repeat' first | with_reducible rfl | (intros; simp only [keep_rules, ite_self, implies_true, core_fold, core_foldF, core_foldS]) | split | (rename _ = (_, _) => hh; obtain ⟨rfl, rfl⟩ := Prod.ext_iff.mp hh) | refine core_foldWith (fun s x => ?_) ?_ | refine Eq.trans (core_foldF (fun s x => ?_) _ _) ?_ | refine Eq.trans (core_foldS (fun s x => ?_) _ _) ?_)
theorem execFwStatus_kept (x0) (x1) : ∃ t, (@execFwStatus x0 x1) = .next t ∧ t.core = x1.core := by unfold execFwStatus; exact ⟨_, rfl, by (repeat' first | with_reducible rfl | (intros; simp only [State_present_kept, hFwStatus_kept, keep_rules, ite_self, implies_true, core_fold, core_foldF, core_foldS]) | split | (rename _ = (_, _) => hh; obtain ⟨rfl, rfl⟩ := Prod.ext_iff.mp hh) | refine core_foldWith (fun s x => ?_) ?_ | refine Eq.trans (core_foldF (fun s x => ?_) _ _) ?_ | refine Eq.trans (core_foldS (fun s x => ?_) _ _) ?_)⟩
theorem hTelemSubscribe_kept (x0) (x1) : (@hTelemSubscribe x0 x1).1.core = x1.core := by
  unfold hTelemSubscribe
  (repeat' first | with_reducible rfl | (intros; simp only [refuse_kept, volatileOk_kept, State_updVol_kept, keep_rules, ite_self, implies_true, core_fold, core_foldF, core_foldS]) | split | (rename _ = (_, _) => hh; obtain ⟨rfl, rfl⟩ := Prod.ext_iff.mp hh) | refine core_foldWith (fun s x => ?_) ?_ | refine Eq.trans (core_foldF (fun s x => ?_) _ _) ?_ | refine Eq.trans (core_foldS (fun s x => ?_) _ _) ?_)
theorem execTelemSubscribe_kept (x0) (x1) : ∃ t, (@execTelemSubscribe x0 x1) = .next t ∧ t.core = x1.core := by unfold execTelemSubscribe; exact ⟨_, rfl, by (repeat' first | with_reducible rfl | (intros; simp only [State_present_kept, hTelemSubscribe_kept, keep_rules, ite_self, implies_true, core_fold, core_foldF, core_foldS]) | split | (rename _ = (_, _) => hh; obtain ⟨rfl, rfl⟩ := Prod.ext_iff.mp hh) | refine core_foldWith (fun s x => ?_) ?_ | refine Eq.trans (core_foldF (fun s x => ?_) _ _) ?_ | refine Eq.trans (core_foldS (fun s x => ?_) _ _) ?_)⟩
theorem hTelemSnapshot_kept (x0) (x1) : (@hTelemSnapshot x0 x1).1.core = x1.core := by
  unfold hTelemSnapshot
  (repeat' first | with_reducible rfl | (intros; simp only [refuse_kept, keep_rules, ite_self, implies_true, core_fold, core_foldF, core_foldS]) | split | (rename _ = (_, _) => hh; obtain ⟨rfl, rfl⟩ := Prod.ext_iff.mp hh) | refine core_foldWith (fun s x => ?_) ?_ | refine Eq.trans (core_foldF (fun s x => ?_) _ _) ?_ | refine Eq.trans (core_foldS (fun s x => ?_) _ _) ?_)
theorem execTelemSnapshot_kept (x0) (x1) : ∃ t, (@execTelemSnapshot x0 x1) = .next t ∧ t.core = x1.core := by unfold execTelemSnapshot; exact ⟨_, rfl, by (repeat' first | with_reducible rfl | (intros; simp only [State_present_kept, hTelemSnapshot_kept, keep_rules, ite_self, implies_true, core_fold, core_foldF, core_foldS]) | split | (rename _ = (_, _) => hh; obtain ⟨rfl, rfl⟩ := Prod.ext_iff.mp hh) | refine core_foldWith (fun s x => ?_) ?_ | refine Eq.trans (core_foldF (fun s x => ?_) _ _) ?_ | refine Eq.trans (core_foldS (fun s x => ?_) _ _) ?_)⟩
theorem hPowerStatus_kept (x0) (x1) : (@hPowerStatus x0 x1).1.core = x1.core := by
  unfold hPowerStatus
  (repeat' first | with_reducible rfl | (intros; simp only [keep_rules, ite_self, implies_true, core_fold, core_foldF, core_foldS]) | split | (rename _ = (_, _) => hh; obtain ⟨rfl, rfl⟩ := Prod.ext_iff.mp hh) | refine core_foldWith (fun s x => ?_) ?_ | refine Eq.trans (core_foldF (fun s x => ?_) _ _) ?_ | refine Eq.trans (core_foldS (fun s x => ?_) _ _) ?_)
theorem execPowerStatus_kept (x0) (x1) : ∃ t, (@execPowerStatus x0 x1) = .next t ∧ t.core = x1.core := by unfold execPowerStatus; exact ⟨_, rfl, by (repeat' first | with_reducible rfl | (intros; simp only [State_present_kept, hPowerStatus_kept, keep_rules, ite_self, implies_true, core_fold, core_foldF, core_foldS]) | split | (rename _ = (_, _) => hh; obtain ⟨rfl, rfl⟩ := Prod.ext_iff.mp hh) | refine core_foldWith (fun s x => ?_) ?_ | refine Eq.trans (core_foldF (fun s x => ?_) _ _) ?_ | refine Eq.trans (core_foldS (fun s x => ?_) _ _) ?_)⟩
theorem hPowerBudget_kept (x0) (x1) : (@hPowerBudget x0 x1).1.core = x1.core := by
  unfold hPowerBudget
  (repeat' first | with_reducible rfl | (intros; simp only [refuse_kept, durable_kept, keep_rules, ite_self, implies_true, core_fold, core_foldF, core_foldS]) | split | (rename _ = (_, _) => hh; obtain ⟨rfl, rfl⟩ := Prod.ext_iff.mp hh) | refine core_foldWith (fun s x => ?_) ?_ | refine Eq.trans (core_foldF (fun s x => ?_) _ _) ?_ | refine Eq.trans (core_foldS (fun s x => ?_) _ _) ?_)
theorem execPowerBudget_kept (x0) (x1) : ∃ t, (@execPowerBudget x0 x1) = .next t ∧ t.core = x1.core := by unfold execPowerBudget; exact ⟨_, rfl, by (repeat' first | with_reducible rfl | (intros; simp only [State_present_kept, hPowerBudget_kept, keep_rules, ite_self, implies_true, core_fold, core_foldF, core_foldS]) | split | (rename _ = (_, _) => hh; obtain ⟨rfl, rfl⟩ := Prod.ext_iff.mp hh) | refine core_foldWith (fun s x => ?_) ?_ | refine Eq.trans (core_foldF (fun s x => ?_) _ _) ?_ | refine Eq.trans (core_foldS (fun s x => ?_) _ _) ?_)⟩
theorem State_setFw_kept (x0) (x1) : (@State.setFw x0 x1).core = x0.core := by
  unfold State.setFw
  (repeat' first | with_reducible rfl | (intros; simp only [keep_rules, ite_self, implies_true, core_fold, core_foldF, core_foldS]) | split | (rename _ = (_, _) => hh; obtain ⟨rfl, rfl⟩ := Prod.ext_iff.mp hh) | refine core_foldWith (fun s x => ?_) ?_ | refine Eq.trans (core_foldF (fun s x => ?_) _ _) ?_ | refine Eq.trans (core_foldS (fun s x => ?_) _ _) ?_)
theorem State_queueChunk_kept (x0) (x1) (x2) (x3) (x4) : (@State.queueChunk x0 x1 x2 x3 x4).core = x0.core := by
  unfold State.queueChunk
  (repeat' first | with_reducible rfl | (intros; simp only [keep_rules, ite_self, implies_true, core_fold, core_foldF, core_foldS]) | split | (rename _ = (_, _) => hh; obtain ⟨rfl, rfl⟩ := Prod.ext_iff.mp hh) | refine core_foldWith (fun s x => ?_) ?_ | refine Eq.trans (core_foldF (fun s x => ?_) _ _) ?_ | refine Eq.trans (core_foldS (fun s x => ?_) _ _) ?_)
theorem hFwDownload_kept (x0) (x1) : (@hFwDownload x0 x1).1.core = x1.core := by
  unfold hFwDownload
  (repeat' first | with_reducible rfl | (intros; simp only [refuse_kept, State_setFw_kept, State_stage_kept, multi_kept, State_queueChunk_kept, keep_rules, ite_self, implies_true, core_fold, core_foldF, core_foldS]) | split | (rename _ = (_, _) => hh; obtain ⟨rfl, rfl⟩ := Prod.ext_iff.mp hh) | refine core_foldWith (fun s x => ?_) ?_ | refine Eq.trans (core_foldF (fun s x => ?_) _ _) ?_ | refine Eq.trans (core_foldS (fun s x => ?_) _ _) ?_)
theorem execFwDownload_kept (x0) (x1) : ∃ t, (@execFwDownload x0 x1) = .next t ∧ t.core = x1.core := by unfold execFwDownload; exact ⟨_, rfl, by (repeat' first | with_reducible rfl | (intros; simp only [State_present_kept, hFwDownload_kept, keep_rules, ite_self, implies_true, core_fold, core_foldF, core_foldS]) | split | (rename _ = (_, _) => hh; obtain ⟨rfl, rfl⟩ := Prod.ext_iff.mp hh) | refine core_foldWith (fun s x => ?_) ?_ | refine Eq.trans (core_foldF (fun s x => ?_) _ _) ?_ | refine Eq.trans (core_foldS (fun s x => ?_) _ _) ?_)⟩
theorem State_downloadSealed_kept (x0) (x1) (x2) (x3) (x4) (x5) : (@State.downloadSealed x0 x1 x2 x3 x4 x5).core = x0.core := by
  unfold State.downloadSealed
  (repeat' first | with_reducible rfl | (intros; simp only [State_setFw_kept, State_endTask_kept, keep_rules, ite_self, implies_true, core_fold, core_foldF, core_foldS]) | split | (rename _ = (_, _) => hh; obtain ⟨rfl, rfl⟩ := Prod.ext_iff.mp hh) | refine core_foldWith (fun s x => ?_) ?_ | refine Eq.trans (core_foldF (fun s x => ?_) _ _) ?_ | refine Eq.trans (core_foldS (fun s x => ?_) _ _) ?_)
theorem hFwVerify_kept (x0) (x1) : (@hFwVerify x0 x1).1.core = x1.core := by
  unfold hFwVerify
  (repeat' first | with_reducible rfl | (intros; simp only [refuse_kept, multi_kept, State_setFw_kept, keep_rules, ite_self, implies_true, core_fold, core_foldF, core_foldS]) | split | (rename _ = (_, _) => hh; obtain ⟨rfl, rfl⟩ := Prod.ext_iff.mp hh) | refine core_foldWith (fun s x => ?_) ?_ | refine Eq.trans (core_foldF (fun s x => ?_) _ _) ?_ | refine Eq.trans (core_foldS (fun s x => ?_) _ _) ?_)
theorem execFwVerify_kept (x0) (x1) : ∃ t, (@execFwVerify x0 x1) = .next t ∧ t.core = x1.core := by unfold execFwVerify; exact ⟨_, rfl, by (repeat' first | with_reducible rfl | (intros; simp only [State_present_kept, hFwVerify_kept, keep_rules, ite_self, implies_true, core_fold, core_foldF, core_foldS]) | split | (rename _ = (_, _) => hh; obtain ⟨rfl, rfl⟩ := Prod.ext_iff.mp hh) | refine core_foldWith (fun s x => ?_) ?_ | refine Eq.trans (core_foldF (fun s x => ?_) _ _) ?_ | refine Eq.trans (core_foldS (fun s x => ?_) _ _) ?_)⟩
theorem execImageCheckDone_kept (x0) : ∃ t, (@execImageCheckDone x0) = .next t ∧ t.core = x0.core := by unfold execImageCheckDone; (try dsimp only); (repeat' first | (split) | (rename _ = (_, _) => hh; obtain ⟨rfl, rfl⟩ := Prod.ext_iff.mp hh)) <;> exact ⟨_, rfl, by (repeat' first | with_reducible rfl | (intros; simp only [State_failTask_kept, State_setFw_kept, State_updTask_kept, keep_rules, ite_self, implies_true, core_fold, core_foldF, core_foldS]) | split | (rename _ = (_, _) => hh; obtain ⟨rfl, rfl⟩ := Prod.ext_iff.mp hh) | refine core_foldWith (fun s x => ?_) ?_ | refine Eq.trans (core_foldF (fun s x => ?_) _ _) ?_ | refine Eq.trans (core_foldS (fun s x => ?_) _ _) ?_)⟩
theorem hFwActivate_kept (x0) (x1) : (@hFwActivate x0 x1).1.core = x1.core := by
  unfold hFwActivate
  (repeat' first | with_reducible rfl | (intros; simp only [refuse_kept, State_setFw_kept, multi_kept, keep_rules, ite_self, implies_true, core_fold, core_foldF, core_foldS]) | split | (rename _ = (_, _) => hh; obtain ⟨rfl, rfl⟩ := Prod.ext_iff.mp hh) | refine core_foldWith (fun s x => ?_) ?_ | refine Eq.trans (core_foldF (fun s x => ?_) _ _) ?_ | refine Eq.trans (core_foldS (fun s x => ?_) _ _) ?_)
theorem execFwActivate_kept (x0) (x1) : ∃ t, (@execFwActivate x0 x1) = .next t ∧ t.core = x1.core := by unfold execFwActivate; exact ⟨_, rfl, by (repeat' first | with_reducible rfl | (intros; simp only [State_present_kept, hFwActivate_kept, keep_rules, ite_self, implies_true, core_fold, core_foldF, core_foldS]) | split | (rename _ = (_, _) => hh; obtain ⟨rfl, rfl⟩ := Prod.ext_iff.mp hh) | refine core_foldWith (fun s x => ?_) ?_ | refine Eq.trans (core_foldF (fun s x => ?_) _ _) ?_ | refine Eq.trans (core_foldS (fun s x => ?_) _ _) ?_)⟩
theorem hFwConfirm_kept (x0) (x1) : (@hFwConfirm x0 x1).1.core = x1.core := by
  unfold hFwConfirm
  (repeat' first | with_reducible rfl | (intros; simp only [refuse_kept, State_setFw_kept, multi_kept, keep_rules, ite_self, implies_true, core_fold, core_foldF, core_foldS]) | split | (rename _ = (_, _) => hh; obtain ⟨rfl, rfl⟩ := Prod.ext_iff.mp hh) | refine core_foldWith (fun s x => ?_) ?_ | refine Eq.trans (core_foldF (fun s x => ?_) _ _) ?_ | refine Eq.trans (core_foldS (fun s x => ?_) _ _) ?_)
theorem execFwConfirm_kept (x0) (x1) : ∃ t, (@execFwConfirm x0 x1) = .next t ∧ t.core = x1.core := by unfold execFwConfirm; exact ⟨_, rfl, by (repeat' first | with_reducible rfl | (intros; simp only [State_present_kept, hFwConfirm_kept, keep_rules, ite_self, implies_true, core_fold, core_foldF, core_foldS]) | split | (rename _ = (_, _) => hh; obtain ⟨rfl, rfl⟩ := Prod.ext_iff.mp hh) | refine core_foldWith (fun s x => ?_) ?_ | refine Eq.trans (core_foldF (fun s x => ?_) _ _) ?_ | refine Eq.trans (core_foldS (fun s x => ?_) _ _) ?_)⟩
theorem execFwReject_kept (x0) (x1) : ∃ t, (@execFwReject x0 x1) = .next t ∧ t.core = x1.core := by unfold execFwReject; exact ⟨_, rfl, by (repeat' first | with_reducible rfl | (intros; simp only [State_present_kept, hFwConfirm_kept, keep_rules, ite_self, implies_true, core_fold, core_foldF, core_foldS]) | split | (rename _ = (_, _) => hh; obtain ⟨rfl, rfl⟩ := Prod.ext_iff.mp hh) | refine core_foldWith (fun s x => ?_) ?_ | refine Eq.trans (core_foldF (fun s x => ?_) _ _) ?_ | refine Eq.trans (core_foldS (fun s x => ?_) _ _) ?_)⟩
theorem State_endBurn_kept (x0) : (@State.endBurn x0).core = x0.core := by
  unfold State.endBurn
  (repeat' first | with_reducible rfl | (intros; simp only [State_endTask_kept, keep_rules, ite_self, implies_true, core_fold, core_foldF, core_foldS]) | split | (rename _ = (_, _) => hh; obtain ⟨rfl, rfl⟩ := Prod.ext_iff.mp hh) | refine core_foldWith (fun s x => ?_) ?_ | refine Eq.trans (core_foldF (fun s x => ?_) _ _) ?_ | refine Eq.trans (core_foldS (fun s x => ?_) _ _) ?_)
theorem State_fwSealed_kept (x0) (x1) : (@State.fwSealed x0 x1).core = x0.core := by
  unfold State.fwSealed
  (repeat' first | with_reducible rfl | (intros; simp only [State_updTask_kept, State_endTask_kept, State_failTask_kept, keep_rules, ite_self, implies_true, core_fold, core_foldF, core_foldS]) | split | (rename _ = (_, _) => hh; obtain ⟨rfl, rfl⟩ := Prod.ext_iff.mp hh) | refine core_foldWith (fun s x => ?_) ?_ | refine Eq.trans (core_foldF (fun s x => ?_) _ _) ?_ | refine Eq.trans (core_foldS (fun s x => ?_) _ _) ?_)
theorem State_fwAnchor_kept (x0) (x1) : (@State.fwAnchor x0 x1).core = x0.core := by
  unfold State.fwAnchor
  (repeat' first | with_reducible rfl | (intros; simp only [State_fwSealed_kept, keep_rules, ite_self, implies_true, core_fold, core_foldF, core_foldS]) | split | (rename _ = (_, _) => hh; obtain ⟨rfl, rfl⟩ := Prod.ext_iff.mp hh) | refine core_foldWith (fun s x => ?_) ?_ | refine Eq.trans (core_foldF (fun s x => ?_) _ _) ?_ | refine Eq.trans (core_foldS (fun s x => ?_) _ _) ?_)
theorem State_fwUnsealed_kept (x0) (x1) : (@State.fwUnsealed x0 x1).core = x0.core := by
  unfold State.fwUnsealed
  (repeat' first | with_reducible rfl | (intros; simp only [State_failTask_kept, keep_rules, ite_self, implies_true, core_fold, core_foldF, core_foldS]) | split | (rename _ = (_, _) => hh; obtain ⟨rfl, rfl⟩ := Prod.ext_iff.mp hh) | refine core_foldWith (fun s x => ?_) ?_ | refine Eq.trans (core_foldF (fun s x => ?_) _ _) ?_ | refine Eq.trans (core_foldS (fun s x => ?_) _ _) ?_)
theorem State_fwLost_kept (x0) : (@State.fwLost x0).core = x0.core := by
  have h1 : ∀ (s : State), (if s.fw.reverting then { s with fw := { s.fw with reverting := false, reset := some .atOnce } } else s).core = s.core := by
    intro s; split <;> simp only [core_mk, core_eta]
  unfold State.fwLost
  exact (h1 _).trans ((core_fold (fun s t => State_fwUnsealed_kept _ _) _ _).trans (by simp only [State.updLedger, core_mk, core_eta]))
theorem execConfirmWindowExpiry_kept (x0) : ∃ t, (@execConfirmWindowExpiry x0) = .next t ∧ t.core = x0.core := by unfold execConfirmWindowExpiry; (try dsimp only); (repeat' first | (split) | (rename _ = (_, _) => hh; obtain ⟨rfl, rfl⟩ := Prod.ext_iff.mp hh)) <;> exact ⟨_, rfl, by (repeat' first | with_reducible rfl | (intros; simp only [State_setFw_kept, keep_rules, ite_self, implies_true, core_fold, core_foldF, core_foldS]) | split | (rename _ = (_, _) => hh; obtain ⟨rfl, rfl⟩ := Prod.ext_iff.mp hh) | refine core_foldWith (fun s x => ?_) ?_ | refine Eq.trans (core_foldF (fun s x => ?_) _ _) ?_ | refine Eq.trans (core_foldS (fun s x => ?_) _ _) ?_)⟩
theorem State_sizeRec_kept (x0) (x1) : (@State.sizeRec x0 x1).2.core = x0.core := by
  unfold State.sizeRec
  (repeat' first | with_reducible rfl | (intros; simp only [State_freeNat_kept, keep_rules, ite_self, implies_true, core_fold, core_foldF, core_foldS]) | split | (rename _ = (_, _) => hh; obtain ⟨rfl, rfl⟩ := Prod.ext_iff.mp hh) | refine core_foldWith (fun s x => ?_) ?_ | refine Eq.trans (core_foldF (fun s x => ?_) _ _) ?_ | refine Eq.trans (core_foldS (fun s x => ?_) _ _) ?_)
theorem State_sizeRecs_kept (x0) (x1) : (@State.sizeRecs x0 x1).2.core = x0.core := by
  induction x1 generalizing x0 with
  | nil => exact id rfl
  | cons a l ih => exact (ih _).trans (State_sizeRec_kept _ _)
theorem State_buildGroups_kept (x0) : (@State.buildGroups x0).core = x0.core := by
  unfold State.buildGroups
  (repeat' first | with_reducible rfl | (intros; simp only [State_sizeRecs_kept, keep_rules, ite_self, implies_true, core_fold, core_foldF, core_foldS]) | split | (rename _ = (_, _) => hh; obtain ⟨rfl, rfl⟩ := Prod.ext_iff.mp hh) | refine core_foldWith (fun s x => ?_) ?_ | refine Eq.trans (core_foldF (fun s x => ?_) _ _) ?_ | refine Eq.trans (core_foldS (fun s x => ?_) _ _) ?_)
theorem State_buildAnchor_kept (x0) : (@State.buildAnchor x0).core = x0.core := by
  unfold State.buildAnchor
  (repeat' first | with_reducible rfl | (intros; simp only [keep_rules, ite_self, implies_true, core_fold, core_foldF, core_foldS]) | split | (rename _ = (_, _) => hh; obtain ⟨rfl, rfl⟩ := Prod.ext_iff.mp hh) | refine core_foldWith (fun s x => ?_) ?_ | refine Eq.trans (core_foldF (fun s x => ?_) _ _) ?_ | refine Eq.trans (core_foldS (fun s x => ?_) _ _) ?_)
theorem State_startAnchor_kept (x0) (x1) (x2) : (@State.startAnchor x0 x1 x2).core = x0.core := by
  simp only [State.startAnchor, Ledger.startWrite, State.updLedger, if_true, core_mk, core_eta]
theorem State_freshQuires_kept (x0) (x1) : (@State.freshQuires x0 x1).core = x0.core := by
  unfold State.freshQuires
  (repeat' first | with_reducible rfl | (intros; simp only [State_updQuireVol_kept, keep_rules, ite_self, implies_true, core_fold, core_foldF, core_foldS]) | split | (rename _ = (_, _) => hh; obtain ⟨rfl, rfl⟩ := Prod.ext_iff.mp hh) | refine core_foldWith (fun s x => ?_) ?_ | refine Eq.trans (core_foldF (fun s x => ?_) _ _) ?_ | refine Eq.trans (core_foldS (fun s x => ?_) _ _) ?_)
theorem State_taskSealed_kept (x0) (x1) (x2) : (@State.taskSealed x0 x1 x2).core = x0.core := by
  unfold State.taskSealed
  (repeat' first | with_reducible rfl | (intros; simp only [State_endTask_kept, State_installSealed_kept, State_rebindSealed_kept, State_resetSealed_kept, State_activateSealed_kept, State_tenantOpened_kept, State_evictSealed_kept, State_downloadSealed_kept, keep_rules, ite_self, implies_true, core_fold, core_foldF, core_foldS]) | split | (rename _ = (_, _) => hh; obtain ⟨rfl, rfl⟩ := Prod.ext_iff.mp hh) | refine core_foldWith (fun s x => ?_) ?_ | refine Eq.trans (core_foldF (fun s x => ?_) _ _) ?_ | refine Eq.trans (core_foldS (fun s x => ?_) _ _) ?_)
theorem State_recDone_kept (x0) (x1) (x2) : (@State.recDone x0 x1 x2).core = x0.core := by
  unfold State.recDone
  (repeat' first | with_reducible rfl | (intros; simp only [State_taskSealed_kept, State_completeCmd_kept, keep_rules, ite_self, implies_true, core_fold, core_foldF, core_foldS]) | split | (rename _ = (_, _) => hh; obtain ⟨rfl, rfl⟩ := Prod.ext_iff.mp hh) | refine core_foldWith (fun s x => ?_) ?_ | refine Eq.trans (core_foldF (fun s x => ?_) _ _) ?_ | refine Eq.trans (core_foldS (fun s x => ?_) _ _) ?_)
theorem State_joinRec_kept (x0) (x1) : (@State.joinRec x0 x1).core = x0.core := by
  unfold State.joinRec
  (repeat' first | with_reducible rfl | (intros; simp only [State_freshQuires_kept, State_updLed_kept, State_recDone_kept, State_closeSealed_kept, keep_rules, ite_self, implies_true, core_fold, core_foldF, core_foldS]) | split | (rename _ = (_, _) => hh; obtain ⟨rfl, rfl⟩ := Prod.ext_iff.mp hh) | refine core_foldWith (fun s x => ?_) ?_ | refine Eq.trans (core_foldF (fun s x => ?_) _ _) ?_ | refine Eq.trans (core_foldS (fun s x => ?_) _ _) ?_)
theorem State_joinList_kept (x0) (x1) (x2) : (@State.joinList x0 x1 x2).core = x0.core := by
  induction x1 generalizing x0 x2 with
  | nil => simp only [State.joinList, State.updLedger, core_mk, core_eta]
  | cons a l ih =>
    unfold State.joinList
    split
    · exact (ih _ _).trans ((State_joinRec_kept _ _).trans (by simp only [State.updLedger, core_mk, core_eta]))
    · exact ih _ _
theorem State_joinLate_kept (x0) : (@State.joinLate x0).core = x0.core := by
  unfold State.joinLate
  (repeat' first | with_reducible rfl | (intros; simp only [State_joinList_kept, keep_rules, ite_self, implies_true, core_fold, core_foldF, core_foldS]) | split | (rename _ = (_, _) => hh; obtain ⟨rfl, rfl⟩ := Prod.ext_iff.mp hh) | refine core_foldWith (fun s x => ?_) ?_ | refine Eq.trans (core_foldF (fun s x => ?_) _ _) ?_ | refine Eq.trans (core_foldS (fun s x => ?_) _ _) ?_)
theorem State_groupSealed_kept (x0) (x1) : (@State.groupSealed x0 x1).core = x0.core := by
  unfold State.groupSealed
  dsimp only
  generalize hs : x0.updLedger _ = s
  have h : s.core = x0.core := by rw [← hs]; simp only [State.updLedger, core_mk, core_eta]
  have h1 : ∀ (s : State), (s.updLedger fun g => if g.pseal = .group && g.writeNoCredit && g.groups = [] then { g with pseal := .anchor } else g).core = s.core := by
    intro s; unfold State.updLedger; dsimp only; split <;> simp only [core_mk, core_eta]
  refine (h1 _).trans ?_
  split
  · exact h
  · exact (State_joinLate_kept _).trans h
theorem State_taskDropped_kept (x0) (x1) (x2) : (@State.taskDropped x0 x1 x2).core = x0.core := by
  unfold State.taskDropped
  (repeat' first | with_reducible rfl | (intros; simp only [State_dropBores_kept, State_failTask_kept, State_failInstall_kept, State_rebindStop_kept, State_failActivate_kept, State_updQuireVol_kept, State_resumeAdmission_kept, keep_rules, ite_self, implies_true, core_fold, core_foldF, core_foldS]) | split | (rename _ = (_, _) => hh; obtain ⟨rfl, rfl⟩ := Prod.ext_iff.mp hh) | refine core_foldWith (fun s x => ?_) ?_ | refine Eq.trans (core_foldF (fun s x => ?_) _ _) ?_ | refine Eq.trans (core_foldS (fun s x => ?_) _ _) ?_)
theorem State_dropRec_kept (x0) (x1) (x2) : (@State.dropRec x0 x1 x2).core = x0.core := by
  unfold State.dropRec
  (repeat' first | with_reducible rfl | (intros; simp only [State_taskDropped_kept, State_failCmd_kept, State_closeDropped_kept, keep_rules, ite_self, implies_true, core_fold, core_foldF, core_foldS]) | split | (rename _ = (_, _) => hh; obtain ⟨rfl, rfl⟩ := Prod.ext_iff.mp hh) | refine core_foldWith (fun s x => ?_) ?_ | refine Eq.trans (core_foldF (fun s x => ?_) _ _) ?_ | refine Eq.trans (core_foldS (fun s x => ?_) _ _) ?_)
theorem State_dropCkpt_kept (x0) (x1) : (@State.dropCkpt x0 x1).core = x0.core := by
  unfold State.dropCkpt
  (repeat' first | with_reducible rfl | (intros; simp only [State_failTask_kept, keep_rules, ite_self, implies_true, core_fold, core_foldF, core_foldS]) | split | (rename _ = (_, _) => hh; obtain ⟨rfl, rfl⟩ := Prod.ext_iff.mp hh) | refine core_foldWith (fun s x => ?_) ?_ | refine Eq.trans (core_foldF (fun s x => ?_) _ _) ?_ | refine Eq.trans (core_foldS (fun s x => ?_) _ _) ?_)
theorem State_journalLost_kept (x0) : (@State.journalLost x0).core = x0.core := by
  unfold State.journalLost
  exact (State_dropCkpt_kept _ _).trans ((State_fwLost_kept _).trans
    ((core_fold (fun s r => State_dropRec_kept _ _ _) _ _).trans (by simp only [State.updLedger, core_mk, core_eta])))
theorem State_failDev_kept (x0) (x1) : (@State.failDev x0 x1).core = x0.core := by
  unfold State.failDev
  (repeat' first | with_reducible rfl | (intros; simp only [State_lasting_kept, State_raiseNext_kept, keep_rules, ite_self, implies_true, core_fold, core_foldF, core_foldS]) | split | (rename _ = (_, _) => hh; obtain ⟨rfl, rfl⟩ := Prod.ext_iff.mp hh) | refine core_foldWith (fun s x => ?_) ?_ | refine Eq.trans (core_foldF (fun s x => ?_) _ _) ?_ | refine Eq.trans (core_foldS (fun s x => ?_) _ _) ?_)
theorem State_ckptSealed_kept (x0) (x1) : (@State.ckptSealed x0 x1).core = x0.core := by
  unfold State.ckptSealed
  (repeat' first | with_reducible rfl | (intros; simp only [State_endTask_kept, keep_rules, ite_self, implies_true, core_fold, core_foldF, core_foldS]) | split | (rename _ = (_, _) => hh; obtain ⟨rfl, rfl⟩ := Prod.ext_iff.mp hh) | refine core_foldWith (fun s x => ?_) ?_ | refine Eq.trans (core_foldF (fun s x => ?_) _ _) ?_ | refine Eq.trans (core_foldS (fun s x => ?_) _ _) ?_)
theorem execTickReservationRaise_kept (x0) : ∃ t, (@execTickReservationRaise x0) = .next t ∧ t.core = x0.core := by unfold execTickReservationRaise; (try dsimp only); (repeat' first | (split) | (rename _ = (_, _) => hh; obtain ⟨rfl, rfl⟩ := Prod.ext_iff.mp hh)) <;> exact ⟨_, rfl, by (repeat' first | with_reducible rfl | (intros; simp only [keep_rules, ite_self, implies_true, core_fold, core_foldF, core_foldS]) | split | (rename _ = (_, _) => hh; obtain ⟨rfl, rfl⟩ := Prod.ext_iff.mp hh) | refine core_foldWith (fun s x => ?_) ?_ | refine Eq.trans (core_foldF (fun s x => ?_) _ _) ?_ | refine Eq.trans (core_foldS (fun s x => ?_) _ _) ?_)⟩
theorem State_failArc_kept (x0) (x1) : (@State.failArc x0 x1).core = x0.core := by
  unfold State.failArc
  (repeat' first | with_reducible rfl | (intros; simp only [State_lasting_kept, State_raiseNext_kept, keep_rules, ite_self, implies_true, core_fold, core_foldF, core_foldS]) | split | (rename _ = (_, _) => hh; obtain ⟨rfl, rfl⟩ := Prod.ext_iff.mp hh) | refine core_foldWith (fun s x => ?_) ?_ | refine Eq.trans (core_foldF (fun s x => ?_) _ _) ?_ | refine Eq.trans (core_foldS (fun s x => ?_) _ _) ?_)
theorem State_chunkEnded_kept (x0) (x1) (x2) (x3) (x4) : (@State.chunkEnded x0 x1 x2 x3 x4).core = x0.core := by
  unfold State.chunkEnded
  (repeat' first | with_reducible rfl | (intros; simp only [State_failTask_kept, State_stageTask_kept, keep_rules, ite_self, implies_true, core_fold, core_foldF, core_foldS]) | split | (rename _ = (_, _) => hh; obtain ⟨rfl, rfl⟩ := Prod.ext_iff.mp hh) | refine core_foldWith (fun s x => ?_) ?_ | refine Eq.trans (core_foldF (fun s x => ?_) _ _) ?_ | refine Eq.trans (core_foldS (fun s x => ?_) _ _) ?_)
theorem execArchiveWriteDone_kept (x0) (x1) (x2) : ∃ t, (@execArchiveWriteDone x0 x1 x2) = .next t ∧ t.core = x2.core := by unfold execArchiveWriteDone; (try dsimp only); (repeat' first | (split) | (rename _ = (_, _) => hh; obtain ⟨rfl, rfl⟩ := Prod.ext_iff.mp hh)) <;> exact ⟨_, rfl, by (repeat' first | with_reducible rfl | (intros; simp only [State_chunkEnded_kept, State_failArc_kept, keep_rules, ite_self, implies_true, core_fold, core_foldF, core_foldS]) | split | (rename _ = (_, _) => hh; obtain ⟨rfl, rfl⟩ := Prod.ext_iff.mp hh) | refine core_foldWith (fun s x => ?_) ?_ | refine Eq.trans (core_foldF (fun s x => ?_) _ _) ?_ | refine Eq.trans (core_foldS (fun s x => ?_) _ _) ?_)⟩
theorem execCheckpointTimer_kept (x0) : ∃ t, (@execCheckpointTimer x0) = .next t ∧ t.core = x0.core := by unfold execCheckpointTimer; (try dsimp only); (repeat' first | (split) | (rename _ = (_, _) => hh; obtain ⟨rfl, rfl⟩ := Prod.ext_iff.mp hh)) <;> exact ⟨_, rfl, by (repeat' first | with_reducible rfl | (intros; simp only [keep_rules, ite_self, implies_true, core_fold, core_foldF, core_foldS]) | split | (rename _ = (_, _) => hh; obtain ⟨rfl, rfl⟩ := Prod.ext_iff.mp hh) | refine core_foldWith (fun s x => ?_) ?_ | refine Eq.trans (core_foldF (fun s x => ?_) _ _) ?_ | refine Eq.trans (core_foldS (fun s x => ?_) _ _) ?_)⟩
theorem execCheckpointStart_kept (x0) : ∃ t, (@execCheckpointStart x0) = .next t ∧ t.core = x0.core := by unfold execCheckpointStart; (try dsimp only); (repeat' first | (split) | (rename _ = (_, _) => hh; obtain ⟨rfl, rfl⟩ := Prod.ext_iff.mp hh)) <;> exact ⟨_, rfl, by (repeat' first | with_reducible rfl | (intros; simp only [keep_rules, ite_self, implies_true, core_fold, core_foldF, core_foldS]) | split | (rename _ = (_, _) => hh; obtain ⟨rfl, rfl⟩ := Prod.ext_iff.mp hh) | refine core_foldWith (fun s x => ?_) ?_ | refine Eq.trans (core_foldF (fun s x => ?_) _ _) ?_ | refine Eq.trans (core_foldS (fun s x => ?_) _ _) ?_)⟩
theorem State_ckptAnchor_kept (x0) (x1) : (@State.ckptAnchor x0 x1).core = x0.core := by
  unfold State.ckptAnchor
  (repeat' first | with_reducible rfl | (intros; simp only [keep_rules, ite_self, implies_true, core_fold, core_foldF, core_foldS]) | split | (rename _ = (_, _) => hh; obtain ⟨rfl, rfl⟩ := Prod.ext_iff.mp hh) | refine core_foldWith (fun s x => ?_) ?_ | refine Eq.trans (core_foldF (fun s x => ?_) _ _) ?_ | refine Eq.trans (core_foldS (fun s x => ?_) _ _) ?_)
theorem State_ckptFailed_kept (x0) (x1) : (@State.ckptFailed x0 x1).core = x0.core := by
  unfold State.ckptFailed
  (repeat' first | with_reducible rfl | (intros; simp only [State_failArc_kept, State_dropCkpt_kept, keep_rules, ite_self, implies_true, core_fold, core_foldF, core_foldS]) | split | (rename _ = (_, _) => hh; obtain ⟨rfl, rfl⟩ := Prod.ext_iff.mp hh) | refine core_foldWith (fun s x => ?_) ?_ | refine Eq.trans (core_foldF (fun s x => ?_) _ _) ?_ | refine Eq.trans (core_foldS (fun s x => ?_) _ _) ?_)
theorem execCheckpointCopyDone_kept (x0) (x1) (x2) : ∃ t, (@execCheckpointCopyDone x0 x1 x2) = .next t ∧ t.core = x2.core := by unfold execCheckpointCopyDone; (try dsimp only); (repeat' first | (split) | (rename _ = (_, _) => hh; obtain ⟨rfl, rfl⟩ := Prod.ext_iff.mp hh)) <;> exact ⟨_, rfl, by (repeat' first | with_reducible rfl | (intros; simp only [State_ckptFailed_kept, State_ckptAnchor_kept, keep_rules, ite_self, implies_true, core_fold, core_foldF, core_foldS]) | split | (rename _ = (_, _) => hh; obtain ⟨rfl, rfl⟩ := Prod.ext_iff.mp hh) | refine core_foldWith (fun s x => ?_) ?_ | refine Eq.trans (core_foldF (fun s x => ?_) _ _) ?_ | refine Eq.trans (core_foldS (fun s x => ?_) _ _) ?_)⟩
theorem execLaneMarginSample_kept (x0) (x1) : ∃ t, (@execLaneMarginSample x0 x1) = .next t ∧ t.core = x1.core := by unfold execLaneMarginSample; (try dsimp only); (repeat' first | (split) | (rename _ = (_, _) => hh; obtain ⟨rfl, rfl⟩ := Prod.ext_iff.mp hh)) <;> exact ⟨_, rfl, by (repeat' first | with_reducible rfl | (intros; simp only [State_stageHist_kept, State_fault_kept, State_stageOwn_kept, keep_rules, ite_self, implies_true, core_fold, core_foldF, core_foldS]) | split | (rename _ = (_, _) => hh; obtain ⟨rfl, rfl⟩ := Prod.ext_iff.mp hh) | refine core_foldWith (fun s x => ?_) ?_ | refine Eq.trans (core_foldF (fun s x => ?_) _ _) ?_ | refine Eq.trans (core_foldS (fun s x => ?_) _ _) ?_)⟩
theorem State_powerEvent_kept (x0) (x1) : (@State.powerEvent x0 x1).core = x0.core := by
  unfold State.powerEvent
  (repeat' first | with_reducible rfl | (intros; simp only [State_stageHist_kept, keep_rules, ite_self, implies_true, core_fold, core_foldF, core_foldS]) | split | (rename _ = (_, _) => hh; obtain ⟨rfl, rfl⟩ := Prod.ext_iff.mp hh) | refine core_foldWith (fun s x => ?_) ?_ | refine Eq.trans (core_foldF (fun s x => ?_) _ _) ?_ | refine Eq.trans (core_foldS (fun s x => ?_) _ _) ?_)
theorem State_holdTask_kept (x0) (x1) : (@State.holdTask x0 x1).core = x0.core := by
  unfold State.holdTask
  (repeat' first | with_reducible rfl | (intros; simp only [State_taskDropped_kept, keep_rules, ite_self, implies_true, core_fold, core_foldF, core_foldS]) | split | (rename _ = (_, _) => hh; obtain ⟨rfl, rfl⟩ := Prod.ext_iff.mp hh) | refine core_foldWith (fun s x => ?_) ?_ | refine Eq.trans (core_foldF (fun s x => ?_) _ _) ?_ | refine Eq.trans (core_foldS (fun s x => ?_) _ _) ?_)
theorem State_holdCkpt_kept (x0) : (@State.holdCkpt x0).core = x0.core := by
  unfold State.holdCkpt
  (repeat' first | with_reducible rfl | (intros; simp only [State_dropCkpt_kept, keep_rules, ite_self, implies_true, core_fold, core_foldF, core_foldS]) | split | (rename _ = (_, _) => hh; obtain ⟨rfl, rfl⟩ := Prod.ext_iff.mp hh) | refine core_foldWith (fun s x => ?_) ?_ | refine Eq.trans (core_foldF (fun s x => ?_) _ _) ?_ | refine Eq.trans (core_foldS (fun s x => ?_) _ _) ?_)
theorem State_finalGroup_kept (x0) : (@State.finalGroup x0).core = x0.core := by
  unfold State.finalGroup
  (repeat' first | with_reducible rfl | (intros; simp only [State_sizeRecs_kept, keep_rules, ite_self, implies_true, core_fold, core_foldF, core_foldS]) | split | (rename _ = (_, _) => hh; obtain ⟨rfl, rfl⟩ := Prod.ext_iff.mp hh) | refine core_foldWith (fun s x => ?_) ?_ | refine Eq.trans (core_foldF (fun s x => ?_) _ _) ?_ | refine Eq.trans (core_foldS (fun s x => ?_) _ _) ?_)
theorem State_powerSeal_kept (x0) : (@State.powerSeal x0).core = x0.core := by
  have h1 : ∀ (s : State), (s.updLedger fun g => { g with jobs := g.jobs.filter fun j => match j with | .chunk t .. => (s.task t).isSome | _ => true }).core = s.core := by
    intro s; simp only [State.updLedger, core_mk, core_eta]
  have h2 : ∀ (s : State), ({ s with lib := { s.lib with own := s.lib.own.filter fun o => o.task.elim true fun id => (s.task id).isSome } } : State).core = s.core := by
    intro s; simp only [core_mk, core_eta]
  unfold State.powerSeal
  split
  · rfl
  · dsimp only
    generalize hs : State.holdCkpt _ = s
    have h : s.core = x0.core := by
      rw [← hs]
      exact (State_holdCkpt_kept _).trans ((h1 _).trans ((h2 _).trans (core_fold (fun s t => State_holdTask_kept _ _) _ _)))
    split
    · simp only [State.updLedger, core_mk, core_eta, h]
    · simp only [State.updLedger, core_mk, core_eta, State_finalGroup_kept, State_stageHist_kept, h]
theorem execPwrWarnRecognised_kept (x0) : ∃ t, (@execPwrWarnRecognised x0) = .next t ∧ t.core = x0.core := by unfold execPwrWarnRecognised; (try dsimp only); (repeat' first | (split) | (rename _ = (_, _) => hh; obtain ⟨rfl, rfl⟩ := Prod.ext_iff.mp hh)) <;> exact ⟨_, rfl, by (repeat' first | with_reducible rfl | (intros; simp only [State_raiseNext_kept, State_powerSeal_kept, keep_rules, ite_self, implies_true, core_fold, core_foldF, core_foldS]) | split | (rename _ = (_, _) => hh; obtain ⟨rfl, rfl⟩ := Prod.ext_iff.mp hh) | refine core_foldWith (fun s x => ?_) ?_ | refine Eq.trans (core_foldF (fun s x => ?_) _ _) ?_ | refine Eq.trans (core_foldS (fun s x => ?_) _ _) ?_)⟩
theorem execPwrWarnPulseIgnored_kept (x0) : ∃ t, (@execPwrWarnPulseIgnored x0) = .next t ∧ t.core = x0.core := by unfold execPwrWarnPulseIgnored; exact ⟨_, rfl, by (repeat' first | with_reducible rfl | (intros; simp only [keep_rules, ite_self, implies_true, core_fold, core_foldF, core_foldS]) | split | (rename _ = (_, _) => hh; obtain ⟨rfl, rfl⟩ := Prod.ext_iff.mp hh) | refine core_foldWith (fun s x => ?_) ?_ | refine Eq.trans (core_foldF (fun s x => ?_) _ _) ?_ | refine Eq.trans (core_foldS (fun s x => ?_) _ _) ?_)⟩
theorem execPwrWarnDeassert_kept (x0) : ∃ t, (@execPwrWarnDeassert x0) = .next t ∧ t.core = x0.core := by unfold execPwrWarnDeassert; (try dsimp only); (repeat' first | (split) | (rename _ = (_, _) => hh; obtain ⟨rfl, rfl⟩ := Prod.ext_iff.mp hh)) <;> exact ⟨_, rfl, by (repeat' first | with_reducible rfl | (intros; simp only [keep_rules, ite_self, implies_true, core_fold, core_foldF, core_foldS]) | split | (rename _ = (_, _) => hh; obtain ⟨rfl, rfl⟩ := Prod.ext_iff.mp hh) | refine core_foldWith (fun s x => ?_) ?_ | refine Eq.trans (core_foldF (fun s x => ?_) _ _) ?_ | refine Eq.trans (core_foldS (fun s x => ?_) _ _) ?_)⟩
theorem State_holdAdmission_kept (x0) : (@State.holdAdmission x0).core = x0.core := by
  unfold State.holdAdmission
  (repeat' first | with_reducible rfl | (intros; simp only [State_stopAdmission_kept, keep_rules, ite_self, implies_true, core_fold, core_foldF, core_foldS]) | split | (rename _ = (_, _) => hh; obtain ⟨rfl, rfl⟩ := Prod.ext_iff.mp hh) | refine core_foldWith (fun s x => ?_) ?_ | refine Eq.trans (core_foldF (fun s x => ?_) _ _) ?_ | refine Eq.trans (core_foldS (fun s x => ?_) _ _) ?_)
theorem State_resumeRebinds_kept (x0) : (@State.resumeRebinds x0).core = x0.core := by
  unfold State.resumeRebinds
  (repeat' first | with_reducible rfl | (intros; simp only [State_rebindStop_kept, keep_rules, ite_self, implies_true, core_fold, core_foldF, core_foldS]) | split | (rename _ = (_, _) => hh; obtain ⟨rfl, rfl⟩ := Prod.ext_iff.mp hh) | refine core_foldWith (fun s x => ?_) ?_ | refine Eq.trans (core_foldF (fun s x => ?_) _ _) ?_ | refine Eq.trans (core_foldS (fun s x => ?_) _ _) ?_)
theorem execResumption_kept (x0) : ∃ t, (@execResumption x0) = .next t ∧ t.core = x0.core := by unfold execResumption; (try dsimp only); (repeat' first | (split) | (rename _ = (_, _) => hh; obtain ⟨rfl, rfl⟩ := Prod.ext_iff.mp hh)) <;> exact ⟨_, rfl, by (repeat' first | with_reducible rfl | (intros; simp only [State_stageHist_kept, State_powerEvent_kept, State_resumeRebinds_kept, State_resumeAll_kept, State_raiseNow_kept, keep_rules, ite_self, implies_true, core_fold, core_foldF, core_foldS]) | split | (rename _ = (_, _) => hh; obtain ⟨rfl, rfl⟩ := Prod.ext_iff.mp hh) | refine core_foldWith (fun s x => ?_) ?_ | refine Eq.trans (core_foldF (fun s x => ?_) _ _) ?_ | refine Eq.trans (core_foldS (fun s x => ?_) _ _) ?_)⟩
theorem State_seeEvent_kept (x0) (x1) (x2) : (@State.seeEvent x0 x1 x2).core = x0.core := by
  unfold State.seeEvent
  (repeat' first | with_reducible rfl | (intros; simp only [keep_rules, ite_self, implies_true, core_fold, core_foldF, core_foldS]) | split | (rename _ = (_, _) => hh; obtain ⟨rfl, rfl⟩ := Prod.ext_iff.mp hh) | refine core_foldWith (fun s x => ?_) ?_ | refine Eq.trans (core_foldF (fun s x => ?_) _ _) ?_ | refine Eq.trans (core_foldS (fun s x => ?_) _ _) ?_)
theorem State_endEvents_kept (x0) (x1) (x2) : (@State.endEvents x0 x1 x2).core = x0.core := by
  unfold State.endEvents
  (repeat' first | with_reducible rfl | (intros; simp only [State_powerEvent_kept, keep_rules, ite_self, implies_true, core_fold, core_foldF, core_foldS]) | split | (rename _ = (_, _) => hh; obtain ⟨rfl, rfl⟩ := Prod.ext_iff.mp hh) | refine core_foldWith (fun s x => ?_) ?_ | refine Eq.trans (core_foldF (fun s x => ?_) _ _) ?_ | refine Eq.trans (core_foldS (fun s x => ?_) _ _) ?_)
theorem State_setNominal_kept (x0) (x1) : (@State.setNominal x0 x1).core = x0.core := by
  unfold State.setNominal
  (repeat' first | with_reducible rfl | (intros; simp only [State_freeBool_kept, keep_rules, ite_self, implies_true, core_fold, core_foldF, core_foldS]) | split | (rename _ = (_, _) => hh; obtain ⟨rfl, rfl⟩ := Prod.ext_iff.mp hh) | refine core_foldWith (fun s x => ?_) ?_ | refine Eq.trans (core_foldF (fun s x => ?_) _ _) ?_ | refine Eq.trans (core_foldS (fun s x => ?_) _ _) ?_)
theorem State_shelfAnswer_kept (x0) (x1) : (@State.shelfAnswer x0 x1).core = x0.core := by
  unfold State.shelfAnswer
  (repeat' first | with_reducible rfl | (intros; simp only [State_read_kept, State_setNominal_kept, State_seeEvent_kept, State_endEvents_kept, keep_rules, ite_self, implies_true, core_fold, core_foldF, core_foldS]) | split | (rename _ = (_, _) => hh; obtain ⟨rfl, rfl⟩ := Prod.ext_iff.mp hh) | refine core_foldWith (fun s x => ?_) ?_ | refine Eq.trans (core_foldF (fun s x => ?_) _ _) ?_ | refine Eq.trans (core_foldS (fun s x => ?_) _ _) ?_)
theorem State_updShelf_kept (x0) (x1) (x2) : (@State.updShelf x0 x1 x2).core = x0.core := by
  unfold State.updShelf
  (repeat' first | with_reducible rfl | (intros; simp only [keep_rules, ite_self, implies_true, core_fold, core_foldF, core_foldS]) | split | (rename _ = (_, _) => hh; obtain ⟨rfl, rfl⟩ := Prod.ext_iff.mp hh) | refine core_foldWith (fun s x => ?_) ?_ | refine Eq.trans (core_foldF (fun s x => ?_) _ _) ?_ | refine Eq.trans (core_foldS (fun s x => ?_) _ _) ?_)
theorem State_shelfSilent_kept (x0) (x1) : (@State.shelfSilent x0 x1).core = x0.core := by
  unfold State.shelfSilent
  (repeat' first | with_reducible rfl | (intros; simp only [State_updShelf_kept, State_fault_kept, keep_rules, ite_self, implies_true, core_fold, core_foldF, core_foldS]) | split | (rename _ = (_, _) => hh; obtain ⟨rfl, rfl⟩ := Prod.ext_iff.mp hh) | refine core_foldWith (fun s x => ?_) ?_ | refine Eq.trans (core_foldF (fun s x => ?_) _ _) ?_ | refine Eq.trans (core_foldS (fun s x => ?_) _ _) ?_)
theorem execPmbusPoll_kept (x0) (x1) : ∃ t, (@execPmbusPoll x0 x1) = .next t ∧ t.core = x1.core := by unfold execPmbusPoll; (try dsimp only); (repeat' first | (split) | (rename _ = (_, _) => hh; obtain ⟨rfl, rfl⟩ := Prod.ext_iff.mp hh)) <;> exact ⟨_, rfl, by (repeat' first | with_reducible rfl | (intros; simp only [State_updShelf_kept, State_shelfAnswer_kept, State_shelfSilent_kept, keep_rules, ite_self, implies_true, core_fold, core_foldF, core_foldS]) | split | (rename _ = (_, _) => hh; obtain ⟨rfl, rfl⟩ := Prod.ext_iff.mp hh) | refine core_foldWith (fun s x => ?_) ?_ | refine Eq.trans (core_foldF (fun s x => ?_) _ _) ?_ | refine Eq.trans (core_foldS (fun s x => ?_) _ _) ?_)⟩
theorem execPmbusReprobe_kept (x0) (x1) (x2) : ∃ t, (@execPmbusReprobe x0 x1 x2) = .next t ∧ t.core = x2.core := by unfold execPmbusReprobe; exact ⟨_, rfl, by (repeat' first | with_reducible rfl | (intros; simp only [State_updShelf_kept, keep_rules, ite_self, implies_true, core_fold, core_foldF, core_foldS]) | split | (rename _ = (_, _) => hh; obtain ⟨rfl, rfl⟩ := Prod.ext_iff.mp hh) | refine core_foldWith (fun s x => ?_) ?_ | refine Eq.trans (core_foldF (fun s x => ?_) _ _) ?_ | refine Eq.trans (core_foldS (fun s x => ?_) _ _) ?_)⟩
theorem execPmbAlert_kept (x0) : ∃ t, (@execPmbAlert x0) = .next t ∧ t.core = x0.core := by unfold execPmbAlert; exact ⟨_, rfl, by (repeat' first | with_reducible rfl | (intros; simp only [keep_rules, ite_self, implies_true, core_fold, core_foldF, core_foldS]) | split | (rename _ = (_, _) => hh; obtain ⟨rfl, rfl⟩ := Prod.ext_iff.mp hh) | refine core_foldWith (fun s x => ?_) ?_ | refine Eq.trans (core_foldF (fun s x => ?_) _ _) ?_ | refine Eq.trans (core_foldS (fun s x => ?_) _ _) ?_)⟩
theorem State_senseHeat_kept (x0) (x1) : (@State.senseHeat x0 x1).core = x0.core := by
  unfold State.senseHeat
  (repeat' first | with_reducible rfl | (intros; simp only [keep_rules, ite_self, implies_true, core_fold, core_foldF, core_foldS]) | split | (rename _ = (_, _) => hh; obtain ⟨rfl, rfl⟩ := Prod.ext_iff.mp hh) | refine core_foldWith (fun s x => ?_) ?_ | refine Eq.trans (core_foldF (fun s x => ?_) _ _) ?_ | refine Eq.trans (core_foldS (fun s x => ?_) _ _) ?_)
theorem State_newTtc_kept (x0) : (@State.newTtc x0).core = x0.core := by
  unfold State.newTtc
  (repeat' first | with_reducible rfl | (intros; simp only [keep_rules, ite_self, implies_true, core_fold, core_foldF, core_foldS]) | split | (rename _ = (_, _) => hh; obtain ⟨rfl, rfl⟩ := Prod.ext_iff.mp hh) | refine core_foldWith (fun s x => ?_) ?_ | refine Eq.trans (core_foldF (fun s x => ?_) _ _) ?_ | refine Eq.trans (core_foldS (fun s x => ?_) _ _) ?_)
theorem State_sensePower_kept (x0) (x1) : (@State.sensePower x0 x1).core = x0.core := by
  unfold State.sensePower
  (repeat' first | with_reducible rfl | (intros; simp only [keep_rules, ite_self, implies_true, core_fold, core_foldF, core_foldS]) | split | (rename _ = (_, _) => hh; obtain ⟨rfl, rfl⟩ := Prod.ext_iff.mp hh) | refine core_foldWith (fun s x => ?_) ?_ | refine Eq.trans (core_foldF (fun s x => ?_) _ _) ?_ | refine Eq.trans (core_foldS (fun s x => ?_) _ _) ?_)
theorem execBudgetCeilingRise_kept (x0) : ∃ t, (@execBudgetCeilingRise x0) = .next t ∧ t.core = x0.core := by unfold execBudgetCeilingRise; exact ⟨_, rfl, by (repeat' first | with_reducible rfl | (intros; simp only [keep_rules, ite_self, implies_true, core_fold, core_foldF, core_foldS]) | split | (rename _ = (_, _) => hh; obtain ⟨rfl, rfl⟩ := Prod.ext_iff.mp hh) | refine core_foldWith (fun s x => ?_) ?_ | refine Eq.trans (core_foldF (fun s x => ?_) _ _) ?_ | refine Eq.trans (core_foldS (fun s x => ?_) _ _) ?_)⟩
theorem execThermalCeilingRise_kept (x0) : ∃ t, (@execThermalCeilingRise x0) = .next t ∧ t.core = x0.core := by unfold execThermalCeilingRise; (try dsimp only); (repeat' first | (split) | (rename _ = (_, _) => hh; obtain ⟨rfl, rfl⟩ := Prod.ext_iff.mp hh)) <;> exact ⟨_, rfl, by (repeat' first | with_reducible rfl | (intros; simp only [keep_rules, ite_self, implies_true, core_fold, core_foldF, core_foldS]) | split | (rename _ = (_, _) => hh; obtain ⟨rfl, rfl⟩ := Prod.ext_iff.mp hh) | refine core_foldWith (fun s x => ?_) ?_ | refine Eq.trans (core_foldF (fun s x => ?_) _ _) ?_ | refine Eq.trans (core_foldS (fun s x => ?_) _ _) ?_)⟩
theorem execClusterClockStep_kept (x0) : ∃ t, (@execClusterClockStep x0) = .next t ∧ t.core = x0.core := by unfold execClusterClockStep; (try dsimp only); (repeat' first | (split) | (rename _ = (_, _) => hh; obtain ⟨rfl, rfl⟩ := Prod.ext_iff.mp hh)) <;> exact ⟨_, rfl, by (repeat' first | with_reducible rfl | (intros; simp only [keep_rules, ite_self, implies_true, core_fold, core_foldF, core_foldS]) | split | (rename _ = (_, _) => hh; obtain ⟨rfl, rfl⟩ := Prod.ext_iff.mp hh) | refine core_foldWith (fun s x => ?_) ?_ | refine Eq.trans (core_foldF (fun s x => ?_) _ _) ?_ | refine Eq.trans (core_foldS (fun s x => ?_) _ _) ?_)⟩
theorem State_updEth_kept (x0) (x1) (x2) : (@State.updEth x0 x1 x2).core = x0.core := by
  unfold State.updEth
  (repeat' first | with_reducible rfl | (intros; simp only [keep_rules, ite_self, implies_true, core_fold, core_foldF, core_foldS]) | split | (rename _ = (_, _) => hh; obtain ⟨rfl, rfl⟩ := Prod.ext_iff.mp hh) | refine core_foldWith (fun s x => ?_) ?_ | refine Eq.trans (core_foldF (fun s x => ?_) _ _) ?_ | refine Eq.trans (core_foldS (fun s x => ?_) _ _) ?_)
theorem State_announceIp_kept (x0) (x1) : (@State.announceIp x0 x1).core = x0.core := by
  unfold State.announceIp
  (repeat' first | with_reducible rfl | (intros; simp only [State_updEth_kept, keep_rules, ite_self, implies_true, core_fold, core_foldF, core_foldS]) | split | (rename _ = (_, _) => hh; obtain ⟨rfl, rfl⟩ := Prod.ext_iff.mp hh) | refine core_foldWith (fun s x => ?_) ?_ | refine Eq.trans (core_foldF (fun s x => ?_) _ _) ?_ | refine Eq.trans (core_foldS (fun s x => ?_) _ _) ?_)
theorem execArpRequestRx_kept (x0) (x1) (x2) (x3) (x4) : ∃ t, (@execArpRequestRx x0 x1 x2 x3 x4) = .next t ∧ t.core = x4.core := by unfold execArpRequestRx; (try dsimp only); (repeat' first | (split) | (rename _ = (_, _) => hh; obtain ⟨rfl, rfl⟩ := Prod.ext_iff.mp hh)) <;> exact ⟨_, rfl, by (repeat' first | with_reducible rfl | (intros; simp only [State_updEth_kept, State_count_kept, keep_rules, ite_self, implies_true, core_fold, core_foldF, core_foldS]) | split | (rename _ = (_, _) => hh; obtain ⟨rfl, rfl⟩ := Prod.ext_iff.mp hh) | refine core_foldWith (fun s x => ?_) ?_ | refine Eq.trans (core_foldF (fun s x => ?_) _ _) ?_ | refine Eq.trans (core_foldS (fun s x => ?_) _ _) ?_)⟩
theorem State_sendHeld_kept (x0) (x1) : (@State.sendHeld x0 x1).core = x0.core := by
  unfold State.sendHeld
  (repeat' first | with_reducible rfl | (intros; simp only [State_putOcs_kept, keep_rules, ite_self, implies_true, core_fold, core_foldF, core_foldS]) | split | (rename _ = (_, _) => hh; obtain ⟨rfl, rfl⟩ := Prod.ext_iff.mp hh) | refine core_foldWith (fun s x => ?_) ?_ | refine Eq.trans (core_foldF (fun s x => ?_) _ _) ?_ | refine Eq.trans (core_foldS (fun s x => ?_) _ _) ?_)
theorem execArpReplyRx_kept (x0) (x1) (x2) (x3) : ∃ t, (@execArpReplyRx x0 x1 x2 x3) = .next t ∧ t.core = x3.core := by unfold execArpReplyRx; (try dsimp only); (repeat' first | (split) | (rename _ = (_, _) => hh; obtain ⟨rfl, rfl⟩ := Prod.ext_iff.mp hh)) <;> exact ⟨_, rfl, by (repeat' first | with_reducible rfl | (intros; simp only [State_updEth_kept, State_count_kept, State_sendHeld_kept, keep_rules, ite_self, implies_true, core_fold, core_foldF, core_foldS]) | split | (rename _ = (_, _) => hh; obtain ⟨rfl, rfl⟩ := Prod.ext_iff.mp hh) | refine core_foldWith (fun s x => ?_) ?_ | refine Eq.trans (core_foldF (fun s x => ?_) _ _) ?_ | refine Eq.trans (core_foldS (fun s x => ?_) _ _) ?_)⟩
theorem execEthFrameDiscard_kept (x0) (x1) (x2) (x3) : ∃ t, (@execEthFrameDiscard x0 x1 x2 x3) = .next t ∧ t.core = x3.core := by unfold execEthFrameDiscard; (try dsimp only); (repeat' first | (split) | (rename _ = (_, _) => hh; obtain ⟨rfl, rfl⟩ := Prod.ext_iff.mp hh)) <;> exact ⟨_, rfl, by (repeat' first | with_reducible rfl | (intros; simp only [State_updEth_kept, State_count_kept, State_updChan_kept, keep_rules, ite_self, implies_true, core_fold, core_foldF, core_foldS]) | split | (rename _ = (_, _) => hh; obtain ⟨rfl, rfl⟩ := Prod.ext_iff.mp hh) | refine core_foldWith (fun s x => ?_) ?_ | refine Eq.trans (core_foldF (fun s x => ?_) _ _) ?_ | refine Eq.trans (core_foldS (fun s x => ?_) _ _) ?_)⟩
theorem execEthLinkUp_kept (x0) (x1) : ∃ t, (@execEthLinkUp x0 x1) = .next t ∧ t.core = x1.core := by unfold execEthLinkUp; (try dsimp only); (repeat' first | (split) | (rename _ = (_, _) => hh; obtain ⟨rfl, rfl⟩ := Prod.ext_iff.mp hh)) <;> exact ⟨_, rfl, by (repeat' first | with_reducible rfl | (intros; simp only [State_updEth_kept, State_announceIp_kept, keep_rules, ite_self, implies_true, core_fold, core_foldF, core_foldS]) | split | (rename _ = (_, _) => hh; obtain ⟨rfl, rfl⟩ := Prod.ext_iff.mp hh) | refine core_foldWith (fun s x => ?_) ?_ | refine Eq.trans (core_foldF (fun s x => ?_) _ _) ?_ | refine Eq.trans (core_foldS (fun s x => ?_) _ _) ?_)⟩
theorem execArpEntryExpiry_kept (x0) (x1) (x2) : ∃ t, (@execArpEntryExpiry x0 x1 x2) = .next t ∧ t.core = x2.core := by unfold execArpEntryExpiry; (try dsimp only); (repeat' first | (split) | (rename _ = (_, _) => hh; obtain ⟨rfl, rfl⟩ := Prod.ext_iff.mp hh)) <;> exact ⟨_, rfl, by (repeat' first | with_reducible rfl | (intros; simp only [State_updEth_kept, keep_rules, ite_self, implies_true, core_fold, core_foldF, core_foldS]) | split | (rename _ = (_, _) => hh; obtain ⟨rfl, rfl⟩ := Prod.ext_iff.mp hh) | refine core_foldWith (fun s x => ?_) ?_ | refine Eq.trans (core_foldF (fun s x => ?_) _ _) ?_ | refine Eq.trans (core_foldS (fun s x => ?_) _ _) ?_)⟩
theorem execPortLinkEvent_kept (x0) (x1) (x2) : ∃ t, (@execPortLinkEvent x0 x1 x2) = .next t ∧ t.core = x2.core := by unfold execPortLinkEvent; exact ⟨_, rfl, by (repeat' first | with_reducible rfl | (intros; simp only [State_stage_kept, State_latch_kept, keep_rules, ite_self, implies_true, core_fold, core_foldF, core_foldS]) | split | (rename _ = (_, _) => hh; obtain ⟨rfl, rfl⟩ := Prod.ext_iff.mp hh) | refine core_foldWith (fun s x => ?_) ?_ | refine Eq.trans (core_foldF (fun s x => ?_) _ _) ?_ | refine Eq.trans (core_foldS (fun s x => ?_) _ _) ?_)⟩
theorem execLstTimerExpiry_kept (x0) (x1) : ∃ t, (@execLstTimerExpiry x0 x1) = .next t ∧ t.core = x1.core := by unfold execLstTimerExpiry; exact ⟨_, rfl, by (repeat' first | with_reducible rfl | (intros; simp only [State_updPort_kept, State_latch_kept, keep_rules, ite_self, implies_true, core_fold, core_foldF, core_foldS]) | split | (rename _ = (_, _) => hh; obtain ⟨rfl, rfl⟩ := Prod.ext_iff.mp hh) | refine core_foldWith (fun s x => ?_) ?_ | refine Eq.trans (core_foldF (fun s x => ?_) _ _) ?_ | refine Eq.trans (core_foldS (fun s x => ?_) _ _) ?_)⟩
theorem execElsAlarm_kept (x0) (x1) : ∃ t, (@execElsAlarm x0 x1) = .next t ∧ t.core = x1.core := by unfold execElsAlarm; exact ⟨_, rfl, by (repeat' first | with_reducible rfl | (intros; simp only [State_stage_kept, State_latch_kept, keep_rules, ite_self, implies_true, core_fold, core_foldF, core_foldS]) | split | (rename _ = (_, _) => hh; obtain ⟨rfl, rfl⟩ := Prod.ext_iff.mp hh) | refine core_foldWith (fun s x => ?_) ?_ | refine Eq.trans (core_foldF (fun s x => ?_) _ _) ?_ | refine Eq.trans (core_foldS (fun s x => ?_) _ _) ?_)⟩
theorem State_sendBeacon_kept (x0) (x1) : (@State.sendBeacon x0 x1).core = x0.core := by
  unfold State.sendBeacon
  (repeat' first | with_reducible rfl | (intros; simp only [State_ctlOn_kept, keep_rules, ite_self, implies_true, core_fold, core_foldF, core_foldS]) | split | (rename _ = (_, _) => hh; obtain ⟨rfl, rfl⟩ := Prod.ext_iff.mp hh) | refine core_foldWith (fun s x => ?_) ?_ | refine Eq.trans (core_foldF (fun s x => ?_) _ _) ?_ | refine Eq.trans (core_foldS (fun s x => ?_) _ _) ?_)
theorem State_linkBeacons_kept (x0) : (@State.linkBeacons x0).core = x0.core := by
  unfold State.linkBeacons
  (repeat' first | with_reducible rfl | (intros; simp only [State_sendBeacon_kept, keep_rules, ite_self, implies_true, core_fold, core_foldF, core_foldS]) | split | (rename _ = (_, _) => hh; obtain ⟨rfl, rfl⟩ := Prod.ext_iff.mp hh) | refine core_foldWith (fun s x => ?_) ?_ | refine Eq.trans (core_foldF (fun s x => ?_) _ _) ?_ | refine Eq.trans (core_foldS (fun s x => ?_) _ _) ?_)
theorem State_degradePort_kept (x0) (x1) : (@State.degradePort x0 x1).core = x0.core := by
  unfold State.degradePort
  (repeat' first | with_reducible rfl | (intros; simp only [State_updPort_kept, State_setDegraded_kept, keep_rules, ite_self, implies_true, core_fold, core_foldF, core_foldS]) | split | (rename _ = (_, _) => hh; obtain ⟨rfl, rfl⟩ := Prod.ext_iff.mp hh) | refine core_foldWith (fun s x => ?_) ?_ | refine Eq.trans (core_foldF (fun s x => ?_) _ _) ?_ | refine Eq.trans (core_foldS (fun s x => ?_) _ _) ?_)
theorem State_enterLst_kept (x0) (x1) (x2) : (@State.enterLst x0 x1 x2).core = x0.core := by
  unfold State.enterLst
  (repeat' first | with_reducible rfl | (intros; simp only [State_updPort_kept, State_degradePort_kept, keep_rules, ite_self, implies_true, core_fold, core_foldF, core_foldS]) | split | (rename _ = (_, _) => hh; obtain ⟨rfl, rfl⟩ := Prod.ext_iff.mp hh) | refine core_foldWith (fun s x => ?_) ?_ | refine Eq.trans (core_foldF (fun s x => ?_) _ _) ?_ | refine Eq.trans (core_foldS (fun s x => ?_) _ _) ?_)
theorem State_lstApply_kept (x0) (x1) (x2) : (@State.lstApply x0 x1 x2).core = x0.core := by
  unfold State.lstApply
  (repeat' first | with_reducible rfl | (intros; simp only [State_enterLst_kept, State_sendBeacon_kept, State_count_kept, State_suspect_kept, State_fault_kept, State_raiseNext_kept, keep_rules, ite_self, implies_true, core_fold, core_foldF, core_foldS]) | split | (rename _ = (_, _) => hh; obtain ⟨rfl, rfl⟩ := Prod.ext_iff.mp hh) | refine core_foldWith (fun s x => ?_) ?_ | refine Eq.trans (core_foldF (fun s x => ?_) _ _) ?_ | refine Eq.trans (core_foldS (fun s x => ?_) _ _) ?_)
theorem State_lstRun_kept (x0) (x1) (x2) (x3) : (@State.lstRun x0 x1 x2 x3).core = x0.core := by
  induction x2 generalizing x0 x3 with
  | nil => simp only [State.lstRun, State_updPort_kept]
  | cons a l ih =>
    cases x3 with
    | zero => simp only [State.lstRun, State_updPort_kept]
    | succ n => exact (ih _ _).trans (State_lstApply_kept _ _ _)
theorem State_recoverPort_kept (x0) (x1) : (@State.recoverPort x0 x1).core = x0.core := by
  unfold State.recoverPort
  (repeat' first | with_reducible rfl | (intros; simp only [State_suspect_kept, State_updPort_kept, State_setDegraded_kept, State_fault_kept, keep_rules, ite_self, implies_true, core_fold, core_foldF, core_foldS]) | split | (rename _ = (_, _) => hh; obtain ⟨rfl, rfl⟩ := Prod.ext_iff.mp hh) | refine core_foldWith (fun s x => ?_) ?_ | refine Eq.trans (core_foldF (fun s x => ?_) _ _) ?_ | refine Eq.trans (core_foldS (fun s x => ?_) _ _) ?_)
theorem State_lstPort_kept (x0) (x1) : (@State.lstPort x0 x1).core = x0.core := by
  unfold State.lstPort
  (repeat' first | with_reducible rfl | (intros; simp only [State_lstRun_kept, State_recoverPort_kept, State_suspect_kept, State_raiseNext_kept, State_updPort_kept, keep_rules, ite_self, implies_true, core_fold, core_foldF, core_foldS]) | split | (rename _ = (_, _) => hh; obtain ⟨rfl, rfl⟩ := Prod.ext_iff.mp hh) | refine core_foldWith (fun s x => ?_) ?_ | refine Eq.trans (core_foldF (fun s x => ?_) _ _) ?_ | refine Eq.trans (core_foldS (fun s x => ?_) _ _) ?_)
theorem State_lstAll_kept (x0) : (@State.lstAll x0).core = x0.core := by
  unfold State.lstAll
  (repeat' first | with_reducible rfl | (intros; simp only [State_stage_kept, State_lstPort_kept, keep_rules, ite_self, implies_true, core_fold, core_foldF, core_foldS]) | split | (rename _ = (_, _) => hh; obtain ⟨rfl, rfl⟩ := Prod.ext_iff.mp hh) | refine core_foldWith (fun s x => ?_) ?_ | refine Eq.trans (core_foldF (fun s x => ?_) _ _) ?_ | refine Eq.trans (core_foldS (fun s x => ?_) _ _) ?_)
theorem State_newLst_kept (x0) : (@State.newLst x0).core = x0.core := by
  unfold State.newLst
  (repeat' first | with_reducible rfl | (intros; simp only [keep_rules, ite_self, implies_true, core_fold, core_foldF, core_foldS]) | split | (rename _ = (_, _) => hh; obtain ⟨rfl, rfl⟩ := Prod.ext_iff.mp hh) | refine core_foldWith (fun s x => ?_) ?_ | refine Eq.trans (core_foldF (fun s x => ?_) _ _) ?_ | refine Eq.trans (core_foldS (fun s x => ?_) _ _) ?_)
theorem State_disablePort_kept (x0) (x1) : (@State.disablePort x0 x1).core = x0.core := by
  unfold State.disablePort
  (repeat' first | with_reducible rfl | (intros; simp only [State_updPort_kept, keep_rules, ite_self, implies_true, core_fold, core_foldF, core_foldS]) | split | (rename _ = (_, _) => hh; obtain ⟨rfl, rfl⟩ := Prod.ext_iff.mp hh) | refine core_foldWith (fun s x => ?_) ?_ | refine Eq.trans (core_foldF (fun s x => ?_) _ _) ?_ | refine Eq.trans (core_foldS (fun s x => ?_) _ _) ?_)
theorem State_enableEvents_kept (x0) (x1) : (@State.enableEvents x0 x1).core = x0.core := by
  unfold State.enableEvents
  (repeat' first | with_reducible rfl | (intros; simp only [State_latch_kept, State_disablePort_kept, keep_rules, ite_self, implies_true, core_fold, core_foldF, core_foldS]) | split | (rename _ = (_, _) => hh; obtain ⟨rfl, rfl⟩ := Prod.ext_iff.mp hh) | refine core_foldWith (fun s x => ?_) ?_ | refine Eq.trans (core_foldF (fun s x => ?_) _ _) ?_ | refine Eq.trans (core_foldS (fun s x => ?_) _ _) ?_)
theorem State_dropMasked_kept (x0) : (@State.dropMasked x0).core = x0.core := by
  unfold State.dropMasked
  (repeat' first | with_reducible rfl | (intros; simp only [State_updPort_kept, State_count_kept, keep_rules, ite_self, implies_true, core_fold, core_foldF, core_foldS]) | split | (rename _ = (_, _) => hh; obtain ⟨rfl, rfl⟩ := Prod.ext_iff.mp hh) | refine core_foldWith (fun s x => ?_) ?_ | refine Eq.trans (core_foldF (fun s x => ?_) _ _) ?_ | refine Eq.trans (core_foldS (fun s x => ?_) _ _) ?_)
theorem State_fecEvents_kept (x0) : (@State.fecEvents x0).core = x0.core := by
  unfold State.fecEvents
  (repeat' first | with_reducible rfl | (intros; simp only [State_latch_kept, State_updPort_kept, keep_rules, ite_self, implies_true, core_fold, core_foldF, core_foldS]) | split | (rename _ = (_, _) => hh; obtain ⟨rfl, rfl⟩ := Prod.ext_iff.mp hh) | refine core_foldWith (fun s x => ?_) ?_ | refine Eq.trans (core_foldF (fun s x => ?_) _ _) ?_ | refine Eq.trans (core_foldS (fun s x => ?_) _ _) ?_)
theorem hDiagLoop_kept (x0) (x1) : (@hDiagLoop x0 x1).1.core = x1.core := by
  unfold hDiagLoop
  (repeat' first | with_reducible rfl | (intros; simp only [refuse_kept, multi_kept, State_updPort_kept, keep_rules, ite_self, implies_true, core_fold, core_foldF, core_foldS]) | split | (rename _ = (_, _) => hh; obtain ⟨rfl, rfl⟩ := Prod.ext_iff.mp hh) | refine core_foldWith (fun s x => ?_) ?_ | refine Eq.trans (core_foldF (fun s x => ?_) _ _) ?_ | refine Eq.trans (core_foldS (fun s x => ?_) _ _) ?_)
theorem execDiagLoop_kept (x0) (x1) : ∃ t, (@execDiagLoop x0 x1) = .next t ∧ t.core = x1.core := by unfold execDiagLoop; exact ⟨_, rfl, by (repeat' first | with_reducible rfl | (intros; simp only [State_present_kept, hDiagLoop_kept, keep_rules, ite_self, implies_true, core_fold, core_foldF, core_foldS]) | split | (rename _ = (_, _) => hh; obtain ⟨rfl, rfl⟩ := Prod.ext_iff.mp hh) | refine core_foldWith (fun s x => ?_) ?_ | refine Eq.trans (core_foldF (fun s x => ?_) _ _) ?_ | refine Eq.trans (core_foldS (fun s x => ?_) _ _) ?_)⟩
theorem State_boundaryLoop_kept (x0) (x1) : (@State.boundaryLoop x0 x1).core = x0.core := by
  unfold State.boundaryLoop
  (repeat' first | with_reducible rfl | (intros; simp only [State_updTask_kept, State_freeBytes_kept, State_updPort_kept, State_endTask_kept, keep_rules, ite_self, implies_true, core_fold, core_foldF, core_foldS]) | split | (rename _ = (_, _) => hh; obtain ⟨rfl, rfl⟩ := Prod.ext_iff.mp hh) | refine core_foldWith (fun s x => ?_) ?_ | refine Eq.trans (core_foldF (fun s x => ?_) _ _) ?_ | refine Eq.trans (core_foldS (fun s x => ?_) _ _) ?_)
theorem State_freeSample_kept (x0) : (@State.freeSample x0).2.core = x0.core := by
  unfold State.freeSample
  (repeat' first | with_reducible rfl | (intros; simp only [State_freeNat_kept, keep_rules, ite_self, implies_true, core_fold, core_foldF, core_foldS]) | split | (rename _ = (_, _) => hh; obtain ⟨rfl, rfl⟩ := Prod.ext_iff.mp hh) | refine core_foldWith (fun s x => ?_) ?_ | refine Eq.trans (core_foldF (fun s x => ?_) _ _) ?_ | refine Eq.trans (core_foldS (fun s x => ?_) _ _) ?_)
theorem resetReference_kept (x0) (x1) : (@resetReference x0 x1).1.core = x1.core := by
  unfold resetReference
  (repeat' first | with_reducible rfl | (intros; simp only [refuse_kept, State_freeSample_kept, durable_kept, State_stageHist_kept, keep_rules, ite_self, implies_true, core_fold, core_foldF, core_foldS]) | split | (rename _ = (_, _) => hh; obtain ⟨rfl, rfl⟩ := Prod.ext_iff.mp hh) | refine core_foldWith (fun s x => ?_) ?_ | refine Eq.trans (core_foldF (fun s x => ?_) _ _) ?_ | refine Eq.trans (core_foldS (fun s x => ?_) _ _) ?_)
theorem hDiagLane_kept (x0) (x1) : (@hDiagLane x0 x1).1.core = x1.core := by
  unfold hDiagLane
  (repeat' first | with_reducible rfl | (intros; simp only [refuse_kept, resetReference_kept, multi_kept, keep_rules, ite_self, implies_true, core_fold, core_foldF, core_foldS]) | split | (rename _ = (_, _) => hh; obtain ⟨rfl, rfl⟩ := Prod.ext_iff.mp hh) | refine core_foldWith (fun s x => ?_) ?_ | refine Eq.trans (core_foldF (fun s x => ?_) _ _) ?_ | refine Eq.trans (core_foldS (fun s x => ?_) _ _) ?_)
theorem execDiagLaneMeasure_kept (x0) (x1) : ∃ t, (@execDiagLaneMeasure x0 x1) = .next t ∧ t.core = x1.core := by unfold execDiagLaneMeasure; exact ⟨_, rfl, by (repeat' first | with_reducible rfl | (intros; simp only [State_present_kept, hDiagLane_kept, keep_rules, ite_self, implies_true, core_fold, core_foldF, core_foldS]) | split | (rename _ = (_, _) => hh; obtain ⟨rfl, rfl⟩ := Prod.ext_iff.mp hh) | refine core_foldWith (fun s x => ?_) ?_ | refine Eq.trans (core_foldF (fun s x => ?_) _ _) ?_ | refine Eq.trans (core_foldS (fun s x => ?_) _ _) ?_)⟩
theorem execDiagLaneResetReference_kept (x0) (x1) : ∃ t, (@execDiagLaneResetReference x0 x1) = .next t ∧ t.core = x1.core := by unfold execDiagLaneResetReference; exact ⟨_, rfl, by (repeat' first | with_reducible rfl | (intros; simp only [State_present_kept, hDiagLane_kept, keep_rules, ite_self, implies_true, core_fold, core_foldF, core_foldS]) | split | (rename _ = (_, _) => hh; obtain ⟨rfl, rfl⟩ := Prod.ext_iff.mp hh) | refine core_foldWith (fun s x => ?_) ?_ | refine Eq.trans (core_foldF (fun s x => ?_) _ _) ?_ | refine Eq.trans (core_foldS (fun s x => ?_) _ _) ?_)⟩
theorem execScheduledDiagLane_kept (x0) (x1) : ∃ t, (@execScheduledDiagLane x0 x1) = .next t ∧ t.core = x1.core := by unfold execScheduledDiagLane; (try dsimp only); (repeat' first | (split) | (rename _ = (_, _) => hh; obtain ⟨rfl, rfl⟩ := Prod.ext_iff.mp hh)) <;> exact ⟨_, rfl, by (repeat' first | with_reducible rfl | (intros; simp only [keep_rules, ite_self, implies_true, core_fold, core_foldF, core_foldS]) | split | (rename _ = (_, _) => hh; obtain ⟨rfl, rfl⟩ := Prod.ext_iff.mp hh) | refine core_foldWith (fun s x => ?_) ?_ | refine Eq.trans (core_foldF (fun s x => ?_) _ _) ?_ | refine Eq.trans (core_foldS (fun s x => ?_) _ _) ?_)⟩
theorem State_laneFailed_kept (x0) (x1) : (@State.laneFailed x0 x1).core = x0.core := by
  unfold State.laneFailed
  (repeat' first | with_reducible rfl | (intros; simp only [State_fault_kept, State_degradePort_kept, keep_rules, ite_self, implies_true, core_fold, core_foldF, core_foldS]) | split | (rename _ = (_, _) => hh; obtain ⟨rfl, rfl⟩ := Prod.ext_iff.mp hh) | refine core_foldWith (fun s x => ?_) ?_ | refine Eq.trans (core_foldF (fun s x => ?_) _ _) ?_ | refine Eq.trans (core_foldS (fun s x => ?_) _ _) ?_)
theorem execDiagLaneEnd_kept (x0) (x1) (x2) (x3) (x4) : ∃ t, (@execDiagLaneEnd x0 x1 x2 x3 x4) = .next t ∧ t.core = x4.core := by unfold execDiagLaneEnd; (try dsimp only); (repeat' first | (split) | (rename _ = (_, _) => hh; obtain ⟨rfl, rfl⟩ := Prod.ext_iff.mp hh)) <;> exact ⟨_, rfl, by (repeat' first | with_reducible rfl | (intros; simp only [State_updPort_kept, State_raiseNext_kept, State_laneFailed_kept, State_endTask_kept, keep_rules, ite_self, implies_true, core_fold, core_foldF, core_foldS]) | split | (rename _ = (_, _) => hh; obtain ⟨rfl, rfl⟩ := Prod.ext_iff.mp hh) | refine core_foldWith (fun s x => ?_) ?_ | refine Eq.trans (core_foldF (fun s x => ?_) _ _) ?_ | refine Eq.trans (core_foldS (fun s x => ?_) _ _) ?_)⟩
theorem State_announcePeriod_kept (x0) (x1) (x2) : (@State.announcePeriod x0 x1 x2).core = x0.core := by
  unfold State.announcePeriod
  (repeat' first | with_reducible rfl | (intros; simp only [State_sendCtls_kept, keep_rules, ite_self, implies_true, core_fold, core_foldF, core_foldS]) | split | (rename _ = (_, _) => hh; obtain ⟨rfl, rfl⟩ := Prod.ext_iff.mp hh) | refine core_foldWith (fun s x => ?_) ?_ | refine Eq.trans (core_foldF (fun s x => ?_) _ _) ?_ | refine Eq.trans (core_foldS (fun s x => ?_) _ _) ?_)
theorem State_newPeriod_kept (x0) (x1) : (@State.newPeriod x0 x1).core = x0.core := by
  unfold State.newPeriod
  (repeat' first | with_reducible rfl | (intros; simp only [State_freeNat_kept, State_announcePeriod_kept, keep_rules, ite_self, implies_true, core_fold, core_foldF, core_foldS]) | split | (rename _ = (_, _) => hh; obtain ⟨rfl, rfl⟩ := Prod.ext_iff.mp hh) | refine core_foldWith (fun s x => ?_) ?_ | refine Eq.trans (core_foldF (fun s x => ?_) _ _) ?_ | refine Eq.trans (core_foldS (fun s x => ?_) _ _) ?_)
theorem State_announceMerge_kept (x0) (x1) : (@State.announceMerge x0 x1).core = x0.core := by
  unfold State.announceMerge
  (repeat' first | with_reducible rfl | (intros; simp only [State_freeNat_kept, keep_rules, ite_self, implies_true, core_fold, core_foldF, core_foldS]) | split | (rename _ = (_, _) => hh; obtain ⟨rfl, rfl⟩ := Prod.ext_iff.mp hh) | refine core_foldWith (fun s x => ?_) ?_ | refine Eq.trans (core_foldF (fun s x => ?_) _ _) ?_ | refine Eq.trans (core_foldS (fun s x => ?_) _ _) ?_)
theorem State_leads_kept (x0) : (@State.leads x0).core = x0.core := by
  unfold State.leads
  (repeat' first | with_reducible rfl | (intros; simp only [State_newPeriod_kept, keep_rules, ite_self, implies_true, core_fold, core_foldF, core_foldS]) | split | (rename _ = (_, _) => hh; obtain ⟨rfl, rfl⟩ := Prod.ext_iff.mp hh) | refine core_foldWith (fun s x => ?_) ?_ | refine Eq.trans (core_foldF (fun s x => ?_) _ _) ?_ | refine Eq.trans (core_foldS (fun s x => ?_) _ _) ?_)
theorem State_elect_kept (x0) : (@State.elect x0).core = x0.core := by
  unfold State.elect
  (repeat' first | with_reducible rfl | (intros; simp only [State_announceMerge_kept, State_leads_kept, keep_rules, ite_self, implies_true, core_fold, core_foldF, core_foldS]) | split | (rename _ = (_, _) => hh; obtain ⟨rfl, rfl⟩ := Prod.ext_iff.mp hh) | refine core_foldWith (fun s x => ?_) ?_ | refine Eq.trans (core_foldF (fun s x => ?_) _ _) ?_ | refine Eq.trans (core_foldS (fun s x => ?_) _ _) ?_)
theorem State_periodDiffers_kept (x0) : (@State.periodDiffers x0).core = x0.core := by
  unfold State.periodDiffers
  (repeat' first | with_reducible rfl | (intros; simp only [State_mapTo_kept, keep_rules, ite_self, implies_true, core_fold, core_foldF, core_foldS]) | split | (rename _ = (_, _) => hh; obtain ⟨rfl, rfl⟩ := Prod.ext_iff.mp hh) | refine core_foldWith (fun s x => ?_) ?_ | refine Eq.trans (core_foldF (fun s x => ?_) _ _) ?_ | refine Eq.trans (core_foldS (fun s x => ?_) _ _) ?_)
theorem State_adopt_kept (x0) (x1) (x2) : (@State.adopt x0 x1 x2).core = x0.core := by
  unfold State.adopt
  (repeat' first | with_reducible rfl | (intros; simp only [State_announcePeriod_kept, State_sendCtls_kept, keep_rules, ite_self, implies_true, core_fold, core_foldF, core_foldS]) | split | (rename _ = (_, _) => hh; obtain ⟨rfl, rfl⟩ := Prod.ext_iff.mp hh) | refine core_foldWith (fun s x => ?_) ?_ | refine Eq.trans (core_foldF (fun s x => ?_) _ _) ?_ | refine Eq.trans (core_foldS (fun s x => ?_) _ _) ?_)
theorem State_adoptJump_kept (x0) (x1) (x2) : (@State.adoptJump x0 x1 x2).core = x0.core := by
  unfold State.adoptJump
  (repeat' first | with_reducible rfl | (intros; simp only [keep_rules, ite_self, implies_true, core_fold, core_foldF, core_foldS]) | split | (rename _ = (_, _) => hh; obtain ⟨rfl, rfl⟩ := Prod.ext_iff.mp hh) | refine core_foldWith (fun s x => ?_) ?_ | refine Eq.trans (core_foldF (fun s x => ?_) _ _) ?_ | refine Eq.trans (core_foldS (fun s x => ?_) _ _) ?_)
theorem State_meetJoiner_kept (x0) (x1) : (@State.meetJoiner x0 x1).core = x0.core := by
  unfold State.meetJoiner
  (repeat' first | with_reducible rfl | (intros; simp only [State_freeNat_kept, keep_rules, ite_self, implies_true, core_fold, core_foldF, core_foldS]) | split | (rename _ = (_, _) => hh; obtain ⟨rfl, rfl⟩ := Prod.ext_iff.mp hh) | refine core_foldWith (fun s x => ?_) ?_ | refine Eq.trans (core_foldF (fun s x => ?_) _ _) ?_ | refine Eq.trans (core_foldS (fun s x => ?_) _ _) ?_)
theorem State_tickBeacon_kept (x0) (x1) (x2) (x3) (x4) : (@State.tickBeacon x0 x1 x2 x3 x4).core = x0.core := by
  unfold State.tickBeacon
  (repeat' first | with_reducible rfl | (intros; simp only [State_updPort_kept, State_mapTo_kept, State_elect_kept, State_meetJoiner_kept, State_adoptJump_kept, State_adopt_kept, State_periodDiffers_kept, keep_rules, ite_self, implies_true, core_fold, core_foldF, core_foldS]) | split | (rename _ = (_, _) => hh; obtain ⟨rfl, rfl⟩ := Prod.ext_iff.mp hh) | refine core_foldWith (fun s x => ?_) ?_ | refine Eq.trans (core_foldF (fun s x => ?_) _ _) ?_ | refine Eq.trans (core_foldS (fun s x => ?_) _ _) ?_)
theorem execTickBeaconRx_kept (x0) (x1) (x2) (x3) (x4) : ∃ t, (@execTickBeaconRx x0 x1 x2 x3 x4) = .next t ∧ t.core = x4.core := ⟨_, rfl, State_ctlRx_kept _ _ _ _ _ _ _ (fun s c b t h => by cases h; exact State_tickBeacon_kept _ _ _ _ _)⟩
theorem State_tickBeacons_kept (x0) : (@State.tickBeacons x0).core = x0.core := by
  unfold State.tickBeacons
  (repeat' first | with_reducible rfl | (intros; simp only [State_ctlOn_kept, keep_rules, ite_self, implies_true, core_fold, core_foldF, core_foldS]) | split | (rename _ = (_, _) => hh; obtain ⟨rfl, rfl⟩ := Prod.ext_iff.mp hh) | refine core_foldWith (fun s x => ?_) ?_ | refine Eq.trans (core_foldF (fun s x => ?_) _ _) ?_ | refine Eq.trans (core_foldS (fun s x => ?_) _ _) ?_)
theorem execLeaderTimeout_kept (x0) : ∃ t, (@execLeaderTimeout x0) = .next t ∧ t.core = x0.core := by unfold execLeaderTimeout; exact ⟨_, rfl, by (repeat' first | with_reducible rfl | (intros; simp only [State_elect_kept, keep_rules, ite_self, implies_true, core_fold, core_foldF, core_foldS]) | split | (rename _ = (_, _) => hh; obtain ⟨rfl, rfl⟩ := Prod.ext_iff.mp hh) | refine core_foldWith (fun s x => ?_) ?_ | refine Eq.trans (core_foldF (fun s x => ?_) _ _) ?_ | refine Eq.trans (core_foldS (fun s x => ?_) _ _) ?_)⟩
theorem State_rejoined_kept (x0) : (@State.rejoined x0).core = x0.core := by
  unfold State.rejoined
  (repeat' first | with_reducible rfl | (intros; simp only [State_setDegraded_kept, State_fault_kept, keep_rules, ite_self, implies_true, core_fold, core_foldF, core_foldS]) | split | (rename _ = (_, _) => hh; obtain ⟨rfl, rfl⟩ := Prod.ext_iff.mp hh) | refine core_foldWith (fun s x => ?_) ?_ | refine Eq.trans (core_foldF (fun s x => ?_) _ _) ?_ | refine Eq.trans (core_foldS (fun s x => ?_) _ _) ?_)
theorem State_joinStep_kept (x0) (x1) (x2) (x3) : (@State.joinStep x0 x1 x2 x3).core = x0.core := by
  unfold State.joinStep
  (repeat' first | with_reducible rfl | (intros; simp only [State_sendCtls_kept, State_announceAll_kept, State_rejoined_kept, keep_rules, ite_self, implies_true, core_fold, core_foldF, core_foldS]) | split | (rename _ = (_, _) => hh; obtain ⟨rfl, rfl⟩ := Prod.ext_iff.mp hh) | refine core_foldWith (fun s x => ?_) ?_ | refine Eq.trans (core_foldF (fun s x => ?_) _ _) ?_ | refine Eq.trans (core_foldS (fun s x => ?_) _ _) ?_)
theorem execJoinStep_kept (x0) (x1) (x2) (x3) : ∃ t, (@execJoinStep x0 x1 x2 x3) = .next t ∧ t.core = x3.core := by unfold execJoinStep; (try dsimp only); (repeat' first | (split) | (rename _ = (_, _) => hh; obtain ⟨rfl, rfl⟩ := Prod.ext_iff.mp hh)) <;> exact ⟨_, rfl, by (repeat' first | with_reducible rfl | (intros; simp only [State_joinStep_kept, keep_rules, ite_self, implies_true, core_fold, core_foldF, core_foldS]) | split | (rename _ = (_, _) => hh; obtain ⟨rfl, rfl⟩ := Prod.ext_iff.mp hh) | refine core_foldWith (fun s x => ?_) ?_ | refine Eq.trans (core_foldF (fun s x => ?_) _ _) ?_ | refine Eq.trans (core_foldS (fun s x => ?_) _ _) ?_)⟩
theorem execIndexJump_kept (x0) : ∃ t, (@execIndexJump x0) = .next t ∧ t.core = x0.core := by unfold execIndexJump; (try dsimp only); (repeat' first | (split) | (rename _ = (_, _) => hh; obtain ⟨rfl, rfl⟩ := Prod.ext_iff.mp hh)) <;> exact ⟨_, rfl, by (repeat' first | with_reducible rfl | (intros; simp only [keep_rules, ite_self, implies_true, core_fold, core_foldF, core_foldS]) | split | (rename _ = (_, _) => hh; obtain ⟨rfl, rfl⟩ := Prod.ext_iff.mp hh) | refine core_foldWith (fun s x => ?_) ?_ | refine Eq.trans (core_foldF (fun s x => ?_) _ _) ?_ | refine Eq.trans (core_foldS (fun s x => ?_) _ _) ?_)⟩
theorem execPeriodSwitch_kept (x0) : ∃ t, (@execPeriodSwitch x0) = .next t ∧ t.core = x0.core := by unfold execPeriodSwitch; (try dsimp only); (repeat' first | (split) | (rename _ = (_, _) => hh; obtain ⟨rfl, rfl⟩ := Prod.ext_iff.mp hh)) <;> exact ⟨_, rfl, by (repeat' first | with_reducible rfl | (intros; simp only [keep_rules, ite_self, implies_true, core_fold, core_foldF, core_foldS]) | split | (rename _ = (_, _) => hh; obtain ⟨rfl, rfl⟩ := Prod.ext_iff.mp hh) | refine core_foldWith (fun s x => ?_) ?_ | refine Eq.trans (core_foldF (fun s x => ?_) _ _) ?_ | refine Eq.trans (core_foldS (fun s x => ?_) _ _) ?_)⟩
theorem execAlignmentLost_kept (x0) : ∃ t, (@execAlignmentLost x0) = .next t ∧ t.core = x0.core := by unfold execAlignmentLost; (try dsimp only); (repeat' first | (split) | (rename _ = (_, _) => hh; obtain ⟨rfl, rfl⟩ := Prod.ext_iff.mp hh)) <;> exact ⟨_, rfl, by (repeat' first | with_reducible rfl | (intros; simp only [State_lasting_kept, State_failOp_kept, State_suspect_kept, State_leads_kept, keep_rules, ite_self, implies_true, core_fold, core_foldF, core_foldS]) | split | (rename _ = (_, _) => hh; obtain ⟨rfl, rfl⟩ := Prod.ext_iff.mp hh) | refine core_foldWith (fun s x => ?_) ?_ | refine Eq.trans (core_foldF (fun s x => ?_) _ _) ?_ | refine Eq.trans (core_foldS (fun s x => ?_) _ _) ?_)⟩
theorem execFsyncEdge_kept (x0) (x1) : ∃ t, (@execFsyncEdge x0 x1) = .next t ∧ t.core = x1.core := by unfold execFsyncEdge; (try dsimp only); (repeat' first | (split) | (rename _ = (_, _) => hh; obtain ⟨rfl, rfl⟩ := Prod.ext_iff.mp hh)) <;> exact ⟨_, rfl, by (repeat' first | with_reducible rfl | (intros; simp only [keep_rules, ite_self, implies_true, core_fold, core_foldF, core_foldS]) | split | (rename _ = (_, _) => hh; obtain ⟨rfl, rfl⟩ := Prod.ext_iff.mp hh) | refine core_foldWith (fun s x => ?_) ?_ | refine Eq.trans (core_foldF (fun s x => ?_) _ _) ?_ | refine Eq.trans (core_foldS (fun s x => ?_) _ _) ?_)⟩
theorem State_slewOnce_kept (x0) : (@State.slewOnce x0).core = x0.core := by
  unfold State.slewOnce
  (repeat' first | with_reducible rfl | (intros; simp only [keep_rules, ite_self, implies_true, core_fold, core_foldF, core_foldS]) | split | (rename _ = (_, _) => hh; obtain ⟨rfl, rfl⟩ := Prod.ext_iff.mp hh) | refine core_foldWith (fun s x => ?_) ?_ | refine Eq.trans (core_foldF (fun s x => ?_) _ _) ?_ | refine Eq.trans (core_foldS (fun s x => ?_) _ _) ?_)
theorem execLibraryClaimRx_kept (x0) (x1) (x2) : ∃ t, (@execLibraryClaimRx x0 x1 x2) = .next t ∧ t.core = x2.core := by unfold execLibraryClaimRx; exact ⟨_, rfl, by (repeat' first | with_reducible rfl | (intros; simp only [keep_rules, ite_self, implies_true, core_fold, core_foldF, core_foldS]) | split | (rename _ = (_, _) => hh; obtain ⟨rfl, rfl⟩ := Prod.ext_iff.mp hh) | refine core_foldWith (fun s x => ?_) ?_ | refine Eq.trans (core_foldF (fun s x => ?_) _ _) ?_ | refine Eq.trans (core_foldS (fun s x => ?_) _ _) ?_)⟩
theorem State_sendClaim_kept (x0) (x1) (x2) (x3) : (@State.sendClaim x0 x1 x2 x3).core = x0.core := by
  unfold State.sendClaim
  (repeat' first | with_reducible rfl | (intros; simp only [State_ctlOn_kept, keep_rules, ite_self, implies_true, core_fold, core_foldF, core_foldS]) | split | (rename _ = (_, _) => hh; obtain ⟨rfl, rfl⟩ := Prod.ext_iff.mp hh) | refine core_foldWith (fun s x => ?_) ?_ | refine Eq.trans (core_foldF (fun s x => ?_) _ _) ?_ | refine Eq.trans (core_foldS (fun s x => ?_) _ _) ?_)
theorem State_sendClaims_kept (x0) : (@State.sendClaims x0).core = x0.core := by
  unfold State.sendClaims
  (repeat' first | with_reducible rfl | (intros; simp only [State_sendClaim_kept, keep_rules, ite_self, implies_true, core_fold, core_foldF, core_foldS]) | split | (rename _ = (_, _) => hh; obtain ⟨rfl, rfl⟩ := Prod.ext_iff.mp hh) | refine core_foldWith (fun s x => ?_) ?_ | refine Eq.trans (core_foldF (fun s x => ?_) _ _) ?_ | refine Eq.trans (core_foldS (fun s x => ?_) _ _) ?_)
theorem State_resolveTask_kept (x0) (x1) (x2) : (@State.resolveTask x0 x1 x2).core = x0.core := by
  unfold State.resolveTask
  (repeat' first | with_reducible rfl | (intros; simp only [State_failTask_kept, State_stageTask_kept, keep_rules, ite_self, implies_true, core_fold, core_foldF, core_foldS]) | split | (rename _ = (_, _) => hh; obtain ⟨rfl, rfl⟩ := Prod.ext_iff.mp hh) | refine core_foldWith (fun s x => ?_) ?_ | refine Eq.trans (core_foldF (fun s x => ?_) _ _) ?_ | refine Eq.trans (core_foldS (fun s x => ?_) _ _) ?_)
theorem State_neighbourClaim_kept (x0) (x1) (x2) (x3) : (@State.neighbourClaim x0 x1 x2 x3).core = x0.core := by
  unfold State.neighbourClaim
  (repeat' first | with_reducible rfl | (intros; simp only [State_stageOwn_kept, keep_rules, ite_self, implies_true, core_fold, core_foldF, core_foldS]) | split | (rename _ = (_, _) => hh; obtain ⟨rfl, rfl⟩ := Prod.ext_iff.mp hh) | refine core_foldWith (fun s x => ?_) ?_ | refine Eq.trans (core_foldF (fun s x => ?_) _ _) ?_ | refine Eq.trans (core_foldS (fun s x => ?_) _ _) ?_)
theorem State_opClaim_kept (x0) (x1) (x2) : (@State.opClaim x0 x1 x2).core = x0.core := by
  unfold State.opClaim
  (repeat' first | with_reducible rfl | (intros; simp only [State_updOp_kept, State_endOp_kept, State_suspect_kept, keep_rules, ite_self, implies_true, core_fold, core_foldF, core_foldS]) | split | (rename _ = (_, _) => hh; obtain ⟨rfl, rfl⟩ := Prod.ext_iff.mp hh) | refine core_foldWith (fun s x => ?_) ?_ | refine Eq.trans (core_foldF (fun s x => ?_) _ _) ?_ | refine Eq.trans (core_foldS (fun s x => ?_) _ _) ?_)
theorem State_matchedOps_kept (x0) : (@State.matchedOps x0).core = x0.core := by
  unfold State.matchedOps
  (repeat' first | with_reducible rfl | (intros; simp only [State_updVol_kept, keep_rules, ite_self, implies_true, core_fold, core_foldF, core_foldS]) | split | (rename _ = (_, _) => hh; obtain ⟨rfl, rfl⟩ := Prod.ext_iff.mp hh) | refine core_foldWith (fun s x => ?_) ?_ | refine Eq.trans (core_foldF (fun s x => ?_) _ _) ?_ | refine Eq.trans (core_foldS (fun s x => ?_) _ _) ?_)
theorem State_resolveClaims_kept (x0) : (@State.resolveClaims x0).core = x0.core := by
  unfold State.resolveClaims
  (repeat' first | with_reducible rfl | (intros; simp only [State_resolveTask_kept, State_neighbourClaim_kept, State_opClaim_kept, State_matchedOps_kept, keep_rules, ite_self, implies_true, core_fold, core_foldF, core_foldS]) | split | (rename _ = (_, _) => hh; obtain ⟨rfl, rfl⟩ := Prod.ext_iff.mp hh) | refine core_foldWith (fun s x => ?_) ?_ | refine Eq.trans (core_foldF (fun s x => ?_) _ _) ?_ | refine Eq.trans (core_foldS (fun s x => ?_) _ _) ?_)
theorem execClaimTimeout_kept (x0) (x1) : ∃ t, (@execClaimTimeout x0 x1) = .next t ∧ t.core = x1.core := by unfold execClaimTimeout; exact ⟨_, rfl, by (repeat' first | with_reducible rfl | (intros; simp only [State_failTask_kept, keep_rules, ite_self, implies_true, core_fold, core_foldF, core_foldS]) | split | (rename _ = (_, _) => hh; obtain ⟨rfl, rfl⟩ := Prod.ext_iff.mp hh) | refine core_foldWith (fun s x => ?_) ?_ | refine Eq.trans (core_foldF (fun s x => ?_) _ _) ?_ | refine Eq.trans (core_foldS (fun s x => ?_) _ _) ?_)⟩
theorem State_haltGroup_kept (x0) (x1) : (@State.haltGroup x0 x1).core = x0.core := by
  unfold State.haltGroup
  dsimp only
  generalize hs : x0.updLedger _ = s
  have h : s.core = x0.core := by rw [← hs]; simp only [State.updLedger, core_mk, core_eta]
  split
  · simp only [State.updLedger, core_mk, core_eta, h]
  · simp only [State_finalGroup_kept, State_stage_kept, h]
theorem State_fatal_kept (x0) (x1) (x2) : (@State.fatal x0 x1 x2).core = x0.core := by
  have h1 : ∀ (s : State), (if s.fw.reverting then { s with fw := { s.fw with reverting := false, reset := some .atOnce } } else s).core = s.core := by
    intro s; split <;> simp only [core_mk, core_eta]
  unfold State.fatal
  split
  · rfl
  · exact (State_haltGroup_kept _ _).trans ((State_raiseNow_kept _ _).trans ((State_fatalRegs_kept _ _).trans (by
      simp only [core_mk, core_eta])))
theorem State_fatalOf_kept (x0) (x1) : (@State.fatalOf x0 x1).core = x0.core := by
  unfold State.fatalOf
  (repeat' first | with_reducible rfl | (intros; simp only [State_freeNat_kept, State_fatal_kept, keep_rules, ite_self, implies_true, core_fold, core_foldF, core_foldS]) | split | (rename _ = (_, _) => hh; obtain ⟨rfl, rfl⟩ := Prod.ext_iff.mp hh) | refine core_foldWith (fun s x => ?_) ?_ | refine Eq.trans (core_foldF (fun s x => ?_) _ _) ?_ | refine Eq.trans (core_foldS (fun s x => ?_) _ _) ?_)
theorem State_trip_kept (x0) : (@State.trip x0).core = x0.core := by
  unfold State.trip
  (repeat' first | with_reducible rfl | (intros; simp only [State_stage_kept, State_fatalOf_kept, keep_rules, ite_self, implies_true, core_fold, core_foldF, core_foldS]) | split | (rename _ = (_, _) => hh; obtain ⟨rfl, rfl⟩ := Prod.ext_iff.mp hh) | refine core_foldWith (fun s x => ?_) ?_ | refine Eq.trans (core_foldF (fun s x => ?_) _ _) ?_ | refine Eq.trans (core_foldS (fun s x => ?_) _ _) ?_)
theorem execFatalFault_kept (x0) (x1) : ∃ t, (@execFatalFault x0 x1) = .next t ∧ t.core = x1.core := by unfold execFatalFault; exact ⟨_, rfl, by (repeat' first | with_reducible rfl | (intros; simp only [State_trip_kept, State_fatalOf_kept, keep_rules, ite_self, implies_true, core_fold, core_foldF, core_foldS]) | split | (rename _ = (_, _) => hh; obtain ⟨rfl, rfl⟩ := Prod.ext_iff.mp hh) | refine core_foldWith (fun s x => ?_) ?_ | refine Eq.trans (core_foldF (fun s x => ?_) _ _) ?_ | refine Eq.trans (core_foldS (fun s x => ?_) _ _) ?_)⟩
theorem execThermalTrip_kept (x0) : ∃ t, (@execThermalTrip x0) = .next t ∧ t.core = x0.core := by unfold execThermalTrip; exact ⟨_, rfl, by (repeat' first | with_reducible rfl | (intros; simp only [State_trip_kept, keep_rules, ite_self, implies_true, core_fold, core_foldF, core_foldS]) | split | (rename _ = (_, _) => hh; obtain ⟨rfl, rfl⟩ := Prod.ext_iff.mp hh) | refine core_foldWith (fun s x => ?_) ?_ | refine Eq.trans (core_foldF (fun s x => ?_) _ _) ?_ | refine Eq.trans (core_foldS (fun s x => ?_) _ _) ?_)⟩
theorem execReservationExhausted_kept (x0) : ∃ t, (@execReservationExhausted x0) = .next t ∧ t.core = x0.core := by unfold execReservationExhausted; exact ⟨_, rfl, by (repeat' first | with_reducible rfl | (intros; simp only [State_fatalOf_kept, keep_rules, ite_self, implies_true, core_fold, core_foldF, core_foldS]) | split | (rename _ = (_, _) => hh; obtain ⟨rfl, rfl⟩ := Prod.ext_iff.mp hh) | refine core_foldWith (fun s x => ?_) ?_ | refine Eq.trans (core_foldF (fun s x => ?_) _ _) ?_ | refine Eq.trans (core_foldS (fun s x => ?_) _ _) ?_)⟩
theorem State_driveFaultN_kept (x0) : (@State.driveFaultN x0).core = x0.core := by
  unfold State.driveFaultN
  (repeat' first | with_reducible rfl | (intros; simp only [State_fatal_kept, keep_rules, ite_self, implies_true, core_fold, core_foldF, core_foldS]) | split | (rename _ = (_, _) => hh; obtain ⟨rfl, rfl⟩ := Prod.ext_iff.mp hh) | refine core_foldWith (fun s x => ?_) ?_ | refine Eq.trans (core_foldF (fun s x => ?_) _ _) ?_ | refine Eq.trans (core_foldS (fun s x => ?_) _ _) ?_)
theorem execStepOverrun_kept (x0) (x1) : ∃ t, (@execStepOverrun x0 x1) = .next t ∧ t.core = x1.core := by unfold execStepOverrun; (try dsimp only); (repeat' first | (split) | (rename _ = (_, _) => hh; obtain ⟨rfl, rfl⟩ := Prod.ext_iff.mp hh)) <;> exact ⟨_, rfl, by (repeat' first | with_reducible rfl | (intros; simp only [State_updTask_kept, State_addFault_kept, State_setDegraded_kept, State_taskDropped_kept, State_fatal_kept, keep_rules, ite_self, implies_true, core_fold, core_foldF, core_foldS]) | split | (rename _ = (_, _) => hh; obtain ⟨rfl, rfl⟩ := Prod.ext_iff.mp hh) | refine core_foldWith (fun s x => ?_) ?_ | refine Eq.trans (core_foldF (fun s x => ?_) _ _) ?_ | refine Eq.trans (core_foldS (fun s x => ?_) _ _) ?_)⟩
theorem State_stepRan_kept (x0) (x1) : (@State.stepRan x0 x1).core = x0.core := by
  unfold State.stepRan
  (repeat' first | with_reducible rfl | (intros; simp only [State_updTask_kept, State_addFault_kept, keep_rules, ite_self, implies_true, core_fold, core_foldF, core_foldS]) | split | (rename _ = (_, _) => hh; obtain ⟨rfl, rfl⟩ := Prod.ext_iff.mp hh) | refine core_foldWith (fun s x => ?_) ?_ | refine Eq.trans (core_foldF (fun s x => ?_) _ _) ?_ | refine Eq.trans (core_foldS (fun s x => ?_) _ _) ?_)
theorem execDegradedModeLeft_kept (x0) : ∃ t, (@execDegradedModeLeft x0) = .next t ∧ t.core = x0.core := by unfold execDegradedModeLeft; (try dsimp only); (repeat' first | (split) | (rename _ = (_, _) => hh; obtain ⟨rfl, rfl⟩ := Prod.ext_iff.mp hh)) <;> exact ⟨_, rfl, by (repeat' first | with_reducible rfl | (intros; simp only [State_setDegraded_kept, State_fault_kept, keep_rules, ite_self, implies_true, core_fold, core_foldF, core_foldS]) | split | (rename _ = (_, _) => hh; obtain ⟨rfl, rfl⟩ := Prod.ext_iff.mp hh) | refine core_foldWith (fun s x => ?_) ?_ | refine Eq.trans (core_foldF (fun s x => ?_) _ _) ?_ | refine Eq.trans (core_foldS (fun s x => ?_) _ _) ?_)⟩
theorem State_tear_kept (x0) : (@State.tear x0).core = x0.core := by
  unfold State.tear
  (repeat' first | with_reducible rfl | (intros; simp only [State_freeBool_kept, State_freeBytes_kept, keep_rules, ite_self, implies_true, core_fold, core_foldF, core_foldS]) | split | (rename _ = (_, _) => hh; obtain ⟨rfl, rfl⟩ := Prod.ext_iff.mp hh) | refine core_foldWith (fun s x => ?_) ?_ | refine Eq.trans (core_foldF (fun s x => ?_) _ _) ?_ | refine Eq.trans (core_foldS (fun s x => ?_) _ _) ?_)
theorem State_noteRegs_kept (x0) (x1) : (@State.noteRegs x0 x1).core = x0.core := by
  unfold State.noteRegs
  (repeat' first | with_reducible rfl | (intros; simp only [State_raiseNow_kept, keep_rules, ite_self, implies_true, core_fold, core_foldF, core_foldS]) | split | (rename _ = (_, _) => hh; obtain ⟨rfl, rfl⟩ := Prod.ext_iff.mp hh) | refine core_foldWith (fun s x => ?_) ?_ | refine Eq.trans (core_foldF (fun s x => ?_) _ _) ?_ | refine Eq.trans (core_foldS (fun s x => ?_) _ _) ?_)
theorem State_follow_kept (x0) : (@State.follow x0).core = x0.core := by
  unfold State.follow
  (repeat' first | with_reducible rfl | (intros; simp only [State_noteRegs_kept, State_earlyRegs_kept, keep_rules, ite_self, implies_true, core_fold, core_foldF, core_foldS]) | split | (rename _ = (_, _) => hh; obtain ⟨rfl, rfl⟩ := Prod.ext_iff.mp hh) | refine core_foldWith (fun s x => ?_) ?_ | refine Eq.trans (core_foldF (fun s x => ?_) _ _) ?_ | refine Eq.trans (core_foldS (fun s x => ?_) _ _) ?_)
theorem State_toStage_kept (x0) (x1) : (@State.toStage x0 x1).core = x0.core := by
  unfold State.toStage
  (repeat' first | with_reducible rfl | (intros; simp only [State_stage_kept, keep_rules, ite_self, implies_true, core_fold, core_foldF, core_foldS]) | split | (rename _ = (_, _) => hh; obtain ⟨rfl, rfl⟩ := Prod.ext_iff.mp hh) | refine core_foldWith (fun s x => ?_) ?_ | refine Eq.trans (core_foldF (fun s x => ?_) _ _) ?_ | refine Eq.trans (core_foldS (fun s x => ?_) _ _) ?_)
theorem State_haltBoot_kept (x0) (x1) : (@State.haltBoot x0 x1).core = x0.core := by
  unfold State.haltBoot
  (repeat' first | with_reducible rfl | (intros; simp only [State_toStage_kept, State_stage_kept, keep_rules, ite_self, implies_true, core_fold, core_foldF, core_foldS]) | split | (rename _ = (_, _) => hh; obtain ⟨rfl, rfl⟩ := Prod.ext_iff.mp hh) | refine core_foldWith (fun s x => ?_) ?_ | refine Eq.trans (core_foldF (fun s x => ?_) _ _) ?_ | refine Eq.trans (core_foldS (fun s x => ?_) _ _) ?_)
theorem execBringUpStart_kept (x0) (x1) : ∃ t, (@execBringUpStart x0 x1) = .next t ∧ t.core = x1.core := by unfold execBringUpStart; (try dsimp only); (repeat' first | (split) | (rename _ = (_, _) => hh; obtain ⟨rfl, rfl⟩ := Prod.ext_iff.mp hh)) <;> exact ⟨_, rfl, by (repeat' first | with_reducible rfl | (intros; simp only [State_stage_kept, State_follow_kept, keep_rules, ite_self, implies_true, core_fold, core_foldF, core_foldS]) | split | (rename _ = (_, _) => hh; obtain ⟨rfl, rfl⟩ := Prod.ext_iff.mp hh) | refine core_foldWith (fun s x => ?_) ?_ | refine Eq.trans (core_foldF (fun s x => ?_) _ _) ?_ | refine Eq.trans (core_foldS (fun s x => ?_) _ _) ?_)⟩
theorem execRotRomDone_kept (x0) (x1) (x2) : ∃ t, (@execRotRomDone x0 x1 x2) = .next t ∧ t.core = x2.core := by unfold execRotRomDone; (try dsimp only); (repeat' first | (split) | (rename _ = (_, _) => hh; obtain ⟨rfl, rfl⟩ := Prod.ext_iff.mp hh)) <;> exact ⟨_, rfl, by (repeat' first | with_reducible rfl | (intros; simp only [State_haltBoot_kept, State_fatalOf_kept, State_follow_kept, State_toStage_kept, State_deriveDevice_kept, keep_rules, ite_self, implies_true, core_fold, core_foldF, core_foldS]) | split | (rename _ = (_, _) => hh; obtain ⟨rfl, rfl⟩ := Prod.ext_iff.mp hh) | refine core_foldWith (fun s x => ?_) ?_ | refine Eq.trans (core_foldF (fun s x => ?_) _ _) ?_ | refine Eq.trans (core_foldS (fun s x => ?_) _ _) ?_)⟩
theorem State_bootSlot_kept (x0) (x1) : (@State.bootSlot x0 x1).core = x0.core := by
  unfold State.bootSlot
  (repeat' first | with_reducible rfl | (intros; simp only [State_deriveLayer_kept, State_toStage_kept, keep_rules, ite_self, implies_true, core_fold, core_foldF, core_foldS]) | split | (rename _ = (_, _) => hh; obtain ⟨rfl, rfl⟩ := Prod.ext_iff.mp hh) | refine core_foldWith (fun s x => ?_) ?_ | refine Eq.trans (core_foldF (fun s x => ?_) _ _) ?_ | refine Eq.trans (core_foldS (fun s x => ?_) _ _) ?_)
theorem State_selectBlind_kept (x0) : (@State.selectBlind x0).core = x0.core := by
  unfold State.selectBlind
  (repeat' first | with_reducible rfl | (intros; simp only [State_haltBoot_kept, State_confirmed_kept, State_bootSlot_kept, keep_rules, ite_self, implies_true, core_fold, core_foldF, core_foldS]) | split | (rename _ = (_, _) => hh; obtain ⟨rfl, rfl⟩ := Prod.ext_iff.mp hh) | refine core_foldWith (fun s x => ?_) ?_ | refine Eq.trans (core_foldF (fun s x => ?_) _ _) ?_ | refine Eq.trans (core_foldS (fun s x => ?_) _ _) ?_)
theorem State_sealBootFw_kept (x0) (x1) (x2) : (@State.sealBootFw x0 x1 x2).core = x0.core := by
  unfold State.sealBootFw
  (repeat' first | with_reducible rfl | (intros; simp only [keep_rules, ite_self, implies_true, core_fold, core_foldF, core_foldS]) | split | (rename _ = (_, _) => hh; obtain ⟨rfl, rfl⟩ := Prod.ext_iff.mp hh) | refine core_foldWith (fun s x => ?_) ?_ | refine Eq.trans (core_foldF (fun s x => ?_) _ _) ?_ | refine Eq.trans (core_foldS (fun s x => ?_) _ _) ?_)
theorem State_selectImage_kept (x0) (x1) : (@State.selectImage x0 x1).core = x0.core := by
  unfold State.selectImage
  (repeat' first | with_reducible rfl | (intros; simp only [State_sealBootFw_kept, State_haltBoot_kept, State_bootSlot_kept, State_confirmed_kept, keep_rules, ite_self, implies_true, core_fold, core_foldF, core_foldS]) | split | (rename _ = (_, _) => hh; obtain ⟨rfl, rfl⟩ := Prod.ext_iff.mp hh) | refine core_foldWith (fun s x => ?_) ?_ | refine Eq.trans (core_foldF (fun s x => ?_) _ _) ?_ | refine Eq.trans (core_foldS (fun s x => ?_) _ _) ?_)
theorem execFwVerifyStageDone_kept (x0) (x1) : ∃ t, (@execFwVerifyStageDone x0 x1) = .next t ∧ t.core = x1.core := by unfold execFwVerifyStageDone; (try dsimp only); (repeat' first | (split) | (rename _ = (_, _) => hh; obtain ⟨rfl, rfl⟩ := Prod.ext_iff.mp hh)) <;> exact ⟨_, rfl, by (repeat' first | with_reducible rfl | (intros; simp only [State_follow_kept, State_selectImage_kept, State_selectBlind_kept, keep_rules, ite_self, implies_true, core_fold, core_foldF, core_foldS]) | split | (rename _ = (_, _) => hh; obtain ⟨rfl, rfl⟩ := Prod.ext_iff.mp hh) | refine core_foldWith (fun s x => ?_) ?_ | refine Eq.trans (core_foldF (fun s x => ?_) _ _) ?_ | refine Eq.trans (core_foldS (fun s x => ?_) _ _) ?_)⟩
theorem State_hearArcs_kept (x0) (x1) (x2) : (@State.hearArcs x0 x1 x2).core = x0.core := by
  unfold State.hearArcs
  (repeat' first | with_reducible rfl | (intros; simp only [State_failArc_kept, keep_rules, ite_self, implies_true, core_fold, core_foldF, core_foldS]) | split | (rename _ = (_, _) => hh; obtain ⟨rfl, rfl⟩ := Prod.ext_iff.mp hh) | refine core_foldWith (fun s x => ?_) ?_ | refine Eq.trans (core_foldF (fun s x => ?_) _ _) ?_ | refine Eq.trans (core_foldS (fun s x => ?_) _ _) ?_)
theorem execClusterWaveStart_kept (x0) (x1) : ∃ t, (@execClusterWaveStart x0 x1) = .next t ∧ t.core = x1.core := by unfold execClusterWaveStart; (try dsimp only); (repeat' first | (split) | (rename _ = (_, _) => hh; obtain ⟨rfl, rfl⟩ := Prod.ext_iff.mp hh)) <;> exact ⟨_, rfl, by (repeat' first | with_reducible rfl | (intros; simp only [keep_rules, ite_self, implies_true, core_fold, core_foldF, core_foldS]) | split | (rename _ = (_, _) => hh; obtain ⟨rfl, rfl⟩ := Prod.ext_iff.mp hh) | refine core_foldWith (fun s x => ?_) ?_ | refine Eq.trans (core_foldF (fun s x => ?_) _ _) ?_ | refine Eq.trans (core_foldS (fun s x => ?_) _ _) ?_)⟩
theorem execClusterSelftestDone_kept (x0) (x1) (x2) : ∃ t, (@execClusterSelftestDone x0 x1 x2) = .next t ∧ t.core = x2.core := by unfold execClusterSelftestDone; (try dsimp only); (repeat' first | (split) | (rename _ = (_, _) => hh; obtain ⟨rfl, rfl⟩ := Prod.ext_iff.mp hh)) <;> exact ⟨_, rfl, by (repeat' first | with_reducible rfl | (intros; simp only [State_fault_kept, State_retireCluster_kept, State_toStage_kept, keep_rules, ite_self, implies_true, core_fold, core_foldF, core_foldS]) | split | (rename _ = (_, _) => hh; obtain ⟨rfl, rfl⟩ := Prod.ext_iff.mp hh) | refine core_foldWith (fun s x => ?_) ?_ | refine Eq.trans (core_foldF (fun s x => ?_) _ _) ?_ | refine Eq.trans (core_foldS (fun s x => ?_) _ _) ?_)⟩
theorem State_updEntropy_kept (x0) (x1) : (@State.updEntropy x0 x1).core = x0.core := by
  unfold State.updEntropy
  (repeat' first | with_reducible rfl | (intros; simp only [keep_rules, ite_self, implies_true, core_fold, core_foldF, core_foldS]) | split | (rename _ = (_, _) => hh; obtain ⟨rfl, rfl⟩ := Prod.ext_iff.mp hh) | refine core_foldWith (fun s x => ?_) ?_ | refine Eq.trans (core_foldF (fun s x => ?_) _ _) ?_ | refine Eq.trans (core_foldS (fun s x => ?_) _ _) ?_)
theorem execEntropyReady_kept (x0) (x1) : ∃ t, (@execEntropyReady x0 x1) = .next t ∧ t.core = x1.core := by unfold execEntropyReady; (try dsimp only); (repeat' first | (split) | (rename _ = (_, _) => hh; obtain ⟨rfl, rfl⟩ := Prod.ext_iff.mp hh)) <;> exact ⟨_, rfl, by (repeat' first | with_reducible rfl | (intros; simp only [State_stage_kept, State_setDegraded_kept, State_fault_kept, State_updEntropy_kept, State_follow_kept, keep_rules, ite_self, implies_true, core_fold, core_foldF, core_foldS]) | split | (rename _ = (_, _) => hh; obtain ⟨rfl, rfl⟩ := Prod.ext_iff.mp hh) | refine core_foldWith (fun s x => ?_) ?_ | refine Eq.trans (core_foldF (fun s x => ?_) _ _) ?_ | refine Eq.trans (core_foldS (fun s x => ?_) _ _) ?_)⟩
theorem execEntropyHealthFail_kept (x0) : ∃ t, (@execEntropyHealthFail x0) = .next t ∧ t.core = x0.core := by unfold execEntropyHealthFail; (try dsimp only); (repeat' first | (split) | (rename _ = (_, _) => hh; obtain ⟨rfl, rfl⟩ := Prod.ext_iff.mp hh)) <;> exact ⟨_, rfl, by (repeat' first | with_reducible rfl | (intros; simp only [State_stage_kept, State_fault_kept, State_setDegraded_kept, State_updEntropy_kept, State_follow_kept, keep_rules, ite_self, implies_true, core_fold, core_foldF, core_foldS]) | split | (rename _ = (_, _) => hh; obtain ⟨rfl, rfl⟩ := Prod.ext_iff.mp hh) | refine core_foldWith (fun s x => ?_) ?_ | refine Eq.trans (core_foldF (fun s x => ?_) _ _) ?_ | refine Eq.trans (core_foldS (fun s x => ?_) _ _) ?_)⟩
theorem execDrbgReseed_kept (x0) : ∃ t, (@execDrbgReseed x0) = .next t ∧ t.core = x0.core := by unfold execDrbgReseed; exact ⟨_, rfl, by (repeat' first | with_reducible rfl | (intros; simp only [State_updEntropy_kept, keep_rules, ite_self, implies_true, core_fold, core_foldF, core_foldS]) | split | (rename _ = (_, _) => hh; obtain ⟨rfl, rfl⟩ := Prod.ext_iff.mp hh) | refine core_foldWith (fun s x => ?_) ?_ | refine Eq.trans (core_foldF (fun s x => ?_) _ _) ?_ | refine Eq.trans (core_foldS (fun s x => ?_) _ _) ?_)⟩
theorem State_heal_kept (x0) (x1) : (@State.heal x0 x1).core = x0.core := by
  unfold State.heal
  (repeat' first | with_reducible rfl | (intros; simp only [State_freeBool_kept, keep_rules, ite_self, implies_true, core_fold, core_foldF, core_foldS]) | split | (rename _ = (_, _) => hh; obtain ⟨rfl, rfl⟩ := Prod.ext_iff.mp hh) | refine core_foldWith (fun s x => ?_) ?_ | refine Eq.trans (core_foldF (fun s x => ?_) _ _) ?_ | refine Eq.trans (core_foldS (fun s x => ?_) _ _) ?_)
theorem State_finishRevoked_kept (x0) (x1) : (@State.finishRevoked x0 x1).core = x0.core := by
  unfold State.finishRevoked
  (repeat' first | with_reducible rfl | (intros; simp only [State_fault_kept, State_stageOwn_kept, State_startTask_kept, State_stage_kept, keep_rules, ite_self, implies_true, core_fold, core_foldF, core_foldS]) | split | (rename _ = (_, _) => hh; obtain ⟨rfl, rfl⟩ := Prod.ext_iff.mp hh) | refine core_foldWith (fun s x => ?_) ?_ | refine Eq.trans (core_foldF (fun s x => ?_) _ _) ?_ | refine Eq.trans (core_foldS (fun s x => ?_) _ _) ?_)
theorem State_freeFailure_kept (x0) : (@State.freeFailure x0).2.core = x0.core := by
  unfold State.freeFailure
  (repeat' first | with_reducible rfl | (intros; simp only [State_freeNat_kept, keep_rules, ite_self, implies_true, core_fold, core_foldF, core_foldS]) | split | (rename _ = (_, _) => hh; obtain ⟨rfl, rfl⟩ := Prod.ext_iff.mp hh) | refine core_foldWith (fun s x => ?_) ?_ | refine Eq.trans (core_foldF (fun s x => ?_) _ _) ?_ | refine Eq.trans (core_foldS (fun s x => ?_) _ _) ?_)
theorem State_finishRebind_kept (x0) (x1) : (@State.finishRebind x0 x1).core = x0.core := by
  unfold State.finishRebind
  (repeat' first | with_reducible rfl | (intros; simp only [State_updQuireVol_kept, State_stageOwn_kept, State_freeFailure_kept, State_resumeAdmission_kept, State_startTask_kept, State_stage_kept, keep_rules, ite_self, implies_true, core_fold, core_foldF, core_foldS]) | split | (rename _ = (_, _) => hh; obtain ⟨rfl, rfl⟩ := Prod.ext_iff.mp hh) | refine core_foldWith (fun s x => ?_) ?_ | refine Eq.trans (core_foldF (fun s x => ?_) _ _) ?_ | refine Eq.trans (core_foldS (fun s x => ?_) _ _) ?_)
theorem State_volumeReset_kept (x0) (x1) : (@State.volumeReset x0 x1).core = x0.core := by
  unfold State.volumeReset
  (repeat' first | with_reducible rfl | (intros; simp only [State_zeroiseSlot_kept, State_stageOwn_kept, keep_rules, ite_self, implies_true, core_fold, core_foldF, core_foldS]) | split | (rename _ = (_, _) => hh; obtain ⟨rfl, rfl⟩ := Prod.ext_iff.mp hh) | refine core_foldWith (fun s x => ?_) ?_ | refine Eq.trans (core_foldF (fun s x => ?_) _ _) ?_ | refine Eq.trans (core_foldS (fun s x => ?_) _ _) ?_)
theorem State_checkVolume_kept (x0) (x1) : (@State.checkVolume x0 x1).core = x0.core := by
  unfold State.checkVolume
  (repeat' first | with_reducible rfl | (intros; simp only [State_stageOwn_kept, State_volumeReset_kept, State_mapTo_kept, keep_rules, ite_self, implies_true, core_fold, core_foldF, core_foldS]) | split | (rename _ = (_, _) => hh; obtain ⟨rfl, rfl⟩ := Prod.ext_iff.mp hh) | refine core_foldWith (fun s x => ?_) ?_ | refine Eq.trans (core_foldF (fun s x => ?_) _ _) ?_ | refine Eq.trans (core_foldS (fun s x => ?_) _ _) ?_)
theorem State_mendQuire_kept (x0) (x1) : (@State.mendQuire x0 x1).core = x0.core := by
  unfold State.mendQuire
  (repeat' first | with_reducible rfl | (intros; simp only [State_setDegraded_kept, State_stageOwn_kept, keep_rules, ite_self, implies_true, core_fold, core_foldF, core_foldS]) | split | (rename _ = (_, _) => hh; obtain ⟨rfl, rfl⟩ := Prod.ext_iff.mp hh) | refine core_foldWith (fun s x => ?_) ?_ | refine Eq.trans (core_foldF (fun s x => ?_) _ _) ?_ | refine Eq.trans (core_foldS (fun s x => ?_) _ _) ?_)
theorem State_mendAll_kept (x0) : (@State.mendAll x0).core = x0.core := by
  unfold State.mendAll
  (repeat' first | with_reducible rfl | (intros; simp only [State_mendQuire_kept, State_retireCluster_kept, keep_rules, ite_self, implies_true, core_fold, core_foldF, core_foldS]) | split | (rename _ = (_, _) => hh; obtain ⟨rfl, rfl⟩ := Prod.ext_iff.mp hh) | refine core_foldWith (fun s x => ?_) ?_ | refine Eq.trans (core_foldF (fun s x => ?_) _ _) ?_ | refine Eq.trans (core_foldS (fun s x => ?_) _ _) ?_)
theorem State_checkMirror_kept (x0) : (@State.checkMirror x0).core = x0.core := by
  unfold State.checkMirror
  (repeat' first | with_reducible rfl | (intros; simp only [State_raiseNext_kept, State_fault_kept, State_setDegraded_kept, keep_rules, ite_self, implies_true, core_fold, core_foldF, core_foldS]) | split | (rename _ = (_, _) => hh; obtain ⟨rfl, rfl⟩ := Prod.ext_iff.mp hh) | refine core_foldWith (fun s x => ?_) ?_ | refine Eq.trans (core_foldF (fun s x => ?_) _ _) ?_ | refine Eq.trans (core_foldS (fun s x => ?_) _ _) ?_)
theorem State_fromCkpt_kept (x0) (x1) : (@State.fromCkpt x0 x1).core = x0.core := by
  unfold State.fromCkpt
  (repeat' first | with_reducible rfl | (intros; simp only [State_stageOwn_kept, State_stage_kept, keep_rules, ite_self, implies_true, core_fold, core_foldF, core_foldS]) | split | (rename _ = (_, _) => hh; obtain ⟨rfl, rfl⟩ := Prod.ext_iff.mp hh) | refine core_foldWith (fun s x => ?_) ?_ | refine Eq.trans (core_foldF (fun s x => ?_) _ _) ?_ | refine Eq.trans (core_foldS (fun s x => ?_) _ _) ?_)
theorem State_settleCuts_kept (x0) : (@State.settleCuts x0).core = x0.core := by
  unfold State.settleCuts
  (repeat' first | with_reducible rfl | (intros; simp only [State_finishRebind_kept, State_finishRevoked_kept, State_startTask_kept, State_updTask_kept, keep_rules, ite_self, implies_true, core_fold, core_foldF, core_foldS]) | split | (rename _ = (_, _) => hh; obtain ⟨rfl, rfl⟩ := Prod.ext_iff.mp hh) | refine core_foldWith (fun s x => ?_) ?_ | refine Eq.trans (core_foldF (fun s x => ?_) _ _) ?_ | refine Eq.trans (core_foldS (fun s x => ?_) _ _) ?_)
theorem State_restoreFaults_kept (x0) (x1) : (@State.restoreFaults x0 x1).core = x0.core := by
  unfold State.restoreFaults
  (repeat' first | with_reducible rfl | (intros; simp only [State_fault_kept, keep_rules, ite_self, implies_true, core_fold, core_foldF, core_foldS]) | split | (rename _ = (_, _) => hh; obtain ⟨rfl, rfl⟩ := Prod.ext_iff.mp hh) | refine core_foldWith (fun s x => ?_) ?_ | refine Eq.trans (core_foldF (fun s x => ?_) _ _) ?_ | refine Eq.trans (core_foldS (fun s x => ?_) _ _) ?_)
theorem State_restoreRest_kept (x0) : (@State.restoreRest x0).core = x0.core := by
  unfold State.restoreRest
  (repeat' first | with_reducible rfl | (intros; simp only [keep_rules, ite_self, implies_true, core_fold, core_foldF, core_foldS]) | split | (rename _ = (_, _) => hh; obtain ⟨rfl, rfl⟩ := Prod.ext_iff.mp hh) | refine core_foldWith (fun s x => ?_) ?_ | refine Eq.trans (core_foldF (fun s x => ?_) _ _) ?_ | refine Eq.trans (core_foldS (fun s x => ?_) _ _) ?_)
theorem execHbmTrainDone_kept (x0) (x1) (x2) : ∃ t, (@execHbmTrainDone x0 x1 x2) = .next t ∧ t.core = x2.core := by unfold execHbmTrainDone; (try dsimp only); (repeat' first | (split) | (rename _ = (_, _) => hh; obtain ⟨rfl, rfl⟩ := Prod.ext_iff.mp hh)) <;> exact ⟨_, rfl, by (repeat' first | with_reducible rfl | (intros; simp only [State_haltBoot_kept, State_stage_kept, keep_rules, ite_self, implies_true, core_fold, core_foldF, core_foldS]) | split | (rename _ = (_, _) => hh; obtain ⟨rfl, rfl⟩ := Prod.ext_iff.mp hh) | refine core_foldWith (fun s x => ?_) ?_ | refine Eq.trans (core_foldF (fun s x => ?_) _ _) ?_ | refine Eq.trans (core_foldS (fun s x => ?_) _ _) ?_)⟩
theorem State_memFound_kept (x0) (x1) : (@State.memFound x0 x1).core = x0.core := by
  unfold State.memFound
  (repeat' first | with_reducible rfl | (intros; simp only [State_fault_kept, State_stageOwn_kept, keep_rules, ite_self, implies_true, core_fold, core_foldF, core_foldS]) | split | (rename _ = (_, _) => hh; obtain ⟨rfl, rfl⟩ := Prod.ext_iff.mp hh) | refine core_foldWith (fun s x => ?_) ?_ | refine Eq.trans (core_foldF (fun s x => ?_) _ _) ?_ | refine Eq.trans (core_foldS (fun s x => ?_) _ _) ?_)
theorem execMemTestDone_kept (x0) (x1) : ∃ t, (@execMemTestDone x0 x1) = .next t ∧ t.core = x1.core := by unfold execMemTestDone; (try dsimp only); (repeat' first | (split) | (rename _ = (_, _) => hh; obtain ⟨rfl, rfl⟩ := Prod.ext_iff.mp hh)) <;> exact ⟨_, rfl, by (repeat' first | with_reducible rfl | (intros; simp only [State_memFound_kept, State_stageOwn_kept, State_mendAll_kept, State_toStage_kept, keep_rules, ite_self, implies_true, core_fold, core_foldF, core_foldS]) | split | (rename _ = (_, _) => hh; obtain ⟨rfl, rfl⟩ := Prod.ext_iff.mp hh) | refine core_foldWith (fun s x => ?_) ?_ | refine Eq.trans (core_foldF (fun s x => ?_) _ _) ?_ | refine Eq.trans (core_foldS (fun s x => ?_) _ _) ?_)⟩
theorem execLeafZeroDone_kept (x0) : ∃ t, (@execLeafZeroDone x0) = .next t ∧ t.core = x0.core := by unfold execLeafZeroDone; (try dsimp only); (repeat' first | (split) | (rename _ = (_, _) => hh; obtain ⟨rfl, rfl⟩ := Prod.ext_iff.mp hh)) <;> exact ⟨_, rfl, by (repeat' first | with_reducible rfl | (intros; simp only [State_updVol_kept, State_stage_kept, State_latch_kept, keep_rules, ite_self, implies_true, core_fold, core_foldF, core_foldS]) | split | (rename _ = (_, _) => hh; obtain ⟨rfl, rfl⟩ := Prod.ext_iff.mp hh) | refine core_foldWith (fun s x => ?_) ?_ | refine Eq.trans (core_foldF (fun s x => ?_) _ _) ?_ | refine Eq.trans (core_foldS (fun s x => ?_) _ _) ?_)⟩
theorem execLaneTrainDone_kept (x0) : ∃ t, (@execLaneTrainDone x0) = .next t ∧ t.core = x0.core := by unfold execLaneTrainDone; (try dsimp only); (repeat' first | (split) | (rename _ = (_, _) => hh; obtain ⟨rfl, rfl⟩ := Prod.ext_iff.mp hh)) <;> exact ⟨_, rfl, by (repeat' first | with_reducible rfl | (intros; simp only [State_stage_kept, keep_rules, ite_self, implies_true, core_fold, core_foldF, core_foldS]) | split | (rename _ = (_, _) => hh; obtain ⟨rfl, rfl⟩ := Prod.ext_iff.mp hh) | refine core_foldWith (fun s x => ?_) ?_ | refine Eq.trans (core_foldF (fun s x => ?_) _ _) ?_ | refine Eq.trans (core_foldS (fun s x => ?_) _ _) ?_)⟩
theorem State_markRefs_kept (x0) : (@State.markRefs x0).core = x0.core := by
  unfold State.markRefs
  (repeat' first | with_reducible rfl | (intros; simp only [keep_rules, ite_self, implies_true, core_fold, core_foldF, core_foldS]) | split | (rename _ = (_, _) => hh; obtain ⟨rfl, rfl⟩ := Prod.ext_iff.mp hh) | refine core_foldWith (fun s x => ?_) ?_ | refine Eq.trans (core_foldF (fun s x => ?_) _ _) ?_ | refine Eq.trans (core_foldS (fun s x => ?_) _ _) ?_)
theorem State_withdraw_kept (x0) (x1) : (@State.withdraw x0 x1).core = x0.core := by
  unfold State.withdraw
  (repeat' first | with_reducible rfl | (intros; simp only [State_dropRec_kept, keep_rules, ite_self, implies_true, core_fold, core_foldF, core_foldS]) | split | (rename _ = (_, _) => hh; obtain ⟨rfl, rfl⟩ := Prod.ext_iff.mp hh) | refine core_foldWith (fun s x => ?_) ?_ | refine Eq.trans (core_foldF (fun s x => ?_) _ _) ?_ | refine Eq.trans (core_foldS (fun s x => ?_) _ _) ?_)
theorem State_turnReplies_kept (x0) (x1) (x2) : (@State.turnReplies x0 x1 x2).core = x0.core := by
  unfold State.turnReplies
  (repeat' first | with_reducible rfl | (intros; simp only [State_updChan_kept, State_queueSeal_kept, keep_rules, ite_self, implies_true, core_fold, core_foldF, core_foldS]) | split | (rename _ = (_, _) => hh; obtain ⟨rfl, rfl⟩ := Prod.ext_iff.mp hh) | refine core_foldWith (fun s x => ?_) ?_ | refine Eq.trans (core_foldF (fun s x => ?_) _ _) ?_ | refine Eq.trans (core_foldS (fun s x => ?_) _ _) ?_)
theorem State_turnTasks_kept (x0) (x1) : (@State.turnTasks x0 x1).core = x0.core := by
  unfold State.turnTasks
  (repeat' first | with_reducible rfl | (intros; simp only [State_taskDropped_kept, keep_rules, ite_self, implies_true, core_fold, core_foldF, core_foldS]) | split | (rename _ = (_, _) => hh; obtain ⟨rfl, rfl⟩ := Prod.ext_iff.mp hh) | refine core_foldWith (fun s x => ?_) ?_ | refine Eq.trans (core_foldF (fun s x => ?_) _ _) ?_ | refine Eq.trans (core_foldS (fun s x => ?_) _ _) ?_)
theorem State_discardVol_kept (x0) (x1) : (@State.discardVol x0 x1).core = x0.core := by
  unfold State.discardVol
  (repeat' first | with_reducible rfl | (intros; simp only [keep_rules, ite_self, implies_true, core_fold, core_foldF, core_foldS]) | split | (rename _ = (_, _) => hh; obtain ⟨rfl, rfl⟩ := Prod.ext_iff.mp hh) | refine core_foldWith (fun s x => ?_) ?_ | refine Eq.trans (core_foldF (fun s x => ?_) _ _) ?_ | refine Eq.trans (core_foldS (fun s x => ?_) _ _) ?_)
theorem State_stopRebinds_kept (x0) (x1) : (@State.stopRebinds x0 x1).core = x0.core := by
  unfold State.stopRebinds
  (repeat' first | with_reducible rfl | (intros; simp only [State_rebindStop_kept, keep_rules, ite_self, implies_true, core_fold, core_foldF, core_foldS]) | split | (rename _ = (_, _) => hh; obtain ⟨rfl, rfl⟩ := Prod.ext_iff.mp hh) | refine core_foldWith (fun s x => ?_) ?_ | refine Eq.trans (core_foldF (fun s x => ?_) _ _) ?_ | refine Eq.trans (core_foldS (fun s x => ?_) _ _) ?_)
theorem State_markQuarantined_kept (x0) (x1) : (@State.markQuarantined x0 x1).core = x0.core := by
  unfold State.markQuarantined
  (repeat' first | with_reducible rfl | (intros; simp only [State_updLed_kept, State_stage_kept, keep_rules, ite_self, implies_true, core_fold, core_foldF, core_foldS]) | split | (rename _ = (_, _) => hh; obtain ⟨rfl, rfl⟩ := Prod.ext_iff.mp hh) | refine core_foldWith (fun s x => ?_) ?_ | refine Eq.trans (core_foldF (fun s x => ?_) _ _) ?_ | refine Eq.trans (core_foldS (fun s x => ?_) _ _) ?_)
theorem State_quarantine_kept (x0) (x1) (x2) : (@State.quarantine x0 x1 x2).core = x0.core := by
  unfold State.quarantine
  (repeat' first | with_reducible rfl | (intros; simp only [State_withdraw_kept, State_turnTasks_kept, State_turnReplies_kept, State_discardVol_kept, State_endOps_kept, State_stopRebinds_kept, State_markQuarantined_kept, State_stopAdmission_kept, State_fault_kept, keep_rules, ite_self, implies_true, core_fold, core_foldF, core_foldS]) | split | (rename _ = (_, _) => hh; obtain ⟨rfl, rfl⟩ := Prod.ext_iff.mp hh) | refine core_foldWith (fun s x => ?_) ?_ | refine Eq.trans (core_foldF (fun s x => ?_) _ _) ?_ | refine Eq.trans (core_foldS (fun s x => ?_) _ _) ?_)
theorem State_auditQuire_kept (x0) (x1) : (@State.auditQuire x0 x1).core = x0.core := by
  unfold State.auditQuire
  (repeat' first | with_reducible rfl | (intros; simp only [State_quarantine_kept, keep_rules, ite_self, implies_true, core_fold, core_foldF, core_foldS]) | split | (rename _ = (_, _) => hh; obtain ⟨rfl, rfl⟩ := Prod.ext_iff.mp hh) | refine core_foldWith (fun s x => ?_) ?_ | refine Eq.trans (core_foldF (fun s x => ?_) _ _) ?_ | refine Eq.trans (core_foldS (fun s x => ?_) _ _) ?_)
theorem State_auditPort_kept (x0) (x1) : (@State.auditPort x0 x1).core = x0.core := by
  unfold State.auditPort
  (repeat' first | with_reducible rfl | (intros; simp only [State_updPort_kept, State_fault_kept, State_degradePort_kept, keep_rules, ite_self, implies_true, core_fold, core_foldF, core_foldS]) | split | (rename _ = (_, _) => hh; obtain ⟨rfl, rfl⟩ := Prod.ext_iff.mp hh) | refine core_foldWith (fun s x => ?_) ?_ | refine Eq.trans (core_foldF (fun s x => ?_) _ _) ?_ | refine Eq.trans (core_foldS (fun s x => ?_) _ _) ?_)
theorem State_audit_kept (x0) : (@State.audit x0).core = x0.core := by
  unfold State.audit
  (repeat' first | with_reducible rfl | (intros; simp only [State_fatal_kept, State_auditQuire_kept, State_auditPort_kept, State_markRefs_kept, keep_rules, ite_self, implies_true, core_fold, core_foldF, core_foldS]) | split | (rename _ = (_, _) => hh; obtain ⟨rfl, rfl⟩ := Prod.ext_iff.mp hh) | refine core_foldWith (fun s x => ?_) ?_ | refine Eq.trans (core_foldF (fun s x => ?_) _ _) ?_ | refine Eq.trans (core_foldS (fun s x => ?_) _ _) ?_)
theorem handlerOf_kept (x0) (x1) (x2) : (@handlerOf x0 x1 x2).1.core = x2.core := by
  unfold handlerOf
  (repeat' first | with_reducible rfl | (intros; simp only [hIdentColophon_kept, hIdentAttest_kept, hIdentCaps_kept, hPosAssign_kept, hPosLock_kept, hDiscScan_kept, hDiscMap_kept, hDiscManifest_kept, hQuireCarve_kept, hQuireGrow_kept, hQuireRelease_kept, hQuireReset_kept, hQuireStatus_kept, hRouteSolve_kept, hRouteInstall_kept, hBoreOpen_kept, hBoreClose_kept, hRouteDrain_kept, hRebindPlan_kept, hRebindCommit_kept, hRebindStatus_kept, hPortConfig_kept, hShaperSet_kept, hPortCounters_kept, hRedDefine_kept, hCollLaunch_kept, hCollStatus_kept, hTileRead_kept, hTileWrite_kept, hCollCancel_kept, hTenantOpen_kept, hKeyInstall_kept, hTenantEvict_kept, hMemScrub_kept, hLedgerStatus_kept, hLedgerCheckpoint_kept, hLedgerRead_kept, hFwDownload_kept, hFwVerify_kept, hFwActivate_kept, hFwConfirm_kept, hFwStatus_kept, hTelemSubscribe_kept, hTelemSnapshot_kept, hPowerStatus_kept, hPowerBudget_kept, hChanOpen_kept, hChanClose_kept, hChanNop_kept, hChanFence_kept, hDiagLoop_kept, hDiagLane_kept, hTableLoad_kept, hTableRead_kept, hTableActivate_kept, refuse_kept, keep_rules, ite_self, implies_true, core_fold, core_foldF, core_foldS]) | split | (rename _ = (_, _) => hh; obtain ⟨rfl, rfl⟩ := Prod.ext_iff.mp hh) | refine core_foldWith (fun s x => ?_) ?_ | refine Eq.trans (core_foldF (fun s x => ?_) _ _) ?_ | refine Eq.trans (core_foldS (fun s x => ?_) _ _) ?_)
theorem State_planChan_kept (x0) (x1) (x2) : (@State.planChan x0 x1 x2).1.core = x0.core := by
  unfold State.planChan
  (repeat' first | with_reducible rfl | (intros; simp only [State_read_kept, State_updChan_kept, keep_rules, ite_self, implies_true, core_fold, core_foldF, core_foldS]) | split | (rename _ = (_, _) => hh; obtain ⟨rfl, rfl⟩ := Prod.ext_iff.mp hh) | refine core_foldWith (fun s x => ?_) ?_ | refine Eq.trans (core_foldF (fun s x => ?_) _ _) ?_ | refine Eq.trans (core_foldS (fun s x => ?_) _ _) ?_)
theorem State_intake_kept (x0) : (@State.intake x0).core = x0.core := by
  unfold State.intake
  (repeat' first | with_reducible rfl | (intros; simp only [State_planChan_kept, keep_rules, ite_self, implies_true, core_fold, core_foldF, core_foldS]) | split | (rename _ = (_, _) => hh; obtain ⟨rfl, rfl⟩ := Prod.ext_iff.mp hh) | refine core_foldWith (fun s x => ?_) ?_ | refine Eq.trans (core_foldF (fun s x => ?_) _ _) ?_ | refine Eq.trans (core_foldS (fun s x => ?_) _ _) ?_)
theorem State_readAll_kept (x0) (x1) : (@State.readAll x0 x1).core = x0.core := by
  induction x1 generalizing x0 with
  | nil => exact id rfl
  | cons a l ih =>
    unfold State.readAll
    exact (ih _).trans ((State_read_kept _ _ _ _ (fun c s => handlerOf_kept _ c s)).trans (State_turn_kept _ _))
theorem State_endIntake_kept (x0) : (@State.endIntake x0).core = x0.core := by
  unfold State.endIntake
  (repeat' first | with_reducible rfl | (intros; simp only [State_readAll_kept, keep_rules, ite_self, implies_true, core_fold, core_foldF, core_foldS]) | split | (rename _ = (_, _) => hh; obtain ⟨rfl, rfl⟩ := Prod.ext_iff.mp hh) | refine core_foldWith (fun s x => ?_) ?_ | refine Eq.trans (core_foldF (fun s x => ?_) _ _) ?_ | refine Eq.trans (core_foldS (fun s x => ?_) _ _) ?_)
theorem State_countHours_kept (x0) (x1) : (@State.countHours x0 x1).core = x0.core := by
  unfold State.countHours
  (repeat' first | with_reducible rfl | (intros; simp only [State_stageOwn_kept, keep_rules, ite_self, implies_true, core_fold, core_foldF, core_foldS]) | split | (rename _ = (_, _) => hh; obtain ⟨rfl, rfl⟩ := Prod.ext_iff.mp hh) | refine core_foldWith (fun s x => ?_) ?_ | refine Eq.trans (core_foldF (fun s x => ?_) _ _) ?_ | refine Eq.trans (core_foldS (fun s x => ?_) _ _) ?_)
theorem State_scrubTick_kept (x0) (x1) : (@State.scrubTick x0 x1).core = x0.core := by
  unfold State.scrubTick
  (repeat' first | with_reducible rfl | (intros; simp only [State_stage_kept, State_updVol_kept, keep_rules, ite_self, implies_true, core_fold, core_foldF, core_foldS]) | split | (rename _ = (_, _) => hh; obtain ⟨rfl, rfl⟩ := Prod.ext_iff.mp hh) | refine core_foldWith (fun s x => ?_) ?_ | refine Eq.trans (core_foldF (fun s x => ?_) _ _) ?_ | refine Eq.trans (core_foldS (fun s x => ?_) _ _) ?_)
theorem State_discoveryEnds_kept (x0) : (@State.discoveryEnds x0).core = x0.core := by
  unfold State.discoveryEnds
  (repeat' first | with_reducible rfl | (intros; simp only [State_stage_kept, keep_rules, ite_self, implies_true, core_fold, core_foldF, core_foldS]) | split | (rename _ = (_, _) => hh; obtain ⟨rfl, rfl⟩ := Prod.ext_iff.mp hh) | refine core_foldWith (fun s x => ?_) ?_ | refine Eq.trans (core_foldF (fun s x => ?_) _ _) ?_ | refine Eq.trans (core_foldS (fun s x => ?_) _ _) ?_)
theorem State_fixRegs_kept (x0) : (@State.fixRegs x0).core = x0.core := by
  unfold State.fixRegs
  (repeat' first | with_reducible rfl | (intros; simp only [State_raiseNow_kept, State_driveFaultN_kept, State_latchRegs_kept, State_noteRegs_kept, keep_rules, ite_self, implies_true, core_fold, core_foldF, core_foldS]) | split | (rename _ = (_, _) => hh; obtain ⟨rfl, rfl⟩ := Prod.ext_iff.mp hh) | refine core_foldWith (fun s x => ?_) ?_ | refine Eq.trans (core_foldF (fun s x => ?_) _ _) ?_ | refine Eq.trans (core_foldS (fun s x => ?_) _ _) ?_)
theorem State_moveChan_kept (x0) (x1) (x2) : (@State.moveChan x0 x1 x2).core = x0.core := by
  unfold State.moveChan
  (repeat' first | with_reducible rfl | (intros; simp only [State_updChan_kept, keep_rules, ite_self, implies_true, core_fold, core_foldF, core_foldS]) | split | (rename _ = (_, _) => hh; obtain ⟨rfl, rfl⟩ := Prod.ext_iff.mp hh) | refine core_foldWith (fun s x => ?_) ?_ | refine Eq.trans (core_foldF (fun s x => ?_) _ _) ?_ | refine Eq.trans (core_foldS (fun s x => ?_) _ _) ?_)
theorem State_newManifest_kept (x0) (x1) : (@State.newManifest x0 x1).core = x0.core := by
  unfold State.newManifest
  (repeat' first | with_reducible rfl | (intros; simp only [State_moveChan_kept, State_newPeriod_kept, keep_rules, ite_self, implies_true, core_fold, core_foldF, core_foldS]) | split | (rename _ = (_, _) => hh; obtain ⟨rfl, rfl⟩ := Prod.ext_iff.mp hh) | refine core_foldWith (fun s x => ?_) ?_ | refine Eq.trans (core_foldF (fun s x => ?_) _ _) ?_ | refine Eq.trans (core_foldS (fun s x => ?_) _ _) ?_)
theorem State_newVolume_kept (x0) (x1) (x2) (x3) : (@State.newVolume x0 x1 x2 x3).core = x0.core := by
  unfold State.newVolume
  (repeat' first | with_reducible rfl | (intros; simp only [State_elect_kept, State_assignAll_kept, keep_rules, ite_self, implies_true, core_fold, core_foldF, core_foldS]) | split | (rename _ = (_, _) => hh; obtain ⟨rfl, rfl⟩ := Prod.ext_iff.mp hh) | refine core_foldWith (fun s x => ?_) ?_ | refine Eq.trans (core_foldF (fun s x => ?_) _ _) ?_ | refine Eq.trans (core_foldS (fun s x => ?_) _ _) ?_)
theorem State_unbind_kept (x0) (x1) : (@State.unbind x0 x1).core = x0.core := by
  unfold State.unbind
  (repeat' first | with_reducible rfl | (intros; simp only [State_closeChan_kept, keep_rules, ite_self, implies_true, core_fold, core_foldF, core_foldS]) | split | (rename _ = (_, _) => hh; obtain ⟨rfl, rfl⟩ := Prod.ext_iff.mp hh) | refine core_foldWith (fun s x => ?_) ?_ | refine Eq.trans (core_foldF (fun s x => ?_) _ _) ?_ | refine Eq.trans (core_foldS (fun s x => ?_) _ _) ?_)
theorem State_newIp_kept (x0) (x1) (x2) : (@State.newIp x0 x1 x2).core = x0.core := by
  unfold State.newIp
  (repeat' first | with_reducible rfl | (intros; simp only [State_announceIp_kept, keep_rules, ite_self, implies_true, core_fold, core_foldF, core_foldS]) | split | (rename _ = (_, _) => hh; obtain ⟨rfl, rfl⟩ := Prod.ext_iff.mp hh) | refine core_foldWith (fun s x => ?_) ?_ | refine Eq.trans (core_foldF (fun s x => ?_) _ _) ?_ | refine Eq.trans (core_foldS (fun s x => ?_) _ _) ?_)
theorem State_wantScans_kept (x0) : (@State.wantScans x0).core = x0.core := by
  unfold State.wantScans
  (repeat' first | with_reducible rfl | (intros; simp only [State_stage_kept, keep_rules, ite_self, implies_true, core_fold, core_foldF, core_foldS]) | split | (rename _ = (_, _) => hh; obtain ⟨rfl, rfl⟩ := Prod.ext_iff.mp hh) | refine core_foldWith (fun s x => ?_) ?_ | refine Eq.trans (core_foldF (fun s x => ?_) _ _) ?_ | refine Eq.trans (core_foldS (fun s x => ?_) _ _) ?_)
theorem State_newTables_kept (x0) (x1) : (@State.newTables x0 x1).core = x0.core := by
  unfold State.newTables
  (repeat' first | with_reducible rfl | (intros; simp only [State_newLst_kept, State_newTtc_kept, keep_rules, ite_self, implies_true, core_fold, core_foldF, core_foldS]) | split | (rename _ = (_, _) => hh; obtain ⟨rfl, rfl⟩ := Prod.ext_iff.mp hh) | refine core_foldWith (fun s x => ?_) ?_ | refine Eq.trans (core_foldF (fun s x => ?_) _ _) ?_ | refine Eq.trans (core_foldS (fun s x => ?_) _ _) ?_)
theorem State_tellQuire_kept (x0) (x1) (x2) : (@State.tellQuire x0 x1 x2).core = x0.core := by
  unfold State.tellQuire
  (repeat' first | with_reducible rfl | (intros; simp only [State_announceQuire_kept, keep_rules, ite_self, implies_true, core_fold, core_foldF, core_foldS]) | split | (rename _ = (_, _) => hh; obtain ⟨rfl, rfl⟩ := Prod.ext_iff.mp hh) | refine core_foldWith (fun s x => ?_) ?_ | refine Eq.trans (core_foldF (fun s x => ?_) _ _) ?_ | refine Eq.trans (core_foldS (fun s x => ?_) _ _) ?_)
theorem State_tellPart_kept (x0) (x1) (x2) : (@State.tellPart x0 x1 x2).core = x0.core := by
  unfold State.tellPart
  (repeat' first | with_reducible rfl | (intros; simp only [State_announcePart_kept, keep_rules, ite_self, implies_true, core_fold, core_foldF, core_foldS]) | split | (rename _ = (_, _) => hh; obtain ⟨rfl, rfl⟩ := Prod.ext_iff.mp hh) | refine core_foldWith (fun s x => ?_) ?_ | refine Eq.trans (core_foldF (fun s x => ?_) _ _) ?_ | refine Eq.trans (core_foldS (fun s x => ?_) _ _) ?_)
theorem State_tellReleased_kept (x0) (x1) : (@State.tellReleased x0 x1).core = x0.core := by
  unfold State.tellReleased
  (repeat' first | with_reducible rfl | (intros; simp only [State_announcePart_kept, keep_rules, ite_self, implies_true, core_fold, core_foldF, core_foldS]) | split | (rename _ = (_, _) => hh; obtain ⟨rfl, rfl⟩ := Prod.ext_iff.mp hh) | refine core_foldWith (fun s x => ?_) ?_ | refine Eq.trans (core_foldF (fun s x => ?_) _ _) ?_ | refine Eq.trans (core_foldS (fun s x => ?_) _ _) ?_)
theorem State_wantTables_kept (x0) (x1) : (@State.wantTables x0 x1).core = x0.core := by
  unfold State.wantTables
  (repeat' first | with_reducible rfl | (intros; simp only [State_updQuireVol_kept, State_startTask_kept, keep_rules, ite_self, implies_true, core_fold, core_foldF, core_foldS]) | split | (rename _ = (_, _) => hh; obtain ⟨rfl, rfl⟩ := Prod.ext_iff.mp hh) | refine core_foldWith (fun s x => ?_) ?_ | refine Eq.trans (core_foldF (fun s x => ?_) _ _) ?_ | refine Eq.trans (core_foldS (fun s x => ?_) _ _) ?_)
theorem State_greetNew_kept (x0) (x1) (x2) : (@State.greetNew x0 x1 x2).core = x0.core := by
  unfold State.greetNew
  (repeat' first | with_reducible rfl | (intros; simp only [State_sendCtls_kept, keep_rules, ite_self, implies_true, core_fold, core_foldF, core_foldS]) | split | (rename _ = (_, _) => hh; obtain ⟨rfl, rfl⟩ := Prod.ext_iff.mp hh) | refine core_foldWith (fun s x => ?_) ?_ | refine Eq.trans (core_foldF (fun s x => ?_) _ _) ?_ | refine Eq.trans (core_foldS (fun s x => ?_) _ _) ?_)
theorem State_newQuires_kept (x0) (x1) : (@State.newQuires x0 x1).core = x0.core := by
  unfold State.newQuires
  (repeat' first | with_reducible rfl | (intros; simp only [State_tellQuire_kept, State_tellPart_kept, State_wantTables_kept, State_greetNew_kept, State_tellReleased_kept, keep_rules, ite_self, implies_true, core_fold, core_foldF, core_foldS]) | split | (rename _ = (_, _) => hh; obtain ⟨rfl, rfl⟩ := Prod.ext_iff.mp hh) | refine core_foldWith (fun s x => ?_) ?_ | refine Eq.trans (core_foldF (fun s x => ?_) _ _) ?_ | refine Eq.trans (core_foldS (fun s x => ?_) _ _) ?_)
theorem State_boundaryTask_kept (x0) (x1) : (@State.boundaryTask x0 x1).core = x0.core := by
  unfold State.boundaryTask
  (repeat' first | with_reducible rfl | (intros; simp only [State_boundaryRebind_kept, State_boundaryReset_kept, State_boundaryEvict_kept, State_boundaryLoop_kept, State_boundaryDrain_kept, keep_rules, ite_self, implies_true, core_fold, core_foldF, core_foldS]) | split | (rename _ = (_, _) => hh; obtain ⟨rfl, rfl⟩ := Prod.ext_iff.mp hh) | refine core_foldWith (fun s x => ?_) ?_ | refine Eq.trans (core_foldF (fun s x => ?_) _ _) ?_ | refine Eq.trans (core_foldS (fun s x => ?_) _ _) ?_)
theorem State_boundaryTasks_kept (x0) : (@State.boundaryTasks x0).core = x0.core := by
  unfold State.boundaryTasks
  (repeat' first | with_reducible rfl | (intros; simp only [State_boundaryTask_kept, keep_rules, ite_self, implies_true, core_fold, core_foldF, core_foldS]) | split | (rename _ = (_, _) => hh; obtain ⟨rfl, rfl⟩ := Prod.ext_iff.mp hh) | refine core_foldWith (fun s x => ?_) ?_ | refine Eq.trans (core_foldF (fun s x => ?_) _ _) ?_ | refine Eq.trans (core_foldS (fun s x => ?_) _ _) ?_)
theorem State_countReports_kept (x0) : (@State.countReports x0).core = x0.core := by
  unfold State.countReports
  (repeat' first | with_reducible rfl | (intros; simp only [State_stage_kept, keep_rules, ite_self, implies_true, core_fold, core_foldF, core_foldS]) | split | (rename _ = (_, _) => hh; obtain ⟨rfl, rfl⟩ := Prod.ext_iff.mp hh) | refine core_foldWith (fun s x => ?_) ?_ | refine Eq.trans (core_foldF (fun s x => ?_) _ _) ?_ | refine Eq.trans (core_foldS (fun s x => ?_) _ _) ?_)
theorem State_tellDone_kept (x0) : (@State.tellDone x0).core = x0.core := by
  unfold State.tellDone
  (repeat' first | with_reducible rfl | (intros; simp only [State_tellBores_kept, keep_rules, ite_self, implies_true, core_fold, core_foldF, core_foldS]) | split | (rename _ = (_, _) => hh; obtain ⟨rfl, rfl⟩ := Prod.ext_iff.mp hh) | refine core_foldWith (fun s x => ?_) ?_ | refine Eq.trans (core_foldF (fun s x => ?_) _ _) ?_ | refine Eq.trans (core_foldS (fun s x => ?_) _ _) ?_)
theorem State_planReset_kept (x0) : (@State.planReset x0).core = x0.core := by
  unfold State.planReset
  (repeat' first | with_reducible rfl | (intros; simp only [State_stopAdmission_kept, keep_rules, ite_self, implies_true, core_fold, core_foldF, core_foldS]) | split | (rename _ = (_, _) => hh; obtain ⟨rfl, rfl⟩ := Prod.ext_iff.mp hh) | refine core_foldWith (fun s x => ?_) ?_ | refine Eq.trans (core_foldF (fun s x => ?_) _ _) ?_ | refine Eq.trans (core_foldS (fun s x => ?_) _ _) ?_)
theorem State_noteReply_kept (x0) : (@State.noteReply x0).core = x0.core := by
  unfold State.noteReply
  (repeat' first | with_reducible rfl | (intros; simp only [keep_rules, ite_self, implies_true, core_fold, core_foldF, core_foldS]) | split | (rename _ = (_, _) => hh; obtain ⟨rfl, rfl⟩ := Prod.ext_iff.mp hh) | refine core_foldWith (fun s x => ?_) ?_ | refine Eq.trans (core_foldF (fun s x => ?_) _ _) ?_ | refine Eq.trans (core_foldS (fun s x => ?_) _ _) ?_)
theorem State_houseReturned_kept (x0) : (@State.houseReturned x0).core = x0.core := by
  unfold State.houseReturned
  (repeat' first | with_reducible rfl | (intros; simp only [State_mapTo_kept, State_setDegraded_kept, State_fault_kept, keep_rules, ite_self, implies_true, core_fold, core_foldF, core_foldS]) | split | (rename _ = (_, _) => hh; obtain ⟨rfl, rfl⟩ := Prod.ext_iff.mp hh) | refine core_foldWith (fun s x => ?_) ?_ | refine Eq.trans (core_foldF (fun s x => ?_) _ _) ?_ | refine Eq.trans (core_foldS (fun s x => ?_) _ _) ?_)
theorem State_enginesAt0_kept (x0) : (@State.enginesAt0 x0).core = x0.core := by
  unfold State.enginesAt0
  (repeat' first | with_reducible rfl | (intros; simp only [State_holdAdmission_kept, State_boundaryTasks_kept, State_boundaryOps_kept, State_resendFlows_kept, State_reportFlows_kept, State_countReports_kept, State_planReset_kept, keep_rules, ite_self, implies_true, core_fold, core_foldF, core_foldS]) | split | (rename _ = (_, _) => hh; obtain ⟨rfl, rfl⟩ := Prod.ext_iff.mp hh) | refine core_foldWith (fun s x => ?_) ?_ | refine Eq.trans (core_foldF (fun s x => ?_) _ _) ?_ | refine Eq.trans (core_foldS (fun s x => ?_) _ _) ?_)
theorem execCmdTailWrite_kept (x0) (x1) (x2) (x3) : ∃ t, (@execCmdTailWrite x0 x1 x2 x3) = .next t ∧ t.core = x3.core := by unfold execCmdTailWrite; exact ⟨_, rfl, by (repeat' first | with_reducible rfl | (intros; simp only [State_hostWrite_kept, keep_rules, ite_self, implies_true, core_fold, core_foldF, core_foldS]) | split | (rename _ = (_, _) => hh; obtain ⟨rfl, rfl⟩ := Prod.ext_iff.mp hh) | refine core_foldWith (fun s x => ?_) ?_ | refine Eq.trans (core_foldF (fun s x => ?_) _ _) ?_ | refine Eq.trans (core_foldS (fun s x => ?_) _ _) ?_)⟩
theorem execRplHeadWrite_kept (x0) (x1) (x2) : ∃ t, (@execRplHeadWrite x0 x1 x2) = .next t ∧ t.core = x2.core := by unfold execRplHeadWrite; (try dsimp only); (repeat' first | (split) | (rename _ = (_, _) => hh; obtain ⟨rfl, rfl⟩ := Prod.ext_iff.mp hh)) <;> exact ⟨_, rfl, by (repeat' first | with_reducible rfl | (intros; simp only [State_updChan_kept, State_checkRing_kept, keep_rules, ite_self, implies_true, core_fold, core_foldF, core_foldS]) | split | (rename _ = (_, _) => hh; obtain ⟨rfl, rfl⟩ := Prod.ext_iff.mp hh) | refine core_foldWith (fun s x => ?_) ?_ | refine Eq.trans (core_foldF (fun s x => ?_) _ _) ?_ | refine Eq.trans (core_foldS (fun s x => ?_) _ _) ?_)⟩
theorem execIrqStatClear_kept (x0) (x1) : ∃ t, (@execIrqStatClear x0 x1) = .next t ∧ t.core = x1.core := by unfold execIrqStatClear; (try dsimp only); (repeat' first | (split) | (rename _ = (_, _) => hh; obtain ⟨rfl, rfl⟩ := Prod.ext_iff.mp hh)) <;> exact ⟨_, rfl, by (repeat' first | with_reducible rfl | (intros; simp only [keep_rules, ite_self, implies_true, core_fold, core_foldF, core_foldS]) | split | (rename _ = (_, _) => hh; obtain ⟨rfl, rfl⟩ := Prod.ext_iff.mp hh) | refine core_foldWith (fun s x => ?_) ?_ | refine Eq.trans (core_foldF (fun s x => ?_) _ _) ?_ | refine Eq.trans (core_foldS (fun s x => ?_) _ _) ?_)⟩
theorem execIrqMaskWrite_kept (x0) (x1) : ∃ t, (@execIrqMaskWrite x0 x1) = .next t ∧ t.core = x1.core := by unfold execIrqMaskWrite; (try dsimp only); (repeat' first | (split) | (rename _ = (_, _) => hh; obtain ⟨rfl, rfl⟩ := Prod.ext_iff.mp hh)) <;> exact ⟨_, rfl, by (repeat' first | with_reducible rfl | (intros; simp only [keep_rules, ite_self, implies_true, core_fold, core_foldF, core_foldS]) | split | (rename _ = (_, _) => hh; obtain ⟨rfl, rfl⟩ := Prod.ext_iff.mp hh) | refine core_foldWith (fun s x => ?_) ?_ | refine Eq.trans (core_foldF (fun s x => ?_) _ _) ?_ | refine Eq.trans (core_foldS (fun s x => ?_) _ _) ?_)⟩
theorem execRimodeWrite_kept (x0) (x1) : ∃ t, (@execRimodeWrite x0 x1) = .next t ∧ t.core = x1.core := by unfold execRimodeWrite; (try dsimp only); (repeat' first | (split) | (rename _ = (_, _) => hh; obtain ⟨rfl, rfl⟩ := Prod.ext_iff.mp hh)) <;> exact ⟨_, rfl, by (repeat' first | with_reducible rfl | (intros; simp only [keep_rules, ite_self, implies_true, core_fold, core_foldF, core_foldS]) | split | (rename _ = (_, _) => hh; obtain ⟨rfl, rfl⟩ := Prod.ext_iff.mp hh) | refine core_foldWith (fun s x => ?_) ?_ | refine Eq.trans (core_foldF (fun s x => ?_) _ _) ?_ | refine Eq.trans (core_foldS (fun s x => ?_) _ _) ?_)⟩
theorem execMbxDoorbellWrite_kept (x0) (x1) : ∃ t, (@execMbxDoorbellWrite x0 x1) = .next t ∧ t.core = x1.core := by unfold execMbxDoorbellWrite; (try dsimp only); (repeat' first | (split) | (rename _ = (_, _) => hh; obtain ⟨rfl, rfl⟩ := Prod.ext_iff.mp hh)) <;> exact ⟨_, rfl, by (repeat' first | with_reducible rfl | (intros; simp only [keep_rules, ite_self, implies_true, core_fold, core_foldF, core_foldS]) | split | (rename _ = (_, _) => hh; obtain ⟨rfl, rfl⟩ := Prod.ext_iff.mp hh) | refine core_foldWith (fun s x => ?_) ?_ | refine Eq.trans (core_foldF (fun s x => ?_) _ _) ?_ | refine Eq.trans (core_foldS (fun s x => ?_) _ _) ?_)⟩
theorem execRegisterWriteIgnored_kept (x0) (x1) (x2) (x3) : ∃ t, (@execRegisterWriteIgnored x0 x1 x2 x3) = .next t ∧ t.core = x3.core := by unfold execRegisterWriteIgnored; exact ⟨_, rfl, by (repeat' first | with_reducible rfl | (intros; simp only [keep_rules, ite_self, implies_true, core_fold, core_foldF, core_foldS]) | split | (rename _ = (_, _) => hh; obtain ⟨rfl, rfl⟩ := Prod.ext_iff.mp hh) | refine core_foldWith (fun s x => ?_) ?_ | refine Eq.trans (core_foldF (fun s x => ?_) _ _) ?_ | refine Eq.trans (core_foldS (fun s x => ?_) _ _) ?_)⟩
theorem State_perstReset_kept (x0) : (@State.perstReset x0).core = x0.core := by
  unfold State.perstReset
  (repeat' first | with_reducible rfl | (intros; simp only [keep_rules, ite_self, implies_true, core_fold, core_foldF, core_foldS]) | split | (rename _ = (_, _) => hh; obtain ⟨rfl, rfl⟩ := Prod.ext_iff.mp hh) | refine core_foldWith (fun s x => ?_) ?_ | refine Eq.trans (core_foldF (fun s x => ?_) _ _) ?_ | refine Eq.trans (core_foldS (fun s x => ?_) _ _) ?_)
theorem execPerstNAssert_kept (x0) (x1) : ∃ t, (@execPerstNAssert x0 x1) = .next t ∧ t.core = x1.core := by unfold execPerstNAssert; (try dsimp only); (repeat' first | (split) | (rename _ = (_, _) => hh; obtain ⟨rfl, rfl⟩ := Prod.ext_iff.mp hh)) <;> exact ⟨_, rfl, by (repeat' first | with_reducible rfl | (intros; simp only [State_perstReset_kept, State_freeBool_kept, keep_rules, ite_self, implies_true, core_fold, core_foldF, core_foldS]) | split | (rename _ = (_, _) => hh; obtain ⟨rfl, rfl⟩ := Prod.ext_iff.mp hh) | refine core_foldWith (fun s x => ?_) ?_ | refine Eq.trans (core_foldF (fun s x => ?_) _ _) ?_ | refine Eq.trans (core_foldS (fun s x => ?_) _ _) ?_)⟩
theorem execPerstNDeassert_kept (x0) : ∃ t, (@execPerstNDeassert x0) = .next t ∧ t.core = x0.core := by unfold execPerstNDeassert; exact ⟨_, rfl, by (repeat' first | with_reducible rfl | (intros; simp only [keep_rules, ite_self, implies_true, core_fold, core_foldF, core_foldS]) | split | (rename _ = (_, _) => hh; obtain ⟨rfl, rfl⟩ := Prod.ext_iff.mp hh) | refine core_foldWith (fun s x => ?_) ?_ | refine Eq.trans (core_foldF (fun s x => ?_) _ _) ?_ | refine Eq.trans (core_foldS (fun s x => ?_) _ _) ?_)⟩
theorem execConfigurationRequest_kept (x0) (x1) : ∃ t, (@execConfigurationRequest x0 x1) = .next t ∧ t.core = x1.core := by unfold execConfigurationRequest; (try dsimp only); (repeat' first | (split) | (rename _ = (_, _) => hh; obtain ⟨rfl, rfl⟩ := Prod.ext_iff.mp hh)) <;> exact ⟨_, rfl, by (repeat' first | with_reducible rfl | (intros; simp only [keep_rules, ite_self, implies_true, core_fold, core_foldF, core_foldS]) | split | (rename _ = (_, _) => hh; obtain ⟨rfl, rfl⟩ := Prod.ext_iff.mp hh) | refine core_foldWith (fun s x => ?_) ?_ | refine Eq.trans (core_foldF (fun s x => ?_) _ _) ?_ | refine Eq.trans (core_foldS (fun s x => ?_) _ _) ?_)⟩
theorem execJtagInstruction_kept (x0) (x1) : ∃ t, (@execJtagInstruction x0 x1) = .next t ∧ t.core = x1.core := by unfold execJtagInstruction; exact ⟨_, rfl, by (repeat' first | with_reducible rfl | (intros; simp only [keep_rules, ite_self, implies_true, core_fold, core_foldF, core_foldS]) | split | (rename _ = (_, _) => hh; obtain ⟨rfl, rfl⟩ := Prod.ext_iff.mp hh) | refine core_foldWith (fun s x => ?_) ?_ | refine Eq.trans (core_foldF (fun s x => ?_) _ _) ?_ | refine Eq.trans (core_foldS (fun s x => ?_) _ _) ?_)⟩
theorem State_workRewrite_kept (x0) (x1) (x2) (x3) (x4) (x5) : (@State.workRewrite x0 x1 x2 x3 x4 x5).1.core = x0.core := by
  unfold State.workRewrite
  (repeat' first | with_reducible rfl | (intros; simp only [State_dropTask_kept, State_writeAgain_kept, State_writeShadows_kept, State_updTask_kept, State_switchJobs_kept, State_updQuireVol_kept, State_sendCtls_kept, keep_rules, ite_self, implies_true, core_fold, core_foldF, core_foldS]) | split | (rename _ = (_, _) => hh; obtain ⟨rfl, rfl⟩ := Prod.ext_iff.mp hh) | refine core_foldWith (fun s x => ?_) ?_ | refine Eq.trans (core_foldF (fun s x => ?_) _ _) ?_ | refine Eq.trans (core_foldS (fun s x => ?_) _ _) ?_)
theorem State_workOf_kept (x0) (x1) (x2) : (@State.workOf x0 x1 x2).1.core = x0.core := by
  unfold State.workOf
  (repeat' first | with_reducible rfl | (intros; simp only [State_workSolve_kept, State_workInstall_kept, State_workPlan_kept, State_workRebind_kept, State_workActivate_kept, State_workRewrite_kept, State_workReset_kept, keep_rules, ite_self, implies_true, core_fold, core_foldF, core_foldS]) | split | (rename _ = (_, _) => hh; obtain ⟨rfl, rfl⟩ := Prod.ext_iff.mp hh) | refine core_foldWith (fun s x => ?_) ?_ | refine Eq.trans (core_foldF (fun s x => ?_) _ _) ?_ | refine Eq.trans (core_foldS (fun s x => ?_) _ _) ?_)
theorem State_workTask_kept (x0) (x1) (x2) : (@State.workTask x0 x1 x2).1.core = x0.core := by
  unfold State.workTask
  (repeat' first | with_reducible rfl | (intros; simp only [State_updTask_kept, State_stepRan_kept, State_workOf_kept, keep_rules, ite_self, implies_true, core_fold, core_foldF, core_foldS]) | split | (rename _ = (_, _) => hh; obtain ⟨rfl, rfl⟩ := Prod.ext_iff.mp hh) | refine core_foldWith (fun s x => ?_) ?_ | refine Eq.trans (core_foldF (fun s x => ?_) _ _) ?_ | refine Eq.trans (core_foldS (fun s x => ?_) _ _) ?_)
theorem State_workTasks_kept (x0) : (@State.workTasks x0).core = x0.core := by
  unfold State.workTasks
  (repeat' first | with_reducible rfl | (intros; simp only [State_workTask_kept, keep_rules, ite_self, implies_true, core_fold, core_foldF, core_foldS]) | split | (rename _ = (_, _) => hh; obtain ⟨rfl, rfl⟩ := Prod.ext_iff.mp hh) | refine core_foldWith (fun s x => ?_) ?_ | refine Eq.trans (core_foldF (fun s x => ?_) _ _) ?_ | refine Eq.trans (core_foldS (fun s x => ?_) _ _) ?_)
theorem State_closeDue_kept (x0) : (@State.closeDue x0).core = x0.core := by
  unfold State.closeDue
  (repeat' first | with_reducible rfl | (intros; simp only [State_closeChan_kept, keep_rules, ite_self, implies_true, core_fold, core_foldF, core_foldS]) | split | (rename _ = (_, _) => hh; obtain ⟨rfl, rfl⟩ := Prod.ext_iff.mp hh) | refine core_foldWith (fun s x => ?_) ?_ | refine Eq.trans (core_foldF (fun s x => ?_) _ _) ?_ | refine Eq.trans (core_foldS (fun s x => ?_) _ _) ?_)
theorem State_moveHouses_kept (x0) : (@State.moveHouses x0).core = x0.core := by
  unfold State.moveHouses
  refine core_fold (fun s x => ?_) _ _
  obtain ⟨t, h, k⟩ := execHouseBoreMove_kept x s
  rw [h]
  exact k
theorem State_samplePorts_kept (x0) : (@State.samplePorts x0).core = x0.core := by
  unfold State.samplePorts
  (repeat' first | with_reducible rfl | (intros; simp only [State_freeNat_kept, keep_rules, ite_self, implies_true, core_fold, core_foldF, core_foldS]) | split | (rename _ = (_, _) => hh; obtain ⟨rfl, rfl⟩ := Prod.ext_iff.mp hh) | refine core_foldWith (fun s x => ?_) ?_ | refine Eq.trans (core_foldF (fun s x => ?_) _ _) ?_ | refine Eq.trans (core_foldS (fun s x => ?_) _ _) ?_)
theorem State_sampleMirror_kept (x0) : (@State.sampleMirror x0).core = x0.core := by
  unfold State.sampleMirror
  (repeat' first | with_reducible rfl | (intros; simp only [keep_rules, ite_self, implies_true, core_fold, core_foldF, core_foldS]) | split | (rename _ = (_, _) => hh; obtain ⟨rfl, rfl⟩ := Prod.ext_iff.mp hh) | refine core_foldWith (fun s x => ?_) ?_ | refine Eq.trans (core_foldF (fun s x => ?_) _ _) ?_ | refine Eq.trans (core_foldS (fun s x => ?_) _ _) ?_)
theorem State_sealTaskOf_kept (x0) (x1) : (@State.sealTaskOf x0 x1).core = x0.core := by
  unfold State.sealTaskOf
  (repeat' first | with_reducible rfl | (intros; simp only [State_sealRebind_kept, State_sealReset_kept, State_sealEvict_kept, State_sealDrain_kept, keep_rules, ite_self, implies_true, core_fold, core_foldF, core_foldS]) | split | (rename _ = (_, _) => hh; obtain ⟨rfl, rfl⟩ := Prod.ext_iff.mp hh) | refine core_foldWith (fun s x => ?_) ?_ | refine Eq.trans (core_foldF (fun s x => ?_) _ _) ?_ | refine Eq.trans (core_foldS (fun s x => ?_) _ _) ?_)
theorem State_sealAll_kept (x0) : (@State.sealAll x0).core = x0.core := by
  unfold State.sealAll
  (repeat' first | with_reducible rfl | (intros; simp only [State_sealTaskOf_kept, State_sealOps_kept, keep_rules, ite_self, implies_true, core_fold, core_foldF, core_foldS]) | split | (rename _ = (_, _) => hh; obtain ⟨rfl, rfl⟩ := Prod.ext_iff.mp hh) | refine core_foldWith (fun s x => ?_) ?_ | refine Eq.trans (core_foldF (fun s x => ?_) _ _) ?_ | refine Eq.trans (core_foldS (fun s x => ?_) _ _) ?_)
theorem State_postSeal_kept (x0) : (@State.postSeal x0).core = x0.core := by
  unfold State.postSeal
  (repeat' first | with_reducible rfl | (intros; simp only [State_flushSeal_kept, keep_rules, ite_self, implies_true, core_fold, core_foldF, core_foldS]) | split | (rename _ = (_, _) => hh; obtain ⟨rfl, rfl⟩ := Prod.ext_iff.mp hh) | refine core_foldWith (fun s x => ?_) ?_ | refine Eq.trans (core_foldF (fun s x => ?_) _ _) ?_ | refine Eq.trans (core_foldS (fun s x => ?_) _ _) ?_)

end Kept
end Sys2Proof.Machine
end

