-- ==== Sys2Proof/Laws/Changes.lean ====
section
/-! SUPPORT. What the commands that change the tick, the visible state, the fuses or the commit credits do to them: the phases, the
boundary, the journal's writes, the restore, and the resets. -/
namespace Sys2Proof.Laws
set_option linter.all false
set_option Elab.async false
open Sys2Proof Sys2Proof.Machine
theorem execWorkPhase_core (s : State) : ∃ t, execWorkPhase s = .next t ∧
    (t = s ∨ (s.clk.running = true ∧ s.clk.phase = .intake ∧ t.core = (s.pending, s.fuses, s.vis, s.clk.now, .work, s.ledger.credits))) := by
  unfold execWorkPhase
  split
  · exact ⟨s, rfl, .inl rfl⟩
  · rename_i h
    simp only [Bool.or_eq_true, Bool.not_eq_true', decide_eq_true_eq, not_or, Bool.not_eq_false, not_not] at h
    extract_lets a k b
    have hb : b.core = (s.pending, s.fuses, s.vis, s.clk.now, .work, s.ledger.credits) := by
      have ha : a.core = s.core := (Kept.State_closeDue_kept _).trans (Kept.State_endIntake_kept _)
      simp only [State.core, Prod.mk.injEq] at ha
      simp only [b, k, State.core, Prod.mk.injEq, ha, and_self]
    split
    · exact ⟨b, rfl, .inr ⟨h.1, h.2, hb⟩⟩
    · refine ⟨_, rfl, .inr ⟨h.1, h.2, ?_⟩⟩
      simp only [Kept.State_nextChanges_kept, Kept.State_moveHouses_kept, Kept.State_workTasks_kept, Kept.State_lstAll_kept,
        Kept.State_resolveClaims_kept, Kept.State_joinLate_kept]
      exact (by simp only [Kept.State_lstAll_kept, Kept.State_resolveClaims_kept, Kept.State_joinLate_kept] : (b.joinLate.resolveClaims.lstAll).core = b.core).trans hb
theorem execDronePhase_core (x : SensorSample) (s : State) : ∃ t, execDronePhase x s = .next t ∧
    (t = s ∨ (s.clk.running = true ∧ s.clk.phase = .work ∧ t.core = (s.pending, s.fuses, s.vis, s.clk.now, .drone, s.ledger.credits))) := by
  unfold execDronePhase
  split
  · exact ⟨s, rfl, .inl rfl⟩
  · rename_i h
    simp only [Bool.or_eq_true, Bool.not_eq_true', decide_eq_true_eq, not_or, Bool.not_eq_false, not_not] at h
    extract_lets k a b
    have hb : b.core = (s.pending, s.fuses, s.vis, s.clk.now, .drone, s.ledger.credits) := by
      have ha : a.core = (s.pending, s.fuses, s.vis, s.clk.now, .drone, s.ledger.credits) := rfl
      simp only [b, Kept.State_samplePorts_kept, Kept.State_senseHeat_kept, Kept.State_sensePower_kept, ha]
    split
    · exact ⟨_, rfl, .inr ⟨h.1, h.2, (Kept.State_sampleMirror_kept _).trans hb⟩⟩
    · refine ⟨_, rfl, .inr ⟨h.1, h.2, ?_⟩⟩
      simp only [Kept.State_sampleMirror_kept, Kept.State_slewOnce_kept, Kept.State_buildAnchor_kept, Kept.State_buildGroups_kept, Kept.State_raiseNonces_kept, Kept.State_fecEvents_kept, hb]
theorem execSealPhase_core (s : State) : ∃ t, execSealPhase s = .next t ∧
    (t = s ∨ (s.clk.running = true ∧ s.clk.phase = .drone ∧ t.core = (s.pending, s.fuses, s.vis, s.clk.now, .seal, s.ledger.credits))) := by
  unfold execSealPhase
  split
  · exact ⟨s, rfl, .inl rfl⟩
  · rename_i h
    simp only [Bool.or_eq_true, Bool.not_eq_true', decide_eq_true_eq, not_or, Bool.not_eq_false, not_not] at h
    extract_lets k a b c d
    have hb : b.core = (s.pending, s.fuses, s.vis, s.clk.now, .seal, s.ledger.credits) :=
      (Kept.State_latchRings_kept a).trans rfl
    have hc : c.core = (s.pending, s.fuses, s.vis, s.clk.now, .seal, s.ledger.credits) := by
      show (if b.faults.fatal.isSome then b else b.joinLate.audit).core = _
      split
      · exact hb
      · simp only [Kept.State_audit_kept, Kept.State_joinLate_kept, hb]
    have hd : d.core = (s.pending, s.fuses, s.vis, s.clk.now, .seal, s.ledger.credits) := by
      show (if c.faults.fatal.isSome then c else (c.sealAll.sendChanges).sendClaims).core = _
      split
      · exact hc
      · simp only [Kept.State_sendClaims_kept, Kept.State_sendChanges_kept, Kept.State_sealAll_kept, hc]
    exact ⟨_, rfl, .inr ⟨h.1, h.2, (Kept.State_postSeal_kept d).trans hd⟩⟩
/-- As the core, of the visible state only what a boundary does not renew. -/
def calm (s : State) : List Instr × Fuses × Fabric × Tick × Phase × Nat :=
  (s.pending, s.fuses, s.vis.still, s.clk.now, s.clk.phase, s.ledger.credits)
theorem calm_of_core {s t : State} (h : t.core = s.core) : calm t = calm s := by
  simp only [State.core, Prod.mk.injEq] at h
  simp only [calm, Prod.mk.injEq, h, and_self]
theorem calm_fold {α : Type} {f : State → α → State} (h : ∀ s x, calm (f s x) = calm s) (l : List α) (s : State) :
    calm (l.foldl f s) = calm s := by
  induction l generalizing s with
  | nil => rfl
  | cons a l ih => simp [ih, h]
theorem still_modWhere (l : List QuireVol) (p : QuireVol → Bool) (ms : List Mask) :
    (modWhere l p fun w => { w with masks := ms }).map (fun w => { w with masks := ([] : List Mask) }) =
      l.map fun w => { w with masks := [] } := by
  unfold modWhere
  rw [List.map_map]
  refine List.map_congr_left fun w _ => ?_
  dsimp only [Function.comp]
  split <;> rfl
theorem maskNow_calm (s : State) (q : QuireId) (ms : List Mask) : calm (s.maskNow q ms) = calm s := by
  unfold State.maskNow calm Fabric.still
  dsimp only
  rw [still_modWhere]
  rfl
theorem renewMasks_calm (s : State) : calm s.renewMasks = calm s := by
  unfold State.renewMasks
  refine calm_fold (fun s r => ?_) _ _
  dsimp only
  split
  · rfl
  · split
    · rfl
    · exact (calm_of_core (Kept.State_tellMasks_kept _ _ _ _ _ _)).trans (maskNow_calm _ _ _)
theorem carryOut_calm (s : State) (old : Fabric) : calm (s.carryOut old) = calm s := by
  have h : ∀ x : State, calm ((x.renewMasks).dropMasked.retireEject).endSessions = calm x := fun x =>
    (calm_of_core (by simp only [Kept.State_endSessions_kept, Kept.State_retireEject_kept, Kept.State_dropMasked_kept])).trans
      (renewMasks_calm x)
  unfold State.carryOut
  refine (h _).trans (calm_of_core ?_)
  simp only [Kept.State_tellDone_kept, Kept.State_newQuires_kept, Kept.State_zeroiseOld_kept, Kept.State_refillAll_kept,
    Kept.State_houseReturned_kept, Kept.State_enableEvents_kept, Kept.State_newTables_kept]
theorem newTick_core (s : State) : s.newTick.core = (s.pending, s.fuses, s.vis,
    (if s.reservation ≤ s.nextNow then s.clk.now else s.nextNow), .intake, s.ledger.credits) := rfl
theorem publish_core (s : State) : s.publish.core = (s.pending, s.fuses, s.stg, s.clk.now, s.clk.phase, s.ledger.credits) := by
  unfold State.publish; split <;> rfl
theorem begun_core (s : State) : s.newTick.publish.core = (s.pending, s.fuses, s.stg,
    (if s.reservation ≤ s.nextNow then s.clk.now else s.nextNow), .intake, s.ledger.credits) := by
  have h := newTick_core s
  rw [publish_core]
  simp only [State.core, Prod.mk.injEq] at h
  obtain ⟨h1, h2, -, h4, h5, h6⟩ := h
  rw [h1, h2, h4, h5, h6]
  rfl
theorem scrubbed_calm (s : State) (n : Nat) : calm (s.newTick.scrubTick n).publish = (s.pending, s.fuses, s.stg.still,
    (if s.reservation ≤ s.nextNow then s.clk.now else s.nextNow), .intake, s.ledger.credits) := by
  have h : ∀ t u : State, t.core = u.core → t.stg.still = u.stg.still →
      calm t.publish = (u.pending, u.fuses, u.stg.still, u.clk.now, u.clk.phase, u.ledger.credits) := by
    intro t u h1 h2
    have hp := publish_core t
    simp only [State.core, Prod.mk.injEq] at h1 hp
    simp only [calm, hp, h1, h2]
  exact h _ s.newTick (Kept.State_scrubTick_kept _ _) rfl
theorem liveBoundary_calm (s : State) : calm s.liveBoundary = (s.pending, s.fuses, s.stg.still,
    (if s.reservation ≤ s.nextNow then s.clk.now else s.nextNow), .intake, s.ledger.credits) := by
  unfold State.liveBoundary
  extract_lets vol ip0 ip1 on a b c d e f
  have hb : b.wantScans.core = ((s.newTick.scrubTick s.clk.period).publish).core := by
    simp only [b, a, Kept.State_wantScans_kept, Kept.State_newManifest_kept, Kept.State_newVolume_kept, Kept.State_discoveryEnds_kept]
  have hc : calm c = (s.pending, s.fuses, s.stg.still,
      (if s.reservation ≤ s.nextNow then s.clk.now else s.nextNow), .intake, s.ledger.credits) :=
    (calm_of_core (Kept.State_countHours_kept _ _)).trans
      ((carryOut_calm _ _).trans ((calm_of_core hb).trans (scrubbed_calm s s.clk.period)))
  refine (calm_of_core ?_).trans hc
  simp only [f, e, d, Kept.State_tickBeacons_kept, Kept.State_linkBeacons_kept, Kept.State_newIp_kept, Kept.State_noteReply_kept,
    Kept.State_intake_kept, Kept.State_unbind_kept, core_fold, Kept.State_postDue_kept, implies_true, Kept.State_endFences_kept,
    Kept.State_enginesAt0_kept, Kept.State_fixRegs_kept, Kept.State_joinLate_kept]
theorem haltedBoundary_core (s : State) : s.haltedBoundary.core = (s.pending, s.fuses, s.stg,
    (if s.reservation ≤ s.nextNow then s.clk.now else s.nextNow), .intake, s.ledger.credits) := by
  have h : ∀ (c : Prop) [Decidable c] (x : State), (if c then x else x.linkBeacons).core = x.core := by
    intro c _ x; split
    · rfl
    · exact Kept.State_linkBeacons_kept _
  unfold State.haltedBoundary
  extract_lets a b c
  refine (h _ _).trans ?_
  simp only [c, b, a, Kept.State_planReset_kept, Kept.State_noteReply_kept, Kept.State_intake_kept, core_fold, Kept.State_postDue_kept,
    implies_true, Kept.State_endFences_kept, Kept.State_fixRegs_kept, begun_core]
theorem haltedBoundary_calm (s : State) : calm s.haltedBoundary = (s.pending, s.fuses, s.stg.still,
    (if s.reservation ≤ s.nextNow then s.clk.now else s.nextNow), .intake, s.ledger.credits) := by
  have h := haltedBoundary_core s
  simp only [State.core, Prod.mk.injEq] at h
  simp only [calm, h]
theorem boundary_below (s : State) (h : s.nextNow < s.reservation) :
    calm s.boundary = (s.pending, s.fuses, s.stg.still, s.nextNow, .intake, s.ledger.credits) := by
  have hn : ¬ s.reservation ≤ s.nextNow := Nat.not_le.mpr h
  unfold State.boundary
  rw [if_neg hn]
  dsimp only
  split
  · rw [haltedBoundary_calm, if_neg hn]
  · rw [liveBoundary_calm, if_neg hn]
theorem newNow_ge (s : State) : s.clk.now ≤ (if s.reservation ≤ s.nextNow then s.clk.now else s.nextNow) := by
  have : s.clk.now + 1 ≤ s.nextNow := Nat.le_max_right _ _
  split
  · exact Nat.le_refl _
  · exact Nat.le_of_succ_le this
/-- What a boundary leaves whatever the reservation: the queue, the fuses and the credits; and the index never falls. -/
theorem boundary_rest (s : State) : s.boundary.pending = s.pending ∧ s.boundary.fuses = s.fuses ∧
    s.boundary.ledger.credits = s.ledger.credits ∧ s.clk.now ≤ s.boundary.clk.now := by
  have key : ∀ u : State, u.core = s.core → ∀ v : State,
      calm v = (u.pending, u.fuses, u.stg.still, (if u.reservation ≤ u.nextNow then u.clk.now else u.nextNow), .intake, u.ledger.credits) →
      v.pending = s.pending ∧ v.fuses = s.fuses ∧ v.ledger.credits = s.ledger.credits ∧ s.clk.now ≤ v.clk.now := by
    intro u hu v hv
    have hn := newNow_ge u
    simp only [State.core, calm, Prod.mk.injEq] at hu hv
    obtain ⟨h1, h2, -, h4, -, h6⟩ := hu
    obtain ⟨g1, g2, -, g4, -, g6⟩ := hv
    exact ⟨g1.trans h1, g2.trans h2, g6.trans h6, by rw [g4, ← h4]; exact hn⟩
  unfold State.boundary
  extract_lets u
  have hu : u.core = s.core := by
    show (if s.reservation ≤ s.nextNow then s.fatalOf .reservation else s).core = _
    split
    · exact Kept.State_fatalOf_kept _ _
    · rfl
  split
  · exact key u hu _ (haltedBoundary_calm u)
  · exact key u hu _ (liveBoundary_calm u)

/-! ### The journal and the credits -/
theorem startGroup_core (s : State) (x : Machine.Group) (rest : List Machine.Group) (free : Bool) :
    ∃ n, n ≤ s.ledger.credits ∧ (s.startGroup x rest free).core = (s.pending, s.fuses, s.vis, s.clk.now, s.clk.phase, n) := by
  unfold State.startGroup
  dsimp only
  split <;> split
  all_goals first
    | exact ⟨_, Nat.le_refl _, rfl⟩
    | (refine ⟨if free then s.ledger.credits else s.ledger.credits - 1, ?_, ?_⟩
       · split
         · exact Nat.le_refl _
         · exact Nat.sub_le _ _
       · simp only [State.updLedger, Ledger.startWrite, core_mk])
theorem startNext_core (s : State) :
    ∃ n, n ≤ s.ledger.credits ∧ s.startNext.core = (s.pending, s.fuses, s.vis, s.clk.now, s.clk.phase, n) := by
  have ha : ∀ a k, ∃ n, n ≤ s.ledger.credits ∧ (s.startAnchor a k).core = (s.pending, s.fuses, s.vis, s.clk.now, s.clk.phase, n) :=
    fun a k => ⟨_, Nat.le_refl _, Kept.State_startAnchor_kept s a k⟩
  have hs : ∃ n, n ≤ s.ledger.credits ∧ s.core = (s.pending, s.fuses, s.vis, s.clk.now, s.clk.phase, n) := ⟨_, Nat.le_refl _, rfl⟩
  unfold State.startNext
  repeat' split
  all_goals first | exact hs | exact startGroup_core _ _ _ _ | exact ha _ _
theorem execJournalWriteStart_core (s : State) : ∃ t, execJournalWriteStart s = .next t ∧
    ∃ n, n ≤ s.ledger.credits ∧ t.core = (s.pending, s.fuses, s.vis, s.clk.now, s.clk.phase, n) := by
  unfold execJournalWriteStart
  refine ⟨_, rfl, ?_⟩
  split
  · exact ⟨_, Nat.le_refl _, rfl⟩
  · exact startNext_core s
theorem execCreditRefill_core (s : State) : ∃ t, execCreditRefill s = .next t ∧
    ∃ n, (n = s.ledger.credits ∨ n ≤ 448) ∧ t.core = (s.pending, s.fuses, s.vis, s.clk.now, s.clk.phase, n) := by
  unfold execCreditRefill
  refine ⟨_, rfl, ?_⟩
  split
  · exact ⟨min Config.creditMax (s.ledger.credits + (s.clk.cycles - s.ledger.refillAt) / creditStep), .inr (Nat.min_le_left _ _), rfl⟩
  · exact ⟨_, .inl rfl, rfl⟩
theorem execOtpBurnDone_core (b : Bool) (s : State) : ∃ t, execOtpBurnDone b s = .next t ∧
    ∃ n, s.fuses.otp ≤ max n s.fuses.otp ∧ (n = s.fuses.otp ∨ n = min 64 (s.fuses.otp + 1)) ∧
      t.core = (s.pending, { s.fuses with otp := n }, s.vis, s.clk.now, s.clk.phase, s.ledger.credits) := by
  unfold execOtpBurnDone
  split
  · exact ⟨_, rfl, s.fuses.otp, Nat.le_max_right _ _, .inl rfl, rfl⟩
  · split
    · exact ⟨_, rfl, s.fuses.otp, Nat.le_max_right _ _, .inl rfl, by simp only [Kept.State_endBurn_kept, Kept.State_fault_kept]; rfl⟩
    · refine ⟨_, rfl, min 64 (s.fuses.otp + 1), Nat.le_max_right _ _, .inr rfl, ?_⟩
      split
      · exact (Kept.State_endBurn_kept _).trans rfl
      · rfl
theorem anchorSealed_core (s : State) (a : Anchor) (f : Folio) : (s.anchorSealed a f).core =
    (s.pending, { s.fuses with marker := true }, s.vis, s.clk.now, s.clk.phase, s.ledger.credits) := by
  unfold State.anchorSealed
  extract_lets k u v w
  refine (Kept.State_fwAnchor_kept _ _).trans ?_
  have hv : v.core = (s.pending, { s.fuses with marker := true }, s.vis, s.clk.now, s.clk.phase, s.ledger.credits) := rfl
  show (match v.ledger.ckRun with
    | some r => if r.sealing && a.ckNum = r.image.number then v.ckptSealed r.image else v
    | none => v).core = _
  split
  · split
    · exact (Kept.State_ckptSealed_kept _ _).trans hv
    · exact hv
  · exact hv
/-- What the end of a folio's write leaves: the queue, what is visible, the tick; the marker may be burnt and a credit spent. -/
def Sealed (s t : State) : Prop :=
  ∃ m n, (s.fuses.marker = true → m = true) ∧ n ≤ s.ledger.credits ∧
    t.core = (s.pending, { s.fuses with marker := m }, s.vis, s.clk.now, s.clk.phase, n)
theorem Sealed.of_core {s t : State} (h : t.core = s.core) : Sealed s t := ⟨_, _, id, Nat.le_refl _, h⟩
theorem Sealed.of_kept {s u t : State} (h : u.core = s.core) (k : Sealed u t) : Sealed s t := by
  obtain ⟨m, n, h1, h2, h3⟩ := k
  simp only [State.core, Prod.mk.injEq] at h
  obtain ⟨a1, a2, a3, a4, a5, a6⟩ := h
  rw [a2] at h1; rw [a6] at h2; rw [a1, a2, a3, a4, a5] at h3
  exact ⟨m, n, h1, h2, h3⟩
theorem startWrite_sealed (s : State) (x : WriteWhat) (fs : List Folio) (free : Bool) :
    Sealed s (s.updLedger fun g => g.startWrite x fs free) := by
  refine ⟨_, if free then s.ledger.credits else s.ledger.credits - 1, id, ?_, ?_⟩
  · split
    · exact Nat.le_refl _
    · exact Nat.sub_le _ _
  · simp only [State.updLedger, Ledger.startWrite, core_mk]
theorem folioSealed_core (s : State) (w : Writing) (f : Folio) (rest : List Folio) : Sealed s (s.folioSealed w f rest) := by
  have h0 : (s.updLedger (·.sealFolio f)).core = s.core := by
    simp only [State.updLedger, core_mk, sealFolio_credits, core_eta]
  unfold State.folioSealed
  split
  · exact ⟨true, _, fun _ => rfl, Nat.le_refl _, anchorSealed_core _ _ _⟩
  · dsimp only
    split
    · exact .of_kept h0 (startWrite_sealed _ _ _ _)
    · exact .of_core ((Kept.State_groupSealed_kept _ _).trans ((by simp only [State.updLedger, core_mk, core_eta] : State.core (State.updLedger _ _) = State.core _).trans h0))
    · exact .of_core ((by simp only [State.updLedger, core_mk, core_eta] : State.core (State.updLedger _ _) = State.core _).trans h0)
theorem deviceDone_core (s : State) (w : Writing) (f : Folio) (rest : List Folio) : Sealed s (s.deviceDone w f rest) := by
  unfold State.deviceDone
  split
  · exact .of_core (by simp only [State.updLedger, core_mk, core_eta])
  · split
    · exact .of_core (Kept.State_journalLost_kept _)
    · exact folioSealed_core _ _ _ _
theorem execFolioWriteDone_core (b : Bool) (s : State) : ∃ t, execFolioWriteDone b s = .next t ∧ Sealed s t := by
  unfold execFolioWriteDone
  split
  · split
    · exact ⟨_, rfl, .of_core rfl⟩
    · split
      · exact ⟨_, rfl, .of_core (by simp only [State.updLedger, core_mk, putFolio_credits, core_eta])⟩
      · split
        · exact ⟨_, rfl, deviceDone_core _ _ _ _⟩
        · dsimp only
          split
          · exact ⟨_, rfl, .of_core (by simp only [State.updLedger, core_mk, putFolio_credits, State.freeBool, core_eta])⟩
          · refine ⟨_, rfl, .of_kept ((Kept.State_failDev_kept _ _).trans ?_) (deviceDone_core _ _ _ _)⟩
            simp only [State.updLedger, core_mk, putFolio_credits, State.freeBool, core_eta]
  · exact ⟨_, rfl, .of_core rfl⟩

/-! ### Restore, resets and the start of the control complex -/
theorem rebuild_core (s : State) (r : Restored) :
    (s.rebuild r).core = (s.pending, s.fuses, s.vis, s.clk.now, s.clk.phase, Config.creditRestore) := by
  unfold State.rebuild
  dsimp only
  split
  · rw [Kept.State_fromCkpt_kept]; rfl
  · rfl
theorem restore_core (s : State) : s.restore.core = (s.pending, s.fuses, s.vis, s.clk.now, s.clk.phase, Config.creditRestore) := by
  have h := rebuild_core s
  unfold State.restore
  simp only [Kept.State_restoreRest_kept, Kept.State_mendAll_kept, Kept.State_checkVolume_kept, Kept.State_settleCuts_kept,
    Kept.State_restoreFaults_kept, Kept.State_checkMirror_kept, h]
theorem execRestoreDone_core (s : State) : ∃ t, execRestoreDone s = .next t ∧
    ∃ n, (n = s.ledger.credits ∨ n ≤ 448) ∧ t.core = (s.pending, s.fuses, s.vis, s.clk.now, s.clk.phase, n) := by
  unfold execRestoreDone
  refine ⟨_, rfl, ?_⟩
  split
  · exact ⟨_, .inl rfl, rfl⟩
  · exact ⟨_, .inr (by decide), restore_core s⟩
theorem wholeReset_rest (s : State) : s.wholeReset.pending = s.pending ∧ s.wholeReset.fuses = s.fuses ∧
    s.wholeReset.ledger.credits = 0 := by
  have h := Kept.State_tear_kept s
  simp only [State.core, Prod.mk.injEq] at h
  exact ⟨h.1, h.2.1, rfl⟩
theorem execRstNAssert_rest (ns : Nat) (s : State) : ∃ t, execRstNAssert ns s = .next t ∧
    t.pending = s.pending ∧ t.fuses = s.fuses ∧ t.ledger.credits ≤ s.ledger.credits := by
  unfold execRstNAssert
  refine ⟨_, rfl, ?_⟩
  have h := wholeReset_rest s
  split
  · exact ⟨rfl, rfl, Nat.le_refl _⟩
  · exact ⟨h.1, h.2.1, h.2.2 ▸ Nat.zero_le _⟩
theorem powerReset_rest (s : State) : s.powerReset.pending = s.pending ∧ s.powerReset.fuses = s.fuses ∧
    s.powerReset.ledger.credits ≤ s.ledger.credits := by
  have h := wholeReset_rest s
  exact ⟨h.1, h.2.1, (h.2.2 : s.powerReset.ledger.credits = 0) ▸ Nat.zero_le _⟩
theorem execPwrGoodDeassert_rest (ns : Nat) (s : State) : ∃ t, execPwrGoodDeassert ns s = .next t ∧
    t.pending = s.pending ∧ t.fuses = s.fuses ∧ t.ledger.credits ≤ s.ledger.credits := by
  unfold execPwrGoodDeassert
  split
  · exact ⟨_, rfl, powerReset_rest s⟩
  · dsimp only
    refine ⟨_, rfl, ?_⟩
    split
    · exact powerReset_rest s.freeBool.2
    · exact ⟨rfl, rfl, Nat.le_refl _⟩
theorem execFwReset_rest (s : State) : ∃ t, execFwReset s = .next t ∧
    t.pending = s.pending ∧ t.fuses = s.fuses ∧ t.ledger.credits ≤ s.ledger.credits := by
  unfold execFwReset
  split
  · exact ⟨_, rfl, rfl, rfl, Nat.le_refl _⟩
  · refine ⟨_, rfl, ?_⟩
    have h : ∀ u : State, (u.pending = s.pending ∧ u.fuses = s.fuses ∧ u.ledger.credits = 0) →
        u.follow.pending = s.pending ∧ u.follow.fuses = s.fuses ∧ u.follow.ledger.credits ≤ s.ledger.credits := by
      intro u hu
      have k := Kept.State_follow_kept u
      simp only [State.core, Prod.mk.injEq] at k
      obtain ⟨k1, k2, -, -, -, k6⟩ := k
      exact ⟨k1.trans hu.1, k2.trans hu.2.1, by rw [k6, hu.2.2]; exact Nat.zero_le _⟩
    exact h _ (wholeReset_rest s)
end Sys2Proof.Laws
end

