-- ==== Sys2Proof/Laws/Memory.lean ====
section
/-! SUPPORT. Sparse memory: every operation keeps its canonical form, a read after a write gives the byte written, and a write leaves
every other byte alone. -/
namespace Sys2Proof.Machine

/-- The canonical form in words: no listed byte is zero, and the addresses rise. -/
theorem memory_wf_iff (m : List Host.Cell) :
    Memory.wf m = true ↔ (∀ c ∈ m, c.2 ≠ 0) ∧ m.Pairwise (fun x y => x.1 < y.1) := by
  induction m with
  | nil => simp [Memory.wf]
  | cons c m ih =>
    obtain ⟨a, b⟩ := c
    cases m with
    | nil => simp [Memory.wf]
    | cons d m =>
      obtain ⟨x, y⟩ := d
      simp only [Memory.wf, Bool.and_eq_true, bne_iff_ne, ne_eq, decide_eq_true_eq, ih, List.pairwise_cons, List.mem_cons]
      constructor
      · rintro ⟨⟨hb, hax⟩, hz, ⟨hx, hp⟩⟩
        refine ⟨?_, ?_, hx, hp⟩
        · rintro c (rfl | hc)
          · exact hb
          · exact hz c hc
        · rintro c (rfl | hc)
          · exact hax
          · exact lt_trans hax (hx c hc)
      · rintro ⟨hz, ha, hx, hp⟩
        exact ⟨⟨hz _ (.inl rfl), ha _ (.inl rfl)⟩, fun c hc => hz c (.inr hc), hx, hp⟩

/-- What is listed after a write was listed before, or is the byte written. -/
theorem mem_write (m : List Host.Cell) (a : Nat) (b : Byte) (c : Host.Cell) (h : c ∈ Memory.write m a b) :
    c ∈ m ∨ (c = (a, b) ∧ b ≠ 0) := by
  induction m with
  | nil =>
    unfold Memory.write at h
    split at h
    · simp at h
    · simp at h; exact .inr ⟨h, by assumption⟩
  | cons d m ih =>
    obtain ⟨x, y⟩ := d
    unfold Memory.write at h
    split at h
    · split at h
      · exact .inl h
      · rcases List.mem_cons.mp h with h | h
        · exact .inr ⟨h, by assumption⟩
        · exact .inl h
    · split at h
      · split at h
        · exact .inl (List.mem_cons_of_mem _ h)
        · rcases List.mem_cons.mp h with h | h
          · exact .inr ⟨h, by assumption⟩
          · exact .inl (List.mem_cons_of_mem _ h)
      · rcases List.mem_cons.mp h with h | h
        · exact .inl (h ▸ List.mem_cons_self ..)
        · rcases ih h with h | h
          · exact .inl (List.mem_cons_of_mem _ h)
          · exact .inr h

/-- A write keeps the canonical form. -/
theorem write_wf (m : List Host.Cell) (a : Nat) (b : Byte) (h : Memory.wf m = true) : Memory.wf (Memory.write m a b) = true := by
  rw [memory_wf_iff] at h ⊢
  refine ⟨fun c hc => ?_, ?_⟩
  · rcases mem_write m a b c hc with hc | ⟨rfl, hb⟩
    · exact h.1 c hc
    · exact hb
  · obtain ⟨-, hp⟩ := h
    induction m with
    | nil => unfold Memory.write; split <;> simp
    | cons d m ih =>
      obtain ⟨x, y⟩ := d
      rw [List.pairwise_cons] at hp
      unfold Memory.write
      split
      · rename_i hax
        split
        · exact List.pairwise_cons.mpr hp
        · refine List.pairwise_cons.mpr ⟨fun c hc => ?_, List.pairwise_cons.mpr hp⟩
          rcases List.mem_cons.mp hc with rfl | hc
          · exact hax
          · exact lt_trans hax (hp.1 c hc)
      · split
        · rename_i hax
          subst hax
          split
          · exact hp.2
          · exact List.pairwise_cons.mpr ⟨hp.1, hp.2⟩
        · rename_i h1 h2
          refine List.pairwise_cons.mpr ⟨fun c hc => ?_, ih hp.2⟩
          rcases mem_write m a b c hc with hc | ⟨rfl, -⟩
          · exact hp.1 c hc
          · show x < a
            omega

/-- Taking bytes out keeps the canonical form. -/
theorem filter_wf (m : List Host.Cell) (p : Host.Cell → Bool) (h : Memory.wf m = true) : Memory.wf (m.filter p) = true := by
  rw [memory_wf_iff] at h ⊢
  exact ⟨fun c hc => h.1 c (List.mem_filter.mp hc).1, h.2.filter p⟩

theorem writeN_wf (m : List Host.Cell) (a : Nat) (bs : List Byte) (h : Memory.wf m = true) : Memory.wf (Memory.writeN m a bs) = true := by
  induction bs generalizing m a with
  | nil => exact h
  | cons b bs ih => exact ih _ _ (write_wf m a b h)

theorem clear_wf (m : List Host.Cell) (a n : Nat) (h : Memory.wf m = true) : Memory.wf (Memory.clear m a n) = true := filter_wf m _ h

theorem ringWrite_wf (m : List Host.Cell) (i : Nat) (bs : List Byte) (h : Memory.wf m = true) : Memory.wf (ringWrite m i bs) = true := by
  induction bs generalizing m i with
  | nil => exact h
  | cons b bs ih => exact ih _ _ (write_wf m _ b h)

theorem hbmWrite_wf (m : List Host.Cell) (ls : List Nat) (a : Nat) (bs : List Byte) (h : Memory.wf m = true) :
    Memory.wf (hbmWrite m ls a bs) = true := by
  induction bs generalizing m a with
  | nil => exact h
  | cons b bs ih => exact ih _ _ (write_wf m _ b h)

theorem zeroLeaves_wf (m : List Host.Cell) (ls : List Nat) (h : Memory.wf m = true) : Memory.wf (zeroLeaves m ls) = true :=
  filter_wf m _ h

theorem copyAll_wf (old new : List Nat) (l : List (Nat × Nat × Nat)) (m : List Host.Cell) (h : Memory.wf m = true) :
    Memory.wf (copyAll old new l m) = true := by
  induction l generalizing m with
  | nil => exact h
  | cons x l ih => exact ih _ (hbmWrite_wf m new _ _ h)

/-- The memory after reset lists nothing. -/
theorem reset_memory_wf : Memory.wf State.reset.stg.vol.hbm = true ∧ Memory.wf State.reset.vis.vol.hbm = true := by decide

/-! ### Reading -/

theorem read_nil (a : Nat) : Memory.read [] a = 0 := rfl

/-- An address below every listed one reads zero. -/
theorem read_below (m : List Host.Cell) (a : Nat) (h : ∀ c ∈ m, a < c.1) : Memory.read m a = 0 := by
  unfold Memory.read
  rw [List.find?_eq_none.mpr]
  · rfl
  · intro c hc
    have := h c hc
    simp; omega

theorem read_cons (x : Nat) (y : Byte) (m : List Host.Cell) (a : Nat) :
    Memory.read ((x, y) :: m) a = if x = a then y else Memory.read m a := by
  unfold Memory.read
  by_cases h : x = a <;> simp [List.find?_cons, h]

/-- A read after a write to the same address gives the byte written. -/
theorem read_write_self (m : List Host.Cell) (a : Nat) (b : Byte) (h : Memory.wf m = true) :
    Memory.read (Memory.write m a b) a = b := by
  rw [memory_wf_iff] at h
  obtain ⟨-, hp⟩ := h
  induction m with
  | nil =>
    unfold Memory.write
    split
    · subst_vars; rfl
    · simp [read_cons]
  | cons d m ih =>
    obtain ⟨x, y⟩ := d
    rw [List.pairwise_cons] at hp
    unfold Memory.write
    split
    · rename_i hax
      split
      · subst_vars
        refine read_below _ _ fun c hc => ?_
        rcases List.mem_cons.mp hc with rfl | hc
        · exact hax
        · exact lt_trans hax (hp.1 c hc)
      · simp [read_cons]
    · split
      · split
        · subst_vars; exact read_below _ _ fun c hc => hp.1 c hc
        · simp [read_cons]
      · rename_i h1 h2
        rw [read_cons, if_neg (fun h => h2 h.symm)]
        exact ih hp.2

/-- A write leaves every other address alone. -/
theorem read_write_other (m : List Host.Cell) (a x : Nat) (b : Byte) (h : x ≠ a) :
    Memory.read (Memory.write m a b) x = Memory.read m x := by
  induction m with
  | nil =>
    unfold Memory.write
    split
    · rfl
    · rw [read_cons, if_neg (fun e => h e.symm)]
  | cons d m ih =>
    obtain ⟨y, c⟩ := d
    unfold Memory.write
    split
    · split
      · rfl
      · rw [read_cons, if_neg (fun e => h e.symm)]
    · split
      · rename_i e
        subst e
        split
        · rw [read_cons, if_neg (fun e => h e.symm)]
        · rw [read_cons, read_cons, if_neg (fun e => h e.symm), if_neg (fun e => h e.symm)]
      · rw [read_cons, read_cons, ih]

/-- A write into a grant leaves every byte of director HBM outside its range alone. -/
theorem hbmWrite_other (m : List Host.Cell) (ls : List Nat) (a x : Nat) (bs : List Byte)
    (h : ∀ i, i < bs.length → x ≠ hbmAddr ls (a + i)) : Memory.read (hbmWrite m ls a bs) x = Memory.read m x := by
  induction bs generalizing m a with
  | nil => rfl
  | cons b bs ih =>
    unfold hbmWrite
    rw [ih _ _ fun i hi => by
      have := h (i + 1) (by simpa using hi)
      rwa [show a + 1 + i = a + (i + 1) by omega]]
    exact read_write_other _ _ _ _ (h 0 (by simp))

end Sys2Proof.Machine
end

