-- ==== Sys2Proof/Laws/PerInstr.lean ====
section
/-! SUPPORT. One lemma per constructor of Instr: a row that is a command packet is well formed just when its packet is, and its
opcode is one of the opcode spaces 0x01 to 0x0F (R519). -/
namespace Sys2Proof.Laws.Wf

/-- A command that arrives as a packet is well formed exactly when the packet is, and its opcode lies in the fifteen spaces that the
manual's two opcode lists share between them. -/
def Statement (i : Instr) : Prop :=
  ∀ op p, i.packet = some (op, p) → i.wf = p.wf ∧ 1 ≤ op / 256 ∧ op / 256 ≤ 15 ∧ 1 ≤ op % 256 ∧ op % 256 ≤ 6

/-- A row that is no packet has nothing to show. -/
theorem unpacketed (i : Instr) (h : i.packet = none) : Statement i := by
  intro op p e
  rw [h] at e
  cases e

/-- A row that is a packet with opcode `op`. -/
theorem packeted (i : Instr) (op : Nat) (p : Pkt) (h : i.packet = some (op, p)) (w : i.wf = p.wf)
    (b : 1 ≤ op / 256 ∧ op / 256 ≤ 15 ∧ 1 ≤ op % 256 ∧ op % 256 ≤ 6) : Statement i := by
  intro o q e
  rw [h] at e
  cases e
  exact ⟨w, b⟩

theorem identColophon (p : Pkt) : Statement (.identColophon p) := packeted _ _ _ rfl rfl (by decide)
theorem identAttest (p : Pkt) : Statement (.identAttest p) := packeted _ _ _ rfl rfl (by decide)
theorem identCaps (p : Pkt) : Statement (.identCaps p) := packeted _ _ _ rfl rfl (by decide)
theorem posAssign (p : Pkt) : Statement (.posAssign p) := packeted _ _ _ rfl rfl (by decide)
theorem posLock (p : Pkt) : Statement (.posLock p) := packeted _ _ _ rfl rfl (by decide)
theorem discScan (p : Pkt) : Statement (.discScan p) := packeted _ _ _ rfl rfl (by decide)
theorem discMap (p : Pkt) : Statement (.discMap p) := packeted _ _ _ rfl rfl (by decide)
theorem discManifest (p : Pkt) : Statement (.discManifest p) := packeted _ _ _ rfl rfl (by decide)
theorem quireCarve (p : Pkt) : Statement (.quireCarve p) := packeted _ _ _ rfl rfl (by decide)
theorem quireGrow (p : Pkt) : Statement (.quireGrow p) := packeted _ _ _ rfl rfl (by decide)
theorem quireRelease (p : Pkt) : Statement (.quireRelease p) := packeted _ _ _ rfl rfl (by decide)
theorem quireReset (p : Pkt) : Statement (.quireReset p) := packeted _ _ _ rfl rfl (by decide)
theorem quireStatus (p : Pkt) : Statement (.quireStatus p) := packeted _ _ _ rfl rfl (by decide)
theorem routeSolve (p : Pkt) : Statement (.routeSolve p) := packeted _ _ _ rfl rfl (by decide)
theorem routeInstall (p : Pkt) : Statement (.routeInstall p) := packeted _ _ _ rfl rfl (by decide)
theorem boreOpen (p : Pkt) : Statement (.boreOpen p) := packeted _ _ _ rfl rfl (by decide)
theorem boreClose (p : Pkt) : Statement (.boreClose p) := packeted _ _ _ rfl rfl (by decide)
theorem routeDrainHold (p : Pkt) : Statement (.routeDrainHold p) := packeted _ _ _ rfl rfl (by decide)
theorem routeDrainResume (p : Pkt) : Statement (.routeDrainResume p) := packeted _ _ _ rfl rfl (by decide)
theorem rebindPlan (p : Pkt) : Statement (.rebindPlan p) := packeted _ _ _ rfl rfl (by decide)
theorem rebindCommit (p : Pkt) : Statement (.rebindCommit p) := packeted _ _ _ rfl rfl (by decide)
theorem rebindStatus (p : Pkt) : Statement (.rebindStatus p) := packeted _ _ _ rfl rfl (by decide)
theorem portConfig (p : Pkt) : Statement (.portConfig p) := packeted _ _ _ rfl rfl (by decide)
theorem shaperSet (p : Pkt) : Statement (.shaperSet p) := packeted _ _ _ rfl rfl (by decide)
theorem portCounters (p : Pkt) : Statement (.portCounters p) := packeted _ _ _ rfl rfl (by decide)
theorem tableLoad (p : Pkt) : Statement (.tableLoad p) := packeted _ _ _ rfl rfl (by decide)
theorem tableRead (p : Pkt) : Statement (.tableRead p) := packeted _ _ _ rfl rfl (by decide)
theorem tableActivate (p : Pkt) : Statement (.tableActivate p) := packeted _ _ _ rfl rfl (by decide)
theorem redDefine (p : Pkt) : Statement (.redDefine p) := packeted _ _ _ rfl rfl (by decide)
theorem collLaunch (p : Pkt) : Statement (.collLaunch p) := packeted _ _ _ rfl rfl (by decide)
theorem collStatus (p : Pkt) : Statement (.collStatus p) := packeted _ _ _ rfl rfl (by decide)
theorem tileRead (p : Pkt) : Statement (.tileRead p) := packeted _ _ _ rfl rfl (by decide)
theorem tileWrite (p : Pkt) : Statement (.tileWrite p) := packeted _ _ _ rfl rfl (by decide)
theorem collCancel (p : Pkt) : Statement (.collCancel p) := packeted _ _ _ rfl rfl (by decide)
theorem tenantOpen (p : Pkt) : Statement (.tenantOpen p) := packeted _ _ _ rfl rfl (by decide)
theorem installLinkKey (p : Pkt) : Statement (.installLinkKey p) := packeted _ _ _ rfl rfl (by decide)
theorem retirePrevious (p : Pkt) : Statement (.retirePrevious p) := packeted _ _ _ rfl rfl (by decide)
theorem addTrustRoot (p : Pkt) : Statement (.addTrustRoot p) := packeted _ _ _ rfl rfl (by decide)
theorem removeTrustRoot (p : Pkt) : Statement (.removeTrustRoot p) := packeted _ _ _ rfl rfl (by decide)
theorem tenantEvict (p : Pkt) : Statement (.tenantEvict p) := packeted _ _ _ rfl rfl (by decide)
theorem memScrub (p : Pkt) : Statement (.memScrub p) := packeted _ _ _ rfl rfl (by decide)
theorem ledgerStatus (p : Pkt) : Statement (.ledgerStatus p) := packeted _ _ _ rfl rfl (by decide)
theorem ledgerCheckpoint (p : Pkt) : Statement (.ledgerCheckpoint p) := packeted _ _ _ rfl rfl (by decide)
theorem ledgerRead (p : Pkt) : Statement (.ledgerRead p) := packeted _ _ _ rfl rfl (by decide)
theorem fwDownload (p : Pkt) : Statement (.fwDownload p) := packeted _ _ _ rfl rfl (by decide)
theorem fwVerify (p : Pkt) : Statement (.fwVerify p) := packeted _ _ _ rfl rfl (by decide)
theorem fwActivate (p : Pkt) : Statement (.fwActivate p) := packeted _ _ _ rfl rfl (by decide)
theorem fwConfirm (p : Pkt) : Statement (.fwConfirm p) := packeted _ _ _ rfl rfl (by decide)
theorem fwReject (p : Pkt) : Statement (.fwReject p) := packeted _ _ _ rfl rfl (by decide)
theorem fwStatus (p : Pkt) : Statement (.fwStatus p) := packeted _ _ _ rfl rfl (by decide)
theorem telemSubscribe (p : Pkt) : Statement (.telemSubscribe p) := packeted _ _ _ rfl rfl (by decide)
theorem telemSnapshot (p : Pkt) : Statement (.telemSnapshot p) := packeted _ _ _ rfl rfl (by decide)
theorem powerStatus (p : Pkt) : Statement (.powerStatus p) := packeted _ _ _ rfl rfl (by decide)
theorem powerBudget (p : Pkt) : Statement (.powerBudget p) := packeted _ _ _ rfl rfl (by decide)
theorem chanOpen (p : Pkt) : Statement (.chanOpen p) := packeted _ _ _ rfl rfl (by decide)
theorem chanClose (p : Pkt) : Statement (.chanClose p) := packeted _ _ _ rfl rfl (by decide)
theorem chanNop (p : Pkt) : Statement (.chanNop p) := packeted _ _ _ rfl rfl (by decide)
theorem chanFence (p : Pkt) : Statement (.chanFence p) := packeted _ _ _ rfl rfl (by decide)
theorem diagLoop (p : Pkt) : Statement (.diagLoop p) := packeted _ _ _ rfl rfl (by decide)
theorem diagLaneMeasure (p : Pkt) : Statement (.diagLaneMeasure p) := packeted _ _ _ rfl rfl (by decide)
theorem diagLaneResetReference (p : Pkt) : Statement (.diagLaneResetReference p) := packeted _ _ _ rfl rfl (by decide)
theorem cmdTailWrite : ∀ a b c, Statement (.cmdTailWrite a b c) := fun _ _ _ => unpacketed _ rfl
theorem rplHeadWrite : ∀ a b, Statement (.rplHeadWrite a b) := fun _ _ => unpacketed _ rfl
theorem irqStatClear : ∀ a, Statement (.irqStatClear a) := fun _ => unpacketed _ rfl
theorem irqMaskWrite : ∀ a, Statement (.irqMaskWrite a) := fun _ => unpacketed _ rfl
theorem rimodeWrite : ∀ a, Statement (.rimodeWrite a) := fun _ => unpacketed _ rfl
theorem mbxDoorbellWrite : ∀ a, Statement (.mbxDoorbellWrite a) := fun _ => unpacketed _ rfl
theorem registerWriteIgnored : ∀ a b c, Statement (.registerWriteIgnored a b c) := fun _ _ _ => unpacketed _ rfl
theorem arpRequestRx : ∀ a b c d, Statement (.arpRequestRx a b c d) := fun _ _ _ _ => unpacketed _ rfl
theorem arpReplyRx : ∀ a b c, Statement (.arpReplyRx a b c) := fun _ _ _ => unpacketed _ rfl
theorem ethFrameDiscard : ∀ a b c, Statement (.ethFrameDiscard a b c) := fun _ _ _ => unpacketed _ rfl
theorem ethLinkUp : ∀ a, Statement (.ethLinkUp a) := fun _ => unpacketed _ rfl
theorem arpEntryExpiry : ∀ a b, Statement (.arpEntryExpiry a b) := fun _ _ => unpacketed _ rfl
theorem identReqTimer : Statement .identReqTimer := unpacketed _ rfl
theorem identRx : ∀ a b, Statement (.identRx a b) := fun _ _ => unpacketed _ rfl
theorem setAckRx : ∀ a b, Statement (.setAckRx a b) := fun _ _ => unpacketed _ rfl
theorem setDoneRx : ∀ a b, Statement (.setDoneRx a b) := fun _ _ => unpacketed _ rfl
theorem mapRx : ∀ a b, Statement (.mapRx a b) := fun _ _ => unpacketed _ rfl
theorem alarmRx : ∀ a b, Statement (.alarmRx a b) := fun _ _ => unpacketed _ rfl
theorem setDeadlineExpiry : ∀ a, Statement (.setDeadlineExpiry a) := fun _ => unpacketed _ rfl
theorem dataPacketRx : ∀ a b c, Statement (.dataPacketRx a b c) := fun _ _ _ => unpacketed _ rfl
theorem linkBeaconRx : ∀ a b c, Statement (.linkBeaconRx a b c) := fun _ _ _ => unpacketed _ rfl
theorem tickBeaconRx : ∀ a b c d, Statement (.tickBeaconRx a b c d) := fun _ _ _ _ => unpacketed _ rfl
theorem peerReportRx : ∀ a b c, Statement (.peerReportRx a b c) := fun _ _ _ => unpacketed _ rfl
theorem coordinateConfirmationRx : ∀ a b c, Statement (.coordinateConfirmationRx a b c) := fun _ _ _ => unpacketed _ rfl
theorem tableWriteAckRx : ∀ a b c, Statement (.tableWriteAckRx a b c) := fun _ _ _ => unpacketed _ rfl
theorem legAckRx : ∀ a b c, Statement (.legAckRx a b c) := fun _ _ _ => unpacketed _ rfl
theorem completionReportRx : ∀ a b c, Statement (.completionReportRx a b c) := fun _ _ _ => unpacketed _ rfl
theorem counterReportRx : ∀ a b c, Statement (.counterReportRx a b c) := fun _ _ _ => unpacketed _ rfl
theorem retrainRequestRx : ∀ a b c, Statement (.retrainRequestRx a b c) := fun _ _ _ => unpacketed _ rfl
theorem libraryClaimRx : ∀ a b, Statement (.libraryClaimRx a b) := fun _ _ => unpacketed _ rfl
theorem quireAnnouncementRx : ∀ a b, Statement (.quireAnnouncementRx a b) := fun _ _ => unpacketed _ rfl
theorem spdmMessageRx : ∀ a b c d, Statement (.spdmMessageRx a b c d) := fun _ _ _ _ => unpacketed _ rfl
theorem keyMessageAnswerRx : ∀ a b, Statement (.keyMessageAnswerRx a b) := fun _ _ => unpacketed _ rfl
theorem tickBoundary : Statement .tickBoundary := unpacketed _ rfl
theorem workPhase : Statement .workPhase := unpacketed _ rfl
theorem stepOverrun : ∀ a, Statement (.stepOverrun a) := fun _ => unpacketed _ rfl
theorem dronePhase : ∀ a, Statement (.dronePhase a) := fun _ => unpacketed _ rfl
theorem sealPhase : Statement .sealPhase := unpacketed _ rfl
theorem drainTimeout : ∀ a, Statement (.drainTimeout a) := fun _ => unpacketed _ rfl
theorem tickReservationRaise : Statement .tickReservationRaise := unpacketed _ rfl
theorem reservationExhausted : Statement .reservationExhausted := unpacketed _ rfl
theorem creditRefill : Statement .creditRefill := unpacketed _ rfl
theorem journalWriteStart : Statement .journalWriteStart := unpacketed _ rfl
theorem folioWriteDone : ∀ a, Statement (.folioWriteDone a) := fun _ => unpacketed _ rfl
theorem checkpointTimer : Statement .checkpointTimer := unpacketed _ rfl
theorem checkpointStart : Statement .checkpointStart := unpacketed _ rfl
theorem checkpointCopyDone : ∀ a b, Statement (.checkpointCopyDone a b) := fun _ _ => unpacketed _ rfl
theorem laneMarginSample : ∀ a, Statement (.laneMarginSample a) := fun _ => unpacketed _ rfl
theorem rstNAssert : ∀ a, Statement (.rstNAssert a) := fun _ => unpacketed _ rfl
theorem pwrGoodDeassert : ∀ a, Statement (.pwrGoodDeassert a) := fun _ => unpacketed _ rfl
theorem perstNAssert : ∀ a, Statement (.perstNAssert a) := fun _ => unpacketed _ rfl
theorem bringUpStart : ∀ a, Statement (.bringUpStart a) := fun _ => unpacketed _ rfl
theorem rotRomDone : ∀ a b, Statement (.rotRomDone a b) := fun _ _ => unpacketed _ rfl
theorem fwVerifyStageDone : ∀ a, Statement (.fwVerifyStageDone a) := fun _ => unpacketed _ rfl
theorem controlStart : ∀ a b c d, Statement (.controlStart a b c d) := fun _ _ _ _ => unpacketed _ rfl
theorem clusterWaveStart : ∀ a, Statement (.clusterWaveStart a) := fun _ => unpacketed _ rfl
theorem clusterSelftestDone : ∀ a b, Statement (.clusterSelftestDone a b) := fun _ _ => unpacketed _ rfl
theorem restoreDone : Statement .restoreDone := unpacketed _ rfl
theorem hbmTrainDone : ∀ a b, Statement (.hbmTrainDone a b) := fun _ _ => unpacketed _ rfl
theorem memTestDone : ∀ a, Statement (.memTestDone a) := fun _ => unpacketed _ rfl
theorem leafZeroDone : Statement .leafZeroDone := unpacketed _ rfl
theorem laneTrainDone : Statement .laneTrainDone := unpacketed _ rfl
theorem discoveryComplete : Statement .discoveryComplete := unpacketed _ rfl
theorem entropyReady : ∀ a, Statement (.entropyReady a) := fun _ => unpacketed _ rfl
theorem entropyHealthFail : Statement .entropyHealthFail := unpacketed _ rfl
theorem drbgReseed : Statement .drbgReseed := unpacketed _ rfl
theorem scanRoundEnd : ∀ a, Statement (.scanRoundEnd a) := fun _ => unpacketed _ rfl
theorem uplinkSilent : ∀ a b, Statement (.uplinkSilent a b) := fun _ _ => unpacketed _ rfl
theorem boardMissing : ∀ a, Statement (.boardMissing a) := fun _ => unpacketed _ rfl
theorem houseBoreMove : ∀ a, Statement (.houseBoreMove a) := fun _ => unpacketed _ rfl
theorem portLinkEvent : ∀ a b, Statement (.portLinkEvent a b) := fun _ _ => unpacketed _ rfl
theorem lstTimerExpiry : ∀ a, Statement (.lstTimerExpiry a) := fun _ => unpacketed _ rfl
theorem elsAlarm : ∀ a, Statement (.elsAlarm a) := fun _ => unpacketed _ rfl
theorem pathMaskClear : ∀ a b c d, Statement (.pathMaskClear a b c d) := fun _ _ _ _ => unpacketed _ rfl
theorem scheduledDiagLane : ∀ a, Statement (.scheduledDiagLane a) := fun _ => unpacketed _ rfl
theorem diagLaneEnd : ∀ a b c d, Statement (.diagLaneEnd a b c d) := fun _ _ _ _ => unpacketed _ rfl
theorem joinStep : ∀ a b c, Statement (.joinStep a b c) := fun _ _ _ => unpacketed _ rfl
theorem indexJump : Statement .indexJump := unpacketed _ rfl
theorem periodSwitch : Statement .periodSwitch := unpacketed _ rfl
theorem leaderTimeout : Statement .leaderTimeout := unpacketed _ rfl
theorem alignmentLost : Statement .alignmentLost := unpacketed _ rfl
theorem fsyncEdge : ∀ a, Statement (.fsyncEdge a) := fun _ => unpacketed _ rfl
theorem claimTimeout : ∀ a, Statement (.claimTimeout a) := fun _ => unpacketed _ rfl
theorem shadowWriteRetry : ∀ a b, Statement (.shadowWriteRetry a b) := fun _ _ => unpacketed _ rfl
theorem multicastHorizon : ∀ a b, Statement (.multicastHorizon a b) := fun _ _ => unpacketed _ rfl
theorem retryHorizon : ∀ a b c, Statement (.retryHorizon a b c) := fun _ _ _ => unpacketed _ rfl
theorem tagCloseEnd : ∀ a b, Statement (.tagCloseEnd a b) := fun _ _ => unpacketed _ rfl
theorem launchMatchTimeout : ∀ a b, Statement (.launchMatchTimeout a b) := fun _ _ => unpacketed _ rfl
theorem workItemDone : ∀ a b c d e, Statement (.workItemDone a b c d e) := fun _ _ _ _ _ => unpacketed _ rfl
theorem tileZeroDone : ∀ a, Statement (.tileZeroDone a) := fun _ => unpacketed _ rfl
theorem rebindCopyDone : ∀ a b, Statement (.rebindCopyDone a b) := fun _ _ => unpacketed _ rfl
theorem rebindVerifyTimeout : ∀ a, Statement (.rebindVerifyTimeout a) := fun _ => unpacketed _ rfl
theorem resetConfirmTimeout : ∀ a, Statement (.resetConfirmTimeout a) := fun _ => unpacketed _ rfl
theorem evictBound : ∀ a, Statement (.evictBound a) := fun _ => unpacketed _ rfl
theorem scrubDone : ∀ a, Statement (.scrubDone a) := fun _ => unpacketed _ rfl
theorem patrolScrub : ∀ a, Statement (.patrolScrub a) := fun _ => unpacketed _ rfl
theorem hbmEccError : ∀ a b, Statement (.hbmEccError a b) := fun _ _ => unpacketed _ rfl
theorem keyMessageTimeout : ∀ a b, Statement (.keyMessageTimeout a b) := fun _ _ => unpacketed _ rfl
theorem houseSessionStart : ∀ a, Statement (.houseSessionStart a) := fun _ => unpacketed _ rfl
theorem houseSessionRetry : ∀ a, Statement (.houseSessionRetry a) := fun _ => unpacketed _ rfl
theorem pwrWarnRecognised : Statement .pwrWarnRecognised := unpacketed _ rfl
theorem pwrWarnPulseIgnored : Statement .pwrWarnPulseIgnored := unpacketed _ rfl
theorem pwrWarnDeassert : Statement .pwrWarnDeassert := unpacketed _ rfl
theorem resumption : Statement .resumption := unpacketed _ rfl
theorem pmbusPoll : ∀ a, Statement (.pmbusPoll a) := fun _ => unpacketed _ rfl
theorem pmbusReprobe : ∀ a b, Statement (.pmbusReprobe a b) := fun _ _ => unpacketed _ rfl
theorem pmbAlert : Statement .pmbAlert := unpacketed _ rfl
theorem clusterClockStep : Statement .clusterClockStep := unpacketed _ rfl
theorem budgetCeilingRise : Statement .budgetCeilingRise := unpacketed _ rfl
theorem thermalCeilingRise : Statement .thermalCeilingRise := unpacketed _ rfl
theorem thermalTrip : Statement .thermalTrip := unpacketed _ rfl
theorem fatalFault : ∀ a, Statement (.fatalFault a) := fun _ => unpacketed _ rfl
theorem confirmWindowExpiry : Statement .confirmWindowExpiry := unpacketed _ rfl
theorem fwReset : Statement .fwReset := unpacketed _ rfl
theorem ringEntry : ∀ a, Statement (.ringEntry a) := fun _ => unpacketed _ rfl
theorem ringEjectArrival : ∀ a b, Statement (.ringEjectArrival a b) := fun _ _ => unpacketed _ rfl
theorem portSend : ∀ a, Statement (.portSend a) := fun _ => unpacketed _ rfl
theorem uncorrectableCodeword : ∀ a b, Statement (.uncorrectableCodeword a b) := fun _ _ => unpacketed _ rfl
theorem firstStartDisagreement : ∀ a, Statement (.firstStartDisagreement a) := fun _ => unpacketed _ rfl
theorem slotEccError : ∀ a b c d e, Statement (.slotEccError a b c d e) := fun _ _ _ _ _ => unpacketed _ rfl
theorem degradedModeLeft : Statement .degradedModeLeft := unpacketed _ rfl
theorem imageCheckDone : Statement .imageCheckDone := unpacketed _ rfl
theorem archiveWriteDone : ∀ a b, Statement (.archiveWriteDone a b) := fun _ _ => unpacketed _ rfl
theorem otpBurnDone : ∀ a, Statement (.otpBurnDone a) := fun _ => unpacketed _ rfl
theorem spdmResponse : ∀ a b c d e, Statement (.spdmResponse a b c d e) := fun _ _ _ _ _ => unpacketed _ rfl
theorem perstNDeassert : Statement .perstNDeassert := unpacketed _ rfl
theorem configurationRequest : ∀ a, Statement (.configurationRequest a) := fun _ => unpacketed _ rfl
theorem jtagInstruction : ∀ a, Statement (.jtagInstruction a) := fun _ => unpacketed _ rfl

end Sys2Proof.Laws.Wf
end

