-- ==== Sys2Proof/Laws/Present.lean ====
section
/-! SUPPORT. How a command packet reaches its handler: lemmas about arrival, acceptance and the reply that concludes a command. -/
namespace Sys2Proof.Machine

/-! ### Lists of channels -/

theorem modAt_length {α : Type} (l : List α) (i : Nat) (f : α → α) : (modAt l i f).length = l.length := by
  induction l generalizing i with
  | nil => rfl
  | cons x xs ih => cases i <;> simp [modAt, ih]

theorem modAt_getD_self {α : Type} (l : List α) (i : Nat) (f : α → α) (d : α) (h : i < l.length) :
    (modAt l i f).getD i d = f (l.getD i d) := by
  induction l generalizing i with
  | nil => simp at h
  | cons x xs ih =>
    cases i with
    | zero => rfl
    | succ i => simpa [modAt] using ih i (by simpa using h)

theorem modAt_getD_other {α : Type} (l : List α) (i j : Nat) (f : α → α) (d : α) (h : j ≠ i) :
    (modAt l i f).getD j d = l.getD j d := by
  induction l generalizing i j with
  | nil => cases i <;> rfl
  | cons x xs ih =>
    cases i with
    | zero => cases j with
      | zero => exact absurd rfl h
      | succ j => rfl
    | succ i => cases j with
      | zero => rfl
      | succ j => simpa [modAt] using ih i j (by omega)

/-- A change that leaves a component of every channel alone leaves it alone in each. -/
theorem updChan_component {β : Type} (s : State) (c d : Nat) (f : Channel → Channel) (g : Channel → β)
    (h : ∀ ch, g (f ch) = g ch) : g ((s.updChan c f).chan d) = g (s.chan d) := by
  unfold State.chan State.updChan
  dsimp only
  generalize s.chans = l
  by_cases hd : d = c
  · subst hd
    by_cases hl : d < l.length
    · rw [modAt_getD_self l d f _ hl, h]
    · rw [List.getD_eq_default _ _ (by rw [modAt_length]; omega), List.getD_eq_default _ _ (by omega)]
  · rw [modAt_getD_other l c d f _ hd]

/-! ### Arrival -/

/-- A packet's turn to be read moves no life of a channel. -/
theorem turn_epoch (s : State) (p : Pkt) (d : Nat) : ((s.turn p).chan d).epoch = (s.chan d).epoch :=
  updChan_component _ _ _ _ Channel.epoch (fun _ => rfl)

/-! ### What acceptance may change -/

/-- Only the channels, the management port and the interrupt state differ: what the way of a packet to its handler can change. -/
def Near (s t : State) : Prop := ∃ cs e i, t = { s with chans := cs, eth0 := e, irq := i }

theorem Near.trans {a b c : State} (h : Near a b) (g : Near b c) : Near a c := by
  obtain ⟨_, _, _, rfl⟩ := h
  obtain ⟨_, _, _, rfl⟩ := g
  exact ⟨_, _, _, rfl⟩

theorem near_updChan (s : State) (c : Nat) (f : Channel → Channel) : Near s (s.updChan c f) := ⟨_, s.eth0, s.irq, rfl⟩

/-- Checking a ring changes a channel and at most raises the ring-fault interrupt (R123). -/
theorem near_checkRing (s : State) (c : Nat) : Near s (s.checkRing c) := by
  unfold State.checkRing
  dsimp only
  refine Near.trans ?_ (near_updChan _ _ _)
  split
  · exact ⟨s.chans, s.eth0, _, rfl⟩
  · exact ⟨s.chans, s.eth0, s.irq, rfl⟩

/-- The host's write into a ring changes its channel (R122). -/
theorem near_hostWrite (s : State) (c : Nat) (d : List Byte) (t : Word32) : Near s (s.hostWrite c d t) := by
  unfold State.hostWrite
  split
  · exact (near_updChan _ _ _).trans (near_checkRing _ _)
  · exact ⟨s.chans, s.eth0, s.irq, rfl⟩

/-- The state a handler runs on differs from the state before the packet in nothing but the channels, the management port and the
interrupt state. -/
theorem accepted_near (s : State) (op : Nat) (p : Pkt) : Near s (s.accepted op p) :=
  (near_updChan s _ _).trans (near_updChan _ _ _)

/-- A packet that is taken in runs its handler on the accepted state, and the verdict is answered (R135, R140). -/
theorem present_taken (s : State) (op : Nat) (h : Handler) (p : Pkt) (t : s.takesIn op p = true) :
    s.present op h p = conclude (s.takenOf op p) (h (s.takenOf op p) (s.accepted op p)) := by
  unfold State.takesIn at t
  simp only [Bool.and_eq_true, decide_eq_true_eq, Option.isNone_iff_eq_none, Bool.or_eq_true] at t
  obtain ⟨⟨⟨⟨hr, hs⟩, hq⟩, hf⟩, ht⟩ := t
  unfold State.present
  rw [if_pos hr]
  unfold State.read
  rw [hs, hq]
  have hc : ((s.turn p).faults.fatal.isSome && !alwaysServed op) = false := by
    rcases hf with hf | hf <;> simp [hf]
  simp only [hc, ht, turn_epoch]
  rfl

end Sys2Proof.Machine
end

