-- ==== Sys2Proof/Laws/State.lean ====
section
/-! SUPPORT. Each field of the state after each of the shared updates: the one an update changes has the value given, and every other := rfl
is as before. -/
namespace Sys2Proof.Machine

/-! ### updChan -/

@[simp] theorem updChan_pending (s : State) (c : Nat) (f : Channel → Channel) : (s.updChan c f).pending = s.pending := rfl
@[simp] theorem updChan_pins (s : State) (c : Nat) (f : Channel → Channel) : (s.updChan c f).pins = s.pins := rfl
@[simp] theorem updChan_fuses (s : State) (c : Nat) (f : Channel → Channel) : (s.updChan c f).fuses = s.fuses := rfl
@[simp] theorem updChan_boot (s : State) (c : Nat) (f : Channel → Channel) : (s.updChan c f).boot = s.boot := rfl
@[simp] theorem updChan_clk (s : State) (c : Nat) (f : Channel → Channel) : (s.updChan c f).clk = s.clk := rfl
@[simp] theorem updChan_lib (s : State) (c : Nat) (f : Channel → Channel) : (s.updChan c f).lib = s.lib := rfl
@[simp] theorem updChan_vis (s : State) (c : Nat) (f : Channel → Channel) : (s.updChan c f).vis = s.vis := rfl
@[simp] theorem updChan_stg (s : State) (c : Nat) (f : Channel → Channel) : (s.updChan c f).stg = s.stg := rfl
@[simp] theorem updChan_ledger (s : State) (c : Nat) (f : Channel → Channel) : (s.updChan c f).ledger = s.ledger := rfl
@[simp] theorem updChan_tasks (s : State) (c : Nat) (f : Channel → Channel) : (s.updChan c f).tasks = s.tasks := rfl
@[simp] theorem updChan_nextTask (s : State) (c : Nat) (f : Channel → Channel) : (s.updChan c f).nextTask = s.nextTask := rfl
@[simp] theorem updChan_chans (s : State) (c : Nat) (f : Channel → Channel) : (s.updChan c f).chans = modAt s.chans c f := rfl
@[simp] theorem updChan_eth0 (s : State) (c : Nat) (f : Channel → Channel) : (s.updChan c f).eth0 = s.eth0 := rfl
@[simp] theorem updChan_eth1 (s : State) (c : Nat) (f : Channel → Channel) : (s.updChan c f).eth1 = s.eth1 := rfl
@[simp] theorem updChan_ocs (s : State) (c : Nat) (f : Channel → Channel) : (s.updChan c f).ocs = s.ocs := rfl
@[simp] theorem updChan_ports (s : State) (c : Nat) (f : Channel → Channel) : (s.updChan c f).ports = s.ports := rfl
@[simp] theorem updChan_rings (s : State) (c : Nat) (f : Channel → Channel) : (s.updChan c f).rings = s.rings := rfl
@[simp] theorem updChan_clusters (s : State) (c : Nat) (f : Channel → Channel) : (s.updChan c f).clusters = s.clusters := rfl
@[simp] theorem updChan_flows (s : State) (c : Nat) (f : Channel → Channel) : (s.updChan c f).flows = s.flows := rfl
@[simp] theorem updChan_sends (s : State) (c : Nat) (f : Channel → Channel) : (s.updChan c f).sends = s.sends := rfl
@[simp] theorem updChan_casts (s : State) (c : Nat) (f : Channel → Channel) : (s.updChan c f).casts = s.casts := rfl
@[simp] theorem updChan_buckets (s : State) (c : Nat) (f : Channel → Channel) : (s.updChan c f).buckets = s.buckets := rfl
@[simp] theorem updChan_links (s : State) (c : Nat) (f : Channel → Channel) : (s.updChan c f).links = s.links := rfl
@[simp] theorem updChan_disc (s : State) (c : Nat) (f : Channel → Channel) : (s.updChan c f).disc = s.disc := rfl
@[simp] theorem updChan_faults (s : State) (c : Nat) (f : Channel → Channel) : (s.updChan c f).faults = s.faults := rfl
@[simp] theorem updChan_rot (s : State) (c : Nat) (f : Channel → Channel) : (s.updChan c f).rot = s.rot := rfl
@[simp] theorem updChan_power (s : State) (c : Nat) (f : Channel → Channel) : (s.updChan c f).power = s.power := rfl
@[simp] theorem updChan_fw (s : State) (c : Nat) (f : Channel → Channel) : (s.updChan c f).fw = s.fw := rfl
@[simp] theorem updChan_irq (s : State) (c : Nat) (f : Channel → Channel) : (s.updChan c f).irq = s.irq := rfl
@[simp] theorem updChan_regs (s : State) (c : Nat) (f : Channel → Channel) : (s.updChan c f).regs = s.regs := rfl
@[simp] theorem updChan_shown (s : State) (c : Nat) (f : Channel → Channel) : (s.updChan c f).shown = s.shown := rfl
@[simp] theorem updChan_mirror (s : State) (c : Nat) (f : Channel → Channel) : (s.updChan c f).mirror = s.mirror := rfl
@[simp] theorem updChan_sampled (s : State) (c : Nat) (f : Channel → Channel) : (s.updChan c f).sampled = s.sampled := rfl
@[simp] theorem updChan_freeCtr (s : State) (c : Nat) (f : Channel → Channel) : (s.updChan c f).freeCtr = s.freeCtr := rfl

/-! ### updPort -/

@[simp] theorem updPort_pending (s : State) (d : Nat) (f : Port → Port) : (s.updPort d f).pending = s.pending := rfl
@[simp] theorem updPort_pins (s : State) (d : Nat) (f : Port → Port) : (s.updPort d f).pins = s.pins := rfl
@[simp] theorem updPort_fuses (s : State) (d : Nat) (f : Port → Port) : (s.updPort d f).fuses = s.fuses := rfl
@[simp] theorem updPort_boot (s : State) (d : Nat) (f : Port → Port) : (s.updPort d f).boot = s.boot := rfl
@[simp] theorem updPort_clk (s : State) (d : Nat) (f : Port → Port) : (s.updPort d f).clk = s.clk := rfl
@[simp] theorem updPort_lib (s : State) (d : Nat) (f : Port → Port) : (s.updPort d f).lib = s.lib := rfl
@[simp] theorem updPort_vis (s : State) (d : Nat) (f : Port → Port) : (s.updPort d f).vis = s.vis := rfl
@[simp] theorem updPort_stg (s : State) (d : Nat) (f : Port → Port) : (s.updPort d f).stg = s.stg := rfl
@[simp] theorem updPort_ledger (s : State) (d : Nat) (f : Port → Port) : (s.updPort d f).ledger = s.ledger := rfl
@[simp] theorem updPort_tasks (s : State) (d : Nat) (f : Port → Port) : (s.updPort d f).tasks = s.tasks := rfl
@[simp] theorem updPort_nextTask (s : State) (d : Nat) (f : Port → Port) : (s.updPort d f).nextTask = s.nextTask := rfl
@[simp] theorem updPort_chans (s : State) (d : Nat) (f : Port → Port) : (s.updPort d f).chans = s.chans := rfl
@[simp] theorem updPort_eth0 (s : State) (d : Nat) (f : Port → Port) : (s.updPort d f).eth0 = s.eth0 := rfl
@[simp] theorem updPort_eth1 (s : State) (d : Nat) (f : Port → Port) : (s.updPort d f).eth1 = s.eth1 := rfl
@[simp] theorem updPort_ocs (s : State) (d : Nat) (f : Port → Port) : (s.updPort d f).ocs = s.ocs := rfl
@[simp] theorem updPort_ports (s : State) (d : Nat) (f : Port → Port) : (s.updPort d f).ports = modAt s.ports d f := rfl
@[simp] theorem updPort_rings (s : State) (d : Nat) (f : Port → Port) : (s.updPort d f).rings = s.rings := rfl
@[simp] theorem updPort_clusters (s : State) (d : Nat) (f : Port → Port) : (s.updPort d f).clusters = s.clusters := rfl
@[simp] theorem updPort_flows (s : State) (d : Nat) (f : Port → Port) : (s.updPort d f).flows = s.flows := rfl
@[simp] theorem updPort_sends (s : State) (d : Nat) (f : Port → Port) : (s.updPort d f).sends = s.sends := rfl
@[simp] theorem updPort_casts (s : State) (d : Nat) (f : Port → Port) : (s.updPort d f).casts = s.casts := rfl
@[simp] theorem updPort_buckets (s : State) (d : Nat) (f : Port → Port) : (s.updPort d f).buckets = s.buckets := rfl
@[simp] theorem updPort_links (s : State) (d : Nat) (f : Port → Port) : (s.updPort d f).links = s.links := rfl
@[simp] theorem updPort_disc (s : State) (d : Nat) (f : Port → Port) : (s.updPort d f).disc = s.disc := rfl
@[simp] theorem updPort_faults (s : State) (d : Nat) (f : Port → Port) : (s.updPort d f).faults = s.faults := rfl
@[simp] theorem updPort_rot (s : State) (d : Nat) (f : Port → Port) : (s.updPort d f).rot = s.rot := rfl
@[simp] theorem updPort_power (s : State) (d : Nat) (f : Port → Port) : (s.updPort d f).power = s.power := rfl
@[simp] theorem updPort_fw (s : State) (d : Nat) (f : Port → Port) : (s.updPort d f).fw = s.fw := rfl
@[simp] theorem updPort_irq (s : State) (d : Nat) (f : Port → Port) : (s.updPort d f).irq = s.irq := rfl
@[simp] theorem updPort_regs (s : State) (d : Nat) (f : Port → Port) : (s.updPort d f).regs = s.regs := rfl
@[simp] theorem updPort_shown (s : State) (d : Nat) (f : Port → Port) : (s.updPort d f).shown = s.shown := rfl
@[simp] theorem updPort_mirror (s : State) (d : Nat) (f : Port → Port) : (s.updPort d f).mirror = s.mirror := rfl
@[simp] theorem updPort_sampled (s : State) (d : Nat) (f : Port → Port) : (s.updPort d f).sampled = s.sampled := rfl
@[simp] theorem updPort_freeCtr (s : State) (d : Nat) (f : Port → Port) : (s.updPort d f).freeCtr = s.freeCtr := rfl

/-! ### updLed -/

@[simp] theorem updLed_pending (s : State) (f : Led → Led) : (s.updLed f).pending = s.pending := rfl
@[simp] theorem updLed_pins (s : State) (f : Led → Led) : (s.updLed f).pins = s.pins := rfl
@[simp] theorem updLed_fuses (s : State) (f : Led → Led) : (s.updLed f).fuses = s.fuses := rfl
@[simp] theorem updLed_boot (s : State) (f : Led → Led) : (s.updLed f).boot = s.boot := rfl
@[simp] theorem updLed_clk (s : State) (f : Led → Led) : (s.updLed f).clk = s.clk := rfl
@[simp] theorem updLed_lib (s : State) (f : Led → Led) : (s.updLed f).lib = s.lib := rfl
@[simp] theorem updLed_vis (s : State) (f : Led → Led) : (s.updLed f).vis = s.vis := rfl
@[simp] theorem updLed_stg (s : State) (f : Led → Led) : (s.updLed f).stg = { s.stg with led := f s.stg.led } := rfl
@[simp] theorem updLed_ledger (s : State) (f : Led → Led) : (s.updLed f).ledger = s.ledger := rfl
@[simp] theorem updLed_tasks (s : State) (f : Led → Led) : (s.updLed f).tasks = s.tasks := rfl
@[simp] theorem updLed_nextTask (s : State) (f : Led → Led) : (s.updLed f).nextTask = s.nextTask := rfl
@[simp] theorem updLed_chans (s : State) (f : Led → Led) : (s.updLed f).chans = s.chans := rfl
@[simp] theorem updLed_eth0 (s : State) (f : Led → Led) : (s.updLed f).eth0 = s.eth0 := rfl
@[simp] theorem updLed_eth1 (s : State) (f : Led → Led) : (s.updLed f).eth1 = s.eth1 := rfl
@[simp] theorem updLed_ocs (s : State) (f : Led → Led) : (s.updLed f).ocs = s.ocs := rfl
@[simp] theorem updLed_ports (s : State) (f : Led → Led) : (s.updLed f).ports = s.ports := rfl
@[simp] theorem updLed_rings (s : State) (f : Led → Led) : (s.updLed f).rings = s.rings := rfl
@[simp] theorem updLed_clusters (s : State) (f : Led → Led) : (s.updLed f).clusters = s.clusters := rfl
@[simp] theorem updLed_flows (s : State) (f : Led → Led) : (s.updLed f).flows = s.flows := rfl
@[simp] theorem updLed_sends (s : State) (f : Led → Led) : (s.updLed f).sends = s.sends := rfl
@[simp] theorem updLed_casts (s : State) (f : Led → Led) : (s.updLed f).casts = s.casts := rfl
@[simp] theorem updLed_buckets (s : State) (f : Led → Led) : (s.updLed f).buckets = s.buckets := rfl
@[simp] theorem updLed_links (s : State) (f : Led → Led) : (s.updLed f).links = s.links := rfl
@[simp] theorem updLed_disc (s : State) (f : Led → Led) : (s.updLed f).disc = s.disc := rfl
@[simp] theorem updLed_faults (s : State) (f : Led → Led) : (s.updLed f).faults = s.faults := rfl
@[simp] theorem updLed_rot (s : State) (f : Led → Led) : (s.updLed f).rot = s.rot := rfl
@[simp] theorem updLed_power (s : State) (f : Led → Led) : (s.updLed f).power = s.power := rfl
@[simp] theorem updLed_fw (s : State) (f : Led → Led) : (s.updLed f).fw = s.fw := rfl
@[simp] theorem updLed_irq (s : State) (f : Led → Led) : (s.updLed f).irq = s.irq := rfl
@[simp] theorem updLed_regs (s : State) (f : Led → Led) : (s.updLed f).regs = s.regs := rfl
@[simp] theorem updLed_shown (s : State) (f : Led → Led) : (s.updLed f).shown = s.shown := rfl
@[simp] theorem updLed_mirror (s : State) (f : Led → Led) : (s.updLed f).mirror = s.mirror := rfl
@[simp] theorem updLed_sampled (s : State) (f : Led → Led) : (s.updLed f).sampled = s.sampled := rfl
@[simp] theorem updLed_freeCtr (s : State) (f : Led → Led) : (s.updLed f).freeCtr = s.freeCtr := rfl

/-! ### updVol -/

@[simp] theorem updVol_pending (s : State) (f : Vol → Vol) : (s.updVol f).pending = s.pending := rfl
@[simp] theorem updVol_pins (s : State) (f : Vol → Vol) : (s.updVol f).pins = s.pins := rfl
@[simp] theorem updVol_fuses (s : State) (f : Vol → Vol) : (s.updVol f).fuses = s.fuses := rfl
@[simp] theorem updVol_boot (s : State) (f : Vol → Vol) : (s.updVol f).boot = s.boot := rfl
@[simp] theorem updVol_clk (s : State) (f : Vol → Vol) : (s.updVol f).clk = s.clk := rfl
@[simp] theorem updVol_lib (s : State) (f : Vol → Vol) : (s.updVol f).lib = s.lib := rfl
@[simp] theorem updVol_vis (s : State) (f : Vol → Vol) : (s.updVol f).vis = s.vis := rfl
@[simp] theorem updVol_stg (s : State) (f : Vol → Vol) : (s.updVol f).stg = { s.stg with vol := f s.stg.vol } := rfl
@[simp] theorem updVol_ledger (s : State) (f : Vol → Vol) : (s.updVol f).ledger = s.ledger := rfl
@[simp] theorem updVol_tasks (s : State) (f : Vol → Vol) : (s.updVol f).tasks = s.tasks := rfl
@[simp] theorem updVol_nextTask (s : State) (f : Vol → Vol) : (s.updVol f).nextTask = s.nextTask := rfl
@[simp] theorem updVol_chans (s : State) (f : Vol → Vol) : (s.updVol f).chans = s.chans := rfl
@[simp] theorem updVol_eth0 (s : State) (f : Vol → Vol) : (s.updVol f).eth0 = s.eth0 := rfl
@[simp] theorem updVol_eth1 (s : State) (f : Vol → Vol) : (s.updVol f).eth1 = s.eth1 := rfl
@[simp] theorem updVol_ocs (s : State) (f : Vol → Vol) : (s.updVol f).ocs = s.ocs := rfl
@[simp] theorem updVol_ports (s : State) (f : Vol → Vol) : (s.updVol f).ports = s.ports := rfl
@[simp] theorem updVol_rings (s : State) (f : Vol → Vol) : (s.updVol f).rings = s.rings := rfl
@[simp] theorem updVol_clusters (s : State) (f : Vol → Vol) : (s.updVol f).clusters = s.clusters := rfl
@[simp] theorem updVol_flows (s : State) (f : Vol → Vol) : (s.updVol f).flows = s.flows := rfl
@[simp] theorem updVol_sends (s : State) (f : Vol → Vol) : (s.updVol f).sends = s.sends := rfl
@[simp] theorem updVol_casts (s : State) (f : Vol → Vol) : (s.updVol f).casts = s.casts := rfl
@[simp] theorem updVol_buckets (s : State) (f : Vol → Vol) : (s.updVol f).buckets = s.buckets := rfl
@[simp] theorem updVol_links (s : State) (f : Vol → Vol) : (s.updVol f).links = s.links := rfl
@[simp] theorem updVol_disc (s : State) (f : Vol → Vol) : (s.updVol f).disc = s.disc := rfl
@[simp] theorem updVol_faults (s : State) (f : Vol → Vol) : (s.updVol f).faults = s.faults := rfl
@[simp] theorem updVol_rot (s : State) (f : Vol → Vol) : (s.updVol f).rot = s.rot := rfl
@[simp] theorem updVol_power (s : State) (f : Vol → Vol) : (s.updVol f).power = s.power := rfl
@[simp] theorem updVol_fw (s : State) (f : Vol → Vol) : (s.updVol f).fw = s.fw := rfl
@[simp] theorem updVol_irq (s : State) (f : Vol → Vol) : (s.updVol f).irq = s.irq := rfl
@[simp] theorem updVol_regs (s : State) (f : Vol → Vol) : (s.updVol f).regs = s.regs := rfl
@[simp] theorem updVol_shown (s : State) (f : Vol → Vol) : (s.updVol f).shown = s.shown := rfl
@[simp] theorem updVol_mirror (s : State) (f : Vol → Vol) : (s.updVol f).mirror = s.mirror := rfl
@[simp] theorem updVol_sampled (s : State) (f : Vol → Vol) : (s.updVol f).sampled = s.sampled := rfl
@[simp] theorem updVol_freeCtr (s : State) (f : Vol → Vol) : (s.updVol f).freeCtr = s.freeCtr := rfl

/-! ### updLedger -/

@[simp] theorem updLedger_pending (s : State) (f : Ledger → Ledger) : (s.updLedger f).pending = s.pending := rfl
@[simp] theorem updLedger_pins (s : State) (f : Ledger → Ledger) : (s.updLedger f).pins = s.pins := rfl
@[simp] theorem updLedger_fuses (s : State) (f : Ledger → Ledger) : (s.updLedger f).fuses = s.fuses := rfl
@[simp] theorem updLedger_boot (s : State) (f : Ledger → Ledger) : (s.updLedger f).boot = s.boot := rfl
@[simp] theorem updLedger_clk (s : State) (f : Ledger → Ledger) : (s.updLedger f).clk = s.clk := rfl
@[simp] theorem updLedger_lib (s : State) (f : Ledger → Ledger) : (s.updLedger f).lib = s.lib := rfl
@[simp] theorem updLedger_vis (s : State) (f : Ledger → Ledger) : (s.updLedger f).vis = s.vis := rfl
@[simp] theorem updLedger_stg (s : State) (f : Ledger → Ledger) : (s.updLedger f).stg = s.stg := rfl
@[simp] theorem updLedger_ledger (s : State) (f : Ledger → Ledger) : (s.updLedger f).ledger = f s.ledger := rfl
@[simp] theorem updLedger_tasks (s : State) (f : Ledger → Ledger) : (s.updLedger f).tasks = s.tasks := rfl
@[simp] theorem updLedger_nextTask (s : State) (f : Ledger → Ledger) : (s.updLedger f).nextTask = s.nextTask := rfl
@[simp] theorem updLedger_chans (s : State) (f : Ledger → Ledger) : (s.updLedger f).chans = s.chans := rfl
@[simp] theorem updLedger_eth0 (s : State) (f : Ledger → Ledger) : (s.updLedger f).eth0 = s.eth0 := rfl
@[simp] theorem updLedger_eth1 (s : State) (f : Ledger → Ledger) : (s.updLedger f).eth1 = s.eth1 := rfl
@[simp] theorem updLedger_ocs (s : State) (f : Ledger → Ledger) : (s.updLedger f).ocs = s.ocs := rfl
@[simp] theorem updLedger_ports (s : State) (f : Ledger → Ledger) : (s.updLedger f).ports = s.ports := rfl
@[simp] theorem updLedger_rings (s : State) (f : Ledger → Ledger) : (s.updLedger f).rings = s.rings := rfl
@[simp] theorem updLedger_clusters (s : State) (f : Ledger → Ledger) : (s.updLedger f).clusters = s.clusters := rfl
@[simp] theorem updLedger_flows (s : State) (f : Ledger → Ledger) : (s.updLedger f).flows = s.flows := rfl
@[simp] theorem updLedger_sends (s : State) (f : Ledger → Ledger) : (s.updLedger f).sends = s.sends := rfl
@[simp] theorem updLedger_casts (s : State) (f : Ledger → Ledger) : (s.updLedger f).casts = s.casts := rfl
@[simp] theorem updLedger_buckets (s : State) (f : Ledger → Ledger) : (s.updLedger f).buckets = s.buckets := rfl
@[simp] theorem updLedger_links (s : State) (f : Ledger → Ledger) : (s.updLedger f).links = s.links := rfl
@[simp] theorem updLedger_disc (s : State) (f : Ledger → Ledger) : (s.updLedger f).disc = s.disc := rfl
@[simp] theorem updLedger_faults (s : State) (f : Ledger → Ledger) : (s.updLedger f).faults = s.faults := rfl
@[simp] theorem updLedger_rot (s : State) (f : Ledger → Ledger) : (s.updLedger f).rot = s.rot := rfl
@[simp] theorem updLedger_power (s : State) (f : Ledger → Ledger) : (s.updLedger f).power = s.power := rfl
@[simp] theorem updLedger_fw (s : State) (f : Ledger → Ledger) : (s.updLedger f).fw = s.fw := rfl
@[simp] theorem updLedger_irq (s : State) (f : Ledger → Ledger) : (s.updLedger f).irq = s.irq := rfl
@[simp] theorem updLedger_regs (s : State) (f : Ledger → Ledger) : (s.updLedger f).regs = s.regs := rfl
@[simp] theorem updLedger_shown (s : State) (f : Ledger → Ledger) : (s.updLedger f).shown = s.shown := rfl
@[simp] theorem updLedger_mirror (s : State) (f : Ledger → Ledger) : (s.updLedger f).mirror = s.mirror := rfl
@[simp] theorem updLedger_sampled (s : State) (f : Ledger → Ledger) : (s.updLedger f).sampled = s.sampled := rfl
@[simp] theorem updLedger_freeCtr (s : State) (f : Ledger → Ledger) : (s.updLedger f).freeCtr = s.freeCtr := rfl

/-! ### updQuireVol -/

@[simp] theorem updQuireVol_pending (s : State) (q : QuireId) (f : QuireVol → QuireVol) : (s.updQuireVol q f).pending = s.pending := rfl
@[simp] theorem updQuireVol_pins (s : State) (q : QuireId) (f : QuireVol → QuireVol) : (s.updQuireVol q f).pins = s.pins := rfl
@[simp] theorem updQuireVol_fuses (s : State) (q : QuireId) (f : QuireVol → QuireVol) : (s.updQuireVol q f).fuses = s.fuses := rfl
@[simp] theorem updQuireVol_boot (s : State) (q : QuireId) (f : QuireVol → QuireVol) : (s.updQuireVol q f).boot = s.boot := rfl
@[simp] theorem updQuireVol_clk (s : State) (q : QuireId) (f : QuireVol → QuireVol) : (s.updQuireVol q f).clk = s.clk := rfl
@[simp] theorem updQuireVol_lib (s : State) (q : QuireId) (f : QuireVol → QuireVol) : (s.updQuireVol q f).lib = s.lib := rfl
@[simp] theorem updQuireVol_vis (s : State) (q : QuireId) (f : QuireVol → QuireVol) : (s.updQuireVol q f).vis = s.vis := rfl
@[simp] theorem updQuireVol_stg (s : State) (q : QuireId) (f : QuireVol → QuireVol) : (s.updQuireVol q f).stg = { s.stg with vol := s.stg.vol.updQuire q f } := rfl
@[simp] theorem updQuireVol_ledger (s : State) (q : QuireId) (f : QuireVol → QuireVol) : (s.updQuireVol q f).ledger = s.ledger := rfl
@[simp] theorem updQuireVol_tasks (s : State) (q : QuireId) (f : QuireVol → QuireVol) : (s.updQuireVol q f).tasks = s.tasks := rfl
@[simp] theorem updQuireVol_nextTask (s : State) (q : QuireId) (f : QuireVol → QuireVol) : (s.updQuireVol q f).nextTask = s.nextTask := rfl
@[simp] theorem updQuireVol_chans (s : State) (q : QuireId) (f : QuireVol → QuireVol) : (s.updQuireVol q f).chans = s.chans := rfl
@[simp] theorem updQuireVol_eth0 (s : State) (q : QuireId) (f : QuireVol → QuireVol) : (s.updQuireVol q f).eth0 = s.eth0 := rfl
@[simp] theorem updQuireVol_eth1 (s : State) (q : QuireId) (f : QuireVol → QuireVol) : (s.updQuireVol q f).eth1 = s.eth1 := rfl
@[simp] theorem updQuireVol_ocs (s : State) (q : QuireId) (f : QuireVol → QuireVol) : (s.updQuireVol q f).ocs = s.ocs := rfl
@[simp] theorem updQuireVol_ports (s : State) (q : QuireId) (f : QuireVol → QuireVol) : (s.updQuireVol q f).ports = s.ports := rfl
@[simp] theorem updQuireVol_rings (s : State) (q : QuireId) (f : QuireVol → QuireVol) : (s.updQuireVol q f).rings = s.rings := rfl
@[simp] theorem updQuireVol_clusters (s : State) (q : QuireId) (f : QuireVol → QuireVol) : (s.updQuireVol q f).clusters = s.clusters := rfl
@[simp] theorem updQuireVol_flows (s : State) (q : QuireId) (f : QuireVol → QuireVol) : (s.updQuireVol q f).flows = s.flows := rfl
@[simp] theorem updQuireVol_sends (s : State) (q : QuireId) (f : QuireVol → QuireVol) : (s.updQuireVol q f).sends = s.sends := rfl
@[simp] theorem updQuireVol_casts (s : State) (q : QuireId) (f : QuireVol → QuireVol) : (s.updQuireVol q f).casts = s.casts := rfl
@[simp] theorem updQuireVol_buckets (s : State) (q : QuireId) (f : QuireVol → QuireVol) : (s.updQuireVol q f).buckets = s.buckets := rfl
@[simp] theorem updQuireVol_links (s : State) (q : QuireId) (f : QuireVol → QuireVol) : (s.updQuireVol q f).links = s.links := rfl
@[simp] theorem updQuireVol_disc (s : State) (q : QuireId) (f : QuireVol → QuireVol) : (s.updQuireVol q f).disc = s.disc := rfl
@[simp] theorem updQuireVol_faults (s : State) (q : QuireId) (f : QuireVol → QuireVol) : (s.updQuireVol q f).faults = s.faults := rfl
@[simp] theorem updQuireVol_rot (s : State) (q : QuireId) (f : QuireVol → QuireVol) : (s.updQuireVol q f).rot = s.rot := rfl
@[simp] theorem updQuireVol_power (s : State) (q : QuireId) (f : QuireVol → QuireVol) : (s.updQuireVol q f).power = s.power := rfl
@[simp] theorem updQuireVol_fw (s : State) (q : QuireId) (f : QuireVol → QuireVol) : (s.updQuireVol q f).fw = s.fw := rfl
@[simp] theorem updQuireVol_irq (s : State) (q : QuireId) (f : QuireVol → QuireVol) : (s.updQuireVol q f).irq = s.irq := rfl
@[simp] theorem updQuireVol_regs (s : State) (q : QuireId) (f : QuireVol → QuireVol) : (s.updQuireVol q f).regs = s.regs := rfl
@[simp] theorem updQuireVol_shown (s : State) (q : QuireId) (f : QuireVol → QuireVol) : (s.updQuireVol q f).shown = s.shown := rfl
@[simp] theorem updQuireVol_mirror (s : State) (q : QuireId) (f : QuireVol → QuireVol) : (s.updQuireVol q f).mirror = s.mirror := rfl
@[simp] theorem updQuireVol_sampled (s : State) (q : QuireId) (f : QuireVol → QuireVol) : (s.updQuireVol q f).sampled = s.sampled := rfl
@[simp] theorem updQuireVol_freeCtr (s : State) (q : QuireId) (f : QuireVol → QuireVol) : (s.updQuireVol q f).freeCtr = s.freeCtr := rfl

/-! ### updTask -/

@[simp] theorem updTask_pending (s : State) (id : Nat) (f : Task → Task) : (s.updTask id f).pending = s.pending := rfl
@[simp] theorem updTask_pins (s : State) (id : Nat) (f : Task → Task) : (s.updTask id f).pins = s.pins := rfl
@[simp] theorem updTask_fuses (s : State) (id : Nat) (f : Task → Task) : (s.updTask id f).fuses = s.fuses := rfl
@[simp] theorem updTask_boot (s : State) (id : Nat) (f : Task → Task) : (s.updTask id f).boot = s.boot := rfl
@[simp] theorem updTask_clk (s : State) (id : Nat) (f : Task → Task) : (s.updTask id f).clk = s.clk := rfl
@[simp] theorem updTask_lib (s : State) (id : Nat) (f : Task → Task) : (s.updTask id f).lib = s.lib := rfl
@[simp] theorem updTask_vis (s : State) (id : Nat) (f : Task → Task) : (s.updTask id f).vis = s.vis := rfl
@[simp] theorem updTask_stg (s : State) (id : Nat) (f : Task → Task) : (s.updTask id f).stg = s.stg := rfl
@[simp] theorem updTask_ledger (s : State) (id : Nat) (f : Task → Task) : (s.updTask id f).ledger = s.ledger := rfl
@[simp] theorem updTask_tasks (s : State) (id : Nat) (f : Task → Task) : (s.updTask id f).tasks = modWhere s.tasks (·.id = id) f := rfl
@[simp] theorem updTask_nextTask (s : State) (id : Nat) (f : Task → Task) : (s.updTask id f).nextTask = s.nextTask := rfl
@[simp] theorem updTask_chans (s : State) (id : Nat) (f : Task → Task) : (s.updTask id f).chans = s.chans := rfl
@[simp] theorem updTask_eth0 (s : State) (id : Nat) (f : Task → Task) : (s.updTask id f).eth0 = s.eth0 := rfl
@[simp] theorem updTask_eth1 (s : State) (id : Nat) (f : Task → Task) : (s.updTask id f).eth1 = s.eth1 := rfl
@[simp] theorem updTask_ocs (s : State) (id : Nat) (f : Task → Task) : (s.updTask id f).ocs = s.ocs := rfl
@[simp] theorem updTask_ports (s : State) (id : Nat) (f : Task → Task) : (s.updTask id f).ports = s.ports := rfl
@[simp] theorem updTask_rings (s : State) (id : Nat) (f : Task → Task) : (s.updTask id f).rings = s.rings := rfl
@[simp] theorem updTask_clusters (s : State) (id : Nat) (f : Task → Task) : (s.updTask id f).clusters = s.clusters := rfl
@[simp] theorem updTask_flows (s : State) (id : Nat) (f : Task → Task) : (s.updTask id f).flows = s.flows := rfl
@[simp] theorem updTask_sends (s : State) (id : Nat) (f : Task → Task) : (s.updTask id f).sends = s.sends := rfl
@[simp] theorem updTask_casts (s : State) (id : Nat) (f : Task → Task) : (s.updTask id f).casts = s.casts := rfl
@[simp] theorem updTask_buckets (s : State) (id : Nat) (f : Task → Task) : (s.updTask id f).buckets = s.buckets := rfl
@[simp] theorem updTask_links (s : State) (id : Nat) (f : Task → Task) : (s.updTask id f).links = s.links := rfl
@[simp] theorem updTask_disc (s : State) (id : Nat) (f : Task → Task) : (s.updTask id f).disc = s.disc := rfl
@[simp] theorem updTask_faults (s : State) (id : Nat) (f : Task → Task) : (s.updTask id f).faults = s.faults := rfl
@[simp] theorem updTask_rot (s : State) (id : Nat) (f : Task → Task) : (s.updTask id f).rot = s.rot := rfl
@[simp] theorem updTask_power (s : State) (id : Nat) (f : Task → Task) : (s.updTask id f).power = s.power := rfl
@[simp] theorem updTask_fw (s : State) (id : Nat) (f : Task → Task) : (s.updTask id f).fw = s.fw := rfl
@[simp] theorem updTask_irq (s : State) (id : Nat) (f : Task → Task) : (s.updTask id f).irq = s.irq := rfl
@[simp] theorem updTask_regs (s : State) (id : Nat) (f : Task → Task) : (s.updTask id f).regs = s.regs := rfl
@[simp] theorem updTask_shown (s : State) (id : Nat) (f : Task → Task) : (s.updTask id f).shown = s.shown := rfl
@[simp] theorem updTask_mirror (s : State) (id : Nat) (f : Task → Task) : (s.updTask id f).mirror = s.mirror := rfl
@[simp] theorem updTask_sampled (s : State) (id : Nat) (f : Task → Task) : (s.updTask id f).sampled = s.sampled := rfl
@[simp] theorem updTask_freeCtr (s : State) (id : Nat) (f : Task → Task) : (s.updTask id f).freeCtr = s.freeCtr := rfl

/-! ### updOp -/

@[simp] theorem updOp_pending (s : State) (q : QuireId) (tag : Nat) (f : Op → Op) : (s.updOp q tag f).pending = s.pending := rfl
@[simp] theorem updOp_pins (s : State) (q : QuireId) (tag : Nat) (f : Op → Op) : (s.updOp q tag f).pins = s.pins := rfl
@[simp] theorem updOp_fuses (s : State) (q : QuireId) (tag : Nat) (f : Op → Op) : (s.updOp q tag f).fuses = s.fuses := rfl
@[simp] theorem updOp_boot (s : State) (q : QuireId) (tag : Nat) (f : Op → Op) : (s.updOp q tag f).boot = s.boot := rfl
@[simp] theorem updOp_clk (s : State) (q : QuireId) (tag : Nat) (f : Op → Op) : (s.updOp q tag f).clk = s.clk := rfl
@[simp] theorem updOp_lib (s : State) (q : QuireId) (tag : Nat) (f : Op → Op) : (s.updOp q tag f).lib = s.lib := rfl
@[simp] theorem updOp_vis (s : State) (q : QuireId) (tag : Nat) (f : Op → Op) : (s.updOp q tag f).vis = s.vis := rfl
@[simp] theorem updOp_stg (s : State) (q : QuireId) (tag : Nat) (f : Op → Op) : (s.updOp q tag f).stg = { s.stg with vol := { s.stg.vol with ops := modWhere s.stg.vol.ops (fun o => o.quire = q && o.tag = tag) f } } := rfl
@[simp] theorem updOp_ledger (s : State) (q : QuireId) (tag : Nat) (f : Op → Op) : (s.updOp q tag f).ledger = s.ledger := rfl
@[simp] theorem updOp_tasks (s : State) (q : QuireId) (tag : Nat) (f : Op → Op) : (s.updOp q tag f).tasks = s.tasks := rfl
@[simp] theorem updOp_nextTask (s : State) (q : QuireId) (tag : Nat) (f : Op → Op) : (s.updOp q tag f).nextTask = s.nextTask := rfl
@[simp] theorem updOp_chans (s : State) (q : QuireId) (tag : Nat) (f : Op → Op) : (s.updOp q tag f).chans = s.chans := rfl
@[simp] theorem updOp_eth0 (s : State) (q : QuireId) (tag : Nat) (f : Op → Op) : (s.updOp q tag f).eth0 = s.eth0 := rfl
@[simp] theorem updOp_eth1 (s : State) (q : QuireId) (tag : Nat) (f : Op → Op) : (s.updOp q tag f).eth1 = s.eth1 := rfl
@[simp] theorem updOp_ocs (s : State) (q : QuireId) (tag : Nat) (f : Op → Op) : (s.updOp q tag f).ocs = s.ocs := rfl
@[simp] theorem updOp_ports (s : State) (q : QuireId) (tag : Nat) (f : Op → Op) : (s.updOp q tag f).ports = s.ports := rfl
@[simp] theorem updOp_rings (s : State) (q : QuireId) (tag : Nat) (f : Op → Op) : (s.updOp q tag f).rings = s.rings := rfl
@[simp] theorem updOp_clusters (s : State) (q : QuireId) (tag : Nat) (f : Op → Op) : (s.updOp q tag f).clusters = s.clusters := rfl
@[simp] theorem updOp_flows (s : State) (q : QuireId) (tag : Nat) (f : Op → Op) : (s.updOp q tag f).flows = s.flows := rfl
@[simp] theorem updOp_sends (s : State) (q : QuireId) (tag : Nat) (f : Op → Op) : (s.updOp q tag f).sends = s.sends := rfl
@[simp] theorem updOp_casts (s : State) (q : QuireId) (tag : Nat) (f : Op → Op) : (s.updOp q tag f).casts = s.casts := rfl
@[simp] theorem updOp_buckets (s : State) (q : QuireId) (tag : Nat) (f : Op → Op) : (s.updOp q tag f).buckets = s.buckets := rfl
@[simp] theorem updOp_links (s : State) (q : QuireId) (tag : Nat) (f : Op → Op) : (s.updOp q tag f).links = s.links := rfl
@[simp] theorem updOp_disc (s : State) (q : QuireId) (tag : Nat) (f : Op → Op) : (s.updOp q tag f).disc = s.disc := rfl
@[simp] theorem updOp_faults (s : State) (q : QuireId) (tag : Nat) (f : Op → Op) : (s.updOp q tag f).faults = s.faults := rfl
@[simp] theorem updOp_rot (s : State) (q : QuireId) (tag : Nat) (f : Op → Op) : (s.updOp q tag f).rot = s.rot := rfl
@[simp] theorem updOp_power (s : State) (q : QuireId) (tag : Nat) (f : Op → Op) : (s.updOp q tag f).power = s.power := rfl
@[simp] theorem updOp_fw (s : State) (q : QuireId) (tag : Nat) (f : Op → Op) : (s.updOp q tag f).fw = s.fw := rfl
@[simp] theorem updOp_irq (s : State) (q : QuireId) (tag : Nat) (f : Op → Op) : (s.updOp q tag f).irq = s.irq := rfl
@[simp] theorem updOp_regs (s : State) (q : QuireId) (tag : Nat) (f : Op → Op) : (s.updOp q tag f).regs = s.regs := rfl
@[simp] theorem updOp_shown (s : State) (q : QuireId) (tag : Nat) (f : Op → Op) : (s.updOp q tag f).shown = s.shown := rfl
@[simp] theorem updOp_mirror (s : State) (q : QuireId) (tag : Nat) (f : Op → Op) : (s.updOp q tag f).mirror = s.mirror := rfl
@[simp] theorem updOp_sampled (s : State) (q : QuireId) (tag : Nat) (f : Op → Op) : (s.updOp q tag f).sampled = s.sampled := rfl
@[simp] theorem updOp_freeCtr (s : State) (q : QuireId) (tag : Nat) (f : Op → Op) : (s.updOp q tag f).freeCtr = s.freeCtr := rfl

/-! ### updUnit -/

@[simp] theorem updUnit_pending (s : State) (u : Nat) (f : OcsUnit → OcsUnit) : (s.updUnit u f).pending = s.pending := rfl
@[simp] theorem updUnit_pins (s : State) (u : Nat) (f : OcsUnit → OcsUnit) : (s.updUnit u f).pins = s.pins := rfl
@[simp] theorem updUnit_fuses (s : State) (u : Nat) (f : OcsUnit → OcsUnit) : (s.updUnit u f).fuses = s.fuses := rfl
@[simp] theorem updUnit_boot (s : State) (u : Nat) (f : OcsUnit → OcsUnit) : (s.updUnit u f).boot = s.boot := rfl
@[simp] theorem updUnit_clk (s : State) (u : Nat) (f : OcsUnit → OcsUnit) : (s.updUnit u f).clk = s.clk := rfl
@[simp] theorem updUnit_lib (s : State) (u : Nat) (f : OcsUnit → OcsUnit) : (s.updUnit u f).lib = s.lib := rfl
@[simp] theorem updUnit_vis (s : State) (u : Nat) (f : OcsUnit → OcsUnit) : (s.updUnit u f).vis = s.vis := rfl
@[simp] theorem updUnit_stg (s : State) (u : Nat) (f : OcsUnit → OcsUnit) : (s.updUnit u f).stg = s.stg := rfl
@[simp] theorem updUnit_ledger (s : State) (u : Nat) (f : OcsUnit → OcsUnit) : (s.updUnit u f).ledger = s.ledger := rfl
@[simp] theorem updUnit_tasks (s : State) (u : Nat) (f : OcsUnit → OcsUnit) : (s.updUnit u f).tasks = s.tasks := rfl
@[simp] theorem updUnit_nextTask (s : State) (u : Nat) (f : OcsUnit → OcsUnit) : (s.updUnit u f).nextTask = s.nextTask := rfl
@[simp] theorem updUnit_chans (s : State) (u : Nat) (f : OcsUnit → OcsUnit) : (s.updUnit u f).chans = s.chans := rfl
@[simp] theorem updUnit_eth0 (s : State) (u : Nat) (f : OcsUnit → OcsUnit) : (s.updUnit u f).eth0 = s.eth0 := rfl
@[simp] theorem updUnit_eth1 (s : State) (u : Nat) (f : OcsUnit → OcsUnit) : (s.updUnit u f).eth1 = s.eth1 := rfl
@[simp] theorem updUnit_ocs (s : State) (u : Nat) (f : OcsUnit → OcsUnit) : (s.updUnit u f).ocs = { s.ocs with units := modAt s.ocs.units u f } := rfl
@[simp] theorem updUnit_ports (s : State) (u : Nat) (f : OcsUnit → OcsUnit) : (s.updUnit u f).ports = s.ports := rfl
@[simp] theorem updUnit_rings (s : State) (u : Nat) (f : OcsUnit → OcsUnit) : (s.updUnit u f).rings = s.rings := rfl
@[simp] theorem updUnit_clusters (s : State) (u : Nat) (f : OcsUnit → OcsUnit) : (s.updUnit u f).clusters = s.clusters := rfl
@[simp] theorem updUnit_flows (s : State) (u : Nat) (f : OcsUnit → OcsUnit) : (s.updUnit u f).flows = s.flows := rfl
@[simp] theorem updUnit_sends (s : State) (u : Nat) (f : OcsUnit → OcsUnit) : (s.updUnit u f).sends = s.sends := rfl
@[simp] theorem updUnit_casts (s : State) (u : Nat) (f : OcsUnit → OcsUnit) : (s.updUnit u f).casts = s.casts := rfl
@[simp] theorem updUnit_buckets (s : State) (u : Nat) (f : OcsUnit → OcsUnit) : (s.updUnit u f).buckets = s.buckets := rfl
@[simp] theorem updUnit_links (s : State) (u : Nat) (f : OcsUnit → OcsUnit) : (s.updUnit u f).links = s.links := rfl
@[simp] theorem updUnit_disc (s : State) (u : Nat) (f : OcsUnit → OcsUnit) : (s.updUnit u f).disc = s.disc := rfl
@[simp] theorem updUnit_faults (s : State) (u : Nat) (f : OcsUnit → OcsUnit) : (s.updUnit u f).faults = s.faults := rfl
@[simp] theorem updUnit_rot (s : State) (u : Nat) (f : OcsUnit → OcsUnit) : (s.updUnit u f).rot = s.rot := rfl
@[simp] theorem updUnit_power (s : State) (u : Nat) (f : OcsUnit → OcsUnit) : (s.updUnit u f).power = s.power := rfl
@[simp] theorem updUnit_fw (s : State) (u : Nat) (f : OcsUnit → OcsUnit) : (s.updUnit u f).fw = s.fw := rfl
@[simp] theorem updUnit_irq (s : State) (u : Nat) (f : OcsUnit → OcsUnit) : (s.updUnit u f).irq = s.irq := rfl
@[simp] theorem updUnit_regs (s : State) (u : Nat) (f : OcsUnit → OcsUnit) : (s.updUnit u f).regs = s.regs := rfl
@[simp] theorem updUnit_shown (s : State) (u : Nat) (f : OcsUnit → OcsUnit) : (s.updUnit u f).shown = s.shown := rfl
@[simp] theorem updUnit_mirror (s : State) (u : Nat) (f : OcsUnit → OcsUnit) : (s.updUnit u f).mirror = s.mirror := rfl
@[simp] theorem updUnit_sampled (s : State) (u : Nat) (f : OcsUnit → OcsUnit) : (s.updUnit u f).sampled = s.sampled := rfl
@[simp] theorem updUnit_freeCtr (s : State) (u : Nat) (f : OcsUnit → OcsUnit) : (s.updUnit u f).freeCtr = s.freeCtr := rfl

/-! ### setPlane -/

@[simp] theorem setPlane_pending (s : State) (p : Nat) (c : Option PlaneChange) : (s.setPlane p c).pending = s.pending := rfl
@[simp] theorem setPlane_pins (s : State) (p : Nat) (c : Option PlaneChange) : (s.setPlane p c).pins = s.pins := rfl
@[simp] theorem setPlane_fuses (s : State) (p : Nat) (c : Option PlaneChange) : (s.setPlane p c).fuses = s.fuses := rfl
@[simp] theorem setPlane_boot (s : State) (p : Nat) (c : Option PlaneChange) : (s.setPlane p c).boot = s.boot := rfl
@[simp] theorem setPlane_clk (s : State) (p : Nat) (c : Option PlaneChange) : (s.setPlane p c).clk = s.clk := rfl
@[simp] theorem setPlane_lib (s : State) (p : Nat) (c : Option PlaneChange) : (s.setPlane p c).lib = s.lib := rfl
@[simp] theorem setPlane_vis (s : State) (p : Nat) (c : Option PlaneChange) : (s.setPlane p c).vis = s.vis := rfl
@[simp] theorem setPlane_stg (s : State) (p : Nat) (c : Option PlaneChange) : (s.setPlane p c).stg = s.stg := rfl
@[simp] theorem setPlane_ledger (s : State) (p : Nat) (c : Option PlaneChange) : (s.setPlane p c).ledger = s.ledger := rfl
@[simp] theorem setPlane_tasks (s : State) (p : Nat) (c : Option PlaneChange) : (s.setPlane p c).tasks = s.tasks := rfl
@[simp] theorem setPlane_nextTask (s : State) (p : Nat) (c : Option PlaneChange) : (s.setPlane p c).nextTask = s.nextTask := rfl
@[simp] theorem setPlane_chans (s : State) (p : Nat) (c : Option PlaneChange) : (s.setPlane p c).chans = s.chans := rfl
@[simp] theorem setPlane_eth0 (s : State) (p : Nat) (c : Option PlaneChange) : (s.setPlane p c).eth0 = s.eth0 := rfl
@[simp] theorem setPlane_eth1 (s : State) (p : Nat) (c : Option PlaneChange) : (s.setPlane p c).eth1 = s.eth1 := rfl
@[simp] theorem setPlane_ocs (s : State) (p : Nat) (c : Option PlaneChange) : (s.setPlane p c).ocs = { s.ocs with planes := modAt s.ocs.planes p fun _ => c } := rfl
@[simp] theorem setPlane_ports (s : State) (p : Nat) (c : Option PlaneChange) : (s.setPlane p c).ports = s.ports := rfl
@[simp] theorem setPlane_rings (s : State) (p : Nat) (c : Option PlaneChange) : (s.setPlane p c).rings = s.rings := rfl
@[simp] theorem setPlane_clusters (s : State) (p : Nat) (c : Option PlaneChange) : (s.setPlane p c).clusters = s.clusters := rfl
@[simp] theorem setPlane_flows (s : State) (p : Nat) (c : Option PlaneChange) : (s.setPlane p c).flows = s.flows := rfl
@[simp] theorem setPlane_sends (s : State) (p : Nat) (c : Option PlaneChange) : (s.setPlane p c).sends = s.sends := rfl
@[simp] theorem setPlane_casts (s : State) (p : Nat) (c : Option PlaneChange) : (s.setPlane p c).casts = s.casts := rfl
@[simp] theorem setPlane_buckets (s : State) (p : Nat) (c : Option PlaneChange) : (s.setPlane p c).buckets = s.buckets := rfl
@[simp] theorem setPlane_links (s : State) (p : Nat) (c : Option PlaneChange) : (s.setPlane p c).links = s.links := rfl
@[simp] theorem setPlane_disc (s : State) (p : Nat) (c : Option PlaneChange) : (s.setPlane p c).disc = s.disc := rfl
@[simp] theorem setPlane_faults (s : State) (p : Nat) (c : Option PlaneChange) : (s.setPlane p c).faults = s.faults := rfl
@[simp] theorem setPlane_rot (s : State) (p : Nat) (c : Option PlaneChange) : (s.setPlane p c).rot = s.rot := rfl
@[simp] theorem setPlane_power (s : State) (p : Nat) (c : Option PlaneChange) : (s.setPlane p c).power = s.power := rfl
@[simp] theorem setPlane_fw (s : State) (p : Nat) (c : Option PlaneChange) : (s.setPlane p c).fw = s.fw := rfl
@[simp] theorem setPlane_irq (s : State) (p : Nat) (c : Option PlaneChange) : (s.setPlane p c).irq = s.irq := rfl
@[simp] theorem setPlane_regs (s : State) (p : Nat) (c : Option PlaneChange) : (s.setPlane p c).regs = s.regs := rfl
@[simp] theorem setPlane_shown (s : State) (p : Nat) (c : Option PlaneChange) : (s.setPlane p c).shown = s.shown := rfl
@[simp] theorem setPlane_mirror (s : State) (p : Nat) (c : Option PlaneChange) : (s.setPlane p c).mirror = s.mirror := rfl
@[simp] theorem setPlane_sampled (s : State) (p : Nat) (c : Option PlaneChange) : (s.setPlane p c).sampled = s.sampled := rfl
@[simp] theorem setPlane_freeCtr (s : State) (p : Nat) (c : Option PlaneChange) : (s.setPlane p c).freeCtr = s.freeCtr := rfl

/-! ### count -/

@[simp] theorem count_pending (s : State) (d i n : Nat) : (s.count d i n).pending = s.pending := rfl
@[simp] theorem count_pins (s : State) (d i n : Nat) : (s.count d i n).pins = s.pins := rfl
@[simp] theorem count_fuses (s : State) (d i n : Nat) : (s.count d i n).fuses = s.fuses := rfl
@[simp] theorem count_boot (s : State) (d i n : Nat) : (s.count d i n).boot = s.boot := rfl
@[simp] theorem count_clk (s : State) (d i n : Nat) : (s.count d i n).clk = s.clk := rfl
@[simp] theorem count_lib (s : State) (d i n : Nat) : (s.count d i n).lib = s.lib := rfl
@[simp] theorem count_vis (s : State) (d i n : Nat) : (s.count d i n).vis = s.vis := rfl
@[simp] theorem count_stg (s : State) (d i n : Nat) : (s.count d i n).stg = s.stg := rfl
@[simp] theorem count_ledger (s : State) (d i n : Nat) : (s.count d i n).ledger = s.ledger := rfl
@[simp] theorem count_tasks (s : State) (d i n : Nat) : (s.count d i n).tasks = s.tasks := rfl
@[simp] theorem count_nextTask (s : State) (d i n : Nat) : (s.count d i n).nextTask = s.nextTask := rfl
@[simp] theorem count_chans (s : State) (d i n : Nat) : (s.count d i n).chans = s.chans := rfl
@[simp] theorem count_eth0 (s : State) (d i n : Nat) : (s.count d i n).eth0 = s.eth0 := rfl
@[simp] theorem count_eth1 (s : State) (d i n : Nat) : (s.count d i n).eth1 = s.eth1 := rfl
@[simp] theorem count_ocs (s : State) (d i n : Nat) : (s.count d i n).ocs = s.ocs := rfl
@[simp] theorem count_rings (s : State) (d i n : Nat) : (s.count d i n).rings = s.rings := rfl
@[simp] theorem count_clusters (s : State) (d i n : Nat) : (s.count d i n).clusters = s.clusters := rfl
@[simp] theorem count_flows (s : State) (d i n : Nat) : (s.count d i n).flows = s.flows := rfl
@[simp] theorem count_sends (s : State) (d i n : Nat) : (s.count d i n).sends = s.sends := rfl
@[simp] theorem count_casts (s : State) (d i n : Nat) : (s.count d i n).casts = s.casts := rfl
@[simp] theorem count_buckets (s : State) (d i n : Nat) : (s.count d i n).buckets = s.buckets := rfl
@[simp] theorem count_links (s : State) (d i n : Nat) : (s.count d i n).links = s.links := rfl
@[simp] theorem count_disc (s : State) (d i n : Nat) : (s.count d i n).disc = s.disc := rfl
@[simp] theorem count_faults (s : State) (d i n : Nat) : (s.count d i n).faults = s.faults := rfl
@[simp] theorem count_rot (s : State) (d i n : Nat) : (s.count d i n).rot = s.rot := rfl
@[simp] theorem count_power (s : State) (d i n : Nat) : (s.count d i n).power = s.power := rfl
@[simp] theorem count_fw (s : State) (d i n : Nat) : (s.count d i n).fw = s.fw := rfl
@[simp] theorem count_irq (s : State) (d i n : Nat) : (s.count d i n).irq = s.irq := rfl
@[simp] theorem count_regs (s : State) (d i n : Nat) : (s.count d i n).regs = s.regs := rfl
@[simp] theorem count_shown (s : State) (d i n : Nat) : (s.count d i n).shown = s.shown := rfl
@[simp] theorem count_mirror (s : State) (d i n : Nat) : (s.count d i n).mirror = s.mirror := rfl
@[simp] theorem count_sampled (s : State) (d i n : Nat) : (s.count d i n).sampled = s.sampled := rfl
@[simp] theorem count_freeCtr (s : State) (d i n : Nat) : (s.count d i n).freeCtr = s.freeCtr := rfl

/-! ### latch -/

@[simp] theorem latch_pending (s : State) (d e : Nat) : (s.latch d e).pending = s.pending := rfl
@[simp] theorem latch_pins (s : State) (d e : Nat) : (s.latch d e).pins = s.pins := rfl
@[simp] theorem latch_fuses (s : State) (d e : Nat) : (s.latch d e).fuses = s.fuses := rfl
@[simp] theorem latch_boot (s : State) (d e : Nat) : (s.latch d e).boot = s.boot := rfl
@[simp] theorem latch_clk (s : State) (d e : Nat) : (s.latch d e).clk = s.clk := rfl
@[simp] theorem latch_lib (s : State) (d e : Nat) : (s.latch d e).lib = s.lib := rfl
@[simp] theorem latch_vis (s : State) (d e : Nat) : (s.latch d e).vis = s.vis := rfl
@[simp] theorem latch_stg (s : State) (d e : Nat) : (s.latch d e).stg = s.stg := rfl
@[simp] theorem latch_ledger (s : State) (d e : Nat) : (s.latch d e).ledger = s.ledger := rfl
@[simp] theorem latch_tasks (s : State) (d e : Nat) : (s.latch d e).tasks = s.tasks := rfl
@[simp] theorem latch_nextTask (s : State) (d e : Nat) : (s.latch d e).nextTask = s.nextTask := rfl
@[simp] theorem latch_chans (s : State) (d e : Nat) : (s.latch d e).chans = s.chans := rfl
@[simp] theorem latch_eth0 (s : State) (d e : Nat) : (s.latch d e).eth0 = s.eth0 := rfl
@[simp] theorem latch_eth1 (s : State) (d e : Nat) : (s.latch d e).eth1 = s.eth1 := rfl
@[simp] theorem latch_ocs (s : State) (d e : Nat) : (s.latch d e).ocs = s.ocs := rfl
@[simp] theorem latch_ports (s : State) (d e : Nat) : (s.latch d e).ports = modAt s.ports d fun p => { p with latched := insertSorted e p.latched } := rfl
@[simp] theorem latch_rings (s : State) (d e : Nat) : (s.latch d e).rings = s.rings := rfl
@[simp] theorem latch_clusters (s : State) (d e : Nat) : (s.latch d e).clusters = s.clusters := rfl
@[simp] theorem latch_flows (s : State) (d e : Nat) : (s.latch d e).flows = s.flows := rfl
@[simp] theorem latch_sends (s : State) (d e : Nat) : (s.latch d e).sends = s.sends := rfl
@[simp] theorem latch_casts (s : State) (d e : Nat) : (s.latch d e).casts = s.casts := rfl
@[simp] theorem latch_buckets (s : State) (d e : Nat) : (s.latch d e).buckets = s.buckets := rfl
@[simp] theorem latch_links (s : State) (d e : Nat) : (s.latch d e).links = s.links := rfl
@[simp] theorem latch_disc (s : State) (d e : Nat) : (s.latch d e).disc = s.disc := rfl
@[simp] theorem latch_faults (s : State) (d e : Nat) : (s.latch d e).faults = s.faults := rfl
@[simp] theorem latch_rot (s : State) (d e : Nat) : (s.latch d e).rot = s.rot := rfl
@[simp] theorem latch_power (s : State) (d e : Nat) : (s.latch d e).power = s.power := rfl
@[simp] theorem latch_fw (s : State) (d e : Nat) : (s.latch d e).fw = s.fw := rfl
@[simp] theorem latch_irq (s : State) (d e : Nat) : (s.latch d e).irq = s.irq := rfl
@[simp] theorem latch_regs (s : State) (d e : Nat) : (s.latch d e).regs = s.regs := rfl
@[simp] theorem latch_shown (s : State) (d e : Nat) : (s.latch d e).shown = s.shown := rfl
@[simp] theorem latch_mirror (s : State) (d e : Nat) : (s.latch d e).mirror = s.mirror := rfl
@[simp] theorem latch_sampled (s : State) (d e : Nat) : (s.latch d e).sampled = s.sampled := rfl
@[simp] theorem latch_freeCtr (s : State) (d e : Nat) : (s.latch d e).freeCtr = s.freeCtr := rfl

/-! ### setFw -/

@[simp] theorem setFw_pending (s : State) (f : FwState → FwState) : (s.setFw f).pending = s.pending := rfl
@[simp] theorem setFw_pins (s : State) (f : FwState → FwState) : (s.setFw f).pins = s.pins := rfl
@[simp] theorem setFw_fuses (s : State) (f : FwState → FwState) : (s.setFw f).fuses = s.fuses := rfl
@[simp] theorem setFw_boot (s : State) (f : FwState → FwState) : (s.setFw f).boot = s.boot := rfl
@[simp] theorem setFw_clk (s : State) (f : FwState → FwState) : (s.setFw f).clk = s.clk := rfl
@[simp] theorem setFw_lib (s : State) (f : FwState → FwState) : (s.setFw f).lib = s.lib := rfl
@[simp] theorem setFw_vis (s : State) (f : FwState → FwState) : (s.setFw f).vis = s.vis := rfl
@[simp] theorem setFw_stg (s : State) (f : FwState → FwState) : (s.setFw f).stg = s.stg := rfl
@[simp] theorem setFw_tasks (s : State) (f : FwState → FwState) : (s.setFw f).tasks = s.tasks := rfl
@[simp] theorem setFw_nextTask (s : State) (f : FwState → FwState) : (s.setFw f).nextTask = s.nextTask := rfl
@[simp] theorem setFw_chans (s : State) (f : FwState → FwState) : (s.setFw f).chans = s.chans := rfl
@[simp] theorem setFw_eth0 (s : State) (f : FwState → FwState) : (s.setFw f).eth0 = s.eth0 := rfl
@[simp] theorem setFw_eth1 (s : State) (f : FwState → FwState) : (s.setFw f).eth1 = s.eth1 := rfl
@[simp] theorem setFw_ocs (s : State) (f : FwState → FwState) : (s.setFw f).ocs = s.ocs := rfl
@[simp] theorem setFw_ports (s : State) (f : FwState → FwState) : (s.setFw f).ports = s.ports := rfl
@[simp] theorem setFw_rings (s : State) (f : FwState → FwState) : (s.setFw f).rings = s.rings := rfl
@[simp] theorem setFw_clusters (s : State) (f : FwState → FwState) : (s.setFw f).clusters = s.clusters := rfl
@[simp] theorem setFw_flows (s : State) (f : FwState → FwState) : (s.setFw f).flows = s.flows := rfl
@[simp] theorem setFw_sends (s : State) (f : FwState → FwState) : (s.setFw f).sends = s.sends := rfl
@[simp] theorem setFw_casts (s : State) (f : FwState → FwState) : (s.setFw f).casts = s.casts := rfl
@[simp] theorem setFw_buckets (s : State) (f : FwState → FwState) : (s.setFw f).buckets = s.buckets := rfl
@[simp] theorem setFw_links (s : State) (f : FwState → FwState) : (s.setFw f).links = s.links := rfl
@[simp] theorem setFw_disc (s : State) (f : FwState → FwState) : (s.setFw f).disc = s.disc := rfl
@[simp] theorem setFw_faults (s : State) (f : FwState → FwState) : (s.setFw f).faults = s.faults := rfl
@[simp] theorem setFw_rot (s : State) (f : FwState → FwState) : (s.setFw f).rot = s.rot := rfl
@[simp] theorem setFw_power (s : State) (f : FwState → FwState) : (s.setFw f).power = s.power := rfl
@[simp] theorem setFw_fw (s : State) (f : FwState → FwState) : (s.setFw f).fw = s.fw := rfl
@[simp] theorem setFw_irq (s : State) (f : FwState → FwState) : (s.setFw f).irq = s.irq := rfl
@[simp] theorem setFw_regs (s : State) (f : FwState → FwState) : (s.setFw f).regs = s.regs := rfl
@[simp] theorem setFw_shown (s : State) (f : FwState → FwState) : (s.setFw f).shown = s.shown := rfl
@[simp] theorem setFw_mirror (s : State) (f : FwState → FwState) : (s.setFw f).mirror = s.mirror := rfl
@[simp] theorem setFw_sampled (s : State) (f : FwState → FwState) : (s.setFw f).sampled = s.sampled := rfl
@[simp] theorem setFw_freeCtr (s : State) (f : FwState → FwState) : (s.setFw f).freeCtr = s.freeCtr := rfl

/-! ### updShelf -/

@[simp] theorem updShelf_pending (s : State) (u : Nat) (f : Shelf → Shelf) : (s.updShelf u f).pending = s.pending := rfl
@[simp] theorem updShelf_pins (s : State) (u : Nat) (f : Shelf → Shelf) : (s.updShelf u f).pins = s.pins := rfl
@[simp] theorem updShelf_fuses (s : State) (u : Nat) (f : Shelf → Shelf) : (s.updShelf u f).fuses = s.fuses := rfl
@[simp] theorem updShelf_boot (s : State) (u : Nat) (f : Shelf → Shelf) : (s.updShelf u f).boot = s.boot := rfl
@[simp] theorem updShelf_clk (s : State) (u : Nat) (f : Shelf → Shelf) : (s.updShelf u f).clk = s.clk := rfl
@[simp] theorem updShelf_lib (s : State) (u : Nat) (f : Shelf → Shelf) : (s.updShelf u f).lib = s.lib := rfl
@[simp] theorem updShelf_vis (s : State) (u : Nat) (f : Shelf → Shelf) : (s.updShelf u f).vis = s.vis := rfl
@[simp] theorem updShelf_stg (s : State) (u : Nat) (f : Shelf → Shelf) : (s.updShelf u f).stg = s.stg := rfl
@[simp] theorem updShelf_ledger (s : State) (u : Nat) (f : Shelf → Shelf) : (s.updShelf u f).ledger = s.ledger := rfl
@[simp] theorem updShelf_tasks (s : State) (u : Nat) (f : Shelf → Shelf) : (s.updShelf u f).tasks = s.tasks := rfl
@[simp] theorem updShelf_nextTask (s : State) (u : Nat) (f : Shelf → Shelf) : (s.updShelf u f).nextTask = s.nextTask := rfl
@[simp] theorem updShelf_chans (s : State) (u : Nat) (f : Shelf → Shelf) : (s.updShelf u f).chans = s.chans := rfl
@[simp] theorem updShelf_eth0 (s : State) (u : Nat) (f : Shelf → Shelf) : (s.updShelf u f).eth0 = s.eth0 := rfl
@[simp] theorem updShelf_eth1 (s : State) (u : Nat) (f : Shelf → Shelf) : (s.updShelf u f).eth1 = s.eth1 := rfl
@[simp] theorem updShelf_ocs (s : State) (u : Nat) (f : Shelf → Shelf) : (s.updShelf u f).ocs = s.ocs := rfl
@[simp] theorem updShelf_ports (s : State) (u : Nat) (f : Shelf → Shelf) : (s.updShelf u f).ports = s.ports := rfl
@[simp] theorem updShelf_rings (s : State) (u : Nat) (f : Shelf → Shelf) : (s.updShelf u f).rings = s.rings := rfl
@[simp] theorem updShelf_clusters (s : State) (u : Nat) (f : Shelf → Shelf) : (s.updShelf u f).clusters = s.clusters := rfl
@[simp] theorem updShelf_flows (s : State) (u : Nat) (f : Shelf → Shelf) : (s.updShelf u f).flows = s.flows := rfl
@[simp] theorem updShelf_sends (s : State) (u : Nat) (f : Shelf → Shelf) : (s.updShelf u f).sends = s.sends := rfl
@[simp] theorem updShelf_casts (s : State) (u : Nat) (f : Shelf → Shelf) : (s.updShelf u f).casts = s.casts := rfl
@[simp] theorem updShelf_buckets (s : State) (u : Nat) (f : Shelf → Shelf) : (s.updShelf u f).buckets = s.buckets := rfl
@[simp] theorem updShelf_links (s : State) (u : Nat) (f : Shelf → Shelf) : (s.updShelf u f).links = s.links := rfl
@[simp] theorem updShelf_disc (s : State) (u : Nat) (f : Shelf → Shelf) : (s.updShelf u f).disc = s.disc := rfl
@[simp] theorem updShelf_faults (s : State) (u : Nat) (f : Shelf → Shelf) : (s.updShelf u f).faults = s.faults := rfl
@[simp] theorem updShelf_rot (s : State) (u : Nat) (f : Shelf → Shelf) : (s.updShelf u f).rot = s.rot := rfl
@[simp] theorem updShelf_power (s : State) (u : Nat) (f : Shelf → Shelf) : (s.updShelf u f).power = { s.power with shelves := modWhere s.power.shelves (·.unit = u) f } := rfl
@[simp] theorem updShelf_fw (s : State) (u : Nat) (f : Shelf → Shelf) : (s.updShelf u f).fw = s.fw := rfl
@[simp] theorem updShelf_irq (s : State) (u : Nat) (f : Shelf → Shelf) : (s.updShelf u f).irq = s.irq := rfl
@[simp] theorem updShelf_regs (s : State) (u : Nat) (f : Shelf → Shelf) : (s.updShelf u f).regs = s.regs := rfl
@[simp] theorem updShelf_shown (s : State) (u : Nat) (f : Shelf → Shelf) : (s.updShelf u f).shown = s.shown := rfl
@[simp] theorem updShelf_mirror (s : State) (u : Nat) (f : Shelf → Shelf) : (s.updShelf u f).mirror = s.mirror := rfl
@[simp] theorem updShelf_sampled (s : State) (u : Nat) (f : Shelf → Shelf) : (s.updShelf u f).sampled = s.sampled := rfl
@[simp] theorem updShelf_freeCtr (s : State) (u : Nat) (f : Shelf → Shelf) : (s.updShelf u f).freeCtr = s.freeCtr := rfl

/-! ### updHouse -/

@[simp] theorem updHouse_pending (s : State) (c : Coord) (f : HouseSession → HouseSession) : (s.updHouse c f).pending = s.pending := rfl
@[simp] theorem updHouse_pins (s : State) (c : Coord) (f : HouseSession → HouseSession) : (s.updHouse c f).pins = s.pins := rfl
@[simp] theorem updHouse_fuses (s : State) (c : Coord) (f : HouseSession → HouseSession) : (s.updHouse c f).fuses = s.fuses := rfl
@[simp] theorem updHouse_boot (s : State) (c : Coord) (f : HouseSession → HouseSession) : (s.updHouse c f).boot = s.boot := rfl
@[simp] theorem updHouse_clk (s : State) (c : Coord) (f : HouseSession → HouseSession) : (s.updHouse c f).clk = s.clk := rfl
@[simp] theorem updHouse_lib (s : State) (c : Coord) (f : HouseSession → HouseSession) : (s.updHouse c f).lib = s.lib := rfl
@[simp] theorem updHouse_vis (s : State) (c : Coord) (f : HouseSession → HouseSession) : (s.updHouse c f).vis = s.vis := rfl
@[simp] theorem updHouse_stg (s : State) (c : Coord) (f : HouseSession → HouseSession) : (s.updHouse c f).stg = s.stg := rfl
@[simp] theorem updHouse_ledger (s : State) (c : Coord) (f : HouseSession → HouseSession) : (s.updHouse c f).ledger = s.ledger := rfl
@[simp] theorem updHouse_tasks (s : State) (c : Coord) (f : HouseSession → HouseSession) : (s.updHouse c f).tasks = s.tasks := rfl
@[simp] theorem updHouse_nextTask (s : State) (c : Coord) (f : HouseSession → HouseSession) : (s.updHouse c f).nextTask = s.nextTask := rfl
@[simp] theorem updHouse_chans (s : State) (c : Coord) (f : HouseSession → HouseSession) : (s.updHouse c f).chans = s.chans := rfl
@[simp] theorem updHouse_eth0 (s : State) (c : Coord) (f : HouseSession → HouseSession) : (s.updHouse c f).eth0 = s.eth0 := rfl
@[simp] theorem updHouse_eth1 (s : State) (c : Coord) (f : HouseSession → HouseSession) : (s.updHouse c f).eth1 = s.eth1 := rfl
@[simp] theorem updHouse_ocs (s : State) (c : Coord) (f : HouseSession → HouseSession) : (s.updHouse c f).ocs = s.ocs := rfl
@[simp] theorem updHouse_ports (s : State) (c : Coord) (f : HouseSession → HouseSession) : (s.updHouse c f).ports = s.ports := rfl
@[simp] theorem updHouse_rings (s : State) (c : Coord) (f : HouseSession → HouseSession) : (s.updHouse c f).rings = s.rings := rfl
@[simp] theorem updHouse_clusters (s : State) (c : Coord) (f : HouseSession → HouseSession) : (s.updHouse c f).clusters = s.clusters := rfl
@[simp] theorem updHouse_flows (s : State) (c : Coord) (f : HouseSession → HouseSession) : (s.updHouse c f).flows = s.flows := rfl
@[simp] theorem updHouse_sends (s : State) (c : Coord) (f : HouseSession → HouseSession) : (s.updHouse c f).sends = s.sends := rfl
@[simp] theorem updHouse_casts (s : State) (c : Coord) (f : HouseSession → HouseSession) : (s.updHouse c f).casts = s.casts := rfl
@[simp] theorem updHouse_buckets (s : State) (c : Coord) (f : HouseSession → HouseSession) : (s.updHouse c f).buckets = s.buckets := rfl
@[simp] theorem updHouse_links (s : State) (c : Coord) (f : HouseSession → HouseSession) : (s.updHouse c f).links = s.links := rfl
@[simp] theorem updHouse_disc (s : State) (c : Coord) (f : HouseSession → HouseSession) : (s.updHouse c f).disc = s.disc := rfl
@[simp] theorem updHouse_faults (s : State) (c : Coord) (f : HouseSession → HouseSession) : (s.updHouse c f).faults = s.faults := rfl
@[simp] theorem updHouse_rot (s : State) (c : Coord) (f : HouseSession → HouseSession) : (s.updHouse c f).rot = { s.rot with house := modWhere s.rot.house (·.peer = c) f } := rfl
@[simp] theorem updHouse_power (s : State) (c : Coord) (f : HouseSession → HouseSession) : (s.updHouse c f).power = s.power := rfl
@[simp] theorem updHouse_fw (s : State) (c : Coord) (f : HouseSession → HouseSession) : (s.updHouse c f).fw = s.fw := rfl
@[simp] theorem updHouse_irq (s : State) (c : Coord) (f : HouseSession → HouseSession) : (s.updHouse c f).irq = s.irq := rfl
@[simp] theorem updHouse_regs (s : State) (c : Coord) (f : HouseSession → HouseSession) : (s.updHouse c f).regs = s.regs := rfl
@[simp] theorem updHouse_shown (s : State) (c : Coord) (f : HouseSession → HouseSession) : (s.updHouse c f).shown = s.shown := rfl
@[simp] theorem updHouse_mirror (s : State) (c : Coord) (f : HouseSession → HouseSession) : (s.updHouse c f).mirror = s.mirror := rfl
@[simp] theorem updHouse_sampled (s : State) (c : Coord) (f : HouseSession → HouseSession) : (s.updHouse c f).sampled = s.sampled := rfl
@[simp] theorem updHouse_freeCtr (s : State) (c : Coord) (f : HouseSession → HouseSession) : (s.updHouse c f).freeCtr = s.freeCtr := rfl

/-! ### updEntropy -/

@[simp] theorem updEntropy_pending (s : State) (f : Entropy → Entropy) : (s.updEntropy f).pending = s.pending := rfl
@[simp] theorem updEntropy_pins (s : State) (f : Entropy → Entropy) : (s.updEntropy f).pins = s.pins := rfl
@[simp] theorem updEntropy_fuses (s : State) (f : Entropy → Entropy) : (s.updEntropy f).fuses = s.fuses := rfl
@[simp] theorem updEntropy_boot (s : State) (f : Entropy → Entropy) : (s.updEntropy f).boot = s.boot := rfl
@[simp] theorem updEntropy_clk (s : State) (f : Entropy → Entropy) : (s.updEntropy f).clk = s.clk := rfl
@[simp] theorem updEntropy_lib (s : State) (f : Entropy → Entropy) : (s.updEntropy f).lib = s.lib := rfl
@[simp] theorem updEntropy_vis (s : State) (f : Entropy → Entropy) : (s.updEntropy f).vis = s.vis := rfl
@[simp] theorem updEntropy_stg (s : State) (f : Entropy → Entropy) : (s.updEntropy f).stg = s.stg := rfl
@[simp] theorem updEntropy_ledger (s : State) (f : Entropy → Entropy) : (s.updEntropy f).ledger = s.ledger := rfl
@[simp] theorem updEntropy_tasks (s : State) (f : Entropy → Entropy) : (s.updEntropy f).tasks = s.tasks := rfl
@[simp] theorem updEntropy_nextTask (s : State) (f : Entropy → Entropy) : (s.updEntropy f).nextTask = s.nextTask := rfl
@[simp] theorem updEntropy_chans (s : State) (f : Entropy → Entropy) : (s.updEntropy f).chans = s.chans := rfl
@[simp] theorem updEntropy_eth0 (s : State) (f : Entropy → Entropy) : (s.updEntropy f).eth0 = s.eth0 := rfl
@[simp] theorem updEntropy_eth1 (s : State) (f : Entropy → Entropy) : (s.updEntropy f).eth1 = s.eth1 := rfl
@[simp] theorem updEntropy_ocs (s : State) (f : Entropy → Entropy) : (s.updEntropy f).ocs = s.ocs := rfl
@[simp] theorem updEntropy_ports (s : State) (f : Entropy → Entropy) : (s.updEntropy f).ports = s.ports := rfl
@[simp] theorem updEntropy_rings (s : State) (f : Entropy → Entropy) : (s.updEntropy f).rings = s.rings := rfl
@[simp] theorem updEntropy_clusters (s : State) (f : Entropy → Entropy) : (s.updEntropy f).clusters = s.clusters := rfl
@[simp] theorem updEntropy_flows (s : State) (f : Entropy → Entropy) : (s.updEntropy f).flows = s.flows := rfl
@[simp] theorem updEntropy_sends (s : State) (f : Entropy → Entropy) : (s.updEntropy f).sends = s.sends := rfl
@[simp] theorem updEntropy_casts (s : State) (f : Entropy → Entropy) : (s.updEntropy f).casts = s.casts := rfl
@[simp] theorem updEntropy_buckets (s : State) (f : Entropy → Entropy) : (s.updEntropy f).buckets = s.buckets := rfl
@[simp] theorem updEntropy_links (s : State) (f : Entropy → Entropy) : (s.updEntropy f).links = s.links := rfl
@[simp] theorem updEntropy_disc (s : State) (f : Entropy → Entropy) : (s.updEntropy f).disc = s.disc := rfl
@[simp] theorem updEntropy_faults (s : State) (f : Entropy → Entropy) : (s.updEntropy f).faults = s.faults := rfl
@[simp] theorem updEntropy_rot (s : State) (f : Entropy → Entropy) : (s.updEntropy f).rot = { s.rot with entropy := f s.rot.entropy } := rfl
@[simp] theorem updEntropy_power (s : State) (f : Entropy → Entropy) : (s.updEntropy f).power = s.power := rfl
@[simp] theorem updEntropy_fw (s : State) (f : Entropy → Entropy) : (s.updEntropy f).fw = s.fw := rfl
@[simp] theorem updEntropy_irq (s : State) (f : Entropy → Entropy) : (s.updEntropy f).irq = s.irq := rfl
@[simp] theorem updEntropy_regs (s : State) (f : Entropy → Entropy) : (s.updEntropy f).regs = s.regs := rfl
@[simp] theorem updEntropy_shown (s : State) (f : Entropy → Entropy) : (s.updEntropy f).shown = s.shown := rfl
@[simp] theorem updEntropy_mirror (s : State) (f : Entropy → Entropy) : (s.updEntropy f).mirror = s.mirror := rfl
@[simp] theorem updEntropy_sampled (s : State) (f : Entropy → Entropy) : (s.updEntropy f).sampled = s.sampled := rfl
@[simp] theorem updEntropy_freeCtr (s : State) (f : Entropy → Entropy) : (s.updEntropy f).freeCtr = s.freeCtr := rfl

/-! ### queueIntake -/

@[simp] theorem queueIntake_pending (s : State) (r : Reply) : (s.queueIntake r).pending = s.pending := rfl
@[simp] theorem queueIntake_pins (s : State) (r : Reply) : (s.queueIntake r).pins = s.pins := rfl
@[simp] theorem queueIntake_fuses (s : State) (r : Reply) : (s.queueIntake r).fuses = s.fuses := rfl
@[simp] theorem queueIntake_boot (s : State) (r : Reply) : (s.queueIntake r).boot = s.boot := rfl
@[simp] theorem queueIntake_clk (s : State) (r : Reply) : (s.queueIntake r).clk = s.clk := rfl
@[simp] theorem queueIntake_lib (s : State) (r : Reply) : (s.queueIntake r).lib = s.lib := rfl
@[simp] theorem queueIntake_vis (s : State) (r : Reply) : (s.queueIntake r).vis = s.vis := rfl
@[simp] theorem queueIntake_stg (s : State) (r : Reply) : (s.queueIntake r).stg = s.stg := rfl
@[simp] theorem queueIntake_ledger (s : State) (r : Reply) : (s.queueIntake r).ledger = s.ledger := rfl
@[simp] theorem queueIntake_tasks (s : State) (r : Reply) : (s.queueIntake r).tasks = s.tasks := rfl
@[simp] theorem queueIntake_nextTask (s : State) (r : Reply) : (s.queueIntake r).nextTask = s.nextTask := rfl
@[simp] theorem queueIntake_chans (s : State) (r : Reply) : (s.queueIntake r).chans = modAt s.chans r.chan fun ch => { ch with intakeQ := ch.intakeQ ++ [r] } := rfl
@[simp] theorem queueIntake_eth0 (s : State) (r : Reply) : (s.queueIntake r).eth0 = s.eth0 := rfl
@[simp] theorem queueIntake_eth1 (s : State) (r : Reply) : (s.queueIntake r).eth1 = s.eth1 := rfl
@[simp] theorem queueIntake_ocs (s : State) (r : Reply) : (s.queueIntake r).ocs = s.ocs := rfl
@[simp] theorem queueIntake_ports (s : State) (r : Reply) : (s.queueIntake r).ports = s.ports := rfl
@[simp] theorem queueIntake_rings (s : State) (r : Reply) : (s.queueIntake r).rings = s.rings := rfl
@[simp] theorem queueIntake_clusters (s : State) (r : Reply) : (s.queueIntake r).clusters = s.clusters := rfl
@[simp] theorem queueIntake_flows (s : State) (r : Reply) : (s.queueIntake r).flows = s.flows := rfl
@[simp] theorem queueIntake_sends (s : State) (r : Reply) : (s.queueIntake r).sends = s.sends := rfl
@[simp] theorem queueIntake_casts (s : State) (r : Reply) : (s.queueIntake r).casts = s.casts := rfl
@[simp] theorem queueIntake_buckets (s : State) (r : Reply) : (s.queueIntake r).buckets = s.buckets := rfl
@[simp] theorem queueIntake_links (s : State) (r : Reply) : (s.queueIntake r).links = s.links := rfl
@[simp] theorem queueIntake_disc (s : State) (r : Reply) : (s.queueIntake r).disc = s.disc := rfl
@[simp] theorem queueIntake_faults (s : State) (r : Reply) : (s.queueIntake r).faults = s.faults := rfl
@[simp] theorem queueIntake_rot (s : State) (r : Reply) : (s.queueIntake r).rot = s.rot := rfl
@[simp] theorem queueIntake_power (s : State) (r : Reply) : (s.queueIntake r).power = s.power := rfl
@[simp] theorem queueIntake_fw (s : State) (r : Reply) : (s.queueIntake r).fw = s.fw := rfl
@[simp] theorem queueIntake_irq (s : State) (r : Reply) : (s.queueIntake r).irq = s.irq := rfl
@[simp] theorem queueIntake_regs (s : State) (r : Reply) : (s.queueIntake r).regs = s.regs := rfl
@[simp] theorem queueIntake_shown (s : State) (r : Reply) : (s.queueIntake r).shown = s.shown := rfl
@[simp] theorem queueIntake_mirror (s : State) (r : Reply) : (s.queueIntake r).mirror = s.mirror := rfl
@[simp] theorem queueIntake_sampled (s : State) (r : Reply) : (s.queueIntake r).sampled = s.sampled := rfl
@[simp] theorem queueIntake_freeCtr (s : State) (r : Reply) : (s.queueIntake r).freeCtr = s.freeCtr := rfl

end Sys2Proof.Machine
end

