-- ==== Sys2Proof/Tests/Slice0.lean ====
section
/-! SUPPORT. The model's own tests: decoding of a few rows, well-formedness, and for every statement a state and operands that meet
its hypotheses. -/
namespace Sys2Proof.Machine.Test
set_option maxRecDepth 100000
set_option Elab.async false

/-! ### Small states -/

/-- A director in service, in the intake phase, with a ledger that is restored. -/
def base : State :=
  let s := State.reset
  let s := { s with
    boot := { s.boot with stage := .inService, controlEnded := true, leafZeroEnded := true, laneEnded := true, discEnded := true }
    clk := { s.clk with running := true, now := 1000, cycles := 5000000 }
    disc := { s.disc with complete := true }
    rot := { s.rot with entropy := { s.rot.entropy with state := 1, drbg := true } }
    ledger := { s.ledger with restored := true, credits := 64, sealedA := { s.ledger.sealedA with h := 2 ^ 24 }
                              anchor := { s.ledger.anchor with h := 2 ^ 24 } } }
  { s with shown := { ledger := s.ledger, power := s.power, fw := s.fw } }

/-- A packet of channel `ch` in its mailbox ring, with the CRC the host gives it. -/
def pkt (ch op q : Nat) (ps : List Byte) : Pkt :=
  let p : Pkt := { transport := .mailbox, srcIp := 0, srcPort := 0, srcMac := 0, ring := ch, version := 1, flags := BitVec.ofNat 8 ch, seq := 1,
                   declLen := ps.length, quire := q, crc := 0, params := ps }
  { p with crc := crc32c (p.header op ++ ps) }

/-- The director whose next packet to be read is the given one. -/
def due (s : State) (op : Nat) (p : Pkt) : State := s.updChan p.chan fun ch => { ch with agenda := [(op, p)] }

/-- A command of channel 1. -/
def cmd (op q : Nat) (ps : List Byte) : Pkt := pkt 1 op q ps

/-- A manifest of one gathering: plane 0 is a patch plane, plane 1 is switched by one unit. -/
def man : Manifest where
  period := 1024
  fsync := true
  fsyncK := 1
  onEth := defaultOnEth
  ip0 := 0x0A000001
  len0 := 16
  switched := [false, true, false, false]
  units := [1, 1, 1, 1]
  ip1 := 0x0A010001
  len1 := 16
  libMask := 0
  gatherings := modAt (List.replicate 32 none) 4 fun _ => some { board := 77, cap := 16, alt := none }
  ocs := modAt (List.replicate 32 (0, 0)) 8 fun _ => (0x0A010009, 400)
  landing := (List.range 2048).map fun i => some (64 + i)
  dLanding := (List.range 64).map some
  patches := [(.dport 0, .uplink 4 1 0)]

/-- The coordinate of slot `s` of gathering 4. -/
def at4 (s : Nat) : Coord := mkCoord 0 4 s 0

/-- A discovery map in which the gathering is admitted with four live accelerators. -/
def map : DiscMap :=
  { DiscMap.empty with
    boards := modAt DiscMap.empty.boards 4 fun _ =>
      { board := 77, cap := 16, state := 1, house := some 0, live := [0, 1, 2, 3], awaiting := [] }
    uplinks := modAt DiscMap.empty.uplinks (uplinkIndex 4 1 1) fun _ => .verified
    patchOk := [0] }

/-- A quire of two accelerators, two clusters, two leaves and two director ports. -/
def quire : QuireRec where
  id := 12
  key := 5
  walled := false
  seed := 7
  span := 1
  members := [at4 0, at4 1]
  clusters := [0, 1]
  leaves := [0, 1]
  ports := [0, 17]
  bores := []
  installed := none
  resetCount := 0
  quarantined := false
  evicted := false

/-- Put a ledgered state in effect, visible and staged. -/
def withLed (s : State) (l : Led) : State :=
  { s with vis := { s.vis with led := l }, stg := { s.stg with led := l } }

/-- The same change of the volatile state, visible and staged. -/
def withVol (s : State) (v : Vol) : State :=
  { s with vis := { s.vis with vol := v }, stg := { s.stg with vol := v } }

/-- The director with the gathering, without quires. -/
def plain : State := withLed base { base.stg.led with manifest := some man, map := map }

/-- The director with the gathering and the quire. -/
def world : State :=
  { withLed base { base.stg.led with manifest := some man, map := map, quires := [quire] } with
    clusters := base.clusters.map fun c => { c with powered := true, passed := true } }

/-- The director inside an SPDM session on the mailbox. -/
def session (s : State) : State :=
  { s with rot := { s.rot with session := some { transport := .mailbox, ip := 0, port := 0, cert := none, key := 0 } } }

/-! ### Commands of channels, position, discovery and tables -/

theorem test_meets_caps : (due base 0x0103 (cmd 0x0103 0xFFFF [])).takesIn 0x0103 (cmd 0x0103 0xFFFF []) = true := by decide +kernel
theorem test_meets_attest : (due base 0x0102 (pkt 0 0x0102 0xFFFF [0, 0, 0, 0])).takesIn 0x0102 (pkt 0 0x0102 0xFFFF [0, 0, 0, 0]) = true := by decide +kernel
theorem test_meets_assign_same : let p := cmd 0x0201 0xFFFF [0, 0, 0, 0]
    let s := due base 0x0201 p
    s.takesIn 0x0201 p = true ∧ posAssignRefusal (s.takenOf 0x0201 p) (s.accepted 0x0201 p) = none ∧
      field p.params 0 1 = effVolume base.boot (s.accepted 0x0201 p).val := by decide +kernel
theorem test_meets_assign_other : let p := cmd 0x0201 0xFFFF [63, 0, 0, 0]
    let s := due base 0x0201 p
    s.takesIn 0x0201 p = true ∧ posAssignRefusal (s.takenOf 0x0201 p) (s.accepted 0x0201 p) = none ∧
      field p.params 0 1 ≠ effVolume base.boot (s.accepted 0x0201 p).val ∧
      (s.accepted 0x0201 p).durableRefusal = none := by decide +kernel
theorem test_meets_lock : let p := cmd 0x0202 0xFFFF [1, 0, 0, 0]
    let s := due base 0x0202 p
    s.takesIn 0x0202 p = true ∧ posLockRefusal (s.takenOf 0x0202 p) (s.accepted 0x0202 p) = none ∧
      (s.accepted 0x0202 p).durableRefusal = none := by decide +kernel
theorem test_meets_colophon : let p := cmd 0x0101 0xFFFF []
    let s := due base 0x0101 p
    s.takesIn 0x0101 p = true ∧ s.readsNow 0x0101 p = true ∧ screen (s.turn p) 0x0101 p = none ∧
      seqCheck (s.turn p) 0x0101 p = .fresh ∧ p.params = [] ∧
      p.quire = 0xFFFF ∧ chanPermits (s.turn p) p.chan 0x0101 = true := by decide +kernel
theorem test_meets_open : (due base 0x0D01 (cmd 0x0D01 0xFFFF [])).takesIn 0x0D01 (cmd 0x0D01 0xFFFF []) = true := by decide +kernel
theorem test_meets_close : (due base 0x0D02 (cmd 0x0D02 0xFFFF [7, 0, 0, 0])).takesIn 0x0D02 (cmd 0x0D02 0xFFFF [7, 0, 0, 0]) = true := by decide +kernel
theorem test_meets_close_session : (due (session base) 0x0D02 (pkt 0 0x0D02 0xFFFF [0, 0, 0, 0])).takesIn 0x0D02 (pkt 0 0x0D02 0xFFFF [0, 0, 0, 0]) = true := by decide +kernel
theorem test_meets_fence : (due base 0x0D04 (cmd 0x0D04 0xFFFF [2, 0, 0, 0])).takesIn 0x0D04 (cmd 0x0D04 0xFFFF [2, 0, 0, 0]) = true := by decide +kernel
theorem test_meets_nop : (due base 0x0D03 (cmd 0x0D03 0xFFFF [1, 2, 3])).takesIn 0x0D03 (cmd 0x0D03 0xFFFF [1, 2, 3]) = true := by decide +kernel
theorem test_meets_nop_long : let p := cmd 0x0D03 0xFFFF (List.replicate 4073 0)
    let s := due base 0x0D03 p
    s.readsNow 0x0D03 p = true ∧ screen (s.turn p) 0x0D03 p = none ∧
      seqCheck (s.turn p) 0x0D03 p = .fresh ∧
      4072 < p.params.length := by decide +kernel
theorem test_meets_scan : let p := cmd 0x0203 0xFFFF [2, 0, 0, 0]
    let s := due plain 0x0203 p
    s.takesIn 0x0203 p = true ∧ discScanRefusal (s.takenOf 0x0203 p) (s.accepted 0x0203 p) = none := by decide +kernel
theorem test_meets_map : let p := cmd 0x0204 0xFFFF ([0, 0] ++ le 2 0 ++ le 2 0 ++ le 2 0)
    let s := due plain 0x0204 p
    s.takesIn 0x0204 p = true ∧ field p.params 0 1 ≤ 4 ∧
      field p.params 2 2 < ((s.accepted 0x0204 p).mapSection (field p.params 0 1)).2.length := by decide +kernel
theorem test_meets_manifest_chunk : let p := cmd 0x0205 0xFFFF ([0, 0, 0, 0] ++ le 4 0 ++ le 2 0x4D46 ++ le 2 1 ++ le 4 5312)
    let s := due base 0x0205 p
    s.takesIn 0x0205 p = true ∧ (match chunkStep (s.accepted 0x0205 p).disc.manifest (field p.params 4 4) (p.params.drop 8)
      (fun n => 5312 ≤ n && n ≤ 9536) with | .more _ => true | _ => false) = true := by decide +kernel
theorem test_meets_table_chunk : let p := cmd 0x0F01 0xFFFF ([1, 0, 0, 0] ++ le 4 0 ++ le 2 (tableMagic 1) ++ [1, 1] ++ le 4 4672)
    let s := due base 0x0F01 p
    s.takesIn 0x0F01 p = true ∧ (s.accepted 0x0F01 p).activating (field p.params 0 1) = false ∧
      (match chunkStep none (field p.params 4 4) (p.params.drop 8) (· = tableLen 1) with | .more _ => true | _ => false) = true := by decide +kernel

/-- A manifest image that names no gathering. -/
def manImage : List Byte :=
  let b := le 2 0x4D46 ++ le 2 1 ++ le 4 5312 ++ le 2 1024 ++ [0, 0] ++ [10, 0, 0, 1] ++ [16, 0, 0, 0] ++ [10, 1, 0, 1] ++ [16, 0, 0, 0] ++
    List.replicate 32 0
  let r := List.replicate 1024 0 ++ List.replicate 4224 0xFF
  b ++ le 4 (crc32c (b ++ [0, 0, 0, 0] ++ r)).toNat ++ r

/-- A throttle image of one point. -/
def ttcImage : List Byte :=
  let b := le 2 (tableMagic 4) ++ [4, 1] ++ le 4 128 ++ List.replicate 52 0
  let r := le 2 1000 ++ [8, 0] ++ List.replicate 60 0
  b ++ le 4 (crc32c (b ++ [0, 0, 0, 0] ++ r)).toNat ++ r
theorem test_meets_table_whole : let p := cmd 0x0F01 0xFFFF ([4, 0, 0, 0] ++ le 4 0 ++ ttcImage)
    let s := due base 0x0F01 p
    s.takesIn 0x0F01 p = true ∧ (s.accepted 0x0F01 p).activating (field p.params 0 1) = false ∧
      (match chunkStep none (field p.params 4 4) (p.params.drop 8) (· = tableLen 4) with
        | .whole b => decide (tableFault 4 b = none) | _ => false) = true ∧
      (s.accepted 0x0F01 p).awaiting (.table 4) = false ∧ (s.accepted 0x0F01 p).durableRefusal = none := by decide +kernel
theorem test_meets_table_read : let p := cmd 0x0F02 0xFFFF ([4, 0, 0, 0] ++ le 4 0 ++ le 4 128)
    (due base 0x0F02 p).takesIn 0x0F02 p = true ∧ field p.params 1 1 = 0 ∧ 1 ≤ field p.params 8 4 ∧ field p.params 8 4 ≤ 4072 ∧
      field p.params 4 4 + field p.params 8 4 ≤ tableLen (field p.params 0 1) := by decide +kernel

/-- A director with a loaded throttle image and a loaded packet-format image. -/
def loaded : State := withLed world { world.stg.led with
  ttc := { active := none, loaded := some ttcImage }, pft := { active := none, loaded := some [] } }
theorem test_meets_table_read_loaded : let p := cmd 0x0F02 0xFFFF ([4, 1, 0, 0] ++ le 4 0 ++ le 4 128)
    let s := due loaded 0x0F02 p
    s.takesIn 0x0F02 p = true ∧ field p.params 1 1 = 1 ∧ field p.params 4 4 + field p.params 8 4 ≤ tableLen (field p.params 0 1) ∧
      ((s.accepted 0x0F02 p).vis.led.table (field p.params 0 1)).loaded = some ttcImage := by decide +kernel
theorem test_meets_activate_drains : let p := cmd 0x0F03 0xFFFF [2, 0, 0, 0]
    let s := due loaded 0x0F03 p
    s.takesIn 0x0F03 p = true ∧ tableActivateRefusal (s.takenOf 0x0F03 p) (s.accepted 0x0F03 p) = none ∧
      (s.accepted 0x0F03 p).activationDrains (field p.params 0 1) ≠ [] := by decide +kernel
theorem test_meets_activate_plain : let p := cmd 0x0F03 0xFFFF [4, 0, 0, 0]
    let s := due loaded 0x0F03 p
    s.takesIn 0x0F03 p = true ∧ tableActivateRefusal (s.takenOf 0x0F03 p) (s.accepted 0x0F03 p) = none ∧
      (s.accepted 0x0F03 p).activationDrains (field p.params 0 1) = [] := by decide +kernel

/-! ### Quires, routes, bores and rebinds -/

theorem test_meets_carve : let p := cmd 0x0301 13 (le 2 6 ++ [0, 0] ++ le 4 7 ++ le 2 2 ++ le 2 2 ++ le 8 0 ++ le 8 1 ++ le 2 1 ++
      le 2 0 ++ le 4 (at4 2))
    let s := due world 0x0301 p
    s.takesIn 0x0301 p = true ∧ carveRefusal (s.takenOf 0x0301 p) (s.accepted 0x0301 p) = none := by decide +kernel
theorem test_meets_grow : let p := cmd 0x0302 12 (le 2 1 ++ le 2 1 ++ le 8 0 ++ le 2 1 ++ le 2 0 ++ le 4 (at4 2))
    let s := due world 0x0302 p
    s.takesIn 0x0302 p = true ∧ (s.accepted 0x0302 p).val.quire 12 = some quire ∧
      growRefusal (s.takenOf 0x0302 p) (s.accepted 0x0302 p) quire = none := by decide +kernel
theorem test_meets_status : let p := cmd 0x0305 12 []
    let s := due world 0x0305 p
    s.takesIn 0x0305 p = true ∧ (s.accepted 0x0305 p).vis.led.quire p.quire = some quire := by decide +kernel
theorem test_meets_house_status : (due world 0x0305 (cmd 0x0305 0 [])).takesIn 0x0305 (cmd 0x0305 0 []) = true := by decide +kernel
theorem test_meets_reset : let p := cmd 0x0304 12 [0, 0, 0, 0]
    let s := due world 0x0304 p
    s.takesIn 0x0304 p = true ∧ quireResetRefusal (s.takenOf 0x0304 p) (s.accepted 0x0304 p) = none ∧
      (s.accepted 0x0304 p).val.quire p.quire = some quire ∧
      (match (s.accepted 0x0304 p).transitPlan quire false with | .clear _ _ => true | _ => false) = true := by decide +kernel
theorem test_meets_release : let p := cmd 0x0303 12 [0, 0, 1, 0]
    let s := due world 0x0303 p
    s.takesIn 0x0303 p = true ∧ quireReleaseRefusal (s.takenOf 0x0303 p) (s.accepted 0x0303 p) = none ∧
      (s.accepted 0x0303 p).val.quire p.quire = some quire ∧
      (match (s.accepted 0x0303 p).transitPlan quire true with | .clear _ _ => true | _ => false) = true := by decide +kernel
theorem test_meets_solve : let p := cmd 0x0401 12 []
    let s := due world 0x0401 p
    s.takesIn 0x0401 p = true ∧ routeSolveRefusal (s.takenOf 0x0401 p) (s.accepted 0x0401 p) = none ∧
      (s.accepted 0x0401 p).val.quire p.quire = some quire := by decide +kernel

/-- A solution of the quire's routes: it has one gathering, so no path. -/
def sol : Solution := { tag := 900, pairs := [], transit := [], members := quire.members, bores := [], walled := false }

/-- The director with volatile state of the quire. -/
def withQuireVol (s : State) (f : QuireVol → QuireVol) : State :=
  withVol s { s.stg.vol with quires := [f (QuireVol.init 12)] }
theorem test_meets_install : let s := withQuireVol world fun v => { v with staged := some sol, admitted := true }
    let p := cmd 0x0402 12 (le 6 900 ++ le 2 64)
    let s := due s 0x0402 p
    s.takesIn 0x0402 p = true ∧ routeInstallRefusal (s.takenOf 0x0402 p) (s.accepted 0x0402 p) = none ∧
      ((s.accepted 0x0402 p).stg.vol.quire p.quire).staged = some sol := by decide +kernel
theorem test_meets_hold : let p := cmd 0x0405 12 ([0, 0] ++ le 2 65535)
    let s := due world 0x0405 p
    s.takesIn 0x0405 p = true ∧ field p.params 0 1 = 0 ∧ (drainBound (field p.params 2 2)).isSome = true ∧
      quireGate (s.accepted 0x0405 p) p.quire = none := by decide +kernel
theorem test_meets_resume : let s := withQuireVol world fun v => { v with drainHold := true }
    let p := cmd 0x0405 12 [1, 0, 0, 0]
    let s := due s 0x0405 p
    s.takesIn 0x0405 p = true ∧ field p.params 0 1 = 1 ∧ quireGate (s.accepted 0x0405 p) p.quire = none ∧
      ((s.accepted 0x0405 p).stg.vol.quire p.quire).drainHold = true := by decide +kernel
theorem test_meets_bore_patch : let p := cmd 0x0403 12 (le 2 0x8000 ++ le 2 260)
    let s := due world 0x0403 p
    s.takesIn 0x0403 p = true ∧ (s.accepted 0x0403 p).val.quire p.quire = some quire ∧
      boreOpenRefusal (s.takenOf 0x0403 p) (s.accepted 0x0403 p) quire = none ∧
      boreName (s.accepted 0x0403 p).val.manifest (portRef (field p.params 0 2)) (portRef (field p.params 2 2)) = some 0x8000 ∧
      switchedPlane (s.accepted 0x0403 p).val.manifest (portRef (field p.params 0 2)).plane = false := by decide +kernel
theorem test_meets_bore_switched : let p := cmd 0x0403 12 (le 2 0x8011 ++ le 2 261)
    let s := due world 0x0403 p
    s.takesIn 0x0403 p = true ∧ (s.accepted 0x0403 p).val.quire p.quire = some quire ∧
      boreOpenRefusal (s.takenOf 0x0403 p) (s.accepted 0x0403 p) quire = none ∧
      (boreName (s.accepted 0x0403 p).val.manifest (portRef (field p.params 0 2)) (portRef (field p.params 2 2))).isSome = true ∧
      switchedPlane (s.accepted 0x0403 p).val.manifest (portRef (field p.params 0 2)).plane = true := by decide +kernel

/-- The quire with a standing bore. -/
def bored : QuireRec := { quire with bores := [{ name := 0x8000, a := .dport 0, b := .uplink 4 1 0 }] }
theorem test_meets_bore_close : let s := withLed world { world.stg.led with quires := [bored] }
    let p := cmd 0x0404 12 (le 2 0x8000 ++ [0, 0])
    let s := due s 0x0404 p
    s.takesIn 0x0404 p = true ∧ (s.accepted 0x0404 p).val.quire p.quire = some bored ∧
      boreCloseRefusal (s.takenOf 0x0404 p) (s.accepted 0x0404 p) bored = none ∧
      (bored.bores.find? (·.name = field p.params 0 2)).isSome = true := by decide +kernel

/-- A rebind plan that keeps the grant. -/
def planImage : List Byte := le 2 0x5052 ++ [0, 0] ++ le 4 20 ++ le 2 2 ++ le 2 0 ++ le 2 0 ++ le 2 0 ++ le 2 0 ++ le 2 1
theorem test_meets_plan_chunk : let p := cmd 0x0501 12 ([0, 0, 0, 0] ++ le 4 0 ++ planImage.take 16)
    let s := due world 0x0501 p
    s.takesIn 0x0501 p = true ∧ (s.accepted 0x0501 p).val.quire p.quire = some quire ∧
      (match chunkStep ((s.accepted 0x0501 p).stg.vol.quire p.quire).planChunks (field p.params 4 4) (p.params.drop 8)
        (fun n => 16 ≤ n && n ≤ 105416) with | .more _ => true | _ => false) = true ∧
      planGate (s.accepted 0x0501 p) p.quire = none := by decide +kernel
theorem test_meets_plan_whole : let p := cmd 0x0501 12 ([0, 0, 0, 0] ++ le 4 0 ++ planImage)
    let s := due world 0x0501 p
    let a := (s.accepted 0x0501 p).updQuireVol p.quire fun v => { v with planChunks := none }
    s.takesIn 0x0501 p = true ∧
      (match chunkStep ((s.accepted 0x0501 p).stg.vol.quire p.quire).planChunks (field p.params 4 4) (p.params.drop 8)
        (fun n => 16 ≤ n && n ≤ 105416) with | .whole b => decide (b = planImage) | _ => false) = true ∧
      planBad a.val quire planImage = false ∧ planGate a p.quire = none ∧ planRefused a quire (parsePlan planImage) = false := by
  decide +kernel

/-- A solved plan that keeps the grant. -/
def plan : Plan where
  tag := 900
  close := []
  opens := []
  grant := [some 0, some 1]
  copies := []
  routes := sol
  members := quire.members
  bores := []
  leaves := quire.leaves
  walled := false
theorem test_meets_commit : let s := withQuireVol world fun v => { v with plan := some plan }
    let p := cmd 0x0502 12 (le 6 900 ++ le 2 0)
    let s := due s 0x0502 p
    s.takesIn 0x0502 p = true ∧ rebindCommitRefusal (s.takenOf 0x0502 p) (s.accepted 0x0502 p) = none ∧
      (s.accepted 0x0502 p).val.quire p.quire = some quire ∧ ((s.accepted 0x0502 p).stg.vol.quire p.quire).plan = some plan := by
  decide +kernel
theorem test_meets_rebind_status : (due world 0x0503 (cmd 0x0503 12 [])).takesIn 0x0503 (cmd 0x0503 12 []) = true := by decide +kernel
/-- What stands of the manifest image after its first 5,000 bytes. -/
def half : State :=
  { base with disc := { base.disc with manifest := some { total := 5312, data := manImage.take 5000 } } }
theorem test_meets_manifest_whole : let p := cmd 0x0205 0xFFFF ([0, 0, 0, 0] ++ le 4 5000 ++ manImage.drop 5000)
    let s := due half 0x0205 p
    let a := { s.accepted 0x0205 p with disc := { (s.accepted 0x0205 p).disc with manifest := none } }
    s.takesIn 0x0205 p = true ∧
      (match chunkStep (s.accepted 0x0205 p).disc.manifest (field p.params 4 4) (p.params.drop 8)
        (fun n => 5312 ≤ n && n ≤ 9536) with | .whole b => decide (b = manImage) | _ => false) = true ∧
      a.durableRefusal = none := by decide +kernel
theorem test_meets_manifest_good : manifestRefusal half manImage = none := by decide +kernel

/-! ### Ports, lanes, collectives and tile stores -/

theorem test_meets_port_config : let p := cmd 0x0601 0xFFFF [40, 0, 1, 0, 0, 0, 0, 0]
    let s := due world 0x0601 p
    s.takesIn 0x0601 p = true ∧ portConfigRefusal (s.takenOf 0x0601 p) (s.accepted 0x0601 p) = none ∧
      (portDefault (s.accepted 0x0601 p) (s.accepted 0x0601 p).val (field p.params 0 1)).library = false := by decide +kernel

/-- The director with a director of another volume behind port 40. -/
def linked : State := world.updPort 40 fun x =>
  { x with peer := some (.director (mkCoord 3 63 0 0) 7), vis := { x.vis with status := 2, data := true }, lst := 5 }

/-- The same with port 40 a library link, and a beacon of volume 3 heard there. -/
def library : State :=
  let s := withLed linked { linked.stg.led with
    ports := modAt linked.stg.led.ports 40 fun _ => some { library := true, enabled := true, fec := 8, snr := 20 } }
  { s with lib := { s.lib with beacons :=
    [{ port := 40, volume := 3, tick := 999, period := 1024, leader := 3, hops := 0, align := 0, phase := 0, age := 1 }] } }
theorem test_meets_port_role : let p := cmd 0x0601 0xFFFF [40, 0, 1, 0, 0, 0, 0, 0]
    let s := due library 0x0601 p
    s.takesIn 0x0601 p = true ∧ portConfigRefusal (s.takenOf 0x0601 p) (s.accepted 0x0601 p) = none ∧
      (portDefault (s.accepted 0x0601 p) (s.accepted 0x0601 p).val (field p.params 0 1)).library = true ∧
      (cfgOf (s.takenOf 0x0601 p)).library = false ∧
      ((s.accepted 0x0601 p).port (field p.params 0 1)).peer = some (.director (mkCoord 3 63 0 0) 7) ∧
      ((s.accepted 0x0601 p).port (field p.params 0 1)).vis.status = 2 := by decide +kernel
theorem test_meets_shaper : let p := cmd 0x0602 12 ([0xFF, 0, 0, 0] ++ le 4 1000 ++ le 4 64)
    let s := due world 0x0602 p
    s.takesIn 0x0602 p = true ∧ shaperSetRefusal (s.takenOf 0x0602 p) (s.accepted 0x0602 p) = none ∧
      (s.accepted 0x0602 p).spansVolumes p.quire = false := by decide +kernel

/-- The library's director with a quire that spans volumes 0 and 3. -/
def spanning : State := withLed library { library.stg.led with
  quires := [{ quire with span := 9, members := quire.members ++ [mkCoord 3 4 0 0] }] }
theorem test_meets_shaper_claim : let p := cmd 0x0602 12 ([40, 0, 0, 0] ++ le 4 1000 ++ le 4 64)
    let s := due spanning 0x0602 p
    s.takesIn 0x0602 p = true ∧ shaperSetRefusal (s.takenOf 0x0602 p) (s.accepted 0x0602 p) = none ∧
      (s.accepted 0x0602 p).spansVolumes p.quire = true ∧ (s.accepted 0x0602 p).neighbours.map (·.port) = [40] ∧
      40 ∈ shaperPorts (s.takenOf 0x0602 p) (s.accepted 0x0602 p) := by decide +kernel
theorem test_meets_counters : let p := cmd 0x0603 0xFFFF [0, 63, 0, 0, 0, 0, 0, 0]
    (due world 0x0603 p).takesIn 0x0603 p = true := by decide +kernel
theorem test_meets_link_counters : let p := cmd 0x0603 0xFFFF ([1, 3, 0, 0] ++ le 4 (at4 3))
    let s := due world 0x0603 p
    s.takesIn 0x0603 p = true ∧ linkOk (field p.params 1 1) = true ∧
      (s.accepted 0x0603 p).present18 (field p.params 4 4 % 2 ^ 20) = true ∧ cGath (field p.params 4 4 % 2 ^ 20) ≠ 63 := by
  decide +kernel
theorem test_meets_loop : let s := withLed world { world.stg.led with
      ports := modAt world.stg.led.ports 63 fun _ => some { library := false, enabled := false, fec := 8, snr := 20 } }
    let p := cmd 0x0E01 0xFFFF ([63, 1, 0, 0] ++ le 4 1048576)
    let s := due s 0x0E01 p
    s.takesIn 0x0E01 p = true ∧ (s.accepted 0x0E01 p).looped (field p.params 0 1) = false ∧
      portEnabled (s.accepted 0x0E01 p).val (field p.params 0 1) = false := by decide +kernel
theorem test_meets_lane : let p := cmd 0x0E02 0xFFFF ([1, 3, 0, 0] ++ le 4 (at4 0))
    let s := due world 0x0E02 p
    s.takesIn 0x0E02 p = true ∧ laneElement (s.takenOf 0x0E02 p) (s.accepted 0x0E02 p) = some (.uplink (at4 0) 3) ∧
      (s.accepted 0x0E02 p).faults.measuring.any (·.1 = Element.uplink (at4 0) 3) = false := by decide +kernel
theorem test_meets_lane_reference : let p := cmd 0x0E02 0xFFFF [0, 63, 1, 0, 0, 0, 0, 0]
    let s := due world 0x0E02 p
    s.takesIn 0x0E02 p = true ∧ laneElement (s.takenOf 0x0E02 p) (s.accepted 0x0E02 p) = some (.port 63) ∧
      (s.accepted 0x0E02 p).faults.measuring.any (·.1 = Element.port 63) = false ∧
      (s.accepted 0x0E02 p).durableRefusal = none := by decide +kernel

/-- A RUN of one 64 × 64 FP32 tile. -/
def descBytes : List Byte :=
  [2, 0, 0, 0, 6, 0, 4, 0] ++ le 4 64 ++ le 4 64 ++ le 4 0 ++ le 4 0x3F800000 ++ le 4 0 ++ le 4 0x3F800000 ++ le 8 0 ++ le 32 0 ++
    le 8 16384 ++ le 48 0
theorem test_meets_define : let p := cmd 0x0701 12 (le 2 255 ++ le 14 0 ++ descBytes)
    let s := due world 0x0701 p
    s.takesIn 0x0701 p = true ∧ redDefineRefusal (s.takenOf 0x0701 p) (s.accepted 0x0701 p) = none := by decide +kernel

/-- The director with the descriptor installed and the quire admitted. -/
def ready : State := withQuireVol world fun v => { v with descs := [(3, parseDesc descBytes)], admitted := true }
def launchPkt : Pkt := cmd 0x0702 12 ([0, 0, 0, 0] ++ le 2 3 ++ le 2 0 ++ le 4 99 ++ le 52 0)
theorem test_meets_launch :
    (due ready 0x0702 launchPkt).takesIn 0x0702 launchPkt = true ∧ ((due ready 0x0702 launchPkt).accepted 0x0702 launchPkt).val.quire 12 = some quire ∧
      (match judgeLaunch ((due ready 0x0702 launchPkt).takenOf 0x0702 launchPkt) ((due ready 0x0702 launchPkt).accepted 0x0702 launchPkt) with
        | .ok _ => true | .error _ => false) = true := by decide +kernel

/-- The operation of that launch, live. -/
def op : Op :=
  match judgeLaunch ((due ready 0x0702 launchPkt).takenOf 0x0702 launchPkt) ((due ready 0x0702 launchPkt).accepted 0x0702 launchPkt) with
  | .ok o => { o with state := .live }
  | .error _ => launchOp ((due ready 0x0702 launchPkt).takenOf 0x0702 launchPkt) ready (parseDesc []) []
def running : State := withVol ready { ready.stg.vol with ops := [op] }
theorem test_meets_coll_status : let p := cmd 0x0703 12 (le 4 99)
    let s := due running 0x0703 p
    s.takesIn 0x0703 p = true ∧ (s.accepted 0x0703 p).vis.vol.op p.quire (field p.params 0 4) = some op ∧
      op.holdsTag = true := by decide +kernel
theorem test_meets_cancel : let p := cmd 0x0706 12 (le 4 99)
    let s := due running 0x0706 p
    s.takesIn 0x0706 p = true ∧ (s.accepted 0x0706 p).stg.vol.op p.quire (field p.params 0 4) = some op ∧
      op.holdsTag = true ∧ quireGate (s.accepted 0x0706 p) p.quire = none ∧ op.state ≠ .ended := by decide +kernel
theorem test_meets_tile_read : let p := cmd 0x0704 12 (le 8 (2 ^ 31 - 4) ++ le 4 4)
    let s := due world 0x0704 p
    s.takesIn 0x0704 p = true ∧ addrBad (field p.params 0 8) = false ∧ (s.accepted 0x0704 p).rebinding p.quire = false ∧
      (s.accepted 0x0704 p).val.quire p.quire = some quire ∧ (s.accepted 0x0704 p).vis.led.quire p.quire = some quire ∧
      inGrant quire.leaves.length (field p.params 0 8) (field p.params 8 4) = true := by decide +kernel
theorem test_meets_tile_write : let p := cmd 0x0705 12 (le 8 (2 ^ 31 - 1) ++ [7])
    let s := due world 0x0705 p
    s.takesIn 0x0705 p = true ∧ addrBad (field p.params 0 8) = false ∧ quireGate (s.accepted 0x0705 p) p.quire = none ∧
      (s.accepted 0x0705 p).val.quire p.quire = some quire ∧ quire.leaves.Nodup ∧ Memory.wf world.stg.vol.hbm = true ∧
      inGrant quire.leaves.length (field p.params 0 8) (p.params.length - 8) = true ∧
      ((s.accepted 0x0705 p).stg.vol.liveOps quire.id).any (fun o => o.ranges.any fun x =>
        overlap x.1 x.2 (field p.params 0 8) (p.params.length - 8)) = false := by decide +kernel

/-! ### Tenants, ledger, firmware, telemetry and power -/

theorem test_meets_tenant_open : let s := session world
    let p := pkt 0 0x0801 12 [0, 0, 0, 0]
    let s := due s 0x0801 p
    s.takesIn 0x0801 p = true ∧ tenantOpenRefusal (s.takenOf 0x0801 p) (s.accepted 0x0801 p) = none ∧
      (s.accepted 0x0801 p).val.freeSlot = some 1 ∧ (s.accepted 0x0801 p).val.quire p.quire = some quire := by decide +kernel

/-- The director with a keyed tenant slot for the quire, inside a session. -/
def keyed : State := session (withLed world { world.stg.led with
  slots := modAt world.stg.led.slots 0 fun k => { k with state := .keyed, quire := 12, cur := 4, prev := 3 } })
theorem test_meets_link_key : let p := pkt 0 0x0802 12 ([0, 0, 0, 0] ++ le 2 5 ++ le 2 0 ++ List.replicate 48 0)
    let s := due keyed 0x0802 p
    s.takesIn 0x0802 p = true ∧ field p.params 0 1 = 0 ∧
      keySlotRefusal (s.takenOf 0x0802 p) (s.accepted 0x0802 p) = none := by decide +kernel
theorem test_meets_retire : let p := pkt 0 0x0802 12 ([1, 0, 0, 0] ++ List.replicate 52 0)
    let s := due keyed 0x0802 p
    let a := s.accepted 0x0802 p
    s.takesIn 0x0802 p = true ∧ field p.params 0 1 = 1 ∧ keySlotRefusal (s.takenOf 0x0802 p) a = none ∧
      (a.sendKeys p.quire 2 (a.val.slot (a.val.slotOf p.quire)).prev []).durableRefusal = none := by decide +kernel
theorem test_meets_trust_add : let p := pkt 0 0x0802 0xFFFF ([2, 0, 0, 0] ++ List.replicate 52 0)
    let s := due keyed 0x0802 p
    s.takesIn 0x0802 p = true ∧ trustRefusal (s.takenOf 0x0802 p) (s.accepted 0x0802 p) = none := by decide +kernel
theorem test_meets_trust_remove : let s := session (withLed world { world.stg.led with trust := [List.replicate 48 0] })
    let p := pkt 0 0x0802 0xFFFF ([3, 0, 0, 0] ++ List.replicate 52 0)
    let s := due s 0x0802 p
    s.takesIn 0x0802 p = true ∧ trustRefusal (s.takenOf 0x0802 p) (s.accepted 0x0802 p) = none := by decide +kernel
theorem test_meets_evict : let p := pkt 0 0x0803 12 [0, 0, 0, 0]
    let s := due keyed 0x0803 p
    s.takesIn 0x0803 p = true ∧ tenantEvictRefusal (s.takenOf 0x0803 p) (s.accepted 0x0803 p) = none := by decide +kernel
theorem test_meets_scrub : let p := cmd 0x0804 12 ([1, 0, 0, 0, 0, 0, 0, 0] ++ le 16 0)
    let s := due world 0x0804 p
    s.takesIn 0x0804 p = true ∧ (s.accepted 0x0804 p).val.quire p.quire = some quire ∧
      memScrubRefusal (s.takenOf 0x0804 p) (s.accepted 0x0804 p) quire = none := by decide +kernel
theorem test_meets_ledger_status : let p := cmd 0x0901 0xFFFF []
    let s := { base with shown := { base.shown with ledger := { base.shown.ledger with ckStart := some 1 } } }
    (due s 0x0901 p).takesIn 0x0901 p = true ∧ ((due s 0x0901 p).accepted 0x0901 p).shown.ledger.ckStart = some 1 ∧
      (due base 0x0901 p).takesIn 0x0901 p = true ∧ ((due base 0x0901 p).accepted 0x0901 p).shown.ledger.ckStart = none := by decide +kernel
theorem test_meets_checkpoint : let p := cmd 0x0902 0xFFFF []
    let s := due base 0x0902 p
    s.takesIn 0x0902 p = true ∧ (s.accepted 0x0902 p).ckptTooSoon = false ∧
      (s.accepted 0x0902 p).durableRefusal = none := by decide +kernel
theorem test_meets_ledger_read : let p := cmd 0x0903 0xFFFF ([5, 0, 0, 0] ++ le 8 0 ++ le 4 0)
    let s := withLed world { world.stg.led with shapers := [{ quire := 12, port := 0, rate := some 1000, burst := 64 }] }
    let s := due s 0x0903 p
    s.takesIn 0x0903 p = true ∧ field p.params 0 1 ≤ 5 ∧ field p.params 0 1 ≠ 4 ∧ field p.params 12 4 = 0 ∧
      field p.params 4 8 < ((s.accepted 0x0903 p).readSection (field p.params 0 1)).2.length := by decide +kernel

/-- A director whose journal holds one sealed folio. -/
def oneFolio : Folio where
  seq := 1
  kind := 1
  more := false
  carry := false
  tick := 900
  prevCrc := 0
  crc := 0
  good := true
  body := .recs []
  origin := 1
def journal : State :=
  let g := { base.ledger with tip := 1, devA := { base.ledger.devA with folios := [(1, oneFolio)] },
                              devB := { base.ledger.devB with folios := [(1, oneFolio)] } }
  { base with ledger := g, shown := { base.shown with ledger := g } }
theorem test_meets_folio_read : let p := cmd 0x0903 0xFFFF ([4, 0, 0, 0] ++ le 8 1 ++ le 4 0)
    let s := due journal 0x0903 p
    s.takesIn 0x0903 p = true ∧ field p.params 0 1 = 4 ∧
      ((s.accepted 0x0903 p).readFolio (field p.params 4 8) (field p.params 12 4) (field p.params 2 2)).isSome = true := by
  decide +kernel
theorem test_meets_download : let p := cmd 0x0A01 0xFFFF (le 4 0 ++ le 4 16777216 ++ [1])
    let s := due base 0x0A01 p
    s.takesIn 0x0A01 p = true ∧ fwDownloadRefusal (s.takenOf 0x0A01 p) (s.accepted 0x0A01 p) = none := by decide +kernel

/-- The director with a firmware slot state. -/
def withFw (f : FwState → FwState) : State :=
  { base with ledger := { base.ledger with anchor := { base.ledger.anchor with fw := f base.ledger.anchor.fw } } }
theorem test_meets_verify : let s := withFw fun f => { f with slotB := { f.slotB with status := 2, len := 8192 } }
    let p := cmd 0x0A02 0xFFFF [1, 0, 0, 0]
    let s := due s 0x0A02 p
    s.takesIn 0x0A02 p = true ∧ fwVerifyRefusal (s.takenOf 0x0A02 p) (s.accepted 0x0A02 p) = none := by decide +kernel
theorem test_meets_activate_fw : let s := withFw fun f => { f with slotB := { f.slotB with status := 4 } }
    let p := cmd 0x0A03 0xFFFF [1, 1, 240, 0]
    let s := due s 0x0A03 p
    s.takesIn 0x0A03 p = true ∧ fwActivateRefusal (s.takenOf 0x0A03 p) (s.accepted 0x0A03 p) = none := by decide +kernel
theorem test_meets_confirm : let s := withFw fun f => { f with slotA := { f.slotA with status := 6 } }
    let p := cmd 0x0A04 0xFFFF [0, 0, 0, 0]
    let r := cmd 0x0A04 0xFFFF [1, 0, 0, 0]
    let s := due s 0x0A04 p
    s.takesIn 0x0A04 p = true ∧ fwConfirmRefusal (s.takenOf 0x0A04 p) (s.accepted 0x0A04 p) = none ∧
      (due s 0x0A04 r).takesIn 0x0A04 r = true ∧ fwConfirmRefusal ((due s 0x0A04 r).takenOf 0x0A04 r) ((due s 0x0A04 r).accepted 0x0A04 r) = none := by decide +kernel
theorem test_meets_fw_status : (due base 0x0A05 (cmd 0x0A05 0xFFFF [])).takesIn 0x0A05 (cmd 0x0A05 0xFFFF []) = true := by decide +kernel
theorem test_meets_subscribe : let p := cmd 0x0B01 0xFFFF (le 2 1 ++ le 2 0 ++ le 4 (at4 0) ++ [31, 0, 0, 0])
    let s := due world 0x0B01 p
    s.takesIn 0x0B01 p = true ∧ field p.params 0 2 ≤ 128 ∧
      (subEntries (s.takenOf 0x0B01 p)).any (fun x => !linkOk x.2 ||
        !(s.accepted 0x0B01 p).presentIn (s.accepted 0x0B01 p).stg x.1 || cGath x.1 = 63) = false := by decide +kernel
theorem test_meets_snapshot : let p := cmd 0x0B02 0xFFFF ([1, 0] ++ le 2 51 ++ le 4 0)
    (due base 0x0B02 p).takesIn 0x0B02 p = true ∧ field p.params 0 1 ≤ 4 ∧
      field p.params 2 2 < (base.mirror.telemSection (field p.params 0 1)).2.length := by decide +kernel
theorem test_meets_power_status : (due base 0x0C01 (cmd 0x0C01 0xFFFF [])).takesIn 0x0C01 (cmd 0x0C01 0xFFFF []) = true := by decide +kernel
theorem test_meets_budget : let p := cmd 0x0C02 0xFFFF (le 2 600 ++ [0, 0])
    let s := due base 0x0C02 p
    s.takesIn 0x0C02 p = true ∧ 600 ≤ field p.params 0 2 ∧ field p.params 0 2 ≤ (s.accepted 0x0C02 p).gradeMax ∧
      (s.accepted 0x0C02 p).awaiting .cap = false ∧ (s.accepted 0x0C02 p).durableRefusal = none := by decide +kernel

/-! ### The host interface, Ethernet and the switch units -/

theorem test_meets_queue : let s := { base with pending := [.creditRefill, .workPhase] }
    s.pending = [.creditRefill, .workPhase] ∧ base.pending = [] := by decide +kernel
theorem test_meets_fuses : base.fuses.otp ≤ 64 ∧ ({ base with fuses := { base.fuses with otp := 64 } } : State).fuses.otp ≤ 64 := by
  decide +kernel
theorem test_meets_host : base.hostAccess = true ∧ base.ringIn 0 = true ∧ base.ringIn 7 = false ∧ State.reset.hostAccess = false ∧
    7 < base.chans.length ∧ isHostWrite (.registerWriteIgnored 0 8 0) = true ∧ isHostWrite (.irqStatClear 0x100) = true ∧
    ({ base with irq := { base.irq with stat := 0x100 } } : State).irq.stat.getLsbD 8 = true := by decide +kernel
theorem test_meets_perst : let s := { base with irq := { base.irq with perst := true } }
    base.irq.perst = false ∧ s.irq.perst = true ∧ s.hostAccess = false := by decide +kernel
theorem test_meets_eth : let s := base.updEth 0 fun e => { e with asks := [9], up := true }
    s.ethLive 0 = true ∧ s.ethLive 1 = true ∧ (s.eth 0).asks.contains 9 = true ∧ (s.eth 1).asks.contains 9 = false ∧
      (s.eth 1).up = false := by decide +kernel
theorem test_meets_arp_expiry : let s := base.updEth 0 fun e => { e with arp := [(9, 1, 0)] }
    let s := { s with clk := { s.clk with cycles := 300 * Config.hz - s.clk.period } }
    (9, 1, 0) ∈ (s.eth 0).arp ∧ s.reached (0 + 300 * Config.hz) = true := by decide +kernel

/-- A message of the switch unit 8. -/
def ocs (type : Nat) (b : List Byte) : List Byte :=
  let h := le 2 0x534F ++ [1] ++ le 1 type ++ le 4 0 ++ le 2 b.length ++ [8, 0]
  h ++ le 4 (crc32c (h ++ b)).toNat ++ b
def unitSrc : Ip := 0x0A010009
theorem test_meets_ident : let m := ocs 0x81 (le 8 1 ++ le 2 400 ++ le 2 0 ++ le 4 1000 ++ le 4 1 ++ le 4 0)
    world.unitAt unitSrc = some 8 ∧ ocsFormed m 0x81 8 = true ∧ 8 < world.ocs.units.length := by decide +kernel

/-- A change of plane 1 with a part for unit 8, and one for a second unit where `two` holds. -/
def change (two retried : Bool) : PlaneChange where
  kind := .boreClose 0
  parts := [{ unit := 8, gen := 5, entries := [(0, 1)], rest := [], done := false, failed := false, retried := retried, silent := false, sentAt := 0 }] ++
    if two then [{ unit := 9, gen := 6, entries := [], rest := [], done := false, failed := false, retried := false, silent := false, sentAt := 0 }] else []
  sent := true
  sentAt := 0
def changing (two retried : Bool) : State :=
  { world with ocs := { world.ocs with planes := [none, some (change two retried), none, none] } }
theorem test_meets_set_ack : ocsFormed (ocs 0x82 (le 8 5 ++ [0, 0, 0, 0])) 0x82 8 = true ∧
    field (ocs 0x82 (le 8 5 ++ [0, 0, 0, 0])) 24 1 = 0 := by decide +kernel
theorem test_meets_set_refused : let m := ocs 0x82 (le 8 5 ++ [1, 0, 0, 0])
    (changing false false).unitAt unitSrc = some 8 ∧ ocsFormed m 0x82 8 = true ∧ field m 24 1 ≠ 0 ∧ field m 16 8 = 5 ∧
      (changing false false).openPart 8 = ((change false false).parts.head?).map (change false false, ·) := by decide +kernel
theorem test_meets_set_done : let m := ocs 0x83 (le 8 5 ++ le 2 1 ++ le 2 0)
    (changing true false).unitAt unitSrc = some 8 ∧ ocsFormed m 0x83 8 = true ∧ field m 26 2 = 0 ∧ field m 16 8 = 5 ∧
      (changing true false).openPart 8 = ((change true false).parts.head?).map (change true false, ·) ∧
      (change true false).others 8 = true := by decide +kernel
theorem test_meets_deadline : (changing true true).deadlinePast 8 = true ∧ (changing false false).deadlinePast 8 = true ∧
    world.deadlinePast 8 = false ∧
    (changing true true).openPart 8 = ((change true true).parts.head?).map (change true true, ·) ∧
    (change true true).others 8 = true ∧ ((change true true).parts.head?.map (·.retried)) = some true ∧
    ((change false false).parts.head?.map (·.retried)) = some false := by decide +kernel
theorem test_meets_map_rx : let m := ocs 0x84 (le 8 0 ++ le 2 0 ++ le 2 1 ++ le 2 7)
    let s := (world.setPlane 1 (some { kind := .reconcile 8, parts := [], sent := false })).updUnit 8 fun x =>
      { x with ident := some { ident := 1, ports := 400, switchUs := 1000, boot := 1, latching := false } }
    s.unitAt unitSrc = some 8 ∧ ocsFormed m 0x84 8 = true ∧
      s.ocs.planes.getD 1 none = some { kind := .reconcile 8, parts := [], sent := false } ∧
      field m 26 2 ≠ 0 ∧ field m 24 2 + field m 26 2 < ((s.unit 8).ident.elim 0 (·.ports)) := by decide +kernel
theorem test_meets_alarm : let m := ocs 0x85 (le 2 0 ++ le 2 1 ++ le 12 0)
    ocsFormed m 0x85 8 = true ∧ field m 18 2 ≠ 2 := by decide +kernel
theorem test_meets_ident_timer : world.vis.led.manifest = some man ∧ 8 ∈ man.unitsInUse ∧ world.boot.straps.bench = false ∧
    world.ocs.identAt ≤ world.clk.cycles + world.clk.period := by decide +kernel
theorem test_meets_scan_round :
    let pairs := [(PortRef.uplink 4 0 1, PortRef.uplink 4 1 1)]
    let part : UnitPart := { unit := 8, gen := 5, entries := [], rest := [], done := true, failed := false, retried := false,
                             silent := false, sentAt := 0 }
    let c : PlaneChange := { kind := .scan none 0 pairs, parts := [part], sent := true, sentAt := 0 }
    let s := world.setPlane 1 (some c)
    let s := { s with disc := { s.disc with peers := [(at4 0, 1, some (.uplink 4 1 1), 0)] } }
    s.ocs.planes.getD 1 none = some c ∧ c.sentAt + s.roundCycles 1 ≤ s.clk.cycles + s.clk.period ∧
      (∀ x ∈ c.parts, x.failed = true ∨ (x.done = true ∧ x.rest = [])) ∧ (∀ x ∈ c.parts, x.failed = false) ∧
      s.disc.peers.find? (fun z => z.1 = mkCoord s.volume 4 0 0 && z.2.1 = 1) =
        some (mkCoord s.volume 4 0 0, 1, some (.uplink 4 1 1), 0) := by decide +kernel
theorem test_meets_scan_early :
    let c : PlaneChange := { kind := .scan none 0 [], parts := [], sent := true, sentAt := world.clk.cycles }
    let s := world.setPlane 1 (some c)
    s.ocs.planes.getD 1 none = some c ∧ s.clk.cycles + s.clk.period < c.sentAt + s.roundCycles 1 := by decide +kernel

/-! ### Discovery and packets -/

/-- A control packet of the kind from `src` for the director. -/
def ctl (kind loc src : Nat) (body : List Byte) : List Byte :=
  let b := [0xC0] ++ le 1 kind ++ le 2 (2 * loc) ++ le 4 src ++ le 4 base.self ++ List.replicate 8 0 ++ body ++
    List.replicate (32 - body.length) 0 ++ List.replicate 8 0
  b ++ le 4 (crc32c b).toNat

/-- What the checks of R223 answer of it at the director. -/
def ctlOk (s : State) (kind loc src : Nat) (body : List Byte) : Bool :=
  decide (s.ctlChecks false (ctl kind loc src body) kind (loc = 1) =
    .take src (body ++ List.replicate (32 - body.length) 0))
theorem test_meets_beacon : ctlOk world 1 1 (mkCoord 3 63 0 0) [1, 7] = true ∧ ctlOk world 1 1 (at4 0) [2, 0, 0, 16] = true ∧
    63 < world.ports.length := by decide +kernel
theorem test_meets_peer_report : ctlOk world 3 0 (at4 1) [3, 2] = true ∧ cVol (at4 1) = world.volume ∧ cGath (at4 1) < 32 := by
  decide +kernel
theorem test_meets_confirmation : ctlOk world 5 0 (at4 2) (le 4 (at4 2)) = true ∧ world.ledgerFaulted = false ∧
    field (le 4 (at4 2)) 0 4 % 2 ^ 20 = at4 2 ∧ cVol (at4 2) = world.volume ∧ cGath (at4 2) < 32 ∧ cFun (at4 2) = 0 ∧
    (world.val.map.board 4).state = 1 ∧ 4 < world.val.map.boards.length ∧ cSlot (at4 2) < (world.val.map.board 4).cap ∧
    world.val.map.mismatch.any (fun y => y.code = 0x0C && y.object = at4 2) = false := by decide +kernel
theorem test_meets_silent :
    let s := { world with disc := { world.disc with peers := [(at4 1, 1, none, 256)] } }
    256 ≤ (s.reportAge (at4 1) 1).getD 0 ∧ cFun (at4 1) = 0 ∧ cVol (at4 1) = s.volume ∧ s.ledgerFaulted = false ∧
      s.val.map.uplinks.getD (uplinkIndex 4 1 1) .notListed ≠ .notListed := by decide +kernel

/-- The director after 256 ticks without a board of gathering 4, its house port 1 a library link where `lib` holds. -/
def missing (lib : Bool) : State :=
  let s := if lib then withLed world { world.stg.led with
    ports := modAt world.stg.led.ports 1 fun _ => some { library := true, enabled := true, fec := 8, snr := 20 } } else world
  { s with disc := { s.disc with noBoard := [(4, 256)] } }
theorem test_meets_board_missing : let s := withLed (missing false) { (missing false).stg.led with map :=
      { map with boards := modAt map.boards 4 fun b => { b with live := [0] } } }
    man.gatherings.getD 4 none = some { board := 77, cap := 16, alt := none } ∧ s.val.manifest = some man ∧
      s.disc.noBoard.find? (·.1 = 4) = some (4, 256) ∧ s.ledgerFaulted = false ∧ 4 < s.val.map.boards.length ∧
      (s.val.map.board 4).state ≠ 4 ∧ portLibrary s.boot s.val (housePort 4) = false ∧ (s.val.map.board 4).live = [0] ∧
      (s.val.map.board 4).house = some 0 := by decide +kernel
theorem test_meets_board_unreachable : portLibrary (missing true).boot (missing true).val (housePort 4) = true ∧
    (missing true).disc.noBoard.find? (·.1 = 4) = some (4, 256) := by decide +kernel

/-- The director whose gathering 5, of the switched plane 1, has lost its house accelerator. -/
def moving : State := withLed world { world.stg.led with
  manifest := some { man with gatherings := modAt man.gatherings 5 fun _ => some { board := 78, cap := 8, alt := none } }
  map := { map with unitIds := modAt map.unitIds 8 fun _ => some 1, boards := modAt map.boards 5 fun _ =>
    { board := 78, cap := 8, state := 1, house := some 0, live := [1], awaiting := [] } } }
theorem test_meets_house_move :
    let s := moving.updUnit 8 fun x =>
      { x with ident := some { ident := 1, ports := 400, switchUs := 1000, boot := 1, latching := false } }
    portLibrary s.boot s.val (housePort 5) = false ∧ s.houseTarget 5 = some 1 ∧ (s.val.map.board 5).house ≠ some 1 ∧
      switchedPlane s.val.manifest (5 % 4) = true ∧ s.planeBusy (5 % 4) = false ∧ s.planeDown (5 % 4) = false ∧
      s.unitsReady (5 % 4) = true := by decide +kernel
theorem test_meets_house_wait : moving.houseTarget 5 = some 1 ∧ moving.unitsReady (5 % 4) = false := by decide +kernel
theorem test_meets_discovery : let s := { base with boot := { base.boot with stage := .discovery }, disc := { base.disc with complete := false } }
    s.boot.stage = .discovery ∧ s.disc.complete = false ∧ s.discoveryDone = true := by decide +kernel

/-- A data packet of kind 0 from slot 0 for a coordinate, of the quire's key. -/
def data (dst fmt : Nat) (hdr : List Byte) : List Byte :=
  let b := [0x40] ++ le 1 fmt ++ le 2 hdr.length ++ le 4 dst ++ le 4 (at4 0) ++ le 2 5 ++ [0, 0] ++ le 4 1 ++ List.replicate 12 0 ++ hdr
  b ++ le 4 (crc32c b).toNat

/-- The director whose quire has a bore on port 17, so that the port takes its packets. -/
def edge : Bore := { name := 1, a := .dport 17, b := .uplink 4 1 1 }
def portKeyed (s : State) : State :=
  withLed s { s.stg.led with quires := [{ quire with bores := [edge], installed := some (900, [edge]) }] }
theorem test_meets_drop : (portKeyed world).rxChecks 17 false [0xFF] = .drop 8 ∧ (world.port 17).heldDown = false ∧
    (world.port 17).looping = false ∧ world.clk.running = true := by decide +kernel
theorem test_meets_forward : (portKeyed world).rxChecks 17 false (data (at4 1) 3 (0xFF :: List.replicate 31 0)) = .forward := by decide +kernel
theorem test_meets_consume : (match (portKeyed world).rxChecks 17 false (data world.dataEnd 3 (0xFF :: List.replicate 31 0)) with
    | .consume _ _ _ t => !t | _ => false) = true := by decide +kernel
theorem test_meets_plaintext :
    let s := portKeyed keyed
    let s := withLed s { s.stg.led with slots := keyed.stg.led.slots }
    (s.vis.led.slot (s.vis.led.slotOf ((s.vis.led.quireOfKey 5).getD 0))).state = .keyed ∧ s.faults.fatal = none ∧
      (match s.rxChecks 17 false (data s.dataEnd 3 (0xFF :: List.replicate 31 0)) with
        | .consume _ _ _ t => !t | _ => false) = true := by decide +kernel
theorem test_meets_held : ((world.updPort 0 fun p => { p with heldDown := true }).port 0).heldDown = true ∧
    ((world.updPort 0 fun p => { p with looping := true }).port 0).looping = true := by decide +kernel
theorem test_meets_retrain : ctlOk world 0x0E 0 (at4 0) [63, 3] = true := by decide +kernel
theorem test_meets_counter_report : ctlOk world 0x0C 0 (at4 0) ([31, 18] ++ le 6 0) = true ∧ 18 = 3 * 6 := by decide +kernel
theorem test_meets_summary : ctlOk world 0x0B 0 (at4 0) ([1, 1] ++ le 2 12 ++ le 24 0 ++ le 4 0) = true ∧
    world.stg.led.quire 12 = some quire ∧ quire.resetCount = 0 ∧
    ctlOk world 0x0B 0 (at4 0) ([1, 1] ++ le 2 0 ++ le 28 0) = true ∧ world.stg.led.quire 0 = none := by decide +kernel
theorem test_meets_reports : ctlOk world 0x0B 0 (at4 0) [2] = true ∧ ctlOk world 0x0B 0 (at4 0) [4] = true := by decide +kernel

/-- An install of the quire's routes that waits for one write of a router table. -/
def shadow : ShadowJob where
  coord := at4 1
  table := 3
  index := 1
  image := []
  unacked := [{ off := 16, tick := 990, resent := false }]
  again := []
def task (q : QuireId) (k : TaskKind) : Task where
  id := 1
  ident := none
  quire := q
  kind := k
  retries := 0
  sealed := false
  overran := false
  skip := false
theorem test_meets_table_ack :
    let t := task 12 (.install sol (Drain.start 64) .writing [shadow] [] none)
    ctlOk world 8 0 (at4 1) ([3, 1] ++ le 2 12 ++ le 4 16 ++ [0, 0]) = true ∧ t.writeQuire = 12 ∧ t.kind.jobs = [shadow] ∧
      shadow.coord = at4 1 ∧ shadow.unacked.find? (·.off = 16) = some { off := 16, tick := 990, resent := false } := by
  decide +kernel
def cast : Multicast where
  quire := 12
  seq := 4
  row := true
  index := 0
  func := 0
  legs := [at4 0, at4 1]
  acked := []
  resent := false
  tag := 99
  chunk := 0
  sent := 900
theorem test_meets_leg_ack : ctlOk { world with casts := [cast] } 0x0A 0 (at4 1)
      ([1, 0] ++ le 2 12 ++ le 4 world.dataEnd ++ le 4 4) = true ∧ at4 1 ∈ cast.legs := by decide +kernel
theorem test_meets_tick_beacon : ctlOk world 2 1 (mkCoord 3 63 0 0) [] = true := by decide +kernel

/-! ### Ports, elements, sessions and the tick -/

theorem test_meets_port_event : base.boot.stage ≠ .held ∧ phyEvent 0 = true ∧ phyEvent 11 = true ∧
    ((base.updPort 63 fun p => { p with timer := 1 }).port 63).timer = 1 := by decide +kernel
theorem test_meets_scheduled : let s := { base with faults := { base.faults with scheduled := [.port 63] } }
    Element.port 63 ∈ s.faults.scheduled ∧ s.faults.measuring.any (·.1 = Element.port 63) = false := by decide +kernel
theorem test_meets_measured : let s := { base with faults := { base.faults with measuring := [(.port 63, none, 0)] } }
    let t := { s with clk := { s.clk with now := 4096 } }
    t.faults.measuring.find? (·.1 = Element.port 63) = some (.port 63, none, 0) ∧ s.since 0 < 4096 ∧ 4096 ≤ t.since 0 ∧
      t.lanePasses (.port 63) [] true false = false ∧
      t.lanePasses (.port 63) (List.replicate 8 { rxPower := 0, txMon := 0, snr := 20, ber := 0 }) false false = true := by decide +kernel
def mask : Mask := { g := 4, h := 5, path := 0, kind := .health, goodFor := 64 }
theorem test_meets_mask_clear : let s := withQuireVol world fun v => { v with installed := some sol, masks := [mask] }
    (s.stg.vol.quire 12).installed = some sol ∧ mask ∈ (s.stg.vol.quire 12).masks ∧ mask.kind = .health ∧ 64 ≤ mask.goodFor := by
  decide +kernel
def spdm : State := withLed base { base.stg.led with manifest := some man, map := { map with spdm := [at4 1] } }
def house (tries : Nat) (up : Bool) : State := { spdm with rot := { spdm.rot with
  house := [{ peer := at4 1, up := up, tries := tries, since := 0, key := 0 }]
  keyMsgs := [{ peer := at4 1, quire := 12, op := 1, epoch := 5, sent := 0 }] } }
theorem test_meets_session_start : spdm.sessionPeer (at4 1) = true ∧ spdm.entropyReady = true ∧
    spdm.rot.house.any (·.peer = at4 1) = false := by decide +kernel
theorem test_meets_session_retry : let s := { house 0 false with clk := { base.clk with now := 1024 } }
    let r := { house 1 false with clk := { base.clk with now := 1024 } }
    s.rot.house.find? (·.peer = at4 1) = some { peer := at4 1, up := false, tries := 0, since := 0, key := 0 } ∧
      r.rot.house.find? (·.peer = at4 1) = some { peer := at4 1, up := false, tries := 1, since := 0, key := 0 } ∧
      1024 ≤ s.since 0 ∧ 1024 ≤ r.since 0 := by decide +kernel
theorem test_meets_key_answer : let m : KeyMsg := { peer := at4 1, quire := 12, op := 1, epoch := 5, sent := 0 }
    m ∈ (house 0 true).rot.keyMsgs ∧ m.op = field [1, 0, 12, 0, 5, 0] 0 1 ∧ m.quire = field [1, 0, 12, 0, 5, 0] 2 2 ∧
      m.epoch = field [1, 0, 12, 0, 5, 0] 4 2 ∧ 1024 ≤ ({ house 0 true with clk := { base.clk with now := 1024 } }).since m.sent := by
  decide +kernel
/-- An attestation accepted at a tick. -/
def attestIdent (t : Tick) : CmdIdent where
  chan := 0
  seq := 1
  opcode := 0x0102
  crc := 0
  accTick := t
  transport := .mailbox
  ip := 0
  port := 0
  mac := 0
  epoch := 0
  quire := 0xFFFF
def attesting (t : Tick) : Task := { task 0xFFFF (.attest []) with ident := some (attestIdent t) }
theorem test_meets_attestation :
    let s := { base with tasks := [attesting 744] }
    let r := { base with tasks := [attesting 999] }
    s.tasks.find? (fun t => match t.kind with | .attest _ => true | _ => false) = some (attesting 744) ∧
      256 ≤ (attesting 744).ident.elim 0 (fun i => s.since i.accTick) ∧
      r.tasks.find? (fun t => match t.kind with | .attest _ => true | _ => false) = some (attesting 999) ∧
      (attesting 999).ident.elim 0 (fun i => r.since i.accTick) ≤ 256 := by decide +kernel

/-- The director in a phase of its tick. -/
def inPhase (p : Phase) : State := { base with clk := { base.clk with phase := p } }
theorem test_meets_phases : (inPhase .intake).clk.running = true ∧ (inPhase .work).clk.phase = .work ∧
    (inPhase .drone).clk.phase = .drone ∧ (inPhase .seal).clk.phase ≠ .intake := by decide +kernel
theorem test_meets_boundary : (inPhase .seal).clk.phase = .seal ∧
    max ((inPhase .seal).clk.nextIndex.getD 0) ((inPhase .seal).clk.now + 1) < (inPhase .seal).reservation ∧
    (inPhase .seal).nextNow < (inPhase .seal).reservation := by decide +kernel
theorem test_meets_invariants : Instr.sealPhase ≠ .tickBoundary ∧ isReset .sealPhase = false ∧ base.ledger.credits ≤ 448 := by
  decide +kernel
theorem test_meets_overrun : let t := task 12 (.solve { sol := sol, todo := [], bores := [], transitOk := [] })
    let u := { t with overran := true }
    t.overran = false ∧ t.skip = false ∧ ({ base with tasks := [t] }).task 1 = some t ∧ ({ base with tasks := [u] }).task 1 = some u ∧ t.kind.stepped = true ∧
      base.faults.fatal = none ∧ base.faults.entries.length < 256 := by decide +kernel
theorem test_meets_drain_out : ({ bound := 64, count := 64, started := true, since := 0 } : Drain).expired = true ∧
    (task 12 (.drainHold { bound := 64, count := 64, started := true, since := 0 })).quire = 12 := by decide +kernel
def rebindRec : RebindRec where
  quire := 12
  planTag := 900
  accTick := 950
  keep := plan.grant
  newLeaves := []
  close := []
  opens := []
  beginSeq := 0
  committed := false
def verifyBore : Bore := { name := 0x8000, a := .dport 0, b := .uplink 4 1 0 }

/-- A rebind at a step. -/
def rebind (step : RebindStep) : RebindRun where
  plan := plan
  record := rebindRec
  step := step
  drain := { bound := 64, count := 64, started := true, since := 0 }
  jobs := []
  todo := []
  planes := []
  copied := false
  rerun := false
  wasHeld := false
  verify := [{ bore := verifyBore, okA := false, okB := false, since := some 0, again := false }]
  fail := none
theorem test_meets_rebind_drain : (rebind .draining).step = .draining ∧ (rebind .draining).drain.expired = true ∧
    ({ world with tasks := [task 12 (.rebind (rebind .draining))] }).tasks = [task 12 (.rebind (rebind .draining))] := by decide +kernel

/-! ### The library, the ledger and bring-up -/

theorem test_meets_leader : let s := { base with lib := { base.lib with leader := 3 } }
    s.lib.leader ≠ s.volume ∧ s.sourceFor s.lib.leader = none := by decide +kernel
theorem test_meets_join : let s := { base with lib := { base.lib with leader := 3, align := 1 } }
    s.lib.align = 1 ∧ s.lib.leader = 3 ∧ s.mergeDue 3 = none ∧ 1023 < s.clk.period ∧ max (2 ^ 24 - 1) (s.now + 1) < s.reservation := by decide +kernel
theorem test_meets_jump : let s := { base with lib := { base.lib with jump := some (1001, 5000) } }
    s.lib.jump = some (1001, 5000) ∧ 1001 ≤ s.now + 1 ∧ 5000 < s.reservation := by decide +kernel
theorem test_meets_period : let s := { base with clk := { base.clk with announced := some (512, 1001) } }
    s.clk.announced = some (512, 1001) ∧ 1001 ≤ s.clk.nextIndex.getD (s.now + 1) := by decide +kernel
theorem test_meets_lost : let l := { base.lib with align := 3, badFor := 64 }
    l.joined = true ∧ 64 ≤ l.badFor := by decide +kernel
theorem test_meets_fsync : world.vis.led.manifest = some man ∧ man.fsync = true ∧ world.lib.align = 0 ∧ world.fsyncDue = true ∧
    ({ world with clk := { world.clk with fsyncAt := some 0, tickOut := 17 } } : State).fsyncDue = false := by decide +kernel

/-- The library's director with a claim of its own that its neighbour did not answer. -/
def claiming : State :=
  { library with tasks := [task 0xFFFF (.roleClaim 40 { library := false, enabled := true, fec := 8, snr := 20 })]
                 lib := { library.lib with own :=
                   [{ claim := .linkRole 0 998 40 false, port := some 40, dest := 3, task := some 1, sent := true }] } }
theorem test_meets_claim : claiming.libPorts.contains 40 = true ∧ claiming.libPorts.contains 41 = false := by decide +kernel
theorem test_meets_claim_timeout : claiming.lib.own.map (fun o => (o.port, o.sent, o.task)) = [(some 40, true, some 1)] ∧
    1 < claiming.since (Claim.linkRole 0 998 40 false).tick ∧ (claiming.task 1).isSome = true := by decide +kernel
theorem test_meets_announcement : claiming.libPorts.contains 40 = true ∧ (claiming.stg.led.quire 12).isSome = true ∧
    3 ≠ claiming.volume := by decide +kernel
theorem test_meets_credit : base.ledger.restored = true ∧ base.ledger.held = false ∧
    ({ base.ledger with pseal := .held }).held = true := by decide +kernel
theorem test_meets_reservation : let s := { base with clk := { base.clk with now := 2 ^ 24 - 2 ^ 20 } }
    let t := { inPhase .seal with clk := { base.clk with phase := .seal, now := 2 ^ 24 - 1 } }
    s.reservation ≤ s.indexAhead + 2 ^ 20 ∧ s.ledger.anchor.h = s.reservation ∧ s.ledgerFaulted = false ∧
      t.boot.stage ≠ .held ∧ t.clk.phase = .seal ∧ t.reservation ≤ t.now + 1 ∧ t.faults.fatal = none := by decide +kernel

/-- The journal with a folio under way. -/
def writing (dev : Dev) (reading second : Bool) : State :=
  let w : Writing := { what := .carry, folios := [oneFolio], dev := dev, second := second, reading := reading }
  { base with ledger := { base.ledger with writing := some w } }
theorem test_meets_write : base.ledger.writing = none ∧ (writing .a false false).ledger.writing =
      some { what := .carry, folios := [oneFolio], dev := .a, second := false, reading := false } ∧
    (writing .a true false).ledger.devB.failed = false ∧ (writing .b true false).ledgerFaulted = false := by decide +kernel
theorem test_meets_ckpt_timer : let s := { base with clk := { base.clk with cycles := 24 * 3600 * Config.hz } }
    s.ledger.restored = true ∧ 24 * 3600 * (Config.hz : Int) ≤ s.clk.cycles - s.ledger.ckStart.getD 0 := by decide +kernel
theorem test_meets_lane_due : (inPhase .drone).laneDue = true ∧ (inPhase .drone).ledger.restored = true ∧
    (inPhase .drone).clk.running = true := by decide +kernel
theorem test_meets_ckpt_start : let s := { base with ledger := { base.ledger with ckWanted := true } }
    s.ledger.ckWanted = true ∧ s.ckptTooSoon = false ∧ s.ledger.ckRun = none ∧ s.journalShut = false ∧
      s.ledger.arcA.failed = false ∧ s.ledger.writing = none := by decide +kernel
def ckpt (dev : Dev) (doneA : Bool) : CkptRun where
  image := { number := 1, covers := 0, tick := 900, h := 0, prevCrc := 0, led := Led.factory, hist := [], idents := [],
             anchor := State.reset.ledger.anchor, good := true }
  dev := dev
  doneA := doneA
  doneB := false
  sealing := false
theorem test_meets_ckpt_copy : (ckpt .a false).sealing = false ∧ (ckpt .a false).dev = .a ∧ (ckpt .b true).dev = .b ∧
    ({ base.ledger with ckRun := some (ckpt .a false) }).arcB.failed = false := by decide +kernel
theorem test_meets_archive : ({ base.ledger with jobs := [.chunk 1 1 0 [7] .a false false false, .reserve 9 .b true false] }).arcB.failed = false ∧
    (ArchiveJob.reserve 9 .b true false) ∈ [ArchiveJob.chunk 1 1 0 [7] .a false false false, .reserve 9 .b true false] := by decide +kernel
theorem test_meets_fw_reset : ({ base with fw := { base.fw with reset := some .atOnce } }).resetReady = true := by decide +kernel

/-- The director in a stage of bring-up. -/
def staging (st : Stage) : State := { base with boot := { base.boot with stage := st } }
theorem test_meets_stages : State.reset.boot.stage = .held ∧ (staging .rotRom).inStage .rotRom = true ∧
    (staging .fwVerify).inStage .fwVerify = true ∧ (staging .fwVerify).fw.burning = none ∧
    (staging .controlStart).inStage .controlStart = true ∧ (staging .hbmTrain).inStage .hbmTrain = true ∧
    (staging .memTest).inStage .memTest = true ∧ (staging .laneTrain).inStage .laneTrain = true := by decide +kernel
theorem test_meets_wave_start : (staging .clusterWaves).inStage .clusterWaves = true ∧
    (staging .clusterWaves).reached (usCycles 250 * 0) = true ∧
    (let s := { staging .clusterWaves with clusters := modAt base.clusters 0 fun c => { c with powered := true } }
     s.reached (usCycles 250 * 1) = true ∧ (s.clusters.getD (16 * 1 - 16) Cluster.init).powered = true) := by decide +kernel
theorem test_meets_waves : let s := { staging .clusterWaves with clusters := modAt base.clusters 159 fun c => { c with powered := true } }
    s.inStage .clusterWaves = true ∧ (s.clusters.getD 159 Cluster.init).powered = true ∧
      (s.clusters.getD 159 Cluster.init).over = false ∧ (s.clusters.getD 159 Cluster.init).tries = 0 := by decide +kernel
theorem test_meets_restore_done : let s := { base with ledger := { base.ledger with restoring := true } }
    s.ledger.restoring = true ∧ s.ledger.held = false ∧ s.power.holdup = false ∧ s.faults.fatal = none ∧
      s.clk.running = true := by decide +kernel
theorem test_meets_leaf_zero : let s := { staging .leafZero with stg := { base.stg with vol := { base.stg.vol with scrubbed := 380 * 2 ^ 30 } } }
    s.inStage .leafZero = true ∧ s.ledger.restored = true ∧ s.entropyReady = true ∧
    s.val.quires.any (fun q => (s.stg.led.quire q.id).elim true fun o => o.leaves ≠ q.leaves) = false ∧
    ((List.range 380).filter fun x => !s.val.retiredLeaf.contains x).length * 2 ^ 30 ≤ s.stg.vol.scrubbed := by decide +kernel
theorem test_meets_lane_train : (staging .laneTrain).inStage .laneTrain = true ∧
    ({ staging .laneTrain with clk := { base.clk with cycles := 3 * Config.hz } } : State).reached
      ((staging .laneTrain).boot.laneAt + 3 * Config.hz) = true := by decide +kernel
theorem test_meets_image_check : let t := { task 0xFFFF (.verify 1 none) with sealed := true }
    ({ base with tasks := [t] }).tasks.find? (fun t => t.sealed && match t.kind with | .verify _ none => true | _ => false) = some t := by
  decide +kernel
theorem test_meets_burning : ({ base.fw with burning := some 64 }).burning = some 64 := by decide +kernel
theorem test_meets_window : let s := { base with fw := { base.fw with windowEnd := some 5000000 } }
    5000000 ≤ s.clk.cycles ∧ s.fw.stopped = false ∧ s.ledger.held = false ∧ s.power.holdup = false ∧ s.ledgerFaulted = false ∧
      s.faults.fatal = none := by
  decide +kernel
theorem test_meets_degraded : ({ base.faults with slowStep := some (0x0401, 1048576) }).slowStep = some (0x0401, 1048576) := by decide +kernel
theorem test_meets_reseed : let s := { base with rot := { base.rot with entropy := { base.rot.entropy with requests := 65536 } } }
    s.rot.entropy.drbg = true ∧ 65536 ≤ s.rot.entropy.requests := by decide +kernel
theorem test_meets_entropy : (staging .rotRom).rot.entropy.state = 1 ∧ State.reset.rot.entropy.state = 0 ∧ base.rot.entropy.state = 1 ∧ base.rot.entropy.drbg = true ∧
    base.boot.stage ≠ .held := by decide +kernel

/-! ### Collectives, rebinds, memory, power, rings and ports in flight -/

/-- An operation that waits for a chunk and for a leg. -/
def flying (retried multicast : Bool) : State :=
  let o := { op with horizon := 64, set := [at4 1]
                     missing := [{ contributor := 0, chunk := 2, age := 64, retried := retried }]
                     legs := [{ dst := at4 0, chunk := 2, seq := 4, acked := false, failed := false, age := 64, retried := retried }]
                     func := if multicast then 1 else op.func }
  { withVol ready { ready.stg.vol with ops := [o] } with casts := [{ cast with acked := cast.legs }] }
theorem test_meets_horizon : let os := (flying true false).stg.vol.liveOps 12
    os.map (·.tag) = [99] ∧ os.map (·.multicast) = [false] ∧
      os.map (fun o => o.missing.map fun m => (m.contributor, m.chunk)) = [[(0, 2)]] ∧
      os.map (fun o => o.legs.map fun l => (l.dst, l.chunk)) = [[(at4 0, 2)]] ∧
      os.map (fun o => o.legs.map fun l => l.acked || l.failed) = [[false]] := by decide +kernel
theorem test_meets_horizon_age : let os := (flying true false).stg.vol.liveOps 12
    os.map (fun o => o.missing.map (·.age)) = [[64]] ∧ os.map (fun o => o.missing.map (·.retried)) = [[true]] ∧
      os.map (·.horizon) = [64] ∧ ((flying false false).stg.vol.liveOps 12).map (fun o => o.missing.map (·.retried)) = [[false]] ∧
      (flying true false).stg.led.quire 12 = some quire := by decide +kernel
theorem test_meets_cast : ((flying true true).casts.find? fun c => c.quire = 12 && c.seq = 4) = some { cast with acked := cast.legs } ∧
    (((flying true true).stg.vol.liveOps 12).find? (·.tag = 99)).isSome = true ∧ (∀ x ∈ cast.legs, x ∈ cast.legs) := by decide +kernel
theorem test_meets_match : let o := { op with state := OpState.awaiting, accTick := 0, horizon := 500 }
    let s := withVol ready { ready.stg.vol with ops := [o] }
    s.stg.vol.op 12 99 = some o ∧ o.state = .awaiting ∧ 2 * o.horizon ≤ s.since o.accTick := by decide +kernel
theorem test_meets_item : running.stg.vol.op 12 99 = some op ∧ op.state = .live ∧ 0 ∈ op.items ∧ op.kind = 0 ∧
    op.desc = some (parseDesc descBytes) ∧ running.stg.led.quire 12 = some quire ∧ (running.stg.vol.quire 12).inReset = false ∧
    op.readsBad running.stg.vol quire.leaves = false ∧ (parseDesc descBytes).optStats = false ∧ 0 ∉ op.retriedItems ∧
    running.faults.fatal = none ∧ quire.quarantined = false ∧ 1 ∈ quire.clusters := by decide +kernel
theorem test_meets_copy : let t := task 12 (.rebind (rebind .running))
    let s := { world with tasks := [t] }
    s.tasks.find? (fun t => t.quire = 12 && match t.kind with | .rebind _ => true | _ => false) = some t ∧
      s.val.quire 12 = some quire ∧ (rebind .running).copied = false ∧ (rebind .running).rerun = false ∧
      (s.stg.vol.quire 12).rebind.toCopy ≤ (s.stg.vol.quire 12).rebind.copied := by decide +kernel
theorem test_meets_verify_timeout : let s := { world with clk := { world.clk with now := 1024 } }
    (rebind .verifying).verify = [{ bore := verifyBore, okA := false, okB := false, since := some 0, again := false }] ∧
      1024 ≤ s.since 0 := by decide +kernel
theorem test_meets_confirm_timeout : let t := task 12 (.reset false .confirming [at4 0] 2048)
    ({ world with tasks := [t] }).tasks.find? (fun t => t.quire = 12 && match t.kind with
        | .reset _ .confirming _ left => decide (2048 ≤ left)
        | .release _ _ .confirming _ left => decide (2048 ≤ left)
        | _ => false) = some t := by decide +kernel
theorem test_meets_evict_bound : (task 12 (.evict 1 64 .waiting 64)).kind = .evict 1 64 .waiting 64 ∧
    (task 12 (.install sol (Drain.start 64) .writing [shadow] [] none)).kind.jobs = [shadow] := by decide +kernel
theorem test_meets_memory : base.tasks = [] ∧ base.ledgerFaulted = false ∧
    base.stg.led.quires.find? (·.leaves.contains 383) = none ∧ 1 ∈ quire.clusters ∧ 1 < world.clusters.length ∧
    world.val.quire 12 = some quire ∧
    (let s := { base with stg := { base.stg with vol := { base.stg.vol with dirty := [3], scrubbed := 2 ^ 30 } } }
     ([3].filter s.stg.vol.dirty.contains).eraseDups.length * 2 ^ 30 ≤ s.stg.vol.scrubbed) := by decide +kernel
theorem test_meets_tile_zero : let s := { world with clusters := modAt world.clusters 1 fun c => { c with zeroing := some 0 } }
    (s.clusters.getD 1 Cluster.init).zeroing = some 0 ∧ s.zeroOver 0 = true := by decide +kernel
theorem test_meets_power : base.power.warn = false ∧ base.power.holdup = false ∧
    (let p := { base.power with holdup := true, window := some 0 }
     let s := { base with power := p, clk := { base.clk with cycles := msCycles 100 }, ledger := { base.ledger with pseal := .held } }
     s.power.window = some 0 ∧ s.power.holdup = true ∧ s.power.warn = false ∧ 0 + msCycles 100 ≤ s.clk.cycles ∧
       s.ledger.pseal = .held ∧ s.clk.phase = .intake) := by decide +kernel
theorem test_meets_poll : base.reached base.power.pollAt = true ∧ (inPhase .drone).clk.phase = .drone := by decide +kernel
theorem test_meets_clock : let down := { base.power with clkN := 16, budgetN := 4, thermalN := 5 }
    let up := { base.power with clkN := 4, sinceUp := 16 }
    min down.budgetN down.thermalN < down.clkN ∧ down.stepped = false ∧ up.clkN < min up.budgetN up.thermalN ∧
      up.stepped = false ∧ 16 ≤ up.sinceUp ∧ base.wavesOver = true ∧ down.budgetN < 16 := by decide +kernel
theorem test_meets_ceilings : let p := { base.power with lowFor := 1024, coolFor := 1024, thermalPt := some 0, budgetN := 15 }
    1024 ≤ p.lowFor ∧ p.budgetN < 16 ∧ p.thermalPt = some 0 ∧ 1024 ≤ p.coolFor := by decide +kernel
/-- A fragment that cluster RC0 offers for cluster RC2 of its row. -/
def offer : RingOffer where
  id := { fabric := 0, frag := 0 }
  quire := 12
  src := .cluster 0
  dst := .cluster 2
  frags := 1
theorem test_meets_ring :
    (base.offered offer).map (fun f => (f.frags, f.entered, f.src, f.dst)) = some (1, [], .cluster 0, .cluster 2) ∧
    base.fuses.ringPath false (.cluster 0) (.cluster 2) = [{ ring := 0, src := 1, dst := 3, agent := .cluster 2 }] ∧
    base.fuses.ringPath true (.cluster 0) (.cluster 2) = [{ ring := 0, src := 1, dst := 3, agent := .cluster 2 }] ∧
    base.mayEnter 0 .asc 1 = true ∧
    ({ base with rings := { base.rings with entries := [(0, .asc, 1)] } } : State).mayEnter 0 .asc 1 = false ∧
    base.rings.turnHeads = [] := by decide +kernel

/-- That fragment on its way, one link before its destination stop. -/
def ringPkt : RingPkt where
  id := offer.id
  quire := 12
  ring := 0
  dir := .asc
  src := 1
  dst := 3
  agent := .cluster 2
  lap := 0
  path := []
  final := .cluster 2
theorem test_meets_arrival : let s := { world with rings := { world.rings with transit := [(ringPkt, 2)] } }
    s.rings.transit = [(ringPkt, 2)] ∧ s.rings.ejectQ = [] ∧ nextStop 0 .asc 2 = ringPkt.dst ∧ s.agentOut (.cluster 2) = false ∧
      3 ≤ ejectDepth (.cluster 2) - s.ejectHeld ringPkt ∧
      (s.rings.transit.find? fun x => x.1.id = ringPkt.id && x.1.ring = 0 && x.1.dir = .asc && x.2 = 2).map (·.1) = some ringPkt := by
  decide +kernel
theorem test_meets_send : let c := ctl 1 1 base.self []
    let s := base.updPort 63 fun p => { p with vis := { p.vis with status := 2 }, ctl := [c] }
    let e : EgressPkt := { quire := 0, bytes := [] }
    let t := base.updPort 63 fun p => { p with vis := { p.vis with status := 2 }, egress := [e] }
    (s.port 63).slots.length < slotsPerTick s.clk.period ∧ (t.port 63).slots.length < slotsPerTick t.clk.period ∧
      (s.port 63).ctl.find? (s.maySend (s.port 63)) = some c ∧ (t.port 63).ctl = [] ∧ (t.port 63).vis.status = 2 ∧
      (t.port 63).heldDown = false ∧ t.faults.fatal = none ∧ (t.port 63).turn.find? (t.eligible 63) = some 0 ∧
      (t.port 63).egress.find? (·.quire = 0) = some e ∧
      ((base.updPort 63 fun p => { p with parsing := true }).port 63).parsing = true := by decide +kernel

/-! ### How packets are taken -/

theorem test_meets_written : let p := cmd 0x0D03 0xFFFF [1, 2, 3]
    (Instr.chanNop p).packet = some (0x0D03, p) ∧ (Instr.chanNop p).wf = true ∧ p.params.length = p.declLen ∧
      16 + p.declLen ≤ 24 := by decide +kernel
theorem test_meets_lengths : let p := { cmd 0x0D03 0xFFFF [1, 2, 3] with declLen := 4 }
    (due base 0x0D03 p).readsNow 0x0D03 p = true ∧ p.params.length ≠ p.declLen := by decide +kernel
theorem test_meets_crc : let p := { cmd 0x0D03 0xFFFF [1, 2, 3] with crc := 0 }
    (due base 0x0D03 p).readsNow 0x0D03 p = true ∧ crc32c (p.header 0x0D03 ++ p.params) ≠ p.crc := by decide +kernel
theorem test_meets_version : let p := { cmd 0x0D03 0xFFFF [1, 2, 3] with version := 2 }
    let p := { p with crc := crc32c (p.header 0x0D03 ++ p.params) }
    (due base 0x0D03 p).readsNow 0x0D03 p = true ∧ p.version ≠ 1 := by decide +kernel
theorem test_meets_closed : let p := cmd 0x0D03 0xFFFF []
    let s := base.updChan 1 fun c => { c with isOpen := false }
    let s := due s 0x0D03 p
    s.readsNow 0x0D03 p = true ∧ chanAccepts (s.turn p) 0x0D03 p = false := by decide +kernel
theorem test_meets_stale : let p := cmd 0x0D03 0xFFFF []
    let s := base.updChan 1 fun c => { c with baseline := some 1 }
    let s := due s 0x0D03 p
    s.readsNow 0x0D03 p = true ∧ seqCheck (s.turn p) 0x0D03 p = .stale := by decide +kernel
theorem test_meets_fatal : let p := cmd 0x0302 12 []
    let s := { base with faults := { base.faults with fatal := some 1 } }
    let s := due s 0x0302 p
    s.readsNow 0x0302 p = true ∧ seqCheck (s.turn p) 0x0302 p = .fresh ∧
      (s.turn p).faults.fatal.isSome = true ∧ alwaysServed 0x0302 = false := by decide +kernel
def nopReply : Reply where
  chan := 1
  opcode := 0x0D03
  seq := 1
  status := .ok
  cached := false
  recovered := false
  taken := true
  accTick := 999
  retry := 0
  result := []
  transport := .mailbox
  ip := 0
  port := 0
  mac := 0
  quire := 0xFFFF

/-- Channel 1 after a chan.nop of sequence 1 that was answered, or not yet. -/
def afterNop (r : Option Reply) : State := base.updChan 1 fun c => { c with baseline := some 1, cache :=
  [{ seq := 1, opcode := 0x0D03, declLen := 0, crc := (cmd 0x0D03 0xFFFF []).crc, accTick := 999, transport := .mailbox, ip := 0,
     port := 0, mac := 0, last := r, final := r.isSome }] }
theorem test_meets_resend : let p := cmd 0x0D03 0xFFFF []
    let s := due (afterNop none) 0x0D03 p
    let r := due (afterNop (some nopReply)) 0x0D03 p
    s.readsNow 0x0D03 p = true ∧ r.readsNow 0x0D03 p = true ∧
      (match seqCheck (s.turn p) 0x0D03 p with | .resend e => e.last.isNone | _ => false) = true ∧
      (match seqCheck (r.turn p) 0x0D03 p with | .resend e => decide (e.last = some nopReply) | _ => false) = true := by decide +kernel
theorem test_meets_table_check : let p := cmd 0x0302 12 []
    let s := due base 0x0302 p
    s.readsNow 0x0302 p = true ∧ seqCheck (s.turn p) 0x0302 p = .fresh ∧
      tableCheck (s.turn p) 0x0302 p.chan p = some .badLength := by
  decide +kernel
theorem test_meets_waiting : let p := cmd 0x0D03 0xFFFF []
    let e := { p with transport := .eth0 }
    let l := { e with params := List.replicate 9155 0 }
    (inPhase .work).readsNow 0x0D03 p = false ∧ (inPhase .work).readsNow 0x0D03 e = false ∧ (inPhase .work).takesPackets = true ∧
      State.reset.readsNow 0x0D03 e = false ∧ State.reset.takesPackets = false ∧ p.chan < base.chans.length ∧
      (inPhase .work).readsNow 0x0D03 l = false ∧ 9154 < l.params.length := by decide +kernel

/-! ### Well-formedness: a term that each check refuses -/

theorem test_wf_packet : (Instr.chanNop { cmd 0x0D03 0xFFFF [] with ring := 8 }).wf = false ∧
    (Instr.chanNop { cmd 0x0D03 0xFFFF [] with declLen := 65536 }).wf = false ∧
    (Instr.chanNop { cmd 0x0D03 0xFFFF [] with quire := 65536 }).wf = false ∧
    (Instr.chanNop { cmd 0x0D03 0xFFFF [] with srcIp := 1 }).wf = false ∧
    (Instr.chanNop { cmd 0x0D03 0xFFFF [] with srcPort := 1 }).wf = false ∧
    (Instr.chanNop { cmd 0x0D03 0xFFFF [] with srcMac := 1 }).wf = false ∧
    (Instr.chanNop { cmd 0x0D03 0xFFFF [] with transport := .eth0, srcMac := 2 ^ 48 }).wf = false ∧
    (Instr.chanNop { cmd 0x0D03 0xFFFF [] with transport := .eth0, flags := 2 }).wf = false ∧
    (Instr.chanNop { cmd 0x0D03 0xFFFF [] with transport := .eth0, srcIp := 2 ^ 32 }).wf = false ∧
    (Instr.chanNop { cmd 0x0D03 0xFFFF [] with transport := .eth0, srcPort := 65536 }).wf = false := by decide +kernel
theorem test_wf_packet_long : (Instr.chanNop { cmd 0x0D03 0xFFFF [] with params := List.replicate 32753 0 }).wf = false := by
  decide +kernel
theorem test_wf_host : (Instr.cmdTailWrite 8 [] 0).wf = false ∧ (Instr.cmdTailWrite 0 (List.replicate 32769 0) 0).wf = false ∧
    (Instr.rplHeadWrite 8 0).wf = false ∧ (Instr.registerWriteIgnored (2 ^ 20) 8 0).wf = false ∧
    (Instr.registerWriteIgnored 0 0 0).wf = false ∧ (Instr.registerWriteIgnored 0 9 0).wf = false ∧
    (Instr.registerWriteIgnored 0x100C 4 0).wf = false ∧ (Instr.registerWriteIgnored 0x17FFF 1 0).wf = false ∧
    (Instr.registerWriteIgnored 0x100C 2 0).wf = true := by decide +kernel
theorem test_wf_ethernet : (Instr.arpRequestRx 2 0 0 0).wf = false ∧ (Instr.arpRequestRx 0 (2 ^ 32) 0 0).wf = false ∧
    (Instr.arpRequestRx 0 0 (2 ^ 32) 0).wf = false ∧ (Instr.arpRequestRx 0 0 0 (2 ^ 48)).wf = false ∧
    (Instr.arpReplyRx 2 0 0).wf = false ∧ (Instr.ethFrameDiscard 0 .fcs 65536).wf = false ∧ (Instr.ethLinkUp 2).wf = false ∧
    (Instr.arpEntryExpiry 0 (2 ^ 32)).wf = false := by decide +kernel
theorem test_wf_units : (Instr.identRx (2 ^ 32) []).wf = false ∧ (Instr.alarmRx 0 (List.replicate 65508 0)).wf = false ∧
    (Instr.setDeadlineExpiry 32).wf = false ∧ (Instr.scanRoundEnd 4).wf = false := by decide +kernel
theorem test_wf_ports : (Instr.dataPacketRx 64 false []).wf = false ∧ (Instr.dataPacketRx 0 false (List.replicate 2101 0)).wf = false ∧
    (Instr.portLinkEvent 64 0).wf = false ∧ (Instr.portLinkEvent 0 16).wf = false ∧ (Instr.lstTimerExpiry 64).wf = false ∧
    (Instr.elsAlarm 8).wf = false ∧ (Instr.portSend 64).wf = false ∧ (Instr.uncorrectableCodeword 64 0).wf = false ∧
    (Instr.firstStartDisagreement 64).wf = false := by decide +kernel
theorem test_wf_elements : (Instr.scheduledDiagLane (.port 64)).wf = false ∧ (Instr.scheduledDiagLane (.uplink (2 ^ 20) 0)).wf = false ∧
    (Instr.scheduledDiagLane (.uplink 0 4)).wf = false ∧ (Instr.scheduledDiagLane (.elec 32 0 1)).wf = false ∧
    (Instr.scheduledDiagLane (.elec 0 3 3)).wf = false ∧ (Instr.uplinkSilent 0 4).wf = false ∧ (Instr.boardMissing 32).wf = false ∧
    (Instr.houseBoreMove 32).wf = false ∧ (Instr.pathMaskClear 4096 0 0 0).wf = false := by decide +kernel
theorem test_wf_library : (Instr.libraryClaimRx 64 (.cancel 0 0 0 0)).wf = false ∧ (Instr.libraryClaimRx 0 (.linkRole 64 0 0 true)).wf = false ∧
    (Instr.libraryClaimRx 0 (.cancel 0 0 4096 0)).wf = false ∧ (Instr.libraryClaimRx 0 (.failed 0 0 0 (2 ^ 32))).wf = false ∧
    (Instr.libraryClaimRx 0 (.bandwidth 0 0 64 0 none 0)).wf = false ∧ (Instr.libraryClaimRx 0 (.quiet 64 0)).wf = false ∧
    (Instr.joinStep 64 0 0).wf = false ∧ (Instr.joinStep 0 0 4096).wf = false ∧ (Instr.claimTimeout 64).wf = false ∧
    (Instr.spdmMessageRx (2 ^ 20) [] true true).wf = false := by decide +kernel
theorem test_wf_memory : (Instr.clusterWaveStart 10).wf = false ∧ (Instr.clusterSelftestDone 160 true).wf = false ∧
    (Instr.hbmTrainDone [true] []).wf = false ∧ (Instr.memTestDone [{ leaf := 384, repaired := true }]).wf = false ∧
    (Instr.scrubDone [384]).wf = false ∧ (Instr.hbmEccError 384 0).wf = false ∧ (Instr.hbmEccError 0 (2 ^ 30)).wf = false ∧
    (Instr.workItemDone 12 0 0 160 .ok).wf = false := by decide +kernel
theorem test_wf_fabric : (Instr.drainTimeout 4096).wf = false ∧ (Instr.shadowWriteRetry (2 ^ 20) 0).wf = false ∧
    (Instr.retryHorizon 0 (2 ^ 32) (.chunk 0 0)).wf = false ∧ (Instr.retryHorizon 0 0 (.leg (2 ^ 20) 0)).wf = false ∧
    (Instr.tagCloseEnd 0 (2 ^ 32)).wf = false ∧ (Instr.pmbusReprobe 8 true).wf = false ∧
    (Instr.ringEntry { offer with src := .cluster 160 }).wf = false ∧ (Instr.ringEntry { offer with dst := .hbm 16 }).wf = false ∧
    (Instr.ringEntry { offer with frags := 10 }).wf = false ∧ (Instr.ringEntry { offer with dst := .port 64 }).wf = false ∧
    (Instr.slotEccError 26 .asc 0 offer.id true).wf = false ∧ (Instr.bringUpStart { vol := 64, role := 0, lock := false, pmb := false }).wf = false := by
  decide +kernel
theorem test_wf_meets : (Instr.ringEntry offer).wf = true ∧ (Instr.scheduledDiagLane (.elec 4 0 15)).wf = true ∧
    (Instr.hbmTrainDone (List.replicate 8 true) (List.replicate 8 [])).wf = true ∧ (Instr.joinStep 63 (2 ^ 64 - 1) 4095).wf = true := by
  decide +kernel

/-! ### Values the manual works out -/

/-- The check value of CRC-32C: the polynomial, reflection and final XOR of R85 give 0xE306_9283 for "123456789". -/
theorem test_crc : crc32c [0x31, 0x32, 0x33, 0x34, 0x35, 0x36, 0x37, 0x38, 0x39] = 0xE3069283 := by decide +kernel

/-- R35: the house bore of gathering 4 joins port 1, and that of gathering 31 joins port 16 × 3 + 7. -/
theorem test_house_port : houseGathering 1 = some 4 ∧ houseGathering 55 = some 31 ∧ houseGathering 8 = none := by decide +kernel

/-- R262: linear address 2^30 of a grant is the first byte of its second leaf. -/
theorem test_hbm_addr : hbmAddr [5, 9] (2 ^ 30) = 9 * 2 ^ 30 ∧ hbmAddr [5, 9] 7 = 5 * 2 ^ 30 + 7 := by decide +kernel

/-- R142, R571: chan.nop is answered in the same seal with its parameters. -/
theorem test_nop : let p := cmd 0x0D03 0xFFFF [1, 2, 3]
    (match exec (.chanNop p) (due base 0x0D03 p) with
    | .next t => (t.chan 1).sealQ.map fun r => (r.status, r.result) | _ => []) = [(.ok, [1, 2, 3])] := by decide +kernel

/-- R530, R261: the free clusters and leaves of lowest number are granted. -/
theorem test_carve : let p := cmd 0x0301 13 (le 2 6 ++ [0, 0] ++ le 4 7 ++ le 2 2 ++ le 2 2 ++ le 8 0 ++ le 8 1 ++ le 2 1 ++
      le 2 0 ++ le 4 (at4 2))
    (carved ((due world 0x0301 p).takenOf 0x0301 p) ((due world 0x0301 p).accepted 0x0301 p)).clusters = [2, 3] ∧
      (carved ((due world 0x0301 p).takenOf 0x0301 p) ((due world 0x0301 p).accepted 0x0301 p)).leaves = [2, 3] := by decide +kernel

/-- R53, R50: a boundary takes the index of a join step. -/
theorem test_join_boundary : let s := { inPhase .seal with clk := { (inPhase .seal).clk with nextIndex := some 70000 } }
    (match exec .tickBoundary s with | .next t => t.clk.now | _ => 0) = 70000 := by decide +kernel

/-- R618: a write of ones clears every pending bit but FATAL. -/
theorem test_irq_clear : (match exec (.irqStatClear 0xFFFFFFFFFFFFFFFF) { base with irq := { base.irq with stat := 0x3FFFF } } with
    | .next t => t.irq.stat | _ => 0) = 0x100 := by decide +kernel

/-- R449: an RST_N pulse below 1 µs is ignored, and one of 1 µs resets. -/
theorem test_reset_pulse : (match exec (.rstNAssert 999) base with | .next t => t.clk.now | _ => 0) = 1000 ∧
    (match exec (.rstNAssert 1000) base with | .next t => t.clk.now | _ => 0) = 0 := by decide +kernel

/-- R241: from stop 0 to stop 14 of a ring of 15 stops the shorter way is one hop down. -/
theorem test_ring_way : shorterDir 25 0 14 = .desc ∧ shorterDir 25 0 7 = .asc := by decide +kernel

/-- No row of the table gives bits, so no word spells a command. -/
theorem test_no_words : Sys2Proof.decodeTableWord 32 0 = none ∧ base.withFetchWord 32 0 = base := by decide +kernel

/-- R120, R606: where the indices of channel 7, its rings and the mirror stand in BAR0. -/
theorem test_bar_map : barPlace 0x1E0C = .desc 7 12 ∧ barPlace 0x80000 = .cmdRing 7 0 ∧ barPlace 0x8FFFF = .rplRing 7 0x7FFF ∧
    barPlace 0x90000 = .mirror 0 ∧ barPlace 0x0FFF = .register 0xFF8 7 ∧ barPlace 0xA0000 = .reserved := by decide +kernel

/-- R614: CMD_TAIL of channel 1 is read at the start of its descriptor. -/
theorem test_bar_read : (base.updChan 1 fun c => { c with cmdTail := 0x1234 }).barRead 0x1200 4 = [0x34, 0x12, 0, 0] := by decide +kernel

end Sys2Proof.Machine.Test
end

section
/-! PROOFS. The commands of the library's shape: ports and shapers (R541-R543), data packets at a port (R223), and discovery
(R153-R167, R213, R492, R493). -/
namespace Sys2Proof.Machine

/-! ### Control packets at a port (R210-R212, R223) -/

/-- A control packet that passes its checks is counted, and its handler's answer stands. -/
theorem ctlRx_take {s t : State} {d : Nat} {u : Bool} {pkt body : List Byte} {kind : Nat} {loc : Bool} {src : Coord}
    {h : State → Coord → List Byte → Option State} (run : s.clk.running = true)
    (checks : s.ctlChecks u pkt kind loc = .take src body) (answer : h (s.rxGood d 64) src body = some t) :
    s.ctlRx d u pkt kind loc h = t := by
  simp [State.ctlRx, run, checks, answer]

/-- What is dropped from an uncorrectable codeword leaves its port without framing. -/
theorem rxDrop_uncorrectable (s : State) (d : Nat) (pkt : List Byte) (c : Nat) :
    s.rxDrop d true pkt c = (s.count d c 1).updPort d fun p => { p with parsing := false } := rfl

/-- A control packet of an uncorrectable codeword is charged to counter 4, whatever its kind (R223). -/
theorem ctlRx_uncorrectable {s : State} (run : s.clk.running = true) (d : Nat) (pkt : List Byte) (kind : Nat) (loc : Bool)
    (h : State → Coord → List Byte → Option State) :
    s.ctlRx d true pkt kind loc h = (s.count d 4 1).updPort d fun p => { p with parsing := false } := by
  have checks : s.ctlChecks true pkt kind loc = .drop 4 := rfl
  simp [State.ctlRx, run, checks, rxDrop_uncorrectable]

/-! ### Data packets at a port (R42, R223, R575) -/

/-- A packet that the checks of R223 do not discard came in a good codeword and is of the data class. -/
theorem rxChecks_dropped_or_data (s : State) (d : Nat) (u : Bool) (pkt : List Byte) :
    (∃ c, s.rxChecks d u pkt = .drop c) ∨ (u = false ∧ field pkt 0 1 = 0x40) := by
  cases u with
  | true => exact .inl ⟨4, rfl⟩
  | false =>
    by_cases cls : field pkt 0 1 = 0x40
    · exact .inr ⟨rfl, cls⟩
    · exact .inl ⟨8, by simp [State.rxChecks, cls]⟩

/-- The packet is one that the data path judges: of an uncorrectable codeword, or neither idle nor a control packet. -/
def dataFramed (u : Bool) (pkt : List Byte) : Prop := u = true ∨ (field pkt 0 1 ≠ 0xC0 ∧ field pkt 0 1 ≠ 0)

theorem not_skipped_of_dataFramed {u : Bool} {pkt : List Byte} (h : dataFramed u pkt) :
    (!u && (field pkt 0 1 = 0xC0 || field pkt 0 1 = 0x00)) = false := by
  rcases h with rfl | ⟨hc, hi⟩
  · rfl
  · simp [hc, hi]

theorem dataFramed_of_not_dropped {s : State} {d : Nat} {u : Bool} {pkt : List Byte}
    (h : ∀ c, s.rxChecks d u pkt ≠ .drop c) : dataFramed u pkt := by
  rcases rxChecks_dropped_or_data s d u pkt with ⟨c, hc⟩ | ⟨-, cls⟩
  · exact absurd hc (h c)
  · exact .inr ⟨by omega, by omega⟩

theorem dataRx_heldDown {s : State} {d : Nat} (held : (s.port d).heldDown = true) (u : Bool) (pkt : List Byte) :
    s.dataRx d u pkt = s := by
  simp [State.dataRx, held]

section
variable {s : State} {d : Nat} {u : Bool} {pkt : List Byte}
  (run : s.clk.running = true) (up : (s.port d).heldDown = false) (data : dataFramed u pkt)
include run up data

theorem dataRx_looping (loop : (s.port d).looping = true) : s.dataRx d u pkt = s.count d 10 1 := by
  simp [State.dataRx, run, up, not_skipped_of_dataFramed data, loop]

variable (free : (s.port d).looping = false)
include free

theorem dataRx_drop {c : Nat} (checks : s.rxChecks d u pkt = .drop c) : s.dataRx d u pkt = s.rxDrop d u pkt c := by
  simp [State.dataRx, run, up, not_skipped_of_dataFramed data, free, checks]

theorem dataRx_forward (checks : s.rxChecks d u pkt = .forward) : s.dataRx d u pkt =
    (s.rxGood d pkt.length).forwardPkt d ((s.vis.led.quireOfKey (parseLink pkt).key).getD 0) pkt := by
  simp [State.dataRx, run, up, not_skipped_of_dataFramed data, free, checks]

theorem dataRx_consume {f : Nat} {hdr body : List Byte} {ten : Bool} (checks : s.rxChecks d u pkt = .consume f hdr body ten) :
    s.dataRx d u pkt = (s.rxGood d pkt.length).consume ((s.vis.led.quireOfKey (parseLink pkt).key).getD 0)
      (parseLink pkt).src (parseLink pkt).seq f hdr body ten := by
  simp [State.dataRx, run, up, not_skipped_of_dataFramed data, free, checks]
end

/-- A data packet of an uncorrectable codeword is charged to counter 4 (R223). -/
theorem dataRx_uncorrectable {s : State} {d : Nat} (run : s.clk.running = true) (up : (s.port d).heldDown = false)
    (free : (s.port d).looping = false) (pkt : List Byte) :
    s.dataRx d true pkt = (s.count d 4 1).updPort d fun p => { p with parsing := false } :=
  dataRx_drop run up (.inl rfl) free rfl

/-- Settles O31, clause by clause: the checks of R223 decide, and what they do not discard is of the data class. -/
theorem dataPacketsRun : Obligations.DataPacketsRun := by
  unfold Obligations.DataPacketsRun
  refine ⟨?dropped, ?forwarded, ?taken, ?heldDown, ?looping, ?uncorrectable⟩
  case dropped =>
    intro s d u pkt c run up free data checks
    exact congrArg Host.Outcome.next (dataRx_drop run up data free checks)
  case forwarded =>
    intro s d u pkt run up free checks
    have data : dataFramed u pkt := dataFramed_of_not_dropped (s := s) (d := d) (by simp [checks])
    exact congrArg Host.Outcome.next (dataRx_forward run up data free checks)
  case taken =>
    intro s d u pkt f hdr body ten run up free checks
    have data : dataFramed u pkt := dataFramed_of_not_dropped (s := s) (d := d) (by simp [checks])
    exact congrArg Host.Outcome.next (dataRx_consume run up data free checks)
  case heldDown =>
    intro s d u pkt held
    exact congrArg Host.Outcome.next (dataRx_heldDown held u pkt)
  case looping =>
    intro s d u pkt run up loop data
    exact congrArg Host.Outcome.next (dataRx_looping run up data loop)
  case uncorrectable =>
    intro s d pkt run up free
    have data := dataRx_uncorrectable run up free pkt
    have control := ctlRx_uncorrectable run d pkt
    refine ⟨?_, fun e => congrArg Host.Outcome.next (control _ _ _)⟩
    simp only [List.forall_mem_cons]
    exact ⟨congrArg _ data, congrArg _ (control _ _ _), congrArg _ (control _ _ _), congrArg _ (control _ _ _),
      congrArg _ (control _ _ _), congrArg _ (control _ _ _), congrArg _ (control _ _ _), congrArg _ (control _ _ _),
      congrArg _ (control _ _ _), List.forall_mem_nil _⟩

/-! ### Commands whose change waits for the journal (R90, R94, R105) -/

/-- A durable command that nothing refuses is staged and ACCEPTED. -/
theorem conclude_durable {c : Taken} {s : State} (ok : s.durableRefusal = none) (objs : List Obj) (q : Option QuireId)
    (res : List Byte) : conclude c (durable c s objs q res) = staged c s objs q res := by
  simp [durable, ok, conclude, staged]

theorem durableRefusal_of_portConfigRefusal {c : Taken} {s : State} (ok : portConfigRefusal c s = none) :
    s.durableRefusal = none := by
  revert ok
  fun_cases portConfigRefusal c s <;> simp

theorem durableRefusal_of_shaperSetRefusal {c : Taken} {s : State} (ok : shaperSetRefusal c s = none) :
    s.durableRefusal = none := by
  revert ok
  fun_cases shaperSetRefusal c s <;> simp

/-! ### port.config (R72, R541) -/

/-- A port.config that takes no library role from a live link to a director is durable at once. -/
theorem hPortConfig_unclaimed {c : Taken} {s : State} (ok : portConfigRefusal c s = none)
    (unclaimed : (portDefault s s.val (c.u8 0)).library = false ∨ (cfgOf c).library = true ∨
      (s.port (c.u8 0)).vis.status ≠ 2 ∨ ∀ x y, (s.port (c.u8 0)).peer ≠ some (.director x y)) :
    hPortConfig c s = durable c s [.port (c.u8 0) (cfgOf c)] none [] := by
  rcases unclaimed with role | role | down | alone
  · simp [hPortConfig, ok, role]
  · simp [hPortConfig, ok, role]
  · unfold hPortConfig
    rw [ok]
    cases peer : (s.port (c.u8 0)).peer with
    | none => simp [peer]
    | some x => cases x <;> simp [peer, down]
  · unfold hPortConfig
    rw [ok]
    cases peer : (s.port (c.u8 0)).peer with
    | none => simp [peer]
    | some x => cases x with
      | director far port => exact absurd peer (alone far port)
      | accel => simp [peer]

/-- A port.config that takes the library role from a live link to a director runs as a task, and claims the role. -/
theorem hPortConfig_claimed {c : Taken} {s : State} {x y : Nat} (ok : portConfigRefusal c s = none)
    (old : (portDefault s s.val (c.u8 0)).library = true) (new : (cfgOf c).library = false)
    (peer : (s.port (c.u8 0)).peer = some (.director x y)) (up : (s.port (c.u8 0)).vis.status = 2) :
    ∃ t : State, hPortConfig c s = (t, .accepted) ∧
      t.tasks = (s.startTask (some c.ident) c.pkt.quire (.roleClaim (c.u8 0) (cfgOf c))).tasks ∧
      t.lib.own = s.lib.own ++ [{ claim := .linkRole s.volume c.tick (c.u8 0) false, port := some (c.u8 0),
                                  dest := cVol x, task := some s.nextTask, sent := false }] := by
  simp only [hPortConfig, ok, peer, up, old, new]
  exact ⟨_, rfl, rfl, rfl⟩

/-! ### shaper.set (R72, R228, R542) -/

/-- The records a shaper.set asks for (R542). -/
def shaperRecs (c : Taken) (s : State) : List ShaperRec :=
  (shaperPorts c s).map fun d =>
    { quire := c.pkt.quire, port := d, rate := if c.u32 4 = 0xFFFFFFFF then none else some (c.u32 4), burst := c.u32 8 }

/-- The neighbours that a shaper.set is claimed from: those on whose link a quire that spans volumes is shaped (R72). -/
def shaperSharers (c : Taken) (s : State) : List Beacon :=
  if s.spansVolumes c.pkt.quire then s.neighbours.filter fun b => (shaperRecs c s).any (·.port = b.port) else []

theorem mem_shaperSharers {c : Taken} {s : State} {b : Beacon} :
    b ∈ shaperSharers c s ↔ s.spansVolumes c.pkt.quire = true ∧ b ∈ s.neighbours ∧ b.port ∈ shaperPorts c s := by
  simp [shaperSharers, shaperRecs]

/-- A shaper.set of a quire within the volume, or of no port toward a neighbour, is durable at once. -/
theorem hShaperSet_unclaimed {c : Taken} {s : State} (ok : shaperSetRefusal c s = none) (alone : shaperSharers c s = []) :
    hShaperSet c s = durable c s ((shaperRecs c s).map .shaper) (some c.pkt.quire) [] := by
  unfold shaperSharers shaperRecs at alone
  unfold hShaperSet
  rw [ok]
  dsimp only
  rw [alone]
  rfl

/-- A shaper.set with sharers runs as a task, and claims the bandwidth from each of them. -/
theorem hShaperSet_claimed {c : Taken} {s : State} {b : Beacon} (ok : shaperSetRefusal c s = none)
    (shared : b ∈ shaperSharers c s) :
    ∃ t : State, hShaperSet c s = (t, .accepted) ∧
      t.tasks = (s.startTask (some c.ident) c.pkt.quire (.shaperClaim (shaperRecs c s))).tasks ∧
      { claim := .bandwidth s.volume c.tick b.port c.pkt.quire (if c.u32 4 = 0xFFFFFFFF then none else some (c.u32 4)) (c.u32 8),
        port := some b.port, dest := b.volume, task := some s.nextTask, sent := false } ∈ t.lib.own := by
  unfold shaperSharers shaperRecs at shared
  unfold hShaperSet
  rw [ok]
  dsimp only
  split
  · next empty =>
    rw [empty] at shared
    exact absurd shared List.not_mem_nil
  · exact ⟨_, rfl, rfl, List.mem_append_right _ (List.mem_map.mpr ⟨b, shared, rfl⟩)⟩

/-! ### port.counters (R543) -/

/-- The first kind of port.counters reads the mirror's counters of a port. -/
theorem hPortCounters_port {c : Taken} (kind : c.u8 0 = 0) (port : c.u8 1 ≤ 63) (s : State) :
    hPortCounters c s = (s, .reply .ok (le 6 s.mirror.tick ++ le 1 0 ++ le 1 0 ++
      (List.range 32).flatMap fun i => le 8 ((s.mirror.ports.getD (c.u8 1) []).getD i 0))) := by
  have in_range : ¬ 63 < c.u8 1 := by omega
  simp only [hPortCounters, kind, in_range, if_true, if_false]
  rfl

/-- What port.counters reads of a link: its last shown counters, and stale zeros of one that no report named (R543). -/
def linkReading (tick : Tick) (x : Option LinkCounters) : List Byte :=
  le 6 tick ++ le 1 (b2n (x.elim true (·.stale))) ++ le 1 0 ++
    (List.range 32).flatMap fun i => le 8 ((x.elim [] (·.shown)).getD i 0)

/-- The second kind of port.counters reads the last shown counters of a link. -/
theorem hPortCounters_link {c : Taken} {s : State} (kind : c.u8 0 = 1) (link : linkOk (c.u8 1) = true)
    (there : s.present18 (c.u32 4 % 2 ^ 20) = true) (endpoint : cGath (c.u32 4 % 2 ^ 20) ≠ 63) :
    hPortCounters c s = (s, .reply .ok (linkReading s.mirror.tick
      (s.links.find? fun l => l.coord = c.u32 4 % 2 ^ 20 && l.link = c.u8 1))) := by
  simp only [hPortCounters, kind, link, there, endpoint]
  cases s.links.find? fun l => l.coord = c.u32 4 % 2 ^ 20 && l.link = c.u8 1 <;> rfl

/-- Settles O16, clause by clause, each from what its handler answers. -/
theorem portCommandsRun : Obligations.PortCommandsRun := by
  unfold Obligations.PortCommandsRun
  refine ⟨?configured, ?roleClaimed, ?shaped, ?bandwidthClaimed, ?portRead, ?linkRead⟩
  case configured =>
    intro s p taken ok unclaimed
    refine congrArg Host.Outcome.next ((present_taken s _ hPortConfig p taken).trans ?_)
    rw [hPortConfig_unclaimed ok unclaimed]
    exact conclude_durable (durableRefusal_of_portConfigRefusal ok) _ _ _
  case roleClaimed =>
    intro s p x y taken ok a d new old role peer up
    obtain ⟨t, answer, tasks, own⟩ := hPortConfig_claimed ok old role peer up
    refine ⟨t, congrArg Host.Outcome.next ((present_taken s _ hPortConfig p taken).trans ?_), tasks, own⟩
    rw [answer]
    rfl
  case shaped =>
    intro s p taken ok a alone
    have none_shared : shaperSharers (s.takenOf 0x0602 p) a = [] := by
      refine List.eq_nil_iff_forall_not_mem.mpr fun b shared => ?_
      obtain ⟨spans, near, named⟩ := mem_shaperSharers.mp shared
      rcases alone with within | apart
      · exact Bool.false_ne_true (within.symm.trans spans)
      · exact apart b near named
    refine congrArg Host.Outcome.next ((present_taken s _ hShaperSet p taken).trans ?_)
    rw [hShaperSet_unclaimed ok none_shared, shaperRecs, List.map_map]
    exact conclude_durable (durableRefusal_of_shaperSetRefusal ok) _ _ _
  case bandwidthClaimed =>
    intro s p b taken ok a r spans near named
    obtain ⟨t, answer, tasks, own⟩ := hShaperSet_claimed ok (mem_shaperSharers.mpr ⟨spans, near, named⟩)
    refine ⟨t, congrArg Host.Outcome.next ((present_taken s _ hShaperSet p taken).trans ?_), tasks, own⟩
    rw [answer]
    rfl
  case portRead =>
    intro s p taken kind port
    refine congrArg Host.Outcome.next ((present_taken s _ hPortCounters p taken).trans ?_)
    rw [hPortCounters_port (c := s.takenOf 0x0603 p) kind port]
    rfl
  case linkRead =>
    intro s p taken kind link a x there endpoint
    refine congrArg Host.Outcome.next ((present_taken s _ hPortCounters p taken).trans ?_)
    rw [hPortCounters_link (c := s.takenOf 0x0603 p) kind link there endpoint]
    change answered _ _ _ (linkReading _ (a.links.find? fun l => l.coord = x && l.link = field p.params 1 1)) = _
    cases a.links.find? fun l => l.coord = x && l.link = field p.params 1 1 <;> rfl

/-! ### The state a command is validated against (R57, R90) -/

theorem updVol_val (s : State) (f : Vol → Vol) : (s.updVol f).val = s.val := rfl

theorem withDisc_val (s : State) (d : Disc) : ({ s with disc := d } : State).val = s.val := rfl

theorem withOcs_val (s : State) (o : Ocs) : ({ s with ocs := o } : State).val = s.val := rfl

/-- A staged record is the last that joins the state commands are validated against. -/
theorem val_stage (s : State) (r : DurRec) : (s.stage r).val = r.objs.foldl Led.apply s.val := by
  simp [State.val, State.stage, State.updLedger, Ledger.pendingRecs, Ledger.inWrite, List.flatMap_append]

/-- A change that the director makes of its own accord is in what commands are validated against. -/
theorem val_stageOwn {s : State} (works : s.ledgerFaulted = false) (objs : List Obj) :
    (s.stageOwn objs).val = objs.foldl Led.apply s.val := by
  simp [State.stageOwn, works, val_stage]

/-- The map that is journaled is the map from then on. -/
theorem mapTo_map {s : State} (works : s.ledgerFaulted = false) (m : DiscMap) : (s.mapTo m).val.map = m := by
  unfold State.mapTo
  split
  · next same => exact same.symm
  · rw [val_stageOwn works]
    rfl

/-- Journaling a map changes the staged state and the journal, and nothing else. -/
theorem mapTo_frame (s : State) (m : DiscMap) : ∃ f g, s.mapTo m = { s with stg := f, ledger := g } := by
  unfold State.mapTo State.stageOwn
  split
  · exact ⟨_, _, rfl⟩
  · split <;> exact ⟨_, _, rfl⟩

@[simp] theorem mapTo_ports (s : State) (m : DiscMap) : (s.mapTo m).ports = s.ports := by
  obtain ⟨f, g, frame⟩ := mapTo_frame s m
  rw [frame]

@[simp] theorem mapTo_disc (s : State) (m : DiscMap) : (s.mapTo m).disc = s.disc := by
  obtain ⟨f, g, frame⟩ := mapTo_frame s m
  rw [frame]

@[simp] theorem mapTo_boot (s : State) (m : DiscMap) : (s.mapTo m).boot = s.boot := by
  obtain ⟨f, g, frame⟩ := mapTo_frame s m
  rw [frame]

/-! ### Ports after the shared updates -/

theorem updPort_port_self {s : State} {d : Nat} (inside : d < s.ports.length) (f : Port → Port) :
    (s.updPort d f).port d = f (s.port d) := modAt_getD_self _ _ _ _ inside

/-- A change that leaves a component of every port alone leaves it alone in each. -/
theorem updPort_component {β : Type} {f : Port → Port} {g : Port → β} (kept : ∀ p, g (f p) = g p) (s : State) (e d : Nat) :
    g ((s.updPort e f).port d) = g (s.port d) := by
  unfold State.port State.updPort
  by_cases same : d = e
  · subst same
    by_cases inside : d < s.ports.length
    · rw [modAt_getD_self _ d f _ inside, kept]
    · rw [List.getD_eq_default _ _ (by rw [modAt_length]; omega), List.getD_eq_default _ _ (by omega)]
  · rw [modAt_getD_other _ e d f _ same]

@[simp] theorem rxGood_ports_length (s : State) (d n : Nat) : (s.rxGood d n).ports.length = s.ports.length := by
  simp [State.rxGood, State.rxCount, State.count, modAt_length]

/-! ### The peer of a port -/

/-- The party that a port's last beacon named (R153, R156). -/
def State.peerOf (s : State) (d : Nat) : Option Peer := (s.port d).peer

theorem peerOf_of_ports {s t : State} (same : t.ports = s.ports) (d : Nat) : t.peerOf d = s.peerOf d := by
  simp [State.peerOf, State.port, same]

theorem updPort_peerOf {f : Port → Port} (kept : ∀ p, (f p).peer = p.peer) (s : State) (e d : Nat) :
    (s.updPort e f).peerOf d = s.peerOf d := updPort_component kept s e d

theorem updPort_peerOf_self {s : State} {d : Nat} (inside : d < s.ports.length) (x : Option Peer) :
    (s.updPort d fun p => { p with peer := x }).peerOf d = x :=
  congrArg Port.peer (updPort_port_self inside _)

theorem latch_peerOf (s : State) (e ev d : Nat) : (s.latch e ev).peerOf d = s.peerOf d := by
  unfold State.latch
  exact updPort_peerOf (fun _ => by rfl) s e d

theorem ctlOn_peerOf (s : State) (e kind : Nat) (loc : Bool) (dst : Coord) (body : List Byte) (d : Nat) :
    (s.ctlOn e kind loc dst body).peerOf d = s.peerOf d := by
  unfold State.ctlOn
  exact updPort_peerOf (fun _ => by rfl) _ e d

theorem sendCtl_peerOf (s : State) (kind : Nat) (dst : Coord) (body : List Byte) (d : Nat) :
    (s.sendCtl kind dst body).peerOf d = s.peerOf d := by
  unfold State.sendCtl
  split
  · split
    · rfl
    · exact ctlOn_peerOf _ _ _ _ _ _ _
  · rfl

theorem assignAll_peerOf (s : State) (g : Nat) (e : Board) (d : Nat) : (s.assignAll g e).peerOf d = s.peerOf d :=
  List.foldlRecOn (motive := fun t : State => t.peerOf d = s.peerOf d) _ _ rfl
    fun _ kept _ _ => (sendCtl_peerOf _ _ _ _ _).trans kept

/-- Judging the end of a bore changes the tasks and the staged state, and nothing else. -/
theorem verifyEnd_frame (s : State) (me peer : PortRef) (up : Bool) :
    ∃ ts f, s.verifyEnd me peer up = { s with tasks := ts, stg := f } := by
  refine List.foldlRecOn (motive := fun t : State => ∃ ts f, t = { s with tasks := ts, stg := f }) _ _ ⟨_, _, rfl⟩ ?_
  rintro _ ⟨ts, f, rfl⟩ t -
  split
  · split
    · exact ⟨_, _, rfl⟩
    · exact ⟨_, _, rfl⟩
  · exact ⟨_, _, rfl⟩

@[simp] theorem verifyEnd_ports (s : State) (me peer : PortRef) (up : Bool) : (s.verifyEnd me peer up).ports = s.ports := by
  obtain ⟨ts, f, frame⟩ := verifyEnd_frame s me peer up
  rw [frame]

@[simp] theorem verifyEnd_disc (s : State) (me peer : PortRef) (up : Bool) : (s.verifyEnd me peer up).disc = s.disc := by
  obtain ⟨ts, f, frame⟩ := verifyEnd_frame s me peer up
  rw [frame]

theorem stageHist_ports (s : State) (h : HistRec) (n : Nat) : (s.stageHist h n).ports = s.ports := by
  unfold State.stageHist
  split
  · rfl
  · split <;> rfl

theorem addFault_ports (s : State) (e : FaultEntry) : (s.addFault e).ports = s.ports := by
  unfold State.addFault
  dsimp only
  split
  · exact stageHist_ports _ _ _
  · split <;> exact stageHist_ports _ _ _

theorem reachReturns_ports (s : State) (g : Nat) (old : Board) : (s.reachReturns g old).ports = s.ports := by
  unfold State.reachReturns
  split
  · exact addFault_ports _ _
  · rfl

theorem boardJudged_peerOf (s : State) (g : Nat) (new : Bool) (d : Nat) : (s.boardJudged g new).peerOf d = s.peerOf d := by
  unfold State.boardJudged
  extract_lets first known s1 s2
  have assigned : s2.peerOf d = s1.peerOf d := by
    unfold s2
    split
    · exact assignAll_peerOf _ _ _ _
    · rfl
  clear_value s2
  split
  · exact assigned
  · exact assigned

/-! ### Link beacons (R153, R156, R213) -/

/-- A director's beacon names the director and its port as the peer. -/
theorem directorBeacon_peerOf {s : State} {d : Nat} (inside : d < s.ports.length) (src : Coord) (b : List Byte) :
    (s.directorBeacon d src b).peerOf d = some (.director src (field b 1 1 % 64)) := by
  unfold State.directorBeacon
  extract_lets s1
  have named : s1.peerOf d = some (.director src (field b 1 1 % 64)) := updPort_peerOf_self inside _
  split
  · exact (latch_peerOf _ _ _ _).trans named
  · exact (peerOf_of_ports (mapTo_ports _ _) d).trans ((latch_peerOf _ _ _ _).trans named)

/-- An accelerator's beacon names the accelerator and its uplink as the peer, whatever becomes of its board. -/
theorem accelBeacon_peerOf {s : State} {d : Nat} (inside : d < s.ports.length) (src : Coord) (b : List Byte) :
    (s.accelBeacon d src b).peerOf d = some (.accel src (field b 1 1 % 4) (field b 2 1 % 16) (field b 3 1) (field b 4 8)
      (bit (field b 1 1) 7)) := by
  unfold State.accelBeacon
  extract_lets uplink locked slot cap board m me peer s1
  have named : s1.peerOf d = some (.accel src uplink slot cap board locked) := updPort_peerOf_self inside _
  split
  extract_lets s2 x1 known
  have verified : s2.peerOf d = some (.accel src uplink slot cap board locked) :=
    (peerOf_of_ports (verifyEnd_ports _ _ _ _) d).trans ((latch_peerOf _ _ _ _).trans named)
  split
  · exact (peerOf_of_ports (mapTo_ports _ _) d).trans verified
  · extract_lets s3 c x2 old
    have counted : s3.ports = s2.ports := by
      unfold s3
      split <;> rfl
    split
    extract_lets s4
    have mapped : s4.peerOf d = some (.accel src uplink slot cap board locked) :=
      (peerOf_of_ports ((reachReturns_ports _ _ _).trans ((mapTo_ports _ _).trans counted)) d).trans verified
    split
    · exact (boardJudged_peerOf _ _ _ _).trans mapped
    · exact mapped

/-! ### Peer reports (R157, R493) -/

/-- A peer report of an uplink of the volume is kept as its latest, with age 0. -/
theorem peerReport_kept {s : State} {src : Coord} {b : List Byte} (uplink : field b 0 1 ≤ 3) (kind : field b 1 1 ≤ 2)
    (here : cVol src = s.volume) (listed : cGath src < 32) :
    ∃ t, s.peerReport src b = some t ∧ (src - cFun src, field b 0 1, s.reportedPeer b, 0) ∈ t.disc.peers := by
  have formed : ¬ (3 < field b 0 1 || 2 < field b 1 1) = true := by simp [uplink, kind]
  have mine : ¬ (cVol src ≠ s.volume || 32 ≤ cGath src) = true := by simp [here, listed]
  unfold State.peerReport
  extract_lets u c me peer known s1
  rw [if_neg formed, if_neg mine]
  have kept : (c, u, peer, 0) ∈ s1.disc.peers := List.mem_append_right _ List.mem_cons_self
  change ∃ t : State, _ = some t ∧ (c, u, peer, 0) ∈ t.disc.peers
  clear_value peer
  cases peer with
  | none => exact ⟨_, rfl, kept⟩
  | some r => exact ⟨_, rfl, by rwa [verifyEnd_disc, mapTo_disc]⟩

/-! ### Coordinate confirmations (R154, R155) -/

theorem mem_insertSorted_self (x : Nat) (l : List Nat) : x ∈ insertSorted x l := by
  induction l with
  | nil => simp [insertSorted]
  | cons y l ih =>
    unfold insertSorted
    split
    · exact List.mem_cons_self
    · split
      · next same => exact same ▸ List.mem_cons_self
      · exact List.mem_cons_of_mem _ ih

/-- A confirmation that is taken makes its slot live on the board behind its gathering. -/
theorem confirmed_live {s : State} {c : Coord} (works : s.ledgerFaulted = false) (inside : cGath c < s.val.map.boards.length)
    (b : List Byte) : cSlot c ∈ ((s.confirmed c b).val.map.board (cGath c)).live := by
  unfold State.confirmed
  extract_lets x g sl x1 s1 known s2 s3 moves
  have map : s1.val.map = x1.clearMismatch fun y => y = coordMismatch 0x08 c := mapTo_map works _
  have live : ∀ t : State, t.val = s1.val → sl ∈ (t.val.map.board g).live := by
    intro t same
    rw [same, map]
    change sl ∈ ((modAt x.boards g _).getD g _).live
    rw [modAt_getD_self _ _ _ _ inside]
    exact mem_insertSorted_self _ _
  have kept : s3.val = s1.val := (updVol_val s2 _).trans (withDisc_val s1 _)
  split
  · exact live _ ((withOcs_val s3 _).trans kept)
  · exact live _ kept

/-- The confirmation of an accelerator of an admitted gathering, under its own coordinate, is taken. -/
theorem confirmation_taken {s : State} {src : Coord} {body : List Byte} (named : field body 0 4 % 2 ^ 20 = src)
    (here : cVol src = s.volume) (listed : cGath src < 32) (whole : cFun src = 0)
    (admitted : (s.val.map.board (cGath src)).state = 1) (fits : cSlot src < (s.val.map.board (cGath src)).cap)
    (alone : s.val.map.mismatch.any (fun y => y.code = 0x0C && y.object = src) = false) (d : Nat) :
    s.confirmation d src body = s.confirmed src body := by
  unfold State.confirmation
  rw [named]
  exact if_pos (by simp only [here, listed, whole, admitted, fits, alone, Board.admitted]; rfl)

/-! ### Silence (R157, R159) -/

theorem lt_length_of_getD_ne {α : Type} {l : List α} {i : Nat} {x : α} (other : l.getD i x ≠ x) : i < l.length :=
  Nat.lt_of_not_le fun beyond => other (List.getD_eq_default _ _ beyond)

/-- A listed uplink takes the state it is marked with. -/
theorem mark_uplinks_self {x : DiscMap} {g sl p : Nat} (inside : g < 32)
    (listed : x.uplinks.getD (uplinkIndex g sl p) .notListed ≠ .notListed) (u : UplinkState) :
    (x.mark (.uplink g sl p) u).uplinks.getD (uplinkIndex g sl p) .notListed = u := by
  simp only [DiscMap.mark, if_pos inside]
  rw [modAt_getD_self _ _ _ _ (lt_length_of_getD_ne listed), if_neg listed]

/-- An uplink whose last report is 256 ticks old is silent, and its peer is forgotten. -/
theorem execUplinkSilent_silent {s : State} {c : Coord} {up : Nat} (uplink : up ≤ 3) (inside : cGath c < 32)
    (here : cVol c = s.volume) (whole : cFun c = 0) (old : 256 ≤ (s.reportAge c up).getD 0) (works : s.ledgerFaulted = false)
    (listed : s.val.map.uplinks.getD (uplinkIndex (cGath c) (cSlot c) up) .notListed ≠ .notListed) :
    ∃ t : State, execUplinkSilent c up s = .next t ∧
      t.val.map.uplinks.getD (uplinkIndex (cGath c) (cSlot c) up) .notListed = .silent ∧
      (t.disc.peers.find? fun x => x.1 = c && x.2.1 = up).bind (·.2.2.1) = none := by
  have aged : (s.reportAge c up).elim true (· < 256) = false := by
    cases age : s.reportAge c up with
    | none => simp [age] at old
    | some n => simpa [age] using old
  unfold execUplinkSilent
  extract_lets g sl me x1 lands lost x2 x3 dead dies x4 known s1 s2
  rw [if_neg (by simp [g, uplink, inside, here, whole, aged])]
  have kept : x4.uplinks = x1.uplinks := by
    have swept : x3.uplinks = x1.uplinks := by
      unfold x3
      split
      · rfl
      · split <;> rfl
    unfold x4
    split <;> exact swept
  have works2 : s2.ledgerFaulted = false := by
    unfold s2
    split <;> exact works
  have forgot : s2.disc = s1.disc := by
    unfold s2
    split <;> rfl
  refine ⟨_, rfl, ?_, ?_⟩
  · rw [mapTo_map works2, kept]
    exact mark_uplinks_self inside listed _
  · rw [mapTo_disc, forgot]
    refine Option.bind_eq_none_iff.mpr fun y found => ?_
    have matched := List.find?_some found
    obtain ⟨z, -, rfl⟩ := List.mem_map.mp (List.mem_of_find?_eq_some found)
    split at matched
    · next named => simp [named]
    · next other => exact absurd matched other

theorem mem_report_self (x : DiscMap) (y : Mismatch) : y ∈ (x.report y).mismatch := by
  by_cases known : y ∈ x.mismatch <;> simp [DiscMap.report, known]

/-! ### Missing boards (R37, R162) -/

section
variable {s : State} {g n : Nat} {m : Manifest} {e : GatheringEntry}
  (manifest : s.val.manifest = some m) (listed : m.gatherings.getD g none = some e)
include manifest listed

theorem gathering_listed : (s.val.manifest.bind fun m => m.gatherings.getD g none).isSome = true := by
  simp only [manifest, Option.bind_some, listed, Option.isSome_some]

variable (old : 256 ≤ n) (shown : s.disc.noBoard.find? (·.1 = g) = some (g, n))
include old shown

/-- A listed gathering without a board for 256 ticks, whose house bore has nowhere better to go, is missing. -/
theorem execBoardMissing_missing (works : s.ledgerFaulted = false) (inside : g < s.val.map.boards.length)
    (reached : (s.val.map.board g).state ≠ 4) (own : portLibrary s.boot s.val (housePort g) = false)
    (settled : (s.val.map.board g).admitted = true → (s.val.map.board g).live = [] ∨
      ∃ h ∈ (s.val.map.board g).live, (s.val.map.board g).house = some h) :
    ∃ t : State, execBoardMissing g s = .next t ∧ (t.val.map.board g).state = 2 ∧ (t.val.map.board g).live = [] ∧
      coordMismatch 0x05 (mkCoord s.volume g 0 0) ∈ t.val.map.mismatch := by
  unfold execBoardMissing
  extract_lets onlist b lost known s1 x1 x2 mapped moves
  have found : lost = false := by
    unfold lost
    cases admitted : b.admitted with
    | false => rfl
    | true =>
      rcases settled admitted with none_live | ⟨h, live, house⟩
      · simp [b, none_live]
      · simp [b, house, live]
  have own1 : portLibrary s1.boot s1.val (housePort g) = false := own
  rw [if_neg (by simp [onlist, gathering_listed manifest listed, shown, old]), own1, found]
  have map : mapped.val.map = x2 := mapTo_map (s := s1) works x2
  have board : x2.board g = { b with state := 2, live := [], awaiting := b.awaiting ++ b.live } := by
    change (modAt s.val.map.boards g _).getD g _ = _
    rw [modAt_getD_self _ _ _ _ inside]
    exact if_neg reached
  have reported : coordMismatch 0x05 (mkCoord s.volume g 0 0) ∈ x2.mismatch := mem_report_self _ _
  clear_value mapped
  refine ⟨_, rfl, ?_⟩
  change (mapped.val.map.board g).state = 2 ∧ (mapped.val.map.board g).live = [] ∧ _ ∈ mapped.val.map.mismatch
  rw [map, board]
  exact ⟨rfl, rfl, reported⟩

/-- Where a library link occupies the house port, such a gathering is unreachable for management instead. -/
theorem execBoardMissing_unreachable (taken : portLibrary s.boot s.val (housePort g) = true) : execBoardMissing g s =
    .next (({ s with disc := { s.disc with judged := insertSorted g s.disc.judged } }).loseReach g) := by
  unfold execBoardMissing
  extract_lets onlist b lost known s1 x1 x2
  rw [if_neg (by simp [onlist, gathering_listed manifest listed, shown, old])]
  exact if_pos taken

end

/-! ### House bores (R35, R37) -/

section
variable {s : State} {g sl : Nat} {m : Manifest} {e : GatheringEntry}
  (manifest : s.val.manifest = some m) (listed : m.gatherings.getD g none = some e)
  (own : portLibrary s.boot s.val (housePort g) = false) (target : s.houseTarget g = some sl)
  (elsewhere : (s.val.map.board g).house ≠ some sl) (switched : switchedPlane s.val.manifest (g % 4) = true)
include manifest listed own target elsewhere switched

/-- A house bore that is to move waits while its plane is busy or its units are not ready. -/
theorem execHouseBoreMove_waits
    (held : s.planeBusy (g % 4) = true ∨ s.planeDown (g % 4) = true ∨ s.unitsReady (g % 4) = false) :
    execHouseBoreMove g s = .next { s with ocs := { s.ocs with houseMoves := insertSorted g s.ocs.houseMoves } } := by
  have waits : (s.planeBusy (g % 4) || s.planeDown (g % 4) || !s.unitsReady (g % 4)) = true := by
    rcases held with h | h | h <;> simp [h]
  simp only [execHouseBoreMove, gathering_listed manifest listed, own, target, elsewhere, switched, waits]
  rfl

/-- A house bore that is to move is moved by a change of its plane. -/
theorem execHouseBoreMove_moves (idle : s.planeBusy (g % 4) = false) (up : s.planeDown (g % 4) = false)
    (ready : s.unitsReady (g % 4) = true) :
    execHouseBoreMove g s = .next (({ s with ocs := { s.ocs with houseMoves := s.ocs.houseMoves.filter (· ≠ g) } }).planeChange
      (g % 4) (.houseMove g sl) (joinOf s.val.manifest (.dport (housePort g)) (.uplink g sl (g % 4))).toList) := by
  simp only [execHouseBoreMove, gathering_listed manifest listed, own, target, elsewhere, switched, idle, up, ready]
  rfl

end

/-! ### Completion (R167, R465) -/

/-- Discovery that may complete is due, and the stage of bring-up stays until the boundary. -/
theorem execDiscoveryComplete_due {s : State} (stage : s.boot.stage = .discovery ∨ s.boot.stage = .inService)
    (running : s.disc.complete = false) (judged : s.discoveryDone = true) :
    ∃ t : State, execDiscoveryComplete s = .next t ∧ t.disc = { s.disc with due := true } ∧ t.boot = s.boot := by
  have goes : ¬ ((s.boot.stage ≠ .discovery && s.boot.stage ≠ .inService) || s.disc.complete || !s.discoveryDone) = true := by
    rcases stage with h | h <;> simp [h, running, judged]
  unfold execDiscoveryComplete
  extract_lets x mapped known
  have boot : mapped.boot = s.boot := mapTo_boot s x
  clear_value mapped
  rw [if_neg goes]
  exact ⟨_, rfl, rfl, boot⟩

/-- Settles O30, clause by clause: what a packet that passes its checks reports is taken, and silence is judged. -/
theorem discoveryRowsRun : Obligations.DiscoveryRowsRun := by
  unfold Obligations.DiscoveryRowsRun
  refine ⟨?directorBeacon, ?accelBeacon, ?peerReport, ?confirmation, ?silent, ?missing, ?unreachable, ?moves, ?waits, ?complete⟩
  case directorBeacon =>
    intro s d u pkt src body run checks kind inside
    have answer : (s.rxGood d 64).linkBeacon d src body = some ((s.rxGood d 64).directorBeacon d src body) := by
      simp [State.linkBeacon, kind]
    exact ⟨_, congrArg Host.Outcome.next (ctlRx_take run checks answer), directorBeacon_peerOf (by simpa using inside) src body⟩
  case accelBeacon =>
    intro s d u pkt src body run checks kind inside
    have answer : (s.rxGood d 64).linkBeacon d src body = some ((s.rxGood d 64).accelBeacon d src body) := by
      simp [State.linkBeacon, kind]
    exact ⟨_, congrArg Host.Outcome.next (ctlRx_take run checks answer), accelBeacon_peerOf (by simpa using inside) src body⟩
  case peerReport =>
    intro s d u pkt src body run checks uplink kind here listed
    obtain ⟨t, answer, kept⟩ := peerReport_kept (s := s.rxGood d 64) uplink kind here listed
    exact ⟨t, congrArg Host.Outcome.next (ctlRx_take run checks answer), kept⟩
  case confirmation =>
    intro s d u pkt src body run checks works named here listed whole admitted inside fits alone
    have taken := confirmation_taken (s := s.rxGood d 64) named here listed whole admitted fits alone d
    exact ⟨_, congrArg Host.Outcome.next (ctlRx_take run checks (congrArg some taken)),
      confirmed_live (s := s.rxGood d 64) works inside body⟩
  case silent =>
    intro s c up uplink inside here whole old works listed
    exact execUplinkSilent_silent uplink inside here whole old works listed
  case missing =>
    intro s g m e n manifest listed old shown works inside reached own settled
    exact execBoardMissing_missing manifest listed old shown works inside reached own settled
  case unreachable =>
    intro s g m e n manifest listed old shown taken
    exact execBoardMissing_unreachable manifest listed old shown taken
  case moves =>
    intro s g m e sl manifest listed own target elsewhere switched idle up ready
    exact execHouseBoreMove_moves manifest listed own target elsewhere switched idle up ready
  case waits =>
    intro s g m e sl manifest listed own target elsewhere switched held
    exact execHouseBoreMove_waits manifest listed own target elsewhere switched held
  case complete =>
    intro s stage running judged
    exact execDiscoveryComplete_due stage running judged

end Sys2Proof.Machine
end

section
/-! PROOFS. The frame of a step and the tick: the queue (R54-R56), what is visible and the index (R50, R57, R63), the phases and the
boundary (R47-R63), the packets that wait for an intake (R122-R126), the rows that end overrunning steps and drains (R60, R195), the
rows of library alignment (R64-R73, R184), and those of the journal (R91-R100). -/
namespace Sys2Proof.Machine
open Laws Kept

/-! ### What every command leaves (R54, R57, R63, R100) -/

/-- What a command's answer keeps: the queue always, what is visible but for boundaries and resets, and the index but for those and
the start of the control complex. -/
structure Keeps (i : Instr) (s t : State) : Prop where
  queue : t.pending = s.pending
  visible : i ≠ .tickBoundary → isReset i = false → t.vis = s.vis
  index : i ≠ .tickBoundary → isReset i = false → (∀ a b c d, i ≠ .controlStart a b c d) → t.clk.now = s.clk.now

/-- The command answers a next state that keeps what it must. -/
def Answers (i : Instr) (s : State) : Prop := ∃ t, exec i s = .next t ∧ Keeps i s t

/-- An answer whose core has the old queue, view and index. -/
theorem Keeps.of_core {i : Instr} {s t : State} {f : Fuses} {p : Phase} {n : Nat}
    (core : t.core = (s.pending, f, s.vis, s.clk.now, p, n)) : Keeps i s t := by
  simp only [State.core, Prod.mk.injEq] at core
  obtain ⟨queue, -, view, index, -⟩ := core
  exact ⟨queue, fun _ _ => view, fun _ _ _ => index⟩

namespace Answers

variable {i : Instr} {s : State}

theorem of_kept (h : ∃ t, exec i s = .next t ∧ t.core = s.core) : Answers i s :=
  let ⟨t, runs, core⟩ := h
  ⟨t, runs, .of_core core⟩

/-- A phase of the tick, which acts only in its turn. -/
theorem of_stepped {on turn : Prop} {p : Phase} (h : ∃ t, exec i s = .next t ∧
    (t = s ∨ (on ∧ turn ∧ t.core = (s.pending, s.fuses, s.vis, s.clk.now, p, s.ledger.credits)))) : Answers i s := by
  obtain ⟨t, runs, rfl | ⟨-, -, core⟩⟩ := h
  · exact ⟨t, runs, .of_core rfl⟩
  · exact ⟨t, runs, .of_core core⟩

/-- A row of the journal that at most changes the credits. -/
theorem of_credits {P : Nat → Prop} (h : ∃ t, exec i s = .next t ∧
    ∃ n, P n ∧ t.core = (s.pending, s.fuses, s.vis, s.clk.now, s.clk.phase, n)) : Answers i s :=
  let ⟨t, runs, _, _, core⟩ := h
  ⟨t, runs, .of_core core⟩

theorem of_sealed (h : ∃ t, exec i s = .next t ∧ Sealed s t) : Answers i s :=
  let ⟨t, runs, _, _, _, _, core⟩ := h
  ⟨t, runs, .of_core core⟩

theorem of_reset (resets : isReset i = true) {P : State → Prop}
    (h : ∃ t, exec i s = .next t ∧ t.pending = s.pending ∧ P t) : Answers i s :=
  let ⟨t, runs, queue, _⟩ := h
  ⟨t, runs, queue, fun _ other => by simp [resets] at other, fun _ other => by simp [resets] at other⟩

end Answers

/-- A boundary keeps the queue, and the index does not fall. -/
theorem execTickBoundary_rest (s : State) :
    ∃ t, exec .tickBoundary s = .next t ∧ t.pending = s.pending ∧ s.clk.now ≤ t.clk.now := by
  simp only [exec, execTickBoundary]
  split
  · obtain ⟨queue, -, -, index⟩ := boundary_rest s
    exact ⟨_, rfl, queue, index⟩
  · exact ⟨s, rfl, rfl, Nat.le_refl _⟩

/-! #### The start of the control complex (R456) -/

/-- The queue and what is visible stay. -/
structure KeepsView (s t : State) : Prop where
  queue : t.pending = s.pending
  view : t.vis = s.vis

theorem KeepsView.of_core {s t : State} (core : t.core = s.core) : KeepsView s t := by
  simp only [State.core, Prod.mk.injEq] at core
  obtain ⟨queue, -, view, -⟩ := core
  exact ⟨queue, view⟩

theorem KeepsView.trans {a b c : State} (h : KeepsView a b) (g : KeepsView b c) : KeepsView a c :=
  ⟨g.queue.trans h.queue, g.view.trans h.view⟩

theorem KeepsView.updLedger (s : State) (f : Ledger → Ledger) : KeepsView s (s.updLedger f) := ⟨rfl, rfl⟩

theorem reserveRun_keepsView (s : State) (start : Tick) (a : Anchor) (ledA ledB arcA arcB : BusAnswer) :
    KeepsView s (s.reserveRun start a ledA ledB arcA arcB) := by
  have failing : ∀ (u : State) (b : BusAnswer) (d : Dev), KeepsView u (if b = .unwritable then u.failArc d else u) := by
    intro u b d
    split
    · exact .of_core (State_failArc_kept _ _)
    · exact ⟨rfl, rfl⟩
  unfold State.reserveRun
  extract_lets h s1 s2 _ s3 s4 g rec_ a'
  split
  · exact ⟨rfl, rfl⟩
  · exact (((KeepsView.updLedger s _).trans (failing s1 arcA .a)).trans (failing s3 arcB .b)).trans (.updLedger s4 _)

/-- The start of the control complex keeps the queue and what is visible. -/
theorem execControlStart_keepsView (ledA ledB arcA arcB : BusAnswer) (s : State) :
    ∃ t, exec (.controlStart ledA ledB arcA arcB) s = .next t ∧ KeepsView s t := by
  simp only [exec]
  unfold execControlStart
  split
  · exact ⟨s, rfl, rfl, rfl⟩
  · extract_lets s1 s2 heard start a blank lost s3 s4 _ s5 dead s6 _ _ s7 _ s8 s9
    have heardAll : KeepsView s s2 := (KeepsView.updLedger s _).trans (.of_core (State_hearArcs_kept s1 arcA arcB))
    have reserved : KeepsView s2 s4 :=
      ((KeepsView.updLedger s2 _).trans (reserveRun_keepsView s3 start a ledA ledB arcA arcB)).trans (.of_core (State_deriveHouse_kept _))
    have halted : KeepsView s5 s6 := by
      unfold s6
      split
      · exact .of_core (State_fatalOf_kept _ _)
      · exact ⟨rfl, rfl⟩
    have trial : KeepsView s7 s8 := by
      unfold s8
      split <;> exact ⟨rfl, rfl⟩
    have shown : ∀ u : State, KeepsView u ((u.latchRegs.noteRegs u.regs).driveFaultN) := fun u =>
      .of_core ((State_driveFaultN_kept _).trans ((State_noteRegs_kept _ _).trans (State_latchRegs_kept u)))
    have begun : KeepsView s4 s5 := ⟨rfl, rfl⟩
    have staged : KeepsView s6 s7 := ⟨rfl, rfl⟩
    have copied : KeepsView s8 s9 := ⟨rfl, rfl⟩
    exact ⟨_, rfl, (((((((heardAll.trans reserved).trans begun).trans halted).trans staged).trans trial).trans copied).trans
      (shown s9))⟩

/-! #### Every row -/

/-- Every command answers a next state that keeps the queue, and most keep what is visible and the index. -/
theorem exec_answers (i : Instr) (s : State) : Answers i s :=
  match i with
  | .identColophon p => .of_kept (execIdentColophon_kept p s)
  | .identAttest p => .of_kept (execIdentAttest_kept p s)
  | .identCaps p => .of_kept (execIdentCaps_kept p s)
  | .posAssign p => .of_kept (execPosAssign_kept p s)
  | .posLock p => .of_kept (execPosLock_kept p s)
  | .discScan p => .of_kept (execDiscScan_kept p s)
  | .discMap p => .of_kept (execDiscMap_kept p s)
  | .discManifest p => .of_kept (execDiscManifest_kept p s)
  | .quireCarve p => .of_kept (execQuireCarve_kept p s)
  | .quireGrow p => .of_kept (execQuireGrow_kept p s)
  | .quireRelease p => .of_kept (execQuireRelease_kept p s)
  | .quireReset p => .of_kept (execQuireReset_kept p s)
  | .quireStatus p => .of_kept (execQuireStatus_kept p s)
  | .routeSolve p => .of_kept (execRouteSolve_kept p s)
  | .routeInstall p => .of_kept (execRouteInstall_kept p s)
  | .boreOpen p => .of_kept (execBoreOpen_kept p s)
  | .boreClose p => .of_kept (execBoreClose_kept p s)
  | .routeDrainHold p => .of_kept (execRouteDrainHold_kept p s)
  | .routeDrainResume p => .of_kept (execRouteDrainResume_kept p s)
  | .rebindPlan p => .of_kept (execRebindPlan_kept p s)
  | .rebindCommit p => .of_kept (execRebindCommit_kept p s)
  | .rebindStatus p => .of_kept (execRebindStatus_kept p s)
  | .portConfig p => .of_kept (execPortConfig_kept p s)
  | .shaperSet p => .of_kept (execShaperSet_kept p s)
  | .portCounters p => .of_kept (execPortCounters_kept p s)
  | .tableLoad p => .of_kept (execTableLoad_kept p s)
  | .tableRead p => .of_kept (execTableRead_kept p s)
  | .tableActivate p => .of_kept (execTableActivate_kept p s)
  | .redDefine p => .of_kept (execRedDefine_kept p s)
  | .collLaunch p => .of_kept (execCollLaunch_kept p s)
  | .collStatus p => .of_kept (execCollStatus_kept p s)
  | .tileRead p => .of_kept (execTileRead_kept p s)
  | .tileWrite p => .of_kept (execTileWrite_kept p s)
  | .collCancel p => .of_kept (execCollCancel_kept p s)
  | .tenantOpen p => .of_kept (execTenantOpen_kept p s)
  | .installLinkKey p => .of_kept (execInstallLinkKey_kept p s)
  | .retirePrevious p => .of_kept (execRetirePrevious_kept p s)
  | .addTrustRoot p => .of_kept (execAddTrustRoot_kept p s)
  | .removeTrustRoot p => .of_kept (execRemoveTrustRoot_kept p s)
  | .tenantEvict p => .of_kept (execTenantEvict_kept p s)
  | .memScrub p => .of_kept (execMemScrub_kept p s)
  | .ledgerStatus p => .of_kept (execLedgerStatus_kept p s)
  | .ledgerCheckpoint p => .of_kept (execLedgerCheckpoint_kept p s)
  | .ledgerRead p => .of_kept (execLedgerRead_kept p s)
  | .fwDownload p => .of_kept (execFwDownload_kept p s)
  | .fwVerify p => .of_kept (execFwVerify_kept p s)
  | .fwActivate p => .of_kept (execFwActivate_kept p s)
  | .fwConfirm p => .of_kept (execFwConfirm_kept p s)
  | .fwReject p => .of_kept (execFwReject_kept p s)
  | .fwStatus p => .of_kept (execFwStatus_kept p s)
  | .telemSubscribe p => .of_kept (execTelemSubscribe_kept p s)
  | .telemSnapshot p => .of_kept (execTelemSnapshot_kept p s)
  | .powerStatus p => .of_kept (execPowerStatus_kept p s)
  | .powerBudget p => .of_kept (execPowerBudget_kept p s)
  | .chanOpen p => .of_kept (execChanOpen_kept p s)
  | .chanClose p => .of_kept (execChanClose_kept p s)
  | .chanNop p => .of_kept (execChanNop_kept p s)
  | .chanFence p => .of_kept (execChanFence_kept p s)
  | .diagLoop p => .of_kept (execDiagLoop_kept p s)
  | .diagLaneMeasure p => .of_kept (execDiagLaneMeasure_kept p s)
  | .diagLaneResetReference p => .of_kept (execDiagLaneResetReference_kept p s)
  | .cmdTailWrite ch data tail => .of_kept (execCmdTailWrite_kept ch data tail s)
  | .rplHeadWrite ch head => .of_kept (execRplHeadWrite_kept ch head s)
  | .irqStatClear w => .of_kept (execIrqStatClear_kept w s)
  | .irqMaskWrite w => .of_kept (execIrqMaskWrite_kept w s)
  | .rimodeWrite w => .of_kept (execRimodeWrite_kept w s)
  | .mbxDoorbellWrite w => .of_kept (execMbxDoorbellWrite_kept w s)
  | .registerWriteIgnored offset size w => .of_kept (execRegisterWriteIgnored_kept offset size w s)
  | .arpRequestRx port target sender mac => .of_kept (execArpRequestRx_kept port target sender mac s)
  | .arpReplyRx port sender mac => .of_kept (execArpReplyRx_kept port sender mac s)
  | .ethFrameDiscard port why bytes => .of_kept (execEthFrameDiscard_kept port why bytes s)
  | .ethLinkUp port => .of_kept (execEthLinkUp_kept port s)
  | .arpEntryExpiry port addr => .of_kept (execArpEntryExpiry_kept port addr s)
  | .identReqTimer => .of_kept (execIdentReqTimer_kept s)
  | .identRx src msg => .of_kept (execIdentRx_kept src msg s)
  | .setAckRx src msg => .of_kept (execSetAckRx_kept src msg s)
  | .setDoneRx src msg => .of_kept (execSetDoneRx_kept src msg s)
  | .mapRx src msg => .of_kept (execMapRx_kept src msg s)
  | .alarmRx src msg => .of_kept (execAlarmRx_kept src msg s)
  | .setDeadlineExpiry unit => .of_kept (execSetDeadlineExpiry_kept unit s)
  | .dataPacketRx port uncorrectable pkt => .of_kept (execDataPacketRx_kept port uncorrectable pkt s)
  | .linkBeaconRx port uncorrectable pkt => .of_kept (execLinkBeaconRx_kept port uncorrectable pkt s)
  | .tickBeaconRx port uncorrectable phaseError pkt => .of_kept (execTickBeaconRx_kept port uncorrectable phaseError pkt s)
  | .peerReportRx port uncorrectable pkt => .of_kept (execPeerReportRx_kept port uncorrectable pkt s)
  | .coordinateConfirmationRx port uncorrectable pkt => .of_kept (execCoordinateConfirmationRx_kept port uncorrectable pkt s)
  | .tableWriteAckRx port uncorrectable pkt => .of_kept (execTableWriteAckRx_kept port uncorrectable pkt s)
  | .legAckRx port uncorrectable pkt => .of_kept (execLegAckRx_kept port uncorrectable pkt s)
  | .completionReportRx port uncorrectable pkt => .of_kept (execCompletionReportRx_kept port uncorrectable pkt s)
  | .counterReportRx port uncorrectable pkt => .of_kept (execCounterReportRx_kept port uncorrectable pkt s)
  | .retrainRequestRx port uncorrectable pkt => .of_kept (execRetrainRequestRx_kept port uncorrectable pkt s)
  | .libraryClaimRx port claim => .of_kept (execLibraryClaimRx_kept port claim s)
  | .quireAnnouncementRx port ann => .of_kept (execQuireAnnouncementRx_kept port ann s)
  | .spdmMessageRx peer msg done good => .of_kept (execSpdmMessageRx_kept peer msg done good s)
  | .keyMessageAnswerRx peer msg => .of_kept (execKeyMessageAnswerRx_kept peer msg s)
  | .tickBoundary => let ⟨t, runs, queue, _⟩ := execTickBoundary_rest s
    ⟨t, runs, queue, fun other => absurd rfl other, fun other => absurd rfl other⟩
  | .workPhase => .of_stepped (execWorkPhase_core s)
  | .stepOverrun task => .of_kept (execStepOverrun_kept task s)
  | .dronePhase sample => .of_stepped (execDronePhase_core sample s)
  | .sealPhase => .of_stepped (execSealPhase_core s)
  | .drainTimeout q => .of_kept (execDrainTimeout_kept q s)
  | .tickReservationRaise => .of_kept (execTickReservationRaise_kept s)
  | .reservationExhausted => .of_kept (execReservationExhausted_kept s)
  | .creditRefill => .of_credits (execCreditRefill_core s)
  | .journalWriteStart => .of_credits (execJournalWriteStart_core s)
  | .folioWriteDone matched => .of_sealed (execFolioWriteDone_core matched s)
  | .checkpointTimer => .of_kept (execCheckpointTimer_kept s)
  | .checkpointStart => .of_kept (execCheckpointStart_kept s)
  | .checkpointCopyDone dev verified => .of_kept (execCheckpointCopyDone_kept dev verified s)
  | .laneMarginSample sample => .of_kept (execLaneMarginSample_kept sample s)
  | .rstNAssert ns => .of_reset rfl (execRstNAssert_rest ns s)
  | .pwrGoodDeassert ns => .of_reset rfl (execPwrGoodDeassert_rest ns s)
  | .perstNAssert ns => .of_kept (execPerstNAssert_kept ns s)
  | .bringUpStart straps => .of_kept (execBringUpStart_kept straps s)
  | .rotRomDone romOk fusesOk => .of_kept (execRotRomDone_kept romOk fusesOk s)
  | .fwVerifyStageDone anchorWritable => .of_kept (execFwVerifyStageDone_kept anchorWritable s)
  | .controlStart ledA ledB arcA arcB => let ⟨t, runs, queue, view⟩ := execControlStart_keepsView ledA ledB arcA arcB s
    ⟨t, runs, queue, fun _ _ => view, fun _ _ other => absurd rfl (other ledA ledB arcA arcB)⟩
  | .clusterWaveStart w => .of_kept (execClusterWaveStart_kept w s)
  | .clusterSelftestDone rc passed => .of_kept (execClusterSelftestDone_kept rc passed s)
  | .restoreDone => .of_credits (execRestoreDone_core s)
  | .hbmTrainDone trained ids => .of_kept (execHbmTrainDone_kept trained ids s)
  | .memTestDone findings => .of_kept (execMemTestDone_kept findings s)
  | .leafZeroDone => .of_kept (execLeafZeroDone_kept s)
  | .laneTrainDone => .of_kept (execLaneTrainDone_kept s)
  | .discoveryComplete => .of_kept (execDiscoveryComplete_kept s)
  | .entropyReady ms => .of_kept (execEntropyReady_kept ms s)
  | .entropyHealthFail => .of_kept (execEntropyHealthFail_kept s)
  | .drbgReseed => .of_kept (execDrbgReseed_kept s)
  | .scanRoundEnd plane => .of_kept (execScanRoundEnd_kept plane s)
  | .uplinkSilent c uplink => .of_kept (execUplinkSilent_kept c uplink s)
  | .boardMissing g => .of_kept (execBoardMissing_kept g s)
  | .houseBoreMove g => .of_kept (execHouseBoreMove_kept g s)
  | .portLinkEvent port event => .of_kept (execPortLinkEvent_kept port event s)
  | .lstTimerExpiry port => .of_kept (execLstTimerExpiry_kept port s)
  | .elsAlarm fau => .of_kept (execElsAlarm_kept fau s)
  | .pathMaskClear q g h path => .of_kept (execPathMaskClear_kept q g h path s)
  | .scheduledDiagLane e => .of_kept (execScheduledDiagLane_kept e s)
  | .diagLaneEnd e lanes uncorrectable reportsMissing => .of_kept (execDiagLaneEnd_kept e lanes uncorrectable reportsMissing s)
  | .joinStep leader leaderIndex delta => .of_kept (execJoinStep_kept leader leaderIndex delta s)
  | .indexJump => .of_kept (execIndexJump_kept s)
  | .periodSwitch => .of_kept (execPeriodSwitch_kept s)
  | .leaderTimeout => .of_kept (execLeaderTimeout_kept s)
  | .alignmentLost => .of_kept (execAlignmentLost_kept s)
  | .fsyncEdge error => .of_kept (execFsyncEdge_kept error s)
  | .claimTimeout port => .of_kept (execClaimTimeout_kept port s)
  | .shadowWriteRetry c q => .of_kept (execShadowWriteRetry_kept c q s)
  | .multicastHorizon q seq => .of_kept (execMulticastHorizon_kept q seq s)
  | .retryHorizon q tag item => .of_kept (execRetryHorizon_kept q tag item s)
  | .tagCloseEnd q tag => .of_kept (execTagCloseEnd_kept q tag s)
  | .launchMatchTimeout q tag => .of_kept (execLaunchMatchTimeout_kept q tag s)
  | .workItemDone q tag item rc outcome => .of_kept (execWorkItemDone_kept q tag item rc outcome s)
  | .tileZeroDone q => .of_kept (execTileZeroDone_kept q s)
  | .rebindCopyDone q uncorrectable => .of_kept (execRebindCopyDone_kept q uncorrectable s)
  | .rebindVerifyTimeout q => .of_kept (execRebindVerifyTimeout_kept q s)
  | .resetConfirmTimeout q => .of_kept (execResetConfirmTimeout_kept q s)
  | .evictBound q => .of_kept (execEvictBound_kept q s)
  | .scrubDone leaves => .of_kept (execScrubDone_kept leaves s)
  | .patrolScrub corrected => .of_kept (execPatrolScrub_kept corrected s)
  | .hbmEccError leaf addr => .of_kept (execHbmEccError_kept leaf addr s)
  | .keyMessageTimeout peer q => .of_kept (execKeyMessageTimeout_kept peer q s)
  | .houseSessionStart peer => .of_kept (execHouseSessionStart_kept peer s)
  | .houseSessionRetry peer => .of_kept (execHouseSessionRetry_kept peer s)
  | .pwrWarnRecognised => .of_kept (execPwrWarnRecognised_kept s)
  | .pwrWarnPulseIgnored => .of_kept (execPwrWarnPulseIgnored_kept s)
  | .pwrWarnDeassert => .of_kept (execPwrWarnDeassert_kept s)
  | .resumption => .of_kept (execResumption_kept s)
  | .pmbusPoll readings => .of_kept (execPmbusPoll_kept readings s)
  | .pmbusReprobe unit answered => .of_kept (execPmbusReprobe_kept unit answered s)
  | .pmbAlert => .of_kept (execPmbAlert_kept s)
  | .clusterClockStep => .of_kept (execClusterClockStep_kept s)
  | .budgetCeilingRise => .of_kept (execBudgetCeilingRise_kept s)
  | .thermalCeilingRise => .of_kept (execThermalCeilingRise_kept s)
  | .thermalTrip => .of_kept (execThermalTrip_kept s)
  | .fatalFault cause => .of_kept (execFatalFault_kept cause s)
  | .confirmWindowExpiry => .of_kept (execConfirmWindowExpiry_kept s)
  | .fwReset => .of_reset rfl (execFwReset_rest s)
  | .ringEntry offer => .of_kept (execRingEntry_kept offer s)
  | .ringEjectArrival fabric frag => .of_kept (execRingEjectArrival_kept fabric frag s)
  | .portSend port => .of_kept (execPortSend_kept port s)
  | .uncorrectableCodeword port packets => .of_kept (execUncorrectableCodeword_kept port packets s)
  | .firstStartDisagreement port => .of_kept (execFirstStartDisagreement_kept port s)
  | .slotEccError ring dir stop pkt double => .of_kept (execSlotEccError_kept ring dir stop pkt double s)
  | .degradedModeLeft => .of_kept (execDegradedModeLeft_kept s)
  | .imageCheckDone => .of_kept (execImageCheckDone_kept s)
  | .archiveWriteDone dev verified => .of_kept (execArchiveWriteDone_kept dev verified s)
  | .otpBurnDone programmed => let ⟨t, runs, _, _, _, core⟩ := execOtpBurnDone_core programmed s
    ⟨t, runs, .of_core core⟩
  | .spdmResponse rsp failed sessionUp sessionDown peerCert => .of_kept (execSpdmResponse_kept rsp failed sessionUp sessionDown peerCert s)
  | .perstNDeassert => .of_kept (execPerstNDeassert_kept s)
  | .configurationRequest r => .of_kept (execConfigurationRequest_kept r s)
  | .jtagInstruction x => .of_kept (execJtagInstruction_kept x s)

/-- A next state of a command keeps what it must. -/
theorem exec_keeps {i : Instr} {s t : State} (runs : exec i s = .next t) : Keeps i s t := by
  obtain ⟨u, next, kept⟩ := exec_answers i s
  rw [runs] at next
  cases next
  exact kept

/-- Settles O3: no row of the table touches the queue. -/
theorem commandsKeepTheQueue : Obligations.CommandsKeepTheQueue := fun _ _ _ runs => (exec_keeps runs).queue

/-- Settles O39: only the boundary publishes, and only resets of the whole director discard. -/
theorem visibleChangesAtBoundaries : Obligations.VisibleChangesAtBoundaries :=
  fun _ _ _ other running runs => (exec_keeps runs).visible other running

/-! ### The boundary and the index (R50, R57, R63, R100) -/

/-- A boundary that a reservation covers (R50, R100). -/
theorem execTickBoundary_covered {s : State} (run : s.clk.running = true) (turn : s.clk.phase = .seal)
    (covered : s.nextNow < s.reservation) : ∃ t : State, exec .tickBoundary s = .next t ∧
      calm t = (s.pending, s.fuses, s.stg.still, s.nextNow, .intake, s.ledger.credits) :=
  ⟨s.boundary, by simp [exec, execTickBoundary, run, turn], boundary_below s covered⟩

/-- Settles O40: the table of what commands keep, and what a boundary does to the index. -/
theorem theIndexNeverDecreases : Obligations.TheIndexNeverDecreases := by
  unfold Obligations.TheIndexNeverDecreases
  refine ⟨fun i s t other running start runs => (exec_keeps runs).index other running start, ?notBack, ?forward⟩
  case notBack =>
    intro s t runs
    obtain ⟨u, next, -, index⟩ := execTickBoundary_rest s
    rw [runs] at next
    cases next
    exact index
  case forward =>
    intro s t runs run turn covered
    obtain ⟨u, next, published⟩ := execTickBoundary_covered run turn covered
    rw [runs] at next
    cases next
    simp only [calm, Prod.mk.injEq] at published
    obtain ⟨-, -, -, index, -⟩ := published
    rw [index]
    exact Nat.lt_of_succ_le (Nat.le_max_right _ _)

/-- Settles O38: what a boundary renews lies outside the ledgered state and outside the still part of the rest. -/
theorem boundaryPublishes : Obligations.BoundaryPublishes := by
  unfold Obligations.BoundaryPublishes
  intro s run turn covered
  obtain ⟨t, runs, published⟩ := execTickBoundary_covered run turn covered
  simp only [calm, Prod.mk.injEq] at published
  obtain ⟨-, -, view, index, phase, -⟩ := published
  have ledgered : t.vis.still.led = s.stg.still.led := by rw [view]
  exact ⟨t, runs, ledgered, view, phase, index⟩

/-! ### The queue and the phases (R47, R54, R58-R62) -/

/-- Settles O1: the two cases of the step. -/
theorem frontCommandRuns : Obligations.FrontCommandRuns := by
  unfold Obligations.FrontCommandRuns
  exact ⟨fun c rest s front => by simp [step, front], fun s idle => by simp [step, idle]⟩

/-- The core of a state that has only gone on to another phase of its tick. -/
def State.coreIn (s : State) (p : Phase) : List Instr × Fuses × Fabric × Tick × Phase × Nat :=
  (s.pending, s.fuses, s.vis, s.clk.now, p, s.ledger.credits)

theorem phase_of_coreIn {s t : State} {p : Phase} (core : t.core = s.coreIn p) :
    t.clk.phase = p ∧ t.vis = s.vis ∧ t.clk.now = s.clk.now := by
  simp only [State.core, State.coreIn, Prod.mk.injEq] at core
  obtain ⟨-, -, view, index, phase, -⟩ := core
  exact ⟨phase, view, index⟩

theorem core_withPhase (u : State) (p : Phase) : ({ u with clk := { u.clk with phase := p } } : State).core = u.coreIn p := rfl

theorem coreIn_of_core {s u : State} {p : Phase} (core : u.core = s.core) : u.coreIn p = s.coreIn p := by
  simp only [State.core, Prod.mk.injEq] at core
  obtain ⟨queue, fuses, view, index, -, credits⟩ := core
  simp only [State.coreIn, queue, fuses, view, index, credits]

/-- In its turn the work phase begins (R58). -/
theorem execWorkPhase_begins {s : State} (run : s.clk.running = true) (turn : s.clk.phase = .intake) :
    ∃ t, exec .workPhase s = .next t ∧ t.core = s.coreIn .work := by
  simp only [exec]
  unfold execWorkPhase
  rw [if_neg (by simp [run, turn])]
  extract_lets ended _ begun worked
  have begins : begun.core = s.coreIn .work :=
    (core_withPhase ended .work).trans (coreIn_of_core ((State_closeDue_kept _).trans (State_endIntake_kept _)))
  clear_value begun
  split
  · exact ⟨_, rfl, begins⟩
  · refine ⟨_, rfl, ?_⟩
    simp only [worked, State_nextChanges_kept, State_moveHouses_kept, State_workTasks_kept, State_lstAll_kept,
      State_resolveClaims_kept, State_joinLate_kept]
    exact begins

/-- In its turn the drone phase begins, and ends with its sample (R62, R232). -/
theorem execDronePhase_samples {s : State} (run : s.clk.running = true) (turn : s.clk.phase = .work) (x : SensorSample) :
    ∃ u : State, exec (.dronePhase x) s = .next u.sampleMirror ∧ u.core = s.coreIn .drone := by
  simp only [exec]
  unfold execDronePhase
  rw [if_neg (by simp [run, turn])]
  extract_lets _ begun sensed
  have begins : begun.core = s.coreIn .drone := core_withPhase s .drone
  have senses : sensed.core = s.coreIn .drone := by
    simp only [sensed, State_samplePorts_kept, State_senseHeat_kept, State_sensePower_kept, begins]
  split
  · exact ⟨sensed, rfl, senses⟩
  · refine ⟨_, rfl, ?_⟩
    simp only [State_slewOnce_kept, State_buildAnchor_kept, State_buildGroups_kept, State_raiseNonces_kept,
      State_fecEvents_kept, senses]

/-- In its turn the seal phase begins (R62). -/
theorem execSealPhase_begins {s : State} (run : s.clk.running = true) (turn : s.clk.phase = .drone) :
    ∃ t, exec .sealPhase s = .next t ∧ t.core = s.coreIn .seal := by
  simp only [exec]
  unfold execSealPhase
  rw [if_neg (by simp [run, turn])]
  extract_lets k a b c d
  have latched : b.core = s.coreIn .seal := (State_latchRings_kept a).trans (core_withPhase s .seal)
  have audited : c.core = b.core := by
    unfold c
    split
    · rfl
    · simp only [State_audit_kept, State_joinLate_kept]
  have decided : d.core = c.core := by
    unfold d
    split
    · rfl
    · simp only [State_sendClaims_kept, State_sendChanges_kept, State_sealAll_kept]
  exact ⟨_, rfl, (State_postSeal_kept d).trans (decided.trans (audited.trans latched))⟩

/-- Settles O37, phase by phase; a row out of its turn is refused by its own guard. -/
theorem phasesTakeTurns : Obligations.PhasesTakeTurns := by
  unfold Obligations.PhasesTakeTurns
  refine ⟨?work, ?drone, ?sealing, ?notWork, ?notDrone, ?notSeal, ?notBoundary⟩
  case work =>
    intro s run turn
    obtain ⟨t, runs, core⟩ := execWorkPhase_begins run turn
    exact ⟨t, runs, phase_of_coreIn core⟩
  case drone =>
    intro s x run turn
    obtain ⟨u, runs, core⟩ := execDronePhase_samples run turn x
    obtain ⟨phase, view, index⟩ := phase_of_coreIn core
    exact ⟨_, runs, phase, view, index, index, rfl, rfl⟩
  case sealing =>
    intro s run turn
    obtain ⟨t, runs, core⟩ := execSealPhase_begins run turn
    exact ⟨t, runs, phase_of_coreIn core⟩
  case notWork => intro s turn; simp [exec, execWorkPhase, turn]
  case notDrone => intro s x turn; simp [exec, execDronePhase, turn]
  case notSeal => intro s turn; simp [exec, execSealPhase, turn]
  case notBoundary => intro s turn; simp [exec, execTickBoundary, turn]

/-! ### Packets whose turn has not come (R54, R122, R126, R139) -/

/-- Every row that is a command packet presents it with its opcode. -/
theorem exec_packet {i : Instr} {op : Nat} {p : Pkt} (packet : i.packet = some (op, p)) (s : State) :
    ∃ h, exec i s = .next (s.present op h p) := by
  cases i <;> cases packet <;> exact ⟨_, rfl⟩

/-- A packet that the intake has not reached is delivered. -/
theorem exec_packet_waits {i : Instr} {op : Nat} {p : Pkt} {s : State} (packet : i.packet = some (op, p))
    (early : s.readsNow op p = false) : exec i s = .next (s.delivered op p) := by
  obtain ⟨h, runs⟩ := exec_packet packet s
  simpa [State.present, early] using runs

theorem delivered_mailbox {p : Pkt} (way : p.transport = .mailbox) (s : State) (op : Nat) :
    s.delivered op p = s.inserted op p := by
  simp [State.delivered, way]

theorem delivered_eth0 {p : Pkt} (way : p.transport = .eth0) (s : State) (op : Nat) :
    s.delivered op p = s.datagram op p := by
  simp [State.delivered, way]

theorem datagram_lost {s : State} (off : s.takesPackets = false) (op : Nat) (p : Pkt) : s.datagram op p = s := by
  simp [State.datagram, off]

/-- A datagram that fits its frame is counted and waits with its channel. -/
theorem datagram_waits {s : State} {p : Pkt} (on : s.takesPackets = true) (fits : p.params.length ≤ 9154) (op : Nat) :
    ∃ e, s.datagram op p = ({ s with eth0 := e } : State).updChan p.chan
      fun ch => { ch with waiting := ch.waiting ++ [(op, p)] } := by
  have frame : ¬ 9216 < 62 + p.params.length := by omega
  exact ⟨_, by simp only [State.datagram, on, frame, Bool.not_true, if_false]; rfl⟩

/-- A datagram whose frame would pass 9,216 bytes is only counted. -/
theorem datagram_oversize {s : State} {p : Pkt} (on : s.takesPackets = true) (large : 9154 < p.params.length) (op : Nat) :
    ∃ e, s.datagram op p = { s with eth0 := e } := by
  have frame : 9216 < 62 + p.params.length := by omega
  exact ⟨_, by simp only [State.datagram, on, frame, Bool.not_true, if_true]; rfl⟩

/-- Settles O59: by the packet's transport, and for a datagram by its length. -/
theorem packetsWaitForIntake : Obligations.PacketsWaitForIntake := by
  unfold Obligations.PacketsWaitForIntake
  intro i op p s packet early
  rw [exec_packet_waits packet early]
  refine ⟨fun way => ?mailbox, fun way on fits => ?waits, fun way on large => ?oversize, fun way off => ?lost⟩
  case mailbox => rw [delivered_mailbox way]
  case waits =>
    obtain ⟨e, waits⟩ := datagram_waits on fits op
    rw [delivered_eth0 way, waits]
    exact ⟨_, rfl, fun c other => modAt_getD_other _ _ _ _ _ other, fun inside => modAt_getD_self _ _ _ _ inside, rfl⟩
  case oversize =>
    obtain ⟨e, counted⟩ := datagram_oversize on large op
    rw [delivered_eth0 way, counted]
    exact ⟨_, rfl, rfl⟩
  case lost => rw [delivered_eth0 way, datagram_lost off]

/-! ### Frames of the shared operations

What fault entries, replies and control packets touch: each operation as a change of a few fields of the state. -/

/-- A history record goes into the ledger alone (R94, R97). -/
theorem stageHist_frame (s : State) (h : HistRec) (n : Nat) : ∃ g, s.stageHist h n = { s with ledger := g } := by
  unfold State.stageHist
  split
  · exact ⟨s.ledger, rfl⟩
  · split <;> exact ⟨_, rfl⟩

/-- A fault entry is kept, counted, journaled and signalled (R359, R363, R364, R383). -/
theorem addFault_frame (s : State) (e : FaultEntry) : ∃ fns g i, s.addFault e =
    { s with faults := { s.faults with fns := fns, entries := lastN 256 (insertFault e s.faults.entries) }
             ledger := g, irq := i } := by
  unfold State.addFault
  extract_lets f s1 s2
  obtain ⟨g, staged⟩ := stageHist_frame s1 (.fault e) 1
  rw [show s2 = _ from staged]
  split
  · exact ⟨_, _, _, rfl⟩
  · split <;> exact ⟨_, _, _, rfl⟩

theorem addFault_entries (s : State) (e : FaultEntry) :
    (s.addFault e).faults.entries = lastN 256 (insertFault e s.faults.entries) := by
  obtain ⟨fns, g, i, frame⟩ := addFault_frame s e
  rw [frame]

theorem fault_frame (s : State) (cls fn object : Nat) :
    ∃ f g i, s.fault cls fn object = { s with faults := f, ledger := g, irq := i } := by
  obtain ⟨fns, g, i, frame⟩ := addFault_frame s (.plain s.now cls fn 0 object)
  exact ⟨_, g, i, frame⟩

theorem lasting_frame (s : State) (fn object : Nat) :
    ∃ f g i, s.lasting fn object = { s with faults := f, ledger := g, irq := i } := by
  obtain ⟨f, g, i, frame⟩ := fault_frame s 2 fn object
  unfold State.lasting
  rw [frame]
  exact ⟨_, g, i, rfl⟩

/-! #### Replies -/

theorem Near.boot {s t : State} (h : Near s t) : t.boot = s.boot := by
  obtain ⟨_, _, _, rfl⟩ := h
  rfl

theorem Near.refl (s : State) : Near s s := ⟨s.chans, s.eth0, s.irq, rfl⟩

/-- A posted reply changes its channel, the management port or an interrupt (R122, R125). -/
theorem near_post (s : State) (r : Reply) : Near s (s.post r) := by
  have latest : Near s (s.updChan r.chan fun ch => ch.latest r true) := near_updChan _ _ _
  unfold State.post
  extract_lets s1 bytes out _ ch raise s2
  split
  · exact latest.trans ⟨_, _, _, rfl⟩
  · split
    · have written : Near s s2 := latest.trans (near_updChan s1 _ _)
      split
      · exact written.trans ⟨_, _, _, rfl⟩
      · exact written
    · exact latest

theorem near_postAll (s : State) (l : List Reply) : Near s (s.postAll l).1 := by
  induction l generalizing s with
  | nil => exact .refl s
  | cons r l ih =>
    unfold State.postAll
    split
    · exact (near_post s r).trans (ih _)
    · exact .refl s

theorem near_flushSeal (s : State) (c : Nat) : Near s (s.flushSeal c) :=
  (((near_updChan s _ _).trans (near_updChan _ _ _)).trans (near_postAll _ _)).trans (near_updChan _ _ _)

theorem near_queueSeal (s : State) (r : Reply) : Near s (s.queueSeal r) := by
  unfold State.queueSeal
  extract_lets s1
  split
  · exact (near_updChan s _ _).trans (near_flushSeal s1 _)
  · exact near_updChan s _ _

theorem near_failCmd (s : State) (i : Option CmdIdent) (st : Status) (res : List Byte) (retry : Nat) :
    Near s (s.failCmd i st res retry) := by
  unfold State.failCmd
  split
  · exact near_queueSeal _ _
  · exact .refl s

theorem near_completeCmd (s : State) (i : Option CmdIdent) (st : Status) (res : List Byte) (retry : Nat) :
    Near s (s.completeCmd i st res retry) := by
  unfold State.completeCmd
  split
  · exact near_updChan _ _ _
  · exact .refl s

/-! #### Ending operations -/

theorem failTask_boot (s : State) (t : Task) (st : Status) (res : List Byte) : (s.failTask t st res).boot = s.boot :=
  (near_failCmd (s.dropTask t.id) _ _ _ _).boot

theorem endTask_boot (s : State) (t : Task) (st : Status) (res : List Byte) : (s.endTask t st res).boot = s.boot :=
  (near_completeCmd (s.dropTask t.id) _ _ _ _).boot

theorem scramble_boot (leaves : List Nat) (l : List (Nat × Nat)) (s : State) : (s.scramble leaves l).boot = s.boot := by
  induction l generalizing s with
  | nil => rfl
  | cons x l ih => exact ih _

theorem endOp_boot (s : State) (o : Op) (st : Status) : (s.endOp o st).boot = s.boot := by
  unfold State.endOp
  extract_lets fails s1 s2
  have filled : s2.boot = s.boot := by
    unfold s2
    split
    · split
      · exact scramble_boot _ _ s1
      · rfl
    · rfl
  split
  · split
    · exact (failTask_boot _ _ _ _).trans filled
    · exact (endTask_boot _ _ _ _).trans filled
  · exact filled

theorem failOp_boot (s : State) (o : Op) (st : Status) : (s.failOp o st).boot = s.boot := by
  unfold State.failOp
  extract_lets s1
  split
  · exact endOp_boot s o st
  · exact endOp_boot s o st

theorem failOps_boot (l : List Op) (st : Status) (s : State) :
    (l.foldl (fun s o => s.failOp o st) s).boot = s.boot := by
  induction l generalizing s with
  | nil => rfl
  | cons o l ih => exact (ih _).trans (failOp_boot s o st)

theorem suspect_boot (s : State) (e : Element) : (s.suspect e).boot = s.boot := by
  unfold State.suspect
  split <;> rfl

/-! #### Control packets -/

/-- Only the count of control packets and the ports differ: what sending control packets changes (R210). -/
def CtlOnly (s t : State) : Prop := ∃ n ps, t = { s with clk := { s.clk with ctlCount := n }, ports := ps }

theorem CtlOnly.refl (s : State) : CtlOnly s s := ⟨s.clk.ctlCount, s.ports, rfl⟩

theorem CtlOnly.trans {a b c : State} (h : CtlOnly a b) (g : CtlOnly b c) : CtlOnly a c := by
  obtain ⟨_, _, rfl⟩ := h
  obtain ⟨_, _, rfl⟩ := g
  exact ⟨_, _, rfl⟩

theorem CtlOnly.fold {α : Type} {f : State → α → State} (each : ∀ s x, CtlOnly s (f s x)) (l : List α) (s : State) :
    CtlOnly s (l.foldl f s) := by
  induction l generalizing s with
  | nil => exact .refl s
  | cons x l ih => exact (each s x).trans (ih _)

theorem CtlOnly.lib {s t : State} (h : CtlOnly s t) : t.lib = s.lib := by
  obtain ⟨_, _, rfl⟩ := h
  rfl

theorem sendCtl_ctlOnly (s : State) (kind : Nat) (dst : Coord) (body : List Byte) : CtlOnly s (s.sendCtl kind dst body) := by
  unfold State.sendCtl
  split
  · split
    · exact .refl s
    · exact ⟨_, _, rfl⟩
  · exact .refl s

theorem sendCtls_ctlOnly (s : State) (kind : Nat) (dsts : List Coord) (body : List Byte) :
    CtlOnly s (s.sendCtls kind dsts body) :=
  .fold (fun s c => sendCtl_ctlOnly s kind c body) dsts s

theorem announceAll_ctlOnly (s : State) : CtlOnly s s.announceAll := by
  refine .fold (fun s q => ?_) _ s
  split
  · exact .refl s
  · exact sendCtls_ctlOnly _ _ _ _

/-! ### Overrunning steps and drains past their bound (R60, R195, R367) -/

theorem mem_insertFault_self (e : FaultEntry) (l : List FaultEntry) : e ∈ insertFault e l := by
  induction l with
  | nil => exact List.mem_singleton_self e
  | cons x l ih =>
    unfold insertFault
    split
    · exact List.mem_cons_self
    · exact List.mem_cons_of_mem _ ih

theorem insertFault_length (e : FaultEntry) (l : List FaultEntry) : (insertFault e l).length = l.length + 1 := by
  induction l with
  | nil => rfl
  | cons x l ih =>
    unfold insertFault
    split
    · rfl
    · simp [ih]

/-- A new entry is among the last 256 while there is room for it (R364). -/
theorem mem_lastN_insertFault {l : List FaultEntry} (room : l.length < 256) (e : FaultEntry) :
    e ∈ lastN 256 (insertFault e l) := by
  have whole : (insertFault e l).length - 256 = 0 := by
    rw [insertFault_length]
    omega
  simpa [lastN, whole] using mem_insertFault_self e l

@[simp] theorem taskEntry_cls (t : Task) (now : Tick) (cls fn object : Nat) (st : Option Status) :
    (taskEntry t now cls fn object st).cls = cls := by
  unfold taskEntry
  extract_lets e
  split <;> rfl

@[simp] theorem taskEntry_fn (t : Task) (now : Tick) (cls fn object : Nat) (st : Option Status) :
    (taskEntry t now cls fn object st).fn = fn := by
  unfold taskEntry
  extract_lets e
  split <;> rfl

section
variable {s : State} {n : Nat} {t : Task} (found : s.task n = some t) (stepped : t.kind.stepped = true)
  (running : t.skip = false) (alive : s.faults.fatal = none)
include found stepped running alive

theorem execStepOverrun_first (first : t.overran = false) :
    exec (.stepOverrun n) s = .next (s.updTask n fun t => { t with overran := true, skip := true }) := by
  simp [exec, execStepOverrun, found, stepped, running, alive, first]

/-- A step that overruns again is a lasting fault of the scheduler, whose entry is recorded (R60, R367). -/
theorem execStepOverrun_again (again : t.overran = true) :
    ∃ u : State, exec (.stepOverrun n) s = .next (u.taskDropped t .lastingFault) ∧
      u.faults.entries = lastN 256 (insertFault (taskEntry t s.now 2 0x01 t.opcode (some .lastingFault)) s.faults.entries) ∧
      u.faults.slowStep = some (t.opcode, 0) := by
  simp only [exec]
  unfold execStepOverrun
  rw [found]
  dsimp only
  rw [if_neg (by simp [stepped, running, alive]), if_neg (by simp [again])]
  exact ⟨_, rfl, addFault_entries _ _, rfl⟩

end

/-- The only task is a drain hold whose bound has passed: it ends, and admission resumes (R195). -/
theorem execDrainTimeout_hold {s : State} {t : Task} {d : Drain} (only : s.tasks = [t]) (kind : t.kind = .drainHold d)
    (past : d.expired = true) :
    exec (.drainTimeout t.quire) s = .next ((s.failTask t .drainTimeout []).resumeAdmission t.quire (s.now + 1)) := by
  simp [exec, execDrainTimeout, only, State.drainOut, kind, past]

/-- Settles O41: the first overrun, the second, and the drain. -/
theorem stepsAndDrainsTimeOut : Obligations.StepsAndDrainsTimeOut := by
  unfold Obligations.StepsAndDrainsTimeOut
  refine ⟨?first, ?again, ?drain⟩
  case first =>
    intro s n t found stepped running alive first
    exact execStepOverrun_first found stepped running alive first
  case again =>
    intro s n t found stepped running alive again
    obtain ⟨u, runs, entries, slow⟩ := execStepOverrun_again found stepped running alive again
    refine ⟨u, taskEntry t s.now 2 0x01 t.opcode (some .lastingFault), runs, fun room => ?_, taskEntry_cls .., taskEntry_fn .., slow⟩
    rw [entries]
    exact mem_lastN_insertFault room _
  case drain =>
    intro s q t d only quire kind past
    subst quire
    exact execDrainTimeout_hold only kind past

/-! ### The rows of library alignment (R48, R65-R73, R184) -/

theorem execLeaderTimeout_elects {s : State} (follows : s.lib.leader ≠ s.volume) (silent : s.sourceFor s.lib.leader = none) :
    exec .leaderTimeout s = .next s.elect := by
  simp [exec, execLeaderTimeout, follows, silent]

/-! #### The join step (R68) -/

/-- Back in the library, the alignment's degraded mode ends with a fault entry (R367). -/
theorem rejoined_frame (s : State) : ∃ f g i,
    s.rejoined = { s with lib := { s.lib with lost := false }, faults := f, ledger := g, irq := i } := by
  unfold State.rejoined
  split
  · obtain ⟨f, g, i, frame⟩ :=
      fault_frame (({ s with lib := { s.lib with lost := false } } : State).setDegraded 8 false) 5 0x08 s.lib.leader
    exact ⟨f, g, i, frame⟩
  · next found =>
    have kept : s.lib = { s.lib with lost := false } := by
      rw [← Bool.eq_false_iff.mpr found]
    exact ⟨s.faults, s.ledger, s.irq, congrArg (fun l => { s with lib := l }) kept⟩

/-- After a join step the director follows its leader, and the next boundary takes the index and the slew. -/
theorem joinStep_takes (s : State) (leader i delta : Nat) :
    (s.joinStep leader i delta).lib.align = 2 ∧ (s.joinStep leader i delta).clk.nextIndex = some i ∧
      (s.joinStep leader i delta).clk.slew = delta ∧ (s.joinStep leader i delta).lib.lost = false := by
  unfold State.joinStep
  extract_lets was _ s1 p hops _ _ s2 s3
  have align : s2.lib.align = 2 := rfl
  have index : s2.clk.nextIndex = some i := rfl
  have slew : s2.clk.slew = delta := rfl
  have told : CtlOnly s2 s3 := by
    unfold s3
    generalize p = period
    cases period with
    | some p => exact sendCtls_ctlOnly _ _ _ _
    | none => exact .refl _
  clear_value s3 s2
  obtain ⟨f, g, irq, back⟩ := rejoined_frame s3
  obtain ⟨n, ps, announced⟩ := announceAll_ctlOnly s3.rejoined
  obtain ⟨m, qs, rfl⟩ := told
  rw [announced, back]
  exact ⟨align, index, slew, rfl⟩

/-- A join step of the director alone, which is due. -/
theorem execJoinStep_single {s : State} {leader i delta : Nat} (run : s.clk.running = true) (joining : s.lib.align = 1)
    (toward : s.lib.leader = leader) (alone : s.mergeDue leader = none) (short : delta < s.clk.period)
    (covered : max i (s.now + 1) < s.reservation) :
    exec (.joinStep leader i delta) s = .next (s.joinStep leader (max i (s.now + 1)) delta) := by
  have within : ¬ s.clk.period ≤ delta := Nat.not_le.mpr short
  have reserved : ¬ s.reservation ≤ max i (s.now + 1) := Nat.not_le.mpr covered
  simp only [exec, execJoinStep, run, joining, toward, alone, Option.getD_none, Nat.max_zero, within, reserved]
  rfl

/-! #### Announced changes of the index and the period (R48, R68) -/

theorem execIndexJump_due {s : State} {n v : Tick} (jump : s.lib.jump = some (n, v)) (run : s.clk.running = true)
    (aligned : s.lib.align ≠ 1) (due : n ≤ s.now + 1) (covered : v < s.reservation) :
    exec .indexJump s = .next { s with lib := { s.lib with jump := none }
                                       clk := { s.clk with nextIndex := some (max v (s.now + 1)) } } := by
  simp [exec, execIndexJump, jump, run, aligned, due, covered]

theorem execPeriodSwitch_due {s : State} {p : Nat} {n : Tick} (announced : s.clk.announced = some (p, n))
    (run : s.clk.running = true) (due : n ≤ s.clk.nextIndex.getD (s.now + 1)) :
    exec .periodSwitch s = .next { s with clk := { s.clk with announced := none, nextPeriod := some p } } := by
  simp [exec, execPeriodSwitch, announced, run, due]

/-! #### Lost alignment (R70) -/

/-- A director that leads announces a period, if any, in control packets. -/
theorem newPeriod_lib (s : State) (p : Nat) : (s.newPeriod p).lib = s.lib := by
  unfold State.newPeriod
  split
  · rfl
  · split
    · rfl
    · exact (sendCtls_ctlOnly _ _ _ _).lib

theorem leads_lib (s : State) : s.leads.lib = s.lib := by
  unfold State.leads
  split
  · exact newPeriod_lib s _
  · rfl

theorem volume_congr {s t : State} (boot : t.boot = s.boot) (view : t.vis = s.vis) : t.volume = s.volume := by
  simp only [State.volume, boot, view]

/-- A joined follower that has heard no good alignment for 64 ticks leads itself. -/
theorem execAlignmentLost_leads {s : State} (joined : s.lib.joined = true) (bad : 64 ≤ s.lib.badFor) :
    ∃ t : State, exec .alignmentLost s = .next t ∧ t.lib.lost = true ∧ t.lib.leader = s.volume ∧ t.lib.align = 0 ∧
      t.lib.badFor = 0 := by
  simp only [exec]
  unfold execAlignmentLost
  rw [if_neg (by simp [joined, bad])]
  extract_lets near s1 s2 s3
  have boot1 : s1.boot = s.boot := by
    obtain ⟨f, g, i, frame⟩ : ∃ f g i, s1 = { s with faults := f, ledger := g, irq := i } := lasting_frame s 0x08 _
    rw [frame]
  have boot3 : s3.boot = s2.boot := by
    unfold s3
    generalize near = source
    cases source with
    | some b => exact suspect_boot _ _
    | none => rfl
  have core3 : s3.core = s2.core := by
    unfold s3
    generalize near = source
    cases source with
    | some b => exact State_suspect_kept _ _
    | none => rfl
  have core2 : s2.core = s.core := (core_fold (fun u o => State_failOp_kept u o _) _ s1).trans (State_lasting_kept _ _ _)
  have same : s3.volume = s.volume :=
    volume_congr (boot3.trans ((failOps_boot _ _ s1).trans boot1)) (KeepsView.of_core (core3.trans core2)).view
  refine ⟨_, rfl, ?_⟩
  rw [leads_lib]
  exact ⟨rfl, same, rfl, rfl⟩

/-! #### FSYNC (R71) -/

section
variable {s : State} {m : Manifest} {e : Int} (run : s.clk.running = true) (manifest : s.vis.led.manifest = some m)
  (wired : m.fsync = true) (leads : s.lib.align = 0)
include run manifest wired leads

theorem execFsyncEdge_accepted (after : -64 ≤ e) (before : e ≤ 64) (due : s.fsyncDue = true) :
    exec (.fsyncEdge e) s = .next { s with
      clk := { s.clk with fsyncAt := some s.clk.tickOut, fsyncAccepted := s.clk.fsyncAccepted + 1 }
      lib := { s.lib with error := e } } := by
  simp [exec, execFsyncEdge, run, manifest, wired, leads, after, before, due]

theorem execFsyncEdge_early (after : -64 ≤ e) (before : e ≤ 64) (due : s.fsyncDue = false) :
    exec (.fsyncEdge e) s = .next { s with
      clk := { s.clk with fsyncAt := some s.clk.tickOut, fsyncIgnored := s.clk.fsyncIgnored + 1 } } := by
  simp [exec, execFsyncEdge, run, manifest, wired, leads, after, before, due]

theorem execFsyncEdge_far (far : e < -64 ∨ 64 < e) :
    exec (.fsyncEdge e) s = .next { s with clk := { s.clk with fsyncIgnored := s.clk.fsyncIgnored + 1 } } := by
  have off : ¬ (-64 ≤ e ∧ e ≤ 64) := by omega
  simp [exec, execFsyncEdge, run, manifest, wired, leads, off]

end

/-! #### Claims and announcements (R72, R73, R184) -/

/-- The only claim of the director's own, which its neighbour has not answered in time, ends its command (R73). -/
theorem execClaimTimeout_late {s : State} {d n : Nat} {o : OwnClaim} {t : Task} (only : s.lib.own = [o])
    (port : o.port = some d) (sent : o.sent = true) (late : 1 < s.since o.claim.tick) (task : o.task = some n)
    (found : s.task n = some t) : exec (.claimTimeout d) s =
      .next (({ s with lib := { s.lib with own := [] } }).failTask t .opTimeout []) := by
  have still : ({ s with lib := { s.lib with own := [] } } : State).task n = some t := found
  simp [exec, execClaimTimeout, only, port, sent, late, task, List.eraseDups_cons, still]

/-- An element that a test accepts, changed so that the test still accepts it, is found changed. -/
theorem find?_modWhere {α : Type} {l : List α} {p : α → Bool} {f : α → α} (kept : ∀ x, p x = true → p (f x) = true) :
    (modWhere l p f).find? p = (l.find? p).map f := by
  induction l with
  | nil => rfl
  | cons x l ih =>
    by_cases found : p x = true
    · simp [modWhere, found, kept x found]
    · simpa [modWhere, found] using ih

/-- The volatile part of a quire after a change of it. -/
theorem updQuire_quire_self (v : Vol) (q : QuireId) {f : QuireVol → QuireVol} (kept : ∀ w, (f w).id = w.id) :
    (v.updQuire q f).quire q = f (v.quire q) := by
  unfold Vol.updQuire Vol.quire
  split
  · next listed =>
    obtain ⟨w, found⟩ := Option.isSome_iff_exists.mp (List.find?_isSome.mpr (List.any_eq_true.mp listed))
    rw [find?_modWhere (fun x hx => by simpa [kept] using hx), found]
    rfl
  · next absent =>
    have none_listed : v.quires.find? (fun w => decide (w.id = q)) = none := by
      simpa [List.find?_eq_none] using absent
    simp [List.find?_append, none_listed, kept, QuireVol.init]

theorem updQuire_parts (v : Vol) (q : QuireId) (f : QuireVol → QuireVol) : (v.updQuire q f).parts = v.parts := by
  unfold Vol.updQuire
  split <;> rfl

/-- An announcement that another volume sends on a library link is kept, and noted with its quire where that is carved here. -/
theorem execQuireAnnouncementRx_keeps {s : State} {d : Nat} {a : Announcement} (linked : s.libPorts.contains d = true)
    (other : a.volume ≠ s.volume) : ∃ t : State, exec (.quireAnnouncementRx d a) s = .next t ∧ a ∈ t.stg.vol.parts ∧
      ((s.stg.led.quire a.quire).isSome = true → (t.stg.vol.quire a.quire).announced =
        (s.stg.vol.quire a.quire).announced.filter (·.volume ≠ a.volume) ++ [a]) ∧
      t.stg.led = s.stg.led ∧ t.vis = s.vis := by
  simp only [exec]
  unfold execQuireAnnouncementRx
  rw [if_pos (by rw [linked, Bool.true_and]; exact decide_eq_true other)]
  extract_lets s1
  have noted : a ∈ s1.stg.vol.parts := List.mem_append_right _ (List.mem_singleton_self a)
  refine ⟨_, rfl, ?_⟩
  split
  · refine ⟨?_, fun _ => ?_, rfl, rfl⟩
    · rw [updQuireVol_stg, updQuire_parts]
      exact noted
    · rw [updQuireVol_stg, updQuire_quire_self]
      · rfl
      · exact fun _ => rfl
  · next absent => exact ⟨noted, fun carved => absurd carved absent, rfl, rfl⟩

/-- Settles O42, row by row. -/
theorem alignmentAndLibraryRowsRun : Obligations.AlignmentAndLibraryRowsRun := by
  unfold Obligations.AlignmentAndLibraryRowsRun
  refine ⟨?timeout, ?join, ?jump, ?switch, ?lost, ?accepted, ?early, ?far, ?heard, ?stranger, ?claim, ?announcement⟩
  case timeout =>
    intro s follows silent
    exact execLeaderTimeout_elects follows silent
  case join =>
    intro s leader i delta run joining toward alone short covered
    obtain ⟨align, index, slew, lost⟩ := joinStep_takes s leader (max i (s.now + 1)) delta
    have now := (exec_keeps (execJoinStep_single run joining toward alone short covered)).index
      (by simp) rfl (by simp)
    exact ⟨_, execJoinStep_single run joining toward alone short covered, align, index, slew, now, lost⟩
  case jump =>
    intro s n v jump run aligned due covered
    exact execIndexJump_due jump run aligned due covered
  case switch =>
    intro s p n announced run due
    exact execPeriodSwitch_due announced run due
  case lost =>
    intro s joined bad
    exact execAlignmentLost_leads joined bad
  case accepted =>
    intro s m e run manifest wired leads after before due
    exact execFsyncEdge_accepted run manifest wired leads after before due
  case early =>
    intro s m e run manifest wired leads after before due
    exact execFsyncEdge_early run manifest wired leads after before due
  case far =>
    intro s m e run manifest wired leads far
    exact execFsyncEdge_far run manifest wired leads far
  case heard =>
    intro s d c linked
    exact congrArg Host.Outcome.next (if_pos linked)
  case stranger =>
    intro s d c apart
    exact congrArg Host.Outcome.next (if_neg (Bool.eq_false_iff.mp apart))
  case claim =>
    intro s d o t n only port sent late task found
    exact execClaimTimeout_late only port sent late task found
  case announcement =>
    intro s d a linked other
    exact execQuireAnnouncementRx_keeps linked other

/-! ### The rows of the journal (R51, R91-R100) -/

/-- An index that comes within 2^20 of H asks for an anchor with a higher one (R99). -/
theorem execTickReservationRaise_near {s : State} (run : s.clk.running = true) (alive : s.faults.fatal = none)
    (works : s.ledgerFaulted = false) (near : s.reservation ≤ s.indexAhead + 2 ^ 20)
    (settled : s.ledger.anchor.h = s.reservation) :
    exec .tickReservationRaise s = .next (s.updLedger fun g =>
      { g with anchor := { g.anchor with h := s.indexAhead + 2 ^ 24 }, anchorDue := true }) := by
  have reached : ¬ s.indexAhead + Config.reserveLead < s.reservation := Nat.not_lt.mpr near
  simp [exec, execTickReservationRaise, run, alive, works, settled, reached, Config.reserveStep]

/-! #### The fatal fault of an exhausted reservation (R100, R370) -/

theorem sizeRec_frame (s : State) (r : DurRec) : ∃ n, (s.sizeRec r).2 = { s with freeCtr := n } := by
  unfold State.sizeRec
  split
  · exact ⟨_, rfl⟩
  · exact ⟨s.freeCtr, rfl⟩

/-- Sizing records draws free values only. -/
theorem sizeRecs_frame (s : State) (l : List DurRec) : ∃ n, (s.sizeRecs l).2 = { s with freeCtr := n } := by
  induction l generalizing s with
  | nil => exact ⟨s.freeCtr, rfl⟩
  | cons r l ih =>
    obtain ⟨n, sized⟩ := sizeRec_frame s r
    obtain ⟨m, rest⟩ := ih (s.sizeRec r).2
    exact ⟨m, rest.trans (by rw [sized])⟩

/-- The final group lies in the ledger (R105, R370). -/
theorem finalGroup_frame (s : State) : ∃ g n, s.finalGroup = { s with ledger := g, freeCtr := n } := by
  obtain ⟨n, sized⟩ := sizeRecs_frame s s.ledger.unbuilt
  unfold State.finalGroup
  extract_lets keep
  split
  next rs u pair =>
    have rest : u = { s with freeCtr := n } := by
      rw [← sized, pair]
    rw [rest]
    exact ⟨_, _, rfl⟩

theorem haltGroup_frame (s : State) (e : FaultEntry) : ∃ g n, s.haltGroup e = { s with ledger := g, freeCtr := n } := by
  unfold State.haltGroup
  extract_lets s1
  split
  · exact ⟨_, s.freeCtr, rfl⟩
  · obtain ⟨g, n, frame⟩ := finalGroup_frame (s1.stage (histRec s1 (.fault e) 1))
    rw [frame]
    exact ⟨g, n, rfl⟩

/-- A fatal fault stands, drives FAULT_N, and leaves nothing staged (R370). -/
theorem fatal_halts {s : State} (alive : s.faults.fatal = none) (on : s.boot.stage ≠ .held) (fn object : Nat) :
    (s.fatal fn object).faults.fatal = some fn ∧ (s.fatal fn object).stg = s.vis ∧
      (s.fatal fn object).pins.faultN = false := by
  unfold State.fatal
  rw [if_neg (by simp [alive, on])]
  extract_lets e _ _ _ _ _ s1
  obtain ⟨g, n, frame⟩ := haltGroup_frame ((s1.fatalRegs fn).raiseNow 0x100) e
  rw [frame]
  exact ⟨rfl, rfl, rfl⟩

/-- In the seal phase of tick H − 1 without a new reservation the director halts (R100). -/
theorem execReservationExhausted_halts {s : State} (run : s.clk.running = true) (turn : s.clk.phase = .seal)
    (reached : s.reservation ≤ s.now + 1) : exec .reservationExhausted s = .next (s.fatal 0x01 0) := by
  simp [exec, execReservationExhausted, run, turn, reached, State.fatalOf, fatalFn]

/-! #### Writes (R91-R93) -/

theorem execJournalWriteStart_starts {s : State} (idle : s.ledger.writing = none) (works : s.ledgerFaulted = false)
    (restored : s.ledger.restored = true) : exec .journalWriteStart s = .next s.startNext := by
  simp [exec, execJournalWriteStart, idle, works, restored]

/-- A journal that a power seal holds starts nothing (R105). -/
theorem execJournalWriteStart_held {s : State} (held : s.ledger.pseal = .held) : exec .journalWriteStart s = .next s := by
  have nothing : s.startNext = s := by simp [State.startNext, held]
  simp [exec, execJournalWriteStart, nothing]

section
variable {s : State} {w : Writing} {f : Folio} {rest : List Folio} (writing : s.ledger.writing = some w)
  (folios : w.folios = f :: rest)
include writing folios

/-- A folio that is written is read back next. -/
theorem execFolioWriteDone_written (written : w.reading = false) (m : Bool) : exec (.folioWriteDone m) s =
    .next (s.updLedger fun g => { g.putFolio w.dev f with writing := some { w with reading := true } }) := by
  simp [exec, execFolioWriteDone, writing, folios, written]

variable (reading : w.reading = true)
include reading

theorem execFolioWriteDone_matched : exec (.folioWriteDone true) s = .next (s.deviceDone w f rest) := by
  simp [exec, execFolioWriteDone, writing, folios, reading]

/-- A first read-back that differs causes one rewrite, of which the ledger and the free values alone know. -/
theorem execFolioWriteDone_rewrites (first : w.second = false) : ∃ t : State, exec (.folioWriteDone false) s = .next t ∧
    t.ledger.writing = some { w with second := true, reading := false } ∧ t.stg = s.stg ∧ t.vis = s.vis := by
  simp only [exec, execFolioWriteDone, writing, folios, reading, first]
  exact ⟨_, rfl, rfl, rfl, rfl⟩

end

/-- LEDGER-B takes a folio after LEDGER-A. -/
theorem deviceDone_first {s : State} {w : Writing} (dev : w.dev = .a) (other : s.ledger.devB.failed = false) (f : Folio)
    (rest : List Folio) : s.deviceDone w f rest = s.updLedger fun g =>
      { g with writing := some { w with dev := .b, second := false, reading := false } } := by
  simp [State.deviceDone, dev, other]

/-- After LEDGER-B a folio is sealed. -/
theorem deviceDone_last {s : State} {w : Writing} (dev : w.dev = .b) (works : s.ledgerFaulted = false) (f : Folio)
    (rest : List Folio) : s.deviceDone w f rest = s.folioSealed w f rest := by
  simp [State.deviceDone, dev, works]

/-! #### Credits (R95) -/

theorem execCreditRefill_adds {s : State} (restored : s.ledger.restored = true) (free : s.ledger.held = false) :
    exec .creditRefill s = .next (s.updLedger fun g =>
      { g with credits := min 448 (g.credits + (s.clk.cycles - g.refillAt) / creditStep)
               refillAt := g.refillAt + (s.clk.cycles - g.refillAt) / creditStep * creditStep }) := by
  simp [exec, execCreditRefill, restored, free, Config.creditMax]

theorem execCreditRefill_held {s : State} (held : s.ledger.held = true) : exec .creditRefill s = .next s := by
  simp [exec, execCreditRefill, held]

/-- Settles O43, row by row. -/
theorem journalRowsRun : Obligations.JournalRowsRun := by
  unfold Obligations.JournalRowsRun
  refine ⟨?raise, ?exhausted, ?starts, ?held, ?written, ?first, ?last, ?rewrites, ?credits, ?noCredits⟩
  case raise =>
    intro s run alive works near settled
    exact execTickReservationRaise_near run alive works near settled
  case exhausted =>
    intro s on run turn reached alive
    have runs := execReservationExhausted_halts run turn reached
    obtain ⟨fatal, staged, pin⟩ := fatal_halts alive on 0x01 0
    have now := (exec_keeps runs).index (by simp) rfl (by simp)
    exact ⟨_, runs, by rw [fatal]; rfl, now, staged, pin⟩
  case starts =>
    intro s idle works restored
    exact execJournalWriteStart_starts idle works restored
  case held =>
    intro s _ held
    exact execJournalWriteStart_held held
  case written =>
    intro s w f rest m writing folios written
    exact execFolioWriteDone_written writing folios written m
  case first =>
    intro s w f rest writing folios reading dev other
    rw [execFolioWriteDone_matched writing folios reading, deviceDone_first dev other]
  case last =>
    intro s w f rest writing folios reading dev works
    rw [execFolioWriteDone_matched writing folios reading, deviceDone_last dev works]
  case rewrites =>
    intro s w f rest writing folios reading first
    exact execFolioWriteDone_rewrites writing folios reading first
  case credits =>
    intro s restored free
    exact execCreditRefill_adds restored free
  case noCredits =>
    intro s held
    exact execCreditRefill_held held

end Sys2Proof.Machine
end

section
/-! PROOFS. The ledger's family: what no step takes back of the fuses and the bound of the commit credits (R95, R103, R390, R468,
R485), the commands of the ledger, of telemetry and of power (R106, R442, R562-R564, R568-R570), the rows of the archive (R79, R100,
R106, R107, R111, R475), and bring-up (R101, R450-R467, R479). -/
namespace Sys2Proof.Machine
open Laws Kept

/-! ### The fuses and the commit credits (R95, R103, R390, R468, R485) -/

/-- What no command takes back of the fuses: the colophon and the device secret stand, the OTP count does not fall nor pass 64, and a
burnt marker stays burnt. -/
structure Fuses.Grows (old new : Fuses) : Prop where
  colophon : new.colophon = old.colophon
  dus : new.dus = old.dus
  otp : old.otp ≤ 64 → old.otp ≤ new.otp ∧ new.otp ≤ 64
  marker : old.marker = true → new.marker = true

theorem Fuses.Grows.refl (f : Fuses) : f.Grows f := ⟨rfl, rfl, fun bound => ⟨Nat.le_refl _, bound⟩, id⟩

theorem Fuses.Grows.trans {a b c : Fuses} (first : a.Grows b) (second : b.Grows c) : a.Grows c where
  colophon := second.colophon.trans first.colophon
  dus := second.dus.trans first.dus
  otp bound :=
    have ⟨rises, stays⟩ := first.otp bound
    have ⟨risesOn, staysOn⟩ := second.otp stays
    ⟨rises.trans risesOn, staysOn⟩
  marker := second.marker ∘ first.marker

/-- Burning the marker lets the fuses grow. -/
theorem Fuses.Grows.marked (f : Fuses) {m : Bool} (stays : f.marker = true → m = true) : f.Grows { f with marker := m } :=
  ⟨rfl, rfl, fun bound => ⟨Nat.le_refl _, bound⟩, stays⟩

/-- The fuses at most grow, and the commit credits stay within their maximum. -/
structure Guards (s t : State) : Prop where
  fuses : s.fuses.Grows t.fuses
  credits : s.ledger.credits ≤ 448 → t.ledger.credits ≤ 448

theorem Guards.of_eq {s t : State} (fuses : t.fuses = s.fuses) (credits : t.ledger.credits = s.ledger.credits) : Guards s t :=
  ⟨fuses ▸ .refl _, fun bound => credits ▸ bound⟩

theorem Guards.trans {a b c : State} (first : Guards a b) (second : Guards b c) : Guards a c :=
  ⟨first.fuses.trans second.fuses, second.credits ∘ first.credits⟩

/-- A state whose core tells its fuses and credits. -/
theorem Guards.of_told {s t : State} {q : List Instr} {f : Fuses} {v : Fabric} {i : Tick} {p : Phase} {n : Nat}
    (core : t.core = (q, f, v, i, p, n)) (fuses : s.fuses.Grows f) (credits : s.ledger.credits ≤ 448 → n ≤ 448) : Guards s t := by
  simp only [State.core, Prod.mk.injEq] at core
  obtain ⟨-, rfl, -, -, -, rfl⟩ := core
  exact ⟨fuses, credits⟩

theorem Guards.of_core {s t : State} (core : t.core = s.core) : Guards s t := .of_told core (.refl _) id

/-- The command answers a next state in which the fuses at most grew and the credits keep their bound. -/
def Guarded (i : Instr) (s : State) : Prop := ∃ t, exec i s = .next t ∧ Guards s t

namespace Guarded

variable {i : Instr} {s : State}

theorem of_kept (h : ∃ t, exec i s = .next t ∧ t.core = s.core) : Guarded i s :=
  let ⟨t, runs, core⟩ := h
  ⟨t, runs, .of_core core⟩

/-- A phase of the tick, which acts only in its turn. -/
theorem of_stepped {on turn : Prop} {p : Phase} (h : ∃ t, exec i s = .next t ∧
    (t = s ∨ (on ∧ turn ∧ t.core = (s.pending, s.fuses, s.vis, s.clk.now, p, s.ledger.credits)))) : Guarded i s := by
  obtain ⟨t, runs, rfl | ⟨-, -, core⟩⟩ := h
  · exact ⟨t, runs, .of_core rfl⟩
  · exact ⟨t, runs, .of_told core (.refl _) id⟩

/-- A row that changes the credits to a number within their bound. -/
theorem of_credits {P : Nat → Prop} (bounded : ∀ n, P n → s.ledger.credits ≤ 448 → n ≤ 448) (h : ∃ t, exec i s = .next t ∧
    ∃ n, P n ∧ t.core = (s.pending, s.fuses, s.vis, s.clk.now, s.clk.phase, n)) : Guarded i s :=
  let ⟨t, runs, n, holds, core⟩ := h
  ⟨t, runs, .of_told core (.refl _) (bounded n holds)⟩

theorem of_sealed (h : ∃ t, exec i s = .next t ∧ Sealed s t) : Guarded i s :=
  let ⟨t, runs, _, _, stays, spent, core⟩ := h
  ⟨t, runs, .of_told core (.marked _ stays) spent.trans⟩

theorem of_reset (h : ∃ t, exec i s = .next t ∧ t.pending = s.pending ∧ t.fuses = s.fuses ∧
    t.ledger.credits ≤ s.ledger.credits) : Guarded i s :=
  let ⟨t, runs, _, fuses, lowered⟩ := h
  ⟨t, runs, fuses ▸ .refl _, lowered.trans⟩

end Guarded

/-- Credits that stay, or are set within the maximum, keep the bound. -/
theorem credits_bounded_of_kept_or_le {old : Nat} (n : Nat) (set : n = old ∨ n ≤ 448) (bound : old ≤ 448) : n ≤ 448 := by
  rcases set with rfl | le
  · exact bound
  · exact le

theorem execTickBoundary_guarded (s : State) : Guarded .tickBoundary s := by
  simp only [Guarded, exec, execTickBoundary]
  split
  · obtain ⟨-, fuses, credits, -⟩ := boundary_rest s
    exact ⟨_, rfl, .of_eq fuses credits⟩
  · exact ⟨s, rfl, .of_core rfl⟩

/-- A programmed increment is counted up to 64, and nothing else of the fuses moves (R103, R482). -/
theorem execOtpBurnDone_guarded (programmed : Bool) (s : State) : Guarded (.otpBurnDone programmed) s := by
  obtain ⟨t, runs, n, -, burnt, core⟩ := execOtpBurnDone_core programmed s
  refine ⟨t, runs, .of_told core ⟨rfl, rfl, fun bound => ?_, id⟩ id⟩
  rcases burnt with rfl | rfl
  · exact ⟨Nat.le_refl _, bound⟩
  · exact ⟨Nat.le_min.mpr ⟨bound, Nat.le_succ _⟩, Nat.min_le_left _ _⟩

/-! #### The start of the control complex (R51, R456) -/

/-- The reservation of a run burns the marker, or is a record of the archive; neither touches the credits. -/
theorem reserveRun_guards (s : State) (start : Tick) (a : Anchor) (ledA ledB arcA arcB : BusAnswer) :
    Guards s (s.reserveRun start a ledA ledB arcA arcB) := by
  have failing : ∀ (u : State) (b : BusAnswer) (d : Dev), Guards u (if b = .unwritable then u.failArc d else u) := by
    intro u b d
    split
    · exact .of_core (State_failArc_kept _ _)
    · exact .of_core rfl
  unfold State.reserveRun
  extract_lets h s1 s2 marked s3 s4 g rec_ a'
  split
  · exact ⟨.marked _ fun _ => rfl, fun bound => bound⟩
  · have begun : Guards s s1 := .of_eq rfl rfl
    exact ((begun.trans (failing s1 arcA .a)).trans (failing s3 arcB .b)).trans (.of_eq rfl rfl)

theorem execControlStart_guarded (ledA ledB arcA arcB : BusAnswer) (s : State) : Guarded (.controlStart ledA ledB arcA arcB) s := by
  simp only [Guarded, exec]
  unfold execControlStart
  split
  · exact ⟨s, rfl, .of_core rfl⟩
  · extract_lets s1 s2 heard start a blank lost s3 s4 _ s5 dead s6 _ _ s7 _ s8 s9
    have answered : Guards s s1 := .of_eq rfl rfl
    have heardAll : Guards s s2 := answered.trans (.of_core (State_hearArcs_kept s1 arcA arcB))
    have read : Guards s2 s3 := .of_eq rfl (readAnchor_credits s2.ledger)
    have reserved : Guards s3 s4 := (reserveRun_guards s3 start a ledA ledB arcA arcB).trans (.of_core (State_deriveHouse_kept _))
    have begun : Guards s4 s5 := .of_eq rfl rfl
    have halted : Guards s5 s6 := by
      unfold s6
      split
      · exact .of_core (State_fatalOf_kept _ _)
      · exact .of_core rfl
    have staged : Guards s6 s7 := .of_eq rfl rfl
    have trial : Guards s7 s9 := by
      unfold s9 s8
      split <;> exact .of_eq rfl rfl
    have shown : Guards s9 ((s9.latchRegs.noteRegs s9.regs).driveFaultN) :=
      .of_core ((State_driveFaultN_kept _).trans ((State_noteRegs_kept _ _).trans (State_latchRegs_kept s9)))
    exact ⟨_, rfl, (((((((heardAll.trans read).trans reserved).trans begun).trans halted).trans staged).trans trial).trans shown)⟩

/-! #### Every row -/

/-- Every row guards the fuses and the bound of the credits; most keep both. -/
theorem exec_guarded (i : Instr) (s : State) : Guarded i s :=
  match i with
  | .identColophon p => .of_kept (execIdentColophon_kept p s)
  | .identAttest p => .of_kept (execIdentAttest_kept p s)
  | .identCaps p => .of_kept (execIdentCaps_kept p s)
  | .posAssign p => .of_kept (execPosAssign_kept p s)
  | .posLock p => .of_kept (execPosLock_kept p s)
  | .discScan p => .of_kept (execDiscScan_kept p s)
  | .discMap p => .of_kept (execDiscMap_kept p s)
  | .discManifest p => .of_kept (execDiscManifest_kept p s)
  | .quireCarve p => .of_kept (execQuireCarve_kept p s)
  | .quireGrow p => .of_kept (execQuireGrow_kept p s)
  | .quireRelease p => .of_kept (execQuireRelease_kept p s)
  | .quireReset p => .of_kept (execQuireReset_kept p s)
  | .quireStatus p => .of_kept (execQuireStatus_kept p s)
  | .routeSolve p => .of_kept (execRouteSolve_kept p s)
  | .routeInstall p => .of_kept (execRouteInstall_kept p s)
  | .boreOpen p => .of_kept (execBoreOpen_kept p s)
  | .boreClose p => .of_kept (execBoreClose_kept p s)
  | .routeDrainHold p => .of_kept (execRouteDrainHold_kept p s)
  | .routeDrainResume p => .of_kept (execRouteDrainResume_kept p s)
  | .rebindPlan p => .of_kept (execRebindPlan_kept p s)
  | .rebindCommit p => .of_kept (execRebindCommit_kept p s)
  | .rebindStatus p => .of_kept (execRebindStatus_kept p s)
  | .portConfig p => .of_kept (execPortConfig_kept p s)
  | .shaperSet p => .of_kept (execShaperSet_kept p s)
  | .portCounters p => .of_kept (execPortCounters_kept p s)
  | .tableLoad p => .of_kept (execTableLoad_kept p s)
  | .tableRead p => .of_kept (execTableRead_kept p s)
  | .tableActivate p => .of_kept (execTableActivate_kept p s)
  | .redDefine p => .of_kept (execRedDefine_kept p s)
  | .collLaunch p => .of_kept (execCollLaunch_kept p s)
  | .collStatus p => .of_kept (execCollStatus_kept p s)
  | .tileRead p => .of_kept (execTileRead_kept p s)
  | .tileWrite p => .of_kept (execTileWrite_kept p s)
  | .collCancel p => .of_kept (execCollCancel_kept p s)
  | .tenantOpen p => .of_kept (execTenantOpen_kept p s)
  | .installLinkKey p => .of_kept (execInstallLinkKey_kept p s)
  | .retirePrevious p => .of_kept (execRetirePrevious_kept p s)
  | .addTrustRoot p => .of_kept (execAddTrustRoot_kept p s)
  | .removeTrustRoot p => .of_kept (execRemoveTrustRoot_kept p s)
  | .tenantEvict p => .of_kept (execTenantEvict_kept p s)
  | .memScrub p => .of_kept (execMemScrub_kept p s)
  | .ledgerStatus p => .of_kept (execLedgerStatus_kept p s)
  | .ledgerCheckpoint p => .of_kept (execLedgerCheckpoint_kept p s)
  | .ledgerRead p => .of_kept (execLedgerRead_kept p s)
  | .fwDownload p => .of_kept (execFwDownload_kept p s)
  | .fwVerify p => .of_kept (execFwVerify_kept p s)
  | .fwActivate p => .of_kept (execFwActivate_kept p s)
  | .fwConfirm p => .of_kept (execFwConfirm_kept p s)
  | .fwReject p => .of_kept (execFwReject_kept p s)
  | .fwStatus p => .of_kept (execFwStatus_kept p s)
  | .telemSubscribe p => .of_kept (execTelemSubscribe_kept p s)
  | .telemSnapshot p => .of_kept (execTelemSnapshot_kept p s)
  | .powerStatus p => .of_kept (execPowerStatus_kept p s)
  | .powerBudget p => .of_kept (execPowerBudget_kept p s)
  | .chanOpen p => .of_kept (execChanOpen_kept p s)
  | .chanClose p => .of_kept (execChanClose_kept p s)
  | .chanNop p => .of_kept (execChanNop_kept p s)
  | .chanFence p => .of_kept (execChanFence_kept p s)
  | .diagLoop p => .of_kept (execDiagLoop_kept p s)
  | .diagLaneMeasure p => .of_kept (execDiagLaneMeasure_kept p s)
  | .diagLaneResetReference p => .of_kept (execDiagLaneResetReference_kept p s)
  | .cmdTailWrite ch data tail => .of_kept (execCmdTailWrite_kept ch data tail s)
  | .rplHeadWrite ch head => .of_kept (execRplHeadWrite_kept ch head s)
  | .irqStatClear w => .of_kept (execIrqStatClear_kept w s)
  | .irqMaskWrite w => .of_kept (execIrqMaskWrite_kept w s)
  | .rimodeWrite w => .of_kept (execRimodeWrite_kept w s)
  | .mbxDoorbellWrite w => .of_kept (execMbxDoorbellWrite_kept w s)
  | .registerWriteIgnored offset size w => .of_kept (execRegisterWriteIgnored_kept offset size w s)
  | .arpRequestRx port target sender mac => .of_kept (execArpRequestRx_kept port target sender mac s)
  | .arpReplyRx port sender mac => .of_kept (execArpReplyRx_kept port sender mac s)
  | .ethFrameDiscard port why bytes => .of_kept (execEthFrameDiscard_kept port why bytes s)
  | .ethLinkUp port => .of_kept (execEthLinkUp_kept port s)
  | .arpEntryExpiry port addr => .of_kept (execArpEntryExpiry_kept port addr s)
  | .identReqTimer => .of_kept (execIdentReqTimer_kept s)
  | .identRx src msg => .of_kept (execIdentRx_kept src msg s)
  | .setAckRx src msg => .of_kept (execSetAckRx_kept src msg s)
  | .setDoneRx src msg => .of_kept (execSetDoneRx_kept src msg s)
  | .mapRx src msg => .of_kept (execMapRx_kept src msg s)
  | .alarmRx src msg => .of_kept (execAlarmRx_kept src msg s)
  | .setDeadlineExpiry unit => .of_kept (execSetDeadlineExpiry_kept unit s)
  | .dataPacketRx port uncorrectable pkt => .of_kept (execDataPacketRx_kept port uncorrectable pkt s)
  | .linkBeaconRx port uncorrectable pkt => .of_kept (execLinkBeaconRx_kept port uncorrectable pkt s)
  | .tickBeaconRx port uncorrectable phaseError pkt => .of_kept (execTickBeaconRx_kept port uncorrectable phaseError pkt s)
  | .peerReportRx port uncorrectable pkt => .of_kept (execPeerReportRx_kept port uncorrectable pkt s)
  | .coordinateConfirmationRx port uncorrectable pkt => .of_kept (execCoordinateConfirmationRx_kept port uncorrectable pkt s)
  | .tableWriteAckRx port uncorrectable pkt => .of_kept (execTableWriteAckRx_kept port uncorrectable pkt s)
  | .legAckRx port uncorrectable pkt => .of_kept (execLegAckRx_kept port uncorrectable pkt s)
  | .completionReportRx port uncorrectable pkt => .of_kept (execCompletionReportRx_kept port uncorrectable pkt s)
  | .counterReportRx port uncorrectable pkt => .of_kept (execCounterReportRx_kept port uncorrectable pkt s)
  | .retrainRequestRx port uncorrectable pkt => .of_kept (execRetrainRequestRx_kept port uncorrectable pkt s)
  | .libraryClaimRx port claim => .of_kept (execLibraryClaimRx_kept port claim s)
  | .quireAnnouncementRx port ann => .of_kept (execQuireAnnouncementRx_kept port ann s)
  | .spdmMessageRx peer msg done good => .of_kept (execSpdmMessageRx_kept peer msg done good s)
  | .keyMessageAnswerRx peer msg => .of_kept (execKeyMessageAnswerRx_kept peer msg s)
  | .tickBoundary => execTickBoundary_guarded s
  | .workPhase => .of_stepped (execWorkPhase_core s)
  | .stepOverrun task => .of_kept (execStepOverrun_kept task s)
  | .dronePhase sample => .of_stepped (execDronePhase_core sample s)
  | .sealPhase => .of_stepped (execSealPhase_core s)
  | .drainTimeout q => .of_kept (execDrainTimeout_kept q s)
  | .tickReservationRaise => .of_kept (execTickReservationRaise_kept s)
  | .reservationExhausted => .of_kept (execReservationExhausted_kept s)
  | .creditRefill => .of_credits credits_bounded_of_kept_or_le (execCreditRefill_core s)
  | .journalWriteStart => .of_credits (fun _ => Nat.le_trans) (execJournalWriteStart_core s)
  | .folioWriteDone matched => .of_sealed (execFolioWriteDone_core matched s)
  | .checkpointTimer => .of_kept (execCheckpointTimer_kept s)
  | .checkpointStart => .of_kept (execCheckpointStart_kept s)
  | .checkpointCopyDone dev verified => .of_kept (execCheckpointCopyDone_kept dev verified s)
  | .laneMarginSample sample => .of_kept (execLaneMarginSample_kept sample s)
  | .rstNAssert ns => .of_reset (execRstNAssert_rest ns s)
  | .pwrGoodDeassert ns => .of_reset (execPwrGoodDeassert_rest ns s)
  | .perstNAssert ns => .of_kept (execPerstNAssert_kept ns s)
  | .bringUpStart straps => .of_kept (execBringUpStart_kept straps s)
  | .rotRomDone romOk fusesOk => .of_kept (execRotRomDone_kept romOk fusesOk s)
  | .fwVerifyStageDone anchorWritable => .of_kept (execFwVerifyStageDone_kept anchorWritable s)
  | .controlStart ledA ledB arcA arcB => execControlStart_guarded ledA ledB arcA arcB s
  | .clusterWaveStart w => .of_kept (execClusterWaveStart_kept w s)
  | .clusterSelftestDone rc passed => .of_kept (execClusterSelftestDone_kept rc passed s)
  | .restoreDone => .of_credits credits_bounded_of_kept_or_le (execRestoreDone_core s)
  | .hbmTrainDone trained ids => .of_kept (execHbmTrainDone_kept trained ids s)
  | .memTestDone findings => .of_kept (execMemTestDone_kept findings s)
  | .leafZeroDone => .of_kept (execLeafZeroDone_kept s)
  | .laneTrainDone => .of_kept (execLaneTrainDone_kept s)
  | .discoveryComplete => .of_kept (execDiscoveryComplete_kept s)
  | .entropyReady ms => .of_kept (execEntropyReady_kept ms s)
  | .entropyHealthFail => .of_kept (execEntropyHealthFail_kept s)
  | .drbgReseed => .of_kept (execDrbgReseed_kept s)
  | .scanRoundEnd plane => .of_kept (execScanRoundEnd_kept plane s)
  | .uplinkSilent c uplink => .of_kept (execUplinkSilent_kept c uplink s)
  | .boardMissing g => .of_kept (execBoardMissing_kept g s)
  | .houseBoreMove g => .of_kept (execHouseBoreMove_kept g s)
  | .portLinkEvent port event => .of_kept (execPortLinkEvent_kept port event s)
  | .lstTimerExpiry port => .of_kept (execLstTimerExpiry_kept port s)
  | .elsAlarm fau => .of_kept (execElsAlarm_kept fau s)
  | .pathMaskClear q g h path => .of_kept (execPathMaskClear_kept q g h path s)
  | .scheduledDiagLane e => .of_kept (execScheduledDiagLane_kept e s)
  | .diagLaneEnd e lanes uncorrectable reportsMissing => .of_kept (execDiagLaneEnd_kept e lanes uncorrectable reportsMissing s)
  | .joinStep leader leaderIndex delta => .of_kept (execJoinStep_kept leader leaderIndex delta s)
  | .indexJump => .of_kept (execIndexJump_kept s)
  | .periodSwitch => .of_kept (execPeriodSwitch_kept s)
  | .leaderTimeout => .of_kept (execLeaderTimeout_kept s)
  | .alignmentLost => .of_kept (execAlignmentLost_kept s)
  | .fsyncEdge error => .of_kept (execFsyncEdge_kept error s)
  | .claimTimeout port => .of_kept (execClaimTimeout_kept port s)
  | .shadowWriteRetry c q => .of_kept (execShadowWriteRetry_kept c q s)
  | .multicastHorizon q seq => .of_kept (execMulticastHorizon_kept q seq s)
  | .retryHorizon q tag item => .of_kept (execRetryHorizon_kept q tag item s)
  | .tagCloseEnd q tag => .of_kept (execTagCloseEnd_kept q tag s)
  | .launchMatchTimeout q tag => .of_kept (execLaunchMatchTimeout_kept q tag s)
  | .workItemDone q tag item rc outcome => .of_kept (execWorkItemDone_kept q tag item rc outcome s)
  | .tileZeroDone q => .of_kept (execTileZeroDone_kept q s)
  | .rebindCopyDone q uncorrectable => .of_kept (execRebindCopyDone_kept q uncorrectable s)
  | .rebindVerifyTimeout q => .of_kept (execRebindVerifyTimeout_kept q s)
  | .resetConfirmTimeout q => .of_kept (execResetConfirmTimeout_kept q s)
  | .evictBound q => .of_kept (execEvictBound_kept q s)
  | .scrubDone leaves => .of_kept (execScrubDone_kept leaves s)
  | .patrolScrub corrected => .of_kept (execPatrolScrub_kept corrected s)
  | .hbmEccError leaf addr => .of_kept (execHbmEccError_kept leaf addr s)
  | .keyMessageTimeout peer q => .of_kept (execKeyMessageTimeout_kept peer q s)
  | .houseSessionStart peer => .of_kept (execHouseSessionStart_kept peer s)
  | .houseSessionRetry peer => .of_kept (execHouseSessionRetry_kept peer s)
  | .pwrWarnRecognised => .of_kept (execPwrWarnRecognised_kept s)
  | .pwrWarnPulseIgnored => .of_kept (execPwrWarnPulseIgnored_kept s)
  | .pwrWarnDeassert => .of_kept (execPwrWarnDeassert_kept s)
  | .resumption => .of_kept (execResumption_kept s)
  | .pmbusPoll readings => .of_kept (execPmbusPoll_kept readings s)
  | .pmbusReprobe unit answered => .of_kept (execPmbusReprobe_kept unit answered s)
  | .pmbAlert => .of_kept (execPmbAlert_kept s)
  | .clusterClockStep => .of_kept (execClusterClockStep_kept s)
  | .budgetCeilingRise => .of_kept (execBudgetCeilingRise_kept s)
  | .thermalCeilingRise => .of_kept (execThermalCeilingRise_kept s)
  | .thermalTrip => .of_kept (execThermalTrip_kept s)
  | .fatalFault cause => .of_kept (execFatalFault_kept cause s)
  | .confirmWindowExpiry => .of_kept (execConfirmWindowExpiry_kept s)
  | .fwReset => .of_reset (execFwReset_rest s)
  | .ringEntry offer => .of_kept (execRingEntry_kept offer s)
  | .ringEjectArrival fabric frag => .of_kept (execRingEjectArrival_kept fabric frag s)
  | .portSend port => .of_kept (execPortSend_kept port s)
  | .uncorrectableCodeword port packets => .of_kept (execUncorrectableCodeword_kept port packets s)
  | .firstStartDisagreement port => .of_kept (execFirstStartDisagreement_kept port s)
  | .slotEccError ring dir stop pkt double => .of_kept (execSlotEccError_kept ring dir stop pkt double s)
  | .degradedModeLeft => .of_kept (execDegradedModeLeft_kept s)
  | .imageCheckDone => .of_kept (execImageCheckDone_kept s)
  | .archiveWriteDone dev verified => .of_kept (execArchiveWriteDone_kept dev verified s)
  | .otpBurnDone programmed => execOtpBurnDone_guarded programmed s
  | .spdmResponse rsp failed sessionUp sessionDown peerCert => .of_kept (execSpdmResponse_kept rsp failed sessionUp sessionDown peerCert s)
  | .perstNDeassert => .of_kept (execPerstNDeassert_kept s)
  | .configurationRequest r => .of_kept (execConfigurationRequest_kept r s)
  | .jtagInstruction x => .of_kept (execJtagInstruction_kept x s)

/-- A step guards the fuses and the bound of the credits. -/
theorem step_guards {s t : State} (runs : step s = .next t) : Guards s t := by
  unfold step at runs
  split at runs
  · cases runs
    exact .of_core rfl
  · next c rest front =>
    obtain ⟨u, next, fuses, credits⟩ := exec_guarded c { s with pending := rest }
    rw [runs] at next
    cases next
    exact ⟨fuses, credits⟩

/-- Settles O4: the table of what every command guards. -/
theorem fusesOnlyGrow : Obligations.FusesOnlyGrow := by
  intro s t bound runs
  obtain ⟨colophon, dus, otp, marker⟩ := (step_guards runs).fuses
  obtain ⟨rises, stays⟩ := otp bound
  exact ⟨colophon, dus, rises, stays, marker⟩

/-- Settles O44: the table of what every command guards. -/
theorem creditsStayWithinTheirMaximum : Obligations.CreditsStayWithinTheirMaximum :=
  fun _ _ bound runs => (step_guards runs).credits bound

/-! ### The commands of the ledger, of telemetry and of power (R106, R442, R562-R564, R568-R570) -/

section
variable {s u : State} {op : Nat} {h : Handler} {p : Pkt} (taken : s.takesIn op p = true)
include taken

/-- A command whose handler replies is answered at once. -/
theorem present_replies {st : Status} {res : List Byte} (answer : h (s.takenOf op p) (s.accepted op p) = (u, .reply st res)) :
    s.present op h p = answered (s.takenOf op p) u st res := by
  rw [present_taken s op h p taken, answer]
  rfl

/-- A command whose handler accepts is ACCEPTED in this seal. -/
theorem present_accepts (answer : h (s.takenOf op p) (s.accepted op p) = (u, .accepted)) :
    s.present op h p = u.queueSeal ((s.takenOf op p).reply .accepted []) := by
  rw [present_taken s op h p taken, answer]
  rfl
end

theorem hLedgerStatus_since {s : State} {k : Int} (known : s.shown.ledger.ckStart = some k) (c : Taken) :
    hLedgerStatus c s = (s, .reply s.shown.ledger.statusCode
      (s.shown.ledger.statusResult (seconds ((s.clk.cycles : Int) - k).toNat))) := by
  simp only [hLedgerStatus, known]

theorem hLedgerStatus_free {s : State} (unknown : s.shown.ledger.ckStart = none) (c : Taken) :
    hLedgerStatus c s = ({ s with freeCtr := s.freeCtr + 1 }, .reply s.shown.ledger.statusCode
      (s.shown.ledger.statusResult (Config.freeNat s.freeCtr))) := by
  simp only [hLedgerStatus, unknown]
  rfl

theorem hLedgerCheckpoint_asks {c : Taken} {s : State} (due : s.ckptTooSoon = false) (ok : s.durableRefusal = none) :
    hLedgerCheckpoint c s = ((s.startTask (some c.ident) c.pkt.quire .checkpoint).updLedger fun g =>
      { g with ckWanted := true, ckTasks := g.ckTasks ++ [s.nextTask] }, .accepted) := by
  simp only [hLedgerCheckpoint, due, ok]
  rfl

theorem hLedgerRead_page {c : Taken} {s : State} {size : Nat} {es : List (List Byte)} (known : c.u8 0 ≤ 5) (other : c.u8 0 ≠ 4)
    (whole : c.u32 12 = 0) (listed : s.readSection (c.u8 0) = (size, es)) (within : c.u64 4 < es.length) :
    hLedgerRead c s = (s, .reply .ok (let pg := pageOf es size readRoom (c.u64 4) (c.u16 2)
      readHeader (c.u8 0) pg.length es.length (c.u64 4) ++ pg.flatten)) := by
  simp [hLedgerRead, known.not_gt, other, whole, listed, within.not_ge]

theorem hLedgerRead_folio {c : Taken} {s : State} {b : List Byte} (folio : c.u8 0 = 4)
    (bytes : s.readFolio (c.u64 4) (c.u32 12) (c.u16 2) = some b) : hLedgerRead c s = (s, .reply .ok b) := by
  simp [hLedgerRead, folio, bytes]

theorem hTelemSubscribe_stages {c : Taken} {s : State} (few : c.u16 0 ≤ 128) (named : (subEntries c).any (fun x =>
      !linkOk x.2 || !s.presentIn s.stg x.1 || cGath x.1 = 63) = false) :
    hTelemSubscribe c s = volatileOk c (s.updVol fun v => { v with subs := subEntries c }) [] := by
  simp [hTelemSubscribe, few.not_gt, named]

theorem hTelemSnapshot_page {c : Taken} {s : State} {size : Nat} {es : List (List Byte)} (known : c.u8 0 ≤ 4)
    (listed : s.mirror.telemSection (c.u8 0) = (size, es)) (within : c.u16 2 < es.length) :
    hTelemSnapshot c s = (s, .reply .ok (let pg := pageOf es size 4064 (c.u16 2) (c.u16 4)
      le 6 s.mirror.tick ++ le 2 pg.length ++ pg.flatten)) := by
  simp [hTelemSnapshot, known.not_gt, listed, within.not_ge]

theorem hPowerBudget_durable {c : Taken} {s : State} (least : 600 ≤ c.u16 0) (most : c.u16 0 ≤ s.gradeMax)
    (free : s.awaiting .cap = false) : hPowerBudget c s = durable c s [.cap (c.u16 0)] none [] := by
  simp [hPowerBudget, least.not_gt, most.not_gt, free]

/-- Settles O22, clause by clause, each from what its handler answers. -/
theorem ledgerTelemetryPowerCommandsRun : Obligations.LedgerTelemetryPowerCommandsRun := by
  unfold Obligations.LedgerTelemetryPowerCommandsRun
  refine ⟨?since, ?free, ?checkpoint, ?page, ?folio, ?subscribe, ?snapshot, ?power, ?budget⟩
  case since =>
    intro s p k taken known a
    exact congrArg Host.Outcome.next (present_replies taken (hLedgerStatus_since known _))
  case free =>
    intro s p taken unknown a
    exact congrArg Host.Outcome.next (present_replies taken (hLedgerStatus_free unknown _))
  case checkpoint =>
    intro s p taken due ok a
    exact congrArg Host.Outcome.next (present_accepts taken (hLedgerCheckpoint_asks due ok))
  case page =>
    intro s p es size taken known other whole listed within
    exact congrArg Host.Outcome.next (present_replies taken
      (hLedgerRead_page (c := s.takenOf 0x0903 p) known other whole listed within))
  case folio =>
    intro s p b taken folio bytes
    exact congrArg Host.Outcome.next (present_replies taken (hLedgerRead_folio (c := s.takenOf 0x0903 p) folio bytes))
  case subscribe =>
    intro s p taken few named
    exact congrArg Host.Outcome.next (present_accepts taken (hTelemSubscribe_stages (c := s.takenOf 0x0B01 p) few named))
  case snapshot =>
    intro s p es size taken known listed within
    exact congrArg Host.Outcome.next (present_replies taken
      (hTelemSnapshot_page (c := s.takenOf 0x0B02 p) (s := s.accepted 0x0B02 p) known listed within))
  case power =>
    intro s p taken
    exact congrArg Host.Outcome.next (present_replies taken rfl)
  case budget =>
    intro s p taken least most free ok
    refine congrArg Host.Outcome.next ((present_taken s _ hPowerBudget p taken).trans ?_)
    rw [hPowerBudget_durable (c := s.takenOf 0x0C02 p) least most free]
    exact conclude_durable ok _ _ _

/-! ### The rows of the archive (R79, R100, R106, R107, R111, R475) -/

theorem execCheckpointTimer_due {s : State} (restored : s.ledger.restored = true)
    (due : 24 * 3600 * (Config.hz : Int) ≤ s.clk.cycles - s.ledger.ckStart.getD 0) :
    exec .checkpointTimer s = .next (s.updLedger fun g => { g with ckWanted := true }) := by
  simp only [exec, execCheckpointTimer, restored, due, decide_true, Bool.and_self, if_true]

/-- A checkpoint that may start begins on ARCHIVE-A with the image of the tip. -/
theorem execCheckpointStart_begins {s : State} (wanted : s.ledger.ckWanted = true) (due : s.ckptTooSoon = false)
    (idle : s.ledger.ckRun = none) (free : s.journalShut = false) (works : s.ledger.arcA.failed = false)
    (quiet : s.ledger.writing = none) : exec .checkpointStart s = .next (s.updLedger fun g =>
      { g.updArc .a (·.beginCkpt s.ckptImage) with
        ckWanted := false, ckFolios := 0, ckStart := some s.clk.cycles
        ckRun := some { image := s.ckptImage, dev := .a, doneA := false, doneB := false, sealing := false } }) := by
  simp [exec, execCheckpointStart, wanted, due, idle, free, works, quiet]

/-- An archive device with the verified copy of a checkpoint at its position (R107). -/
def ADev.copied (x : ADev) (c : Checkpoint) : ADev :=
  { x with ckpts := x.ckpts.filter (·.1 ≠ c.number % 8) ++ [(c.number % 8, c)], fails := 0 }

theorem mem_copied_ckpts (x : ADev) (c : Checkpoint) : (c.number % 8, c) ∈ (x.copied c).ckpts :=
  List.mem_append_right _ List.mem_cons_self

section
variable {s : State} {r : CkptRun} (running : s.ledger.ckRun = some r) (copying : r.sealing = false)
include running copying

/-- A verified copy on ARCHIVE-A has ARCHIVE-B's begin. -/
theorem execCheckpointCopyDone_first (dev : r.dev = .a) (other : s.ledger.arcB.failed = false) :
    exec (.checkpointCopyDone .a true) s = .next (s.updLedger fun g =>
      { g with arcA := g.arcA.copied r.image, arcB := g.arcB.beginCkpt r.image
               ckRun := some { r with doneA := true, dev := .b } }) := by
  have next : s.ledger.nextArc .a = true := by simp [Ledger.nextArc, other]
  simp only [exec, execCheckpointCopyDone, running, copying, dev]
  exact if_pos next

/-- A verified copy on ARCHIVE-B has the anchor due. -/
theorem execCheckpointCopyDone_last (dev : r.dev = .b) : exec (.checkpointCopyDone .b true) s =
    .next ((s.updLedger fun g => { g with arcB := g.arcB.copied r.image }).ckptAnchor { r with doneB := true }) := by
  simp only [exec, execCheckpointCopyDone, running, copying, dev]
  rfl

end

/-- A chunk that stands on ARCHIVE-A goes on to ARCHIVE-B. -/
theorem execArchiveWriteDone_chunk {s : State} {n slot off : Nat} {data : List Byte} {second a b : Bool} {js : List ArchiveJob}
    (job : s.ledger.jobs = .chunk n slot off data .a second a b :: js) (other : s.ledger.arcB.failed = false) :
    exec (.archiveWriteDone .a true) s = .next (s.updLedger fun g =>
      { g with arcA := g.arcA.putChunk slot off data, jobs := .chunk n slot off data .b false true b :: js }) := by
  simp [exec, execArchiveWriteDone, job, Ledger.nextArc, Ledger.updArc, other, State.updLedger]

/-- A reservation record that ARCHIVE-B verifies raises H, anchored and sealed. -/
theorem execArchiveWriteDone_reserve {s : State} {h : Tick} {a b : Bool} {js : List ArchiveJob}
    (job : s.ledger.jobs = .reserve h .b a b :: js) : exec (.archiveWriteDone .b true) s = .next (s.updLedger fun g =>
      { g.updArc .b (·.reserveIn h s.now) with
        anchor := { g.anchor with h := max h g.anchor.h }, sealedA := { g.sealedA with h := max h g.sealedA.h }, jobs := js }) := by
  simp [exec, execArchiveWriteDone, job, Ledger.nextArc, State.updLedger]

/-! #### The lane sample (R79, R111) -/

theorem stageOwn_ports (s : State) (objs : List Obj) : (s.stageOwn objs).ports = s.ports := by
  unfold State.stageOwn
  split <;> rfl

/-- The ports with the lanes of a sample (R111). -/
def State.lanesRead (s : State) (x : LaneSample) : List Port :=
  s.ports.mapIdx fun d (p : Port) => { p with lanes := (List.range 8).map fun i => x.lanes.getD (8 * d + i) laneZero }

theorem lanesRead_lanes {s : State} {d : Nat} (inside : d < s.ports.length) (x : LaneSample) (p : Port) :
    ((s.lanesRead x).getD d p).lanes = (List.range 8).map fun i => x.lanes.getD (8 * d + i) laneZero := by
  simp [State.lanesRead, List.getD_eq_getElem?_getD, inside]

/-- The sample that is due is what every port's lanes show; journaling it and what it advises touches no port. -/
theorem execLaneMarginSample_ports {s : State} (restored : s.ledger.restored = true) (run : s.clk.running = true)
    (turn : s.clk.phase = .drone) (due : s.laneDue = true) (x : LaneSample) :
    ∃ t : State, exec (.laneMarginSample x) s = .next t ∧ t.ports = s.lanesRead x := by
  have acts : ¬ (!s.ledger.restored || !s.clk.running || decide (s.clk.phase ≠ .drone) || !s.laneDue) = true := by
    simp [restored, run, turn, due]
  simp only [exec]
  unfold execLaneMarginSample
  rw [if_neg acts]
  extract_lets l ref adv new ps s1 s2 s3 all
  refine ⟨_, rfl, ?_⟩
  have sampled : s3.ports = s.lanesRead x := by
    refine List.foldlRecOn (motive := fun u : State => u.ports = s.lanesRead x) _ _ (stageHist_ports _ _ _) ?_
    exact fun u kept f _ => (addFault_ports u _).trans kept
  split
  · exact sampled
  · exact (stageOwn_ports _ _).trans sampled

/-- Settles O45, row by row. -/
theorem archiveRowsRun : Obligations.ArchiveRowsRun := by
  unfold Obligations.ArchiveRowsRun
  refine ⟨?timer, ?starts, ?first, ?last, ?chunk, ?reserve, ?lanes⟩
  case timer =>
    intro s restored due
    exact execCheckpointTimer_due restored due
  case starts =>
    intro s wanted due idle free works quiet
    exact ⟨_, _, execCheckpointStart_begins wanted due idle free works quiet, rfl, rfl, rfl, rfl, rfl, rfl, rfl⟩
  case first =>
    intro s r running copying dev other
    exact ⟨_, execCheckpointCopyDone_first running copying dev other, rfl, mem_copied_ckpts _ _⟩
  case last =>
    intro s r running copying dev
    exact ⟨_, execCheckpointCopyDone_last running copying dev, rfl, rfl, rfl, mem_copied_ckpts _ _⟩
  case chunk =>
    intro s n slot off data second a b js job other
    exact ⟨_, execArchiveWriteDone_chunk job other, rfl, rfl⟩
  case reserve =>
    intro s h a b js job
    exact ⟨_, execArchiveWriteDone_reserve job, rfl, rfl⟩
  case lanes =>
    intro s x restored run turn due
    obtain ⟨t, runs, ports⟩ := execLaneMarginSample_ports restored run turn due x
    refine ⟨t, runs, (exec_keeps runs).visible (by simp) rfl, fun d inside => ?_⟩
    unfold State.port
    rw [ports]
    exact lanesRead_lanes inside x _

/-! ### What restore and bring-up keep of themselves (R101, R449) -/

/-- How far bring-up and restore have come. -/
def State.course (s : State) : Boot × Bool × Bool := (s.boot, s.ledger.restored, s.ledger.restoring)

theorem course_foldl {α : Type} {f : State → α → State} (kept : ∀ s x, (f s x).course = s.course) (l : List α) (s : State) :
    (l.foldl f s).course = s.course :=
  List.foldlRecOn (motive := fun t : State => t.course = s.course) l f rfl fun t ih x _ => (kept t x).trans ih

@[simp] theorem stage_course (s : State) (r : DurRec) : (s.stage r).course = s.course := rfl

@[simp] theorem setDegraded_course (s : State) (fn : Nat) (b : Bool) : (s.setDegraded fn b).course = s.course := rfl

@[simp] theorem startTask_course (s : State) (i : Option CmdIdent) (q : QuireId) (k : TaskKind) :
    (s.startTask i q k).course = s.course := rfl

@[simp] theorem updTask_course (s : State) (id : Nat) (f : Task → Task) : (s.updTask id f).course = s.course := rfl

@[simp] theorem updQuireVol_course (s : State) (q : QuireId) (f : QuireVol → QuireVol) :
    (s.updQuireVol q f).course = s.course := rfl

@[simp] theorem freeFailure_course (s : State) : s.freeFailure.2.course = s.course := rfl

@[simp] theorem stageOwn_course (s : State) (objs : List Obj) : (s.stageOwn objs).course = s.course := by
  unfold State.stageOwn
  split <;> rfl

theorem stageHist_course (s : State) (h : HistRec) (n : Nat) : (s.stageHist h n).course = s.course := by
  unfold State.stageHist
  split
  · rfl
  · split <;> rfl

@[simp] theorem fault_course (s : State) (cls fn object : Nat) : (s.fault cls fn object).course = s.course := by
  unfold State.fault State.addFault
  dsimp only
  split
  · exact stageHist_course _ _ _
  · split <;> exact stageHist_course _ _ _

@[simp] theorem mapTo_course (s : State) (m : DiscMap) : (s.mapTo m).course = s.course := by
  unfold State.mapTo
  split
  · rfl
  · exact stageOwn_course _ _

/-! #### Notices to endpoints -/

theorem sendCtl_course (s : State) (kind : Nat) (dst : Coord) (body : List Byte) : (s.sendCtl kind dst body).course = s.course := by
  unfold State.sendCtl
  split
  · split <;> rfl
  · rfl

@[simp] theorem resumeAdmission_course (s : State) (q : QuireId) (eff : Tick) : (s.resumeAdmission q eff).course = s.course := by
  unfold State.resumeAdmission
  split
  · exact course_foldl (fun s c => sendCtl_course s _ c _) _ _
  · rfl

/-! #### Clusters and leaves that are replaced (R458, R464) -/

@[simp] theorem retireCluster_course (s : State) (rc : Nat) : (s.retireCluster rc).course = s.course := by
  unfold State.retireCluster
  extract_lets l objs s1 s2
  have zeroed : s1.course = s.course := by
    unfold s1
    split <;> rfl
  exact (stageOwn_course s2 _).trans ((setDegraded_course s1 _ _).trans zeroed)

theorem mendQuire_course (s : State) (q : QuireRec) : (s.mendQuire q).course = s.course := by
  unfold State.mendQuire
  extract_lets l new s1
  have degraded : s1.course = s.course := by
    unfold s1
    split <;> rfl
  split
  · rfl
  · split
    · exact degraded
    · exact (stageOwn_course _ _).trans degraded

@[simp] theorem mendAll_course (s : State) : s.mendAll.course = s.course := by
  unfold State.mendAll
  refine (course_foldl (fun s rc => ?_) _ _).trans (course_foldl mendQuire_course _ _)
  split
  · exact retireCluster_course _ _
  · rfl

/-! #### The parts of restore -/

@[simp] theorem checkMirror_course (s : State) : s.checkMirror.course = s.course := by
  unfold State.checkMirror
  extract_lets g was now s1 s2 s3
  have anchored : s1.course = s.course := by
    unfold s1
    split <;> rfl
  have lost : s2.course = s1.course := by
    unfold s2
    split
    · exact fault_course _ _ _ _
    · rfl
  have found : s3.course = s2.course := by
    unfold s3
    split
    · exact fault_course _ _ _ _
    · rfl
  exact (setDegraded_course _ _ _).trans ((found.trans lost).trans anchored)

@[simp] theorem restoreFaults_course (s : State) (cut : Bool) : (s.restoreFaults cut).course = s.course := by
  unfold State.restoreFaults
  dsimp only
  split <;> split <;> simp

theorem finishRebind_course (s : State) (b : RebindRec) : (s.finishRebind b).course = s.course := by
  unfold State.finishRebind
  dsimp only
  split
  · simp
  · split <;> simp

theorem finishRevoked_course (s : State) (n : Nat) : (s.finishRevoked n).course = s.course := by
  unfold State.finishRevoked
  extract_lets k s1 ident
  have noted : s1.course = s.course := by
    unfold s1
    split
    · exact fault_course _ _ _ _
    · rfl
  split
  · exact noted
  · dsimp only
    split
    · exact (stageOwn_course s1 _).trans noted
    · exact noted

@[simp] theorem settleCuts_course (s : State) : s.settleCuts.course = s.course := by
  unfold State.settleCuts
  refine (course_foldl (fun s k => ?_) _ _).trans ((course_foldl (fun s i => ?_) _ _).trans (course_foldl finishRebind_course _ _))
  · split
    · simp
    · rfl
  · dsimp only
    split
    · exact finishRevoked_course _ _
    · rfl

theorem zeroiseSlot_course (s : State) (n : Nat) : (s.zeroiseSlot n).course = s.course := rfl

theorem volumeReset_course (s : State) (eff : Nat) : (s.volumeReset eff).course = s.course := by
  unfold State.volumeReset
  exact (stageOwn_course _ _).trans (course_foldl (fun s i => zeroiseSlot_course s (i + 1)) _ _)

@[simp] theorem checkVolume_course (s : State) (recorded : Bool) : (s.checkVolume recorded).course = s.course := by
  unfold State.checkVolume
  dsimp only
  split
  · exact stageOwn_course _ _
  · split
    · exact volumeReset_course _ _
    · split <;> exact mapTo_course _ _

theorem fromCkpt_course (s : State) (c : Checkpoint) : (s.fromCkpt c).course = s.course := by
  unfold State.fromCkpt
  extract_lets missing s1 s2
  split
  · rfl
  · exact (course_foldl (fun s i => stage_course _ _) _ _).trans (course_foldl (fun s o => stageOwn_course _ _) _ _)

/-- The engine that restore rebuilds is restored (R101). -/
theorem rebuild_course (s : State) (r : Restored) : (s.rebuild r).course = (s.boot, true, false) := by
  unfold State.rebuild
  dsimp only
  split
  · exact fromCkpt_course _ _
  · rfl

theorem restore_course (s : State) : s.restore.course = (s.boot, true, false) := by
  have rest : ∀ u : State, u.restoreRest.course = u.course := fun _ => rfl
  unfold State.restore
  simp [rest, rebuild_course]

/-- A restore that nothing holds ends (R101, R437). -/
theorem execRestoreDone_restores {s : State} (begun : s.ledger.restoring = true) (free : s.ledger.held = false)
    (powered : s.power.holdup = false) (alive : s.faults.fatal = none) (run : s.clk.running = true) :
    exec .restoreDone s = .next s.restore := by
  simp [exec, execRestoreDone, begun, free, powered, alive, run]

/-! ### Bring-up (R450-R467, R479) -/

theorem inStage_iff {s : State} {st : Stage} : s.inStage st = true ↔ s.boot.stage = st ∧ s.faults.fatal = none := by
  simp [State.inStage]

/-- Only the registers and the interrupt state differ. -/
def SameBehind (s t : State) : Prop := ∃ r i, t = { s with regs := r, irq := i }

theorem noteRegs_behind (s : State) (old : Regs) : SameBehind s (s.noteRegs old) := by
  unfold State.noteRegs
  dsimp only
  split <;> split <;> exact ⟨_, _, rfl⟩

/-- What the live registers show moves nothing behind them (R604, R617). -/
theorem follow_behind (s : State) : SameBehind s s.follow := by
  have early : SameBehind s s.earlyRegs := by
    unfold State.earlyRegs
    split <;> exact ⟨_, _, rfl⟩
  obtain ⟨r, i, shown⟩ := early
  obtain ⟨r', i', noted⟩ := noteRegs_behind s.earlyRegs s.regs
  exact ⟨r', i', by rw [State.follow, noted, shown]⟩

@[simp] theorem follow_boot (s : State) : s.follow.boot = s.boot := by
  obtain ⟨r, i, frame⟩ := follow_behind s
  rw [frame]

@[simp] theorem follow_pins (s : State) : s.follow.pins = s.pins := by
  obtain ⟨r, i, frame⟩ := follow_behind s
  rw [frame]

@[simp] theorem follow_faults (s : State) : s.follow.faults = s.faults := by
  obtain ⟨r, i, frame⟩ := follow_behind s
  rw [frame]

/-! #### The root of trust and the choice of an image (R454, R455, R467, R479) -/

/-- A fatal fault leaves the stage of bring-up as it is. -/
theorem fatal_boot (s : State) (fn object : Nat) : (s.fatal fn object).boot = s.boot := by
  unfold State.fatal
  split
  · rfl
  · extract_lets e _ _ _ _ _ s1
    obtain ⟨g, n, frame⟩ := haltGroup_frame ((s1.fatalRegs fn).raiseNow 0x100) e
    rw [frame]
    rfl

section
variable {s : State} (turn : s.inStage .rotRom = true)
include turn

/-- A failed self-test of the root of trust halts bring-up and is fatal (R454, R467). -/
theorem execRotRomDone_failed {rom fuses : Bool} (failed : (!rom || !fuses) = true) :
    ∃ t : State, exec (.rotRomDone rom fuses) s = .next t ∧ (t.boot.stage, t.boot.error) = (.halted, 1) ∧
      t.faults.fatal.isSome = true := by
  obtain ⟨-, alive⟩ := inStage_iff.mp turn
  refine ⟨((s.haltBoot 1).fatal 0x0F 0).follow, ?_, ?_, ?_⟩
  · simp only [exec, execRotRomDone, turn, failed]
    rfl
  · rw [follow_boot, fatal_boot]
    rfl
  · obtain ⟨fatal, -⟩ := fatal_halts (s := s.haltBoot 1) alive (by simp [State.haltBoot]) 0x0F 0
    rw [follow_faults, fatal]
    rfl

/-- A colophon that fails halts bring-up with error 2 (R467, R469). -/
theorem execRotRomDone_unsigned {rom fuses : Bool} (passed : (!rom || !fuses) = false)
    (bad : colophonOk s.fuses.colophon = false) : exec (.rotRomDone rom fuses) s = .next (s.haltBoot 2).follow := by
  simp [exec, execRotRomDone, turn, passed, bad]

/-- Otherwise FW_VERIFY begins (R454). -/
theorem execRotRomDone_passed {rom fuses : Bool} (passed : (!rom || !fuses) = false)
    (good : colophonOk s.fuses.colophon = true) : exec (.rotRomDone rom fuses) s =
      .next ({ s.deriveDevice.toStage .fwVerify with fw := { s.fw with burning := s.bootBurn } } : State).follow := by
  simp [exec, execRotRomDone, turn, passed, good]

end

/-- FW_VERIFY has chosen an image, or stopped with NO_IMAGE (R467, R479). -/
def State.imageChosen (s : State) : Prop := s.boot.stage = .controlStart ∨ (s.boot.stage = .halted ∧ s.boot.error = 3)

theorem bootSlot_imageChosen (s : State) (k : Nat) : (s.bootSlot k).imageChosen := .inl rfl

theorem haltBoot_imageChosen (s : State) : (s.haltBoot 3).imageChosen := .inr ⟨rfl, rfl⟩

theorem selectBlind_imageChosen (s : State) : s.selectBlind.imageChosen := by
  unfold State.selectBlind
  extract_lets v slot
  cases slot with
  | none => exact haltBoot_imageChosen _
  | some k => exact bootSlot_imageChosen _ _

theorem selectImage_imageChosen (s : State) (w : AnchorWrite) : (s.selectImage w).imageChosen := by
  unfold State.selectImage
  extract_lets f floor
  split
  extract_lets s1
  split
  · exact haltBoot_imageChosen _
  · split
    · exact bootSlot_imageChosen _ _
    · split
      · split
        · exact bootSlot_imageChosen _ _
        · exact haltBoot_imageChosen _
      · exact haltBoot_imageChosen _

theorem execFwVerifyStageDone_imageChosen {s : State} (turn : s.inStage .fwVerify = true) (burnt : s.fw.burning = none)
    (w : AnchorWrite) : ∃ t : State, exec (.fwVerifyStageDone w) s = .next t ∧ t.imageChosen := by
  have chosen : ∀ u : State, u.imageChosen → u.follow.imageChosen := fun u h => by simpa [State.imageChosen] using h
  simp only [exec]
  unfold execFwVerifyStageDone
  rw [if_neg (by simp [turn, burnt])]
  split
  · exact ⟨_, rfl, chosen _ (selectBlind_imageChosen s)⟩
  · exact ⟨_, rfl, chosen _ (selectImage_imageChosen _ w)⟩

/-! #### The start of the control complex (R51, R456) -/

theorem latchRegs_behind (s : State) : SameBehind s s.latchRegs := ⟨_, s.irq, rfl⟩

theorem driveFaultN_frame (s : State) : ∃ p, s.driveFaultN = { s with pins := p } := ⟨_, rfl⟩

/-- Registers that are latched and noted, and FAULT_N, move neither the stage nor the clock nor the ledger. -/
theorem shown_frame (s : State) : ∃ r i p, (s.latchRegs.noteRegs s.regs).driveFaultN = { s with regs := r, irq := i, pins := p } := by
  obtain ⟨r, i, latched⟩ := latchRegs_behind s
  obtain ⟨r', i', noted⟩ := noteRegs_behind s.latchRegs s.regs
  obtain ⟨p, driven⟩ := driveFaultN_frame (s.latchRegs.noteRegs s.regs)
  exact ⟨r', i', p, by rw [driven, noted, latched]⟩

/-- A reservation that an anchor takes burns the marker and is H from then on (R51, R456, R485). -/
theorem reserveRun_anchored {ledA ledB : BusAnswer} (taken : anchorTaken ledA ledB = true) (s : State) (start : Tick) (a : Anchor)
    (arcA arcB : BusAnswer) : (s.reserveRun start a ledA ledB arcA arcB).reservation = start + 2 ^ 24 ∧
      (s.reserveRun start a ledA ledB arcA arcB).fuses.marker = true := by
  unfold State.reserveRun
  extract_lets h s1 s2 marked
  rw [if_pos taken]
  exact ⟨rfl, rfl⟩

/-- A control complex whose reservation an anchor takes runs, reserved above its index, and the cluster waves begin. -/
theorem execControlStart_runs {s : State} (turn : s.inStage .controlStart = true) {ledA ledB : BusAnswer}
    (taken : anchorTaken ledA ledB = true) (arcA arcB : BusAnswer) :
    ∃ t : State, exec (.controlStart ledA ledB arcA arcB) s = .next t ∧ t.boot.stage = .clusterWaves ∧ t.clk.running = true ∧
      t.power.clkN = 4 ∧ t.reservation = t.clk.now + 2 ^ 24 ∧ t.fuses.marker = true := by
  simp only [exec]
  unfold execControlStart
  rw [if_neg (by simp [turn])]
  extract_lets s1 s2 heard start a blank lost s3 s4 _ s5 dead s6 _ _ s7 _ s8 s9
  obtain ⟨reserved, marked⟩ := reserveRun_anchored taken s3 start a arcA arcB
  have lives : dead = false := by simp [dead, taken]
  have same : s6 = s5 := if_neg (by simp [lives])
  have begun : s7.boot.stage = .clusterWaves ∧ s7.clk.running = true ∧ s7.power.clkN = 4 ∧
      s7.reservation = s7.clk.now + 2 ^ 24 ∧ s7.fuses.marker = true := by
    unfold s7
    rw [lives, same]
    exact ⟨rfl, rfl, rfl, reserved, marked⟩
  have trial : ∃ w, s8 = { s7 with fw := w } := by
    unfold s8
    split <;> exact ⟨_, rfl⟩
  obtain ⟨w, window⟩ := trial
  obtain ⟨r, i, p, shown⟩ := shown_frame s9
  refine ⟨_, rfl, ?_⟩
  rw [shown]
  unfold s9
  rw [window]
  exact begun

/-! #### Cluster waves (R457, R458) -/

/-- A wave that is due powers the clusters of its row. -/
theorem execClusterWaveStart_due {s : State} {w : Nat} (turn : s.inStage .clusterWaves = true) (row : w < 10)
    (due : s.reached (usCycles 250 * w) = true)
    (order : w = 0 ∨ (s.clusters.getD (16 * w - 16) Cluster.init).powered = true) : exec (.clusterWaveStart w) s =
      .next { s with clusters := s.clusters.mapIdx fun i (c : Cluster) => if i / 16 = w then { c with powered := true } else c } := by
  have follows : (decide (w = 0) || (s.clusters.getD (16 * w - 16) Cluster.init).powered) = true := by simpa using order
  simp only [exec, execClusterWaveStart, turn, due, follows]
  exact if_neg (by simp [row])

/-- Outside the range of the clusters nothing is powered. -/
theorem powered_inside {s : State} {rc : Nat} (powered : (s.clusters.getD rc Cluster.init).powered = true) :
    rc < s.clusters.length := by
  by_contra out
  rw [List.getD_eq_default _ _ (Nat.not_lt.mp out)] at powered
  exact Bool.false_ne_true powered

/-- The waves that have ended are counted, and the last of them ends the stage (R457, R610). -/
def State.wavesCounted (s : State) : State :=
  let s := { s with boot := { s.boot with waves := s.wavesEnded } }
  if s.boot.waves = 10 then s.toStage .hbmTrain else s

/-- Counting the waves moves the stage and its count alone. -/
theorem wavesCounted_frame (s : State) :
    ∃ st, s.wavesCounted = { s with boot := { s.boot with stage := st, waves := s.wavesEnded } } := by
  unfold State.wavesCounted
  dsimp only
  split
  · exact ⟨_, rfl⟩
  · exact ⟨s.boot.stage, rfl⟩

section
variable {s : State} {rc : Nat} (turn : s.inStage .clusterWaves = true)
  (powered : (s.clusters.getD rc Cluster.init).powered = true) (waits : (s.clusters.getD rc Cluster.init).over = false)
include turn powered waits

theorem selftest_acts : ¬ (!s.inStage .clusterWaves || !(s.clusters.getD rc Cluster.init).powered ||
    (s.clusters.getD rc Cluster.init).over) = true := by
  rw [turn, powered, waits]
  decide

/-- A cluster that passes is counted, with a transient fault where it was tried once more. -/
theorem execClusterSelftestDone_passes : ∃ u : State, exec (.clusterSelftestDone rc true) s = .next u.wavesCounted ∧
    u.clusters = modAt s.clusters rc fun c => { c with passed := true } := by
  let v := { s with clusters := modAt s.clusters rc fun (c : Cluster) => { c with passed := true } }
  refine ⟨if (s.clusters.getD rc Cluster.init).tries = 1 then v.fault 1 0x04 rc else v,
    if_neg (selftest_acts turn powered waits), ?_⟩
  split
  · obtain ⟨f, g, i, frame⟩ := fault_frame v 1 0x04 rc
    rw [frame]
  · rfl

/-- A cluster that fails its first try is tried once more, in silence. -/
theorem execClusterSelftestDone_retries (first : (s.clusters.getD rc Cluster.init).tries = 0) :
    exec (.clusterSelftestDone rc false) s = .next ({ s with
      clusters := modAt s.clusters rc fun (c : Cluster) => { c with tries := c.tries + 1 } } : State).wavesCounted := by
  refine Eq.trans (if_neg (selftest_acts turn powered waits)) ?_
  simp only [first]
  rfl

end

/-! #### Training, the memory test and the leaves (R413, R459-R465) -/

/-- A stack that does not train halts bring-up with error 5, one that is not the colophon's with error 4 (R459, R467). -/
theorem execHbmTrainDone_judges {s : State} (turn : s.inStage .hbmTrain = true) (tr : List Bool) (ids : List (List Byte)) :
    ∃ t : State, exec (.hbmTrainDone tr ids) s = .next t ∧
    (t.boot.stage, t.boot.error) = (if !(List.range 8).all fun i => tr.getD i false then (.halted, 5)
      else if !(List.range 8).all fun i => ids.getD i [] = slice s.fuses.colophon (32 + 16 * i) 16 then (.halted, 4)
      else (.memTest, s.boot.error)) := by
  simp only [exec]
  unfold execHbmTrainDone
  rw [if_neg (by simp [turn])]
  split
  · exact ⟨_, rfl, rfl⟩
  · split <;> exact ⟨_, rfl, rfl⟩

theorem boot_of_course {s t : State} (h : t.course = s.course) : t.boot = s.boot := congrArg Prod.fst h

/-- A finding of the memory test leaves its depth (R463). -/
theorem memFound_deep (s : State) (f : MemFinding) : (s.memFound f).boot.deep = s.boot.deep := by
  unfold State.memFound
  split
  · rw [boot_of_course (fault_course s _ _ _)]
  · split
    · rfl
    · have retired := boot_of_course ((stageOwn_course (s.fault 2 0x05 f.leaf) [.retireLeaf f.leaf]).trans (fault_course s _ _ _))
      dsimp only
      rw [retired]

/-- The memory test ends with the depth it was chosen with, or deep where it found anything (R461-R464). -/
theorem execMemTestDone_ends {s : State} (turn : s.inStage .memTest = true) (fs : List MemFinding) :
    ∃ t : State, exec (.memTestDone fs) s = .next t ∧ t.boot.stage = .leafZero ∧
      t.boot.deep = (s.boot.deep || decide (fs ≠ [])) := by
  simp only [exec]
  unfold execMemTestDone
  rw [if_neg (by simp [turn])]
  extract_lets deep _ s1 s2 s3 s4
  have found : s2.boot.deep = deep :=
    List.foldlRecOn (motive := fun t : State => t.boot.deep = deep) _ _ rfl fun u kept f _ => (memFound_deep u f).trans kept
  have tested : s3.boot = s2.boot := by
    unfold s3
    split
    · exact boot_of_course (stageOwn_course s2 _)
    · rfl
  have mended : s4.boot = s3.boot := by
    unfold s4
    split
    · exact boot_of_course (mendAll_course s3)
    · rfl
  refine ⟨_, rfl, rfl, ?_⟩
  show s4.boot.deep = deep
  rw [mended, tested, found]

/-- Latching an event on ports moves neither the stage nor what is staged. -/
theorem latchAll_frame (on : List Nat) (e : Nat) (s : State) : ∃ ps, on.foldl (fun s d => s.latch d e) s = { s with ports := ps } := by
  refine List.foldlRecOn (motive := fun t : State => ∃ ps, t = { s with ports := ps }) _ _ ⟨s.ports, rfl⟩ ?_
  rintro _ ⟨ps, rfl⟩ d -
  exact ⟨_, rfl⟩

/-- The leaves are zero once the scrubber has written them all, and the ports' lanes train (R413, R464, R465). -/
theorem execLeafZeroDone_zeroes {s : State} (turn : s.inStage .leafZero = true) (restored : s.ledger.restored = true)
    (settled : s.val.quires.any (fun q => (s.stg.led.quire q.id).elim true fun o => o.leaves ≠ q.leaves) = false)
    (entropy : s.val.tenantLeaves = true → s.entropyReady = true)
    (written : ((List.range 380).filter fun x => !s.val.retiredLeaf.contains x).length * 2 ^ 30 ≤ s.stg.vol.scrubbed) :
    ∃ t : State, exec .leafZeroDone s = .next t ∧
      t.boot.stage = .laneTrain ∧ t.stg.vol.hbm = [] ∧ t.stg.vol.dirty = [] := by
  have seeded : (s.val.tenantLeaves && !s.entropyReady) = false := by
    cases tenants : s.val.tenantLeaves with
    | false => rfl
    | true => simp [entropy tenants]
  simp only [exec]
  unfold execLeafZeroDone
  extract_lets wait bytes s1 _ s2 on
  have unheld : wait = false := settled
  have all : ¬ s.stg.vol.scrubbed < bytes := Nat.not_lt.mpr written
  rw [if_neg (by simp [turn, restored, unheld, seeded, all])]
  obtain ⟨ps, frame⟩ := latchAll_frame on 14 s2
  exact ⟨_, rfl, by rw [frame], by rw [frame]; rfl, by rw [frame]; rfl⟩

/-- LANE_TRAIN ends when every enabled port is trained, or after its 3 s (R465). -/
theorem execLaneTrainDone_ends {s : State} (turn : s.inStage .laneTrain = true)
    (ended : (∀ d, d < 64 → portEnabled s.stg.led d = true → s.trained d = true) ∨
      s.reached (s.boot.laneAt + 3 * Config.hz) = true) :
    exec .laneTrainDone s = .next { s with boot := { s.boot with stage := .discovery, laneEnded := true } } := by
  have done : (((List.range 64).filter (portEnabled s.stg.led)).all s.trained || s.reached (s.boot.laneAt + 3 * Config.hz)) = true := by
    rcases ended with trained | late
    · refine Bool.or_eq_true_iff.mpr (.inl (List.all_eq_true.mpr fun d on => ?_))
      obtain ⟨inside, enabled⟩ := List.mem_filter.mp on
      exact trained d (List.mem_range.mp inside) enabled
    · exact Bool.or_eq_true_iff.mpr (.inr late)
  simp only [exec, execLaneTrainDone, turn, done, Bool.and_self, if_true]

/-- Settles O47, row by row. -/
theorem bringUpRuns : Obligations.BringUpRuns := by
  unfold Obligations.BringUpRuns
  refine ⟨?starts, ?rom, ?verify, ?control, ?wave, ?passes, ?retries, ?restore, ?train, ?test, ?leaves, ?lanes⟩
  case starts =>
    intro s st held
    refine ⟨_, if_neg (by simp [held]), ?_⟩
    simp
  case rom =>
    intro s rom fuses turn
    obtain ⟨-, alive⟩ := inStage_iff.mp turn
    cases failed : !rom || !fuses with
    | true =>
      obtain ⟨t, runs, halted, fatal⟩ := execRotRomDone_failed turn failed
      exact ⟨t, runs, halted, fatal⟩
    | false =>
      cases good : colophonOk s.fuses.colophon with
      | false =>
        refine ⟨_, execRotRomDone_unsigned turn failed good, by rw [follow_boot]; rfl, ?_⟩
        rw [follow_faults]
        exact congrArg Option.isSome alive
      | true =>
        refine ⟨_, execRotRomDone_passed turn failed good, by rw [follow_boot]; rfl, ?_⟩
        rw [follow_faults]
        exact congrArg Option.isSome alive
  case verify =>
    intro s w turn burnt
    exact execFwVerifyStageDone_imageChosen turn burnt w
  case control =>
    intro s ledB arcA arcB turn
    exact execControlStart_runs turn (by simp [anchorTaken]) arcA arcB
  case wave =>
    intro s w turn row due order
    refine ⟨_, execClusterWaveStart_due turn row due order, fun i inside => ?_, rfl⟩
    by_cases mine : i / 16 = w
    · simp [List.getD_eq_getElem?_getD, inside, mine]
    · simp [List.getD_eq_getElem?_getD, inside, mine]
  case passes =>
    intro s rc turn powered waits
    obtain ⟨u, runs, clusters⟩ := execClusterSelftestDone_passes turn powered waits
    obtain ⟨st, frame⟩ := wavesCounted_frame u
    refine ⟨_, runs, ?_, by rw [frame]; rfl⟩
    rw [frame]
    show (u.clusters.getD rc Cluster.init).passed = true
    rw [clusters, modAt_getD_self _ _ _ _ (powered_inside powered)]
  case retries =>
    intro s rc turn powered waits first
    refine ⟨_, execClusterSelftestDone_retries turn powered waits first, ?_⟩
    obtain ⟨st, frame⟩ := wavesCounted_frame
      { s with clusters := modAt s.clusters rc fun (c : Cluster) => { c with tries := c.tries + 1 } }
    rw [frame]
    refine ⟨?_, rfl⟩
    show ((modAt s.clusters rc _).getD rc Cluster.init).tries = 1
    rw [modAt_getD_self _ _ _ _ (powered_inside powered), first]
  case restore =>
    intro s begun free powered alive run
    have runs := execRestoreDone_restores begun free powered alive run
    have course := restore_course s
    simp only [State.course, Prod.mk.injEq] at course
    obtain ⟨-, restored, ended⟩ := course
    exact ⟨_, runs, restored, ended, (exec_keeps runs).visible (by simp) rfl⟩
  case train =>
    intro s tr ids turn
    exact execHbmTrainDone_judges turn tr ids
  case test =>
    intro s fs turn
    exact execMemTestDone_ends turn fs
  case leaves =>
    intro s turn restored settled entropy written
    obtain ⟨t, runs, stage, zero, clean⟩ := execLeafZeroDone_zeroes turn restored settled entropy written
    exact ⟨t, runs, stage, zero, clean, (exec_keeps runs).visible (by simp) rfl⟩
  case lanes =>
    intro s turn ended
    exact execLaneTrainDone_ends turn ended

end Sys2Proof.Machine
end

section
/-! PROOFS. The family of the Synen channel: how packets are read (R117, R121, R124), the order of the checks that refuse them
(R139, R140), what acceptance touches (R130, R131, R140), and the management Ethernet ports (R126, R127, R623). -/
namespace Sys2Proof.Machine

/-! ### Every step goes on (R140, R603) -/

/-- Settles O2: an idle block stays, and a command that waits is a row, each of which answers a next state. -/
theorem everyStepGoesOn : Obligations.EveryStepGoesOn := by
  unfold Obligations.EveryStepGoesOn
  intro s
  cases waiting : s.pending with
  | nil => exact ⟨s, by simp [step, waiting]⟩
  | cons c rest =>
    obtain ⟨t, runs, -⟩ := exec_answers c { s with pending := rest }
    exact ⟨t, by simp [step, waiting, runs]⟩

/-! ### Little-endian fields (R7, R8) -/

@[simp] theorem le_length (n x : Nat) : (le n x).length = n := by
  induction n generalizing x with
  | zero => rfl
  | succ n ih => simp [le, ih]

/-- The bytes of a number that fits spell it. -/
theorem fromLe_le {n x : Nat} (fits : x < 256 ^ n) : fromLe (le n x) = x := by
  induction n generalizing x with
  | zero => simp only [pow_zero, Nat.lt_one_iff] at fits; simp [le, fromLe, fits]
  | succ n ih =>
    have rest : fromLe (le n (x / 256)) = x / 256 := ih (Nat.div_lt_of_lt_mul (by rwa [← Nat.pow_succ']))
    simp only [le, fromLe, rest, BitVec.toNat_ofNat]
    omega

/-- Bytes that stand between others are read back. -/
theorem slice_between (before mid after : List Byte) :
    slice (before ++ (mid ++ after)) before.length mid.length = mid := by
  simp [slice]

/-- A number written behind `before` is read at its offset. -/
theorem field_between {l before after : List Byte} {off n x : Nat} (layout : l = before ++ (le n x ++ after))
    (place : before.length = off) (fits : x < 256 ^ n) : field l off n = x := by
  have read : slice l off n = le n x := by
    simpa [layout, place] using slice_between before (le n x) after
  rw [field, read, fromLe_le fits]

/-! ### A packet's bytes (R117) -/

section
variable (p : Pkt) (op : Nat) (tail : List Byte)

theorem version_encode : (slice (p.encode op ++ tail) 0 1).headD 0 = p.version := rfl

theorem flags_encode : (slice (p.encode op ++ tail) 1 1).headD 0 = p.flags := rfl

theorem opcode_encode (fits : op < 65536) : field (p.encode op ++ tail) 2 2 = op :=
  field_between (before := [p.version, p.flags]) rfl rfl fits

theorem seq_encode : field (p.encode op ++ tail) 4 4 = p.seq.toNat :=
  field_between (before := [p.version, p.flags] ++ le 2 op) rfl rfl p.seq.isLt

theorem declLen_encode (fits : p.declLen < 65536) : field (p.encode op ++ tail) 8 2 = p.declLen :=
  field_between (before := [p.version, p.flags] ++ le 2 op ++ le 4 p.seq.toNat) rfl rfl fits

theorem quire_encode (fits : p.quire < 65536) : field (p.encode op ++ tail) 10 2 = p.quire :=
  field_between (before := [p.version, p.flags] ++ le 2 op ++ le 4 p.seq.toNat ++ le 2 p.declLen)
    rfl rfl fits

theorem crc_encode : field (p.encode op ++ tail) 12 4 = p.crc.toNat :=
  field_between (before := p.header op) rfl rfl p.crc.isLt

theorem params_encode : (p.encode op ++ tail).drop 16 = p.params ++ tail := rfl
end

/-- A packet whose parameters are as long as it declares is read back from its bytes and what follows them, where so many bytes
were delivered (R117, R121, R124). -/
theorem parsePkt_encode {p : Pkt} {op n : Nat} (code : op < 65536) (len : p.declLen < 65536) (quire : p.quire < 65536)
    (whole : p.params.length = p.declLen) (room : 16 + p.declLen ≤ n) (tail : List Byte) :
    parsePkt p.transport p.ring n p.srcIp p.srcPort p.srcMac (p.encode op ++ tail) = (op, p) := by
  have inside : p.declLen ≤ n - 16 := by omega
  have params : (p.params ++ tail).take p.declLen = p.params := by rw [← whole, List.take_left]
  simp only [parsePkt, version_encode, flags_encode, opcode_encode p op tail code, seq_encode, declLen_encode p op tail len,
    quire_encode p op tail quire, crc_encode, params_encode, if_pos inside, params, BitVec.ofNat_toNat, BitVec.setWidth_eq]

/-- A row that is a command packet is well formed just when its packet is, and its opcode has two bytes (R117, R519). -/
theorem wf_of_packet {i : Instr} {op : Nat} {p : Pkt} (packet : i.packet = some (op, p)) : i.wf = p.wf ∧ op < 65536 := by
  cases i <;> cases packet <;> exact ⟨rfl, by decide⟩

/-- Settles O57: a well-formed packet's header fields fit their widths, so its bytes spell it. -/
theorem packetsReadAsWritten : Obligations.PacketsReadAsWritten := by
  unfold Obligations.PacketsReadAsWritten
  intro i op p n tail packet formed whole room
  obtain ⟨same, code⟩ := wf_of_packet packet
  rw [same] at formed
  simp only [Pkt.wf, Bool.and_eq_true, decide_eq_true_eq] at formed
  obtain ⟨⟨⟨⟨-, len⟩, quire⟩, -⟩, -⟩ := formed
  exact parsePkt_encode code len quire whole room tail

/-! ### The checks in their order (R131, R139, R140) -/

/-- A packet that the intake has reached is read. -/
theorem exec_packet_read {i : Instr} {op : Nat} {p : Pkt} {s : State} (packet : i.packet = some (op, p))
    (due : s.readsNow op p = true) : ∃ h, exec i s = .next ((s.turn p).read op h p) := by
  obtain ⟨h, runs⟩ := exec_packet packet s
  exact ⟨h, by simpa [State.present, due] using runs⟩

/-- Check 1: the packet has not the parameters it declares, or declares more than 4,080 bytes. -/
abbrev lengthBad (p : Pkt) : Prop := p.params.length ≠ p.declLen ∨ 4080 < p.declLen

/-- Check 2: the CRC is not that of the header and the parameters. -/
abbrev crcBad (op : Nat) (p : Pkt) : Prop := crc32c (p.header op ++ p.params) ≠ p.crc

/-- Check 3: another version, or in a ring another channel's flags. -/
abbrev headerBad (p : Pkt) : Prop := p.version ≠ 1 ∨ (p.transport = .mailbox ∧ p.flags.toNat % 8 ≠ p.ring)

section
variable {a : State} {op : Nat} {p : Pkt}

/-- Checks 1 to 4 decide in their order. -/
theorem screen_eq : screen a op p =
    if lengthBad p then some .badLength
    else if crcBad op p then some .badCrc
    else if headerBad p then some .badParam
    else if chanAccepts a op p = false then some .notPermitted
    else none := by
  simp only [screen, Bool.or_eq_true, Bool.and_eq_true, decide_eq_true_eq, Bool.not_eq_true']

theorem screen_badLength (len : lengthBad p) : screen a op p = some .badLength := by
  rw [screen_eq, if_pos len]

theorem screen_badCrc (len : ¬ lengthBad p) (crc : crcBad op p) : screen a op p = some .badCrc := by
  rw [screen_eq, if_neg len, if_pos crc]

theorem screen_badParam (len : ¬ lengthBad p) (crc : ¬ crcBad op p) (hdr : headerBad p) :
    screen a op p = some .badParam := by
  rw [screen_eq, if_neg len, if_neg crc, if_pos hdr]

theorem screen_notPermitted (len : ¬ lengthBad p) (crc : ¬ crcBad op p) (hdr : ¬ headerBad p)
    (closed : chanAccepts a op p = false) : screen a op p = some .notPermitted := by
  rw [screen_eq, if_neg len, if_neg crc, if_neg hdr, if_pos closed]

theorem screen_passed (good : ¬ (lengthBad p ∨ crcBad op p ∨ headerBad p ∨ chanAccepts a op p = false)) :
    screen a op p = none := by
  obtain ⟨len, crc, hdr, opened⟩ : ¬ lengthBad p ∧ ¬ crcBad op p ∧ ¬ headerBad p ∧ ¬ chanAccepts a op p = false := by
    simpa only [not_or] using good
  rw [screen_eq, if_neg len, if_neg crc, if_neg hdr, if_neg opened]

variable (h : Handler)

theorem read_screened {st : Status} (refused : screen a op p = some st) : a.read op h p = a.answer op p st := by
  simp [State.read, refused]

variable (passed : screen a op p = none)
include passed

theorem read_stale (old : seqCheck a op p = .stale) : a.read op h p = a.answer op p .badSequence := by
  simp [State.read, passed, old]

theorem read_resent {e : CacheEntry} {r : Reply} (again : seqCheck a op p = .resend e) (has : e.last = some r) :
    a.read op h p = a.queueSeal { r with
      cached := true, transport := p.transport, ip := p.srcIp, port := p.srcPort, mac := p.srcMac } := by
  simp [State.read, passed, again, has]

theorem read_unanswered {e : CacheEntry} (again : seqCheck a op p = .resend e) (pending : e.last = none) :
    a.read op h p = a := by
  simp [State.read, passed, again, pending]

theorem read_afterFatal (new : seqCheck a op p = .fresh) (fatal : a.faults.fatal.isSome = true)
    (other : alwaysServed op = false) : a.read op h p = a.answer op p .lastingFault := by
  simp [State.read, passed, new, fatal, other]

/-- A packet that fails a check of the opcode table is taken in and answered so. -/
theorem read_tabled {st : Status} (new : seqCheck a op p = .fresh)
    (served : a.faults.fatal = none ∨ alwaysServed op = true) (refused : tableCheck a op p.chan p = some st) :
    a.read op h p = answered (a.takenOf op p) ((a.take op p false).notOpened op p) st [] := by
  have goesOn : (a.faults.fatal.isSome && !alwaysServed op) = false := by
    rcases served with sound | always
    · simp [sound]
    · simp [always]
  simp only [State.read, passed, new, goesOn, refused]
  rfl
end

/-- The command is the same to its handler before and after its packet's turn. -/
theorem takenOf_turn (s : State) (op : Nat) (p : Pkt) : (s.turn p).takenOf op p = s.takenOf op p := by
  simp only [State.takenOf, turn_epoch]
  rfl

/-- Settles O58: each clause is what `State.read` does at the check that decides. -/
theorem checksRefuseInOrder : Obligations.ChecksRefuseInOrder := by
  unfold Obligations.ChecksRefuseInOrder
  intro i op p s packet due
  obtain ⟨h, runs⟩ := exec_packet_read packet due
  rw [runs]
  refine ⟨?length, ?crc, ?header, ?channel, ?stale, ?resent, ?unanswered, ?fatal, ?table⟩
  case length => exact fun len => congrArg _ (read_screened h (screen_badLength len))
  case crc => exact fun len crc => congrArg _ (read_screened h (screen_badCrc len crc))
  case header => exact fun len crc hdr => congrArg _ (read_screened h (screen_badParam len crc hdr))
  case channel =>
    exact fun len crc hdr closed => congrArg _ (read_screened h (screen_notPermitted len crc hdr closed))
  case stale => exact fun good old => congrArg _ (read_stale h (screen_passed good) old)
  case resent => exact fun e r good again has => congrArg _ (read_resent h (screen_passed good) again has)
  case unanswered => exact fun e good again pending => congrArg _ (read_unanswered h (screen_passed good) again pending)
  case fatal => exact fun good new fatal other => congrArg _ (read_afterFatal h (screen_passed good) new fatal other)
  case table =>
    intro st good new served refused
    rw [read_tabled h (screen_passed good) new served refused, takenOf_turn]
    rfl

/-! ### Acceptance (R130, R131, R140) -/

theorem chan_updChan_self {s : State} {c : Nat} (inside : c < s.chans.length) (f : Channel → Channel) :
    (s.updChan c f).chan c = f (s.chan c) :=
  modAt_getD_self _ _ _ _ inside

theorem chan_updChan_other (s : State) {c d : Nat} (other : d ≠ c) (f : Channel → Channel) :
    (s.updChan c f).chan d = s.chan d :=
  modAt_getD_other _ _ _ _ _ other

theorem accepted_chan_other (s : State) (op : Nat) (p : Pkt) {c : Nat} (other : c ≠ p.chan) :
    (s.accepted op p).chan c = s.chan c :=
  (chan_updChan_other _ other _).trans (chan_updChan_other s other _)

/-- Of the channel's own state acceptance counts one more command taken in, and only a chan.open leaves the baseline. -/
theorem accepted_chan_self {s : State} {p : Pkt} (inside : p.chan < s.chans.length) (op : Nat) :
    ((s.accepted op p).chan p.chan).taken = (s.chan p.chan).taken + 1 ∧
      ((s.accepted op p).chan p.chan).baseline =
        if op = 0x0D01 ∧ p.chan ≠ 0 then (s.chan p.chan).baseline else some p.seq := by
  have still : p.chan < (s.turn p).chans.length := by rwa [State.turn, updChan_chans, modAt_length]
  have turned : (s.turn p).chan p.chan = { s.chan p.chan with agenda := (s.chan p.chan).agenda.tail } :=
    chan_updChan_self inside _
  rw [State.accepted, State.take, chan_updChan_self still, turned]
  simp

/-- Settles O60: acceptance is the turn and the taking in, two changes of the packet's channel. -/
theorem acceptanceTouchesTheChannel : Obligations.AcceptanceTouchesTheChannel := by
  unfold Obligations.AcceptanceTouchesTheChannel
  intro s op p _
  refine ⟨rfl, fun c other => accepted_chan_other s op p other, fun inside => ?counted, fun inside plain => ?baseline⟩
  case counted =>
    obtain ⟨counted, -⟩ := accepted_chan_self inside op
    exact counted
  case baseline =>
    have keepsNone : ¬ (op = 0x0D01 ∧ p.chan ≠ 0) := by tauto
    obtain ⟨-, baseline⟩ := accepted_chan_self inside op
    rwa [if_neg keepsNone] at baseline

/-! ### The management ports (R126, R127, R623) -/

@[simp] theorem EthPort.count_arp (e : EthPort) (i n : Nat) : (e.count i n).arp = e.arp := rfl
@[simp] theorem EthPort.count_sent (e : EthPort) (i n : Nat) : (e.count i n).sent = e.sent := rfl
@[simp] theorem EthPort.count_asks (e : EthPort) (i n : Nat) : (e.count i n).asks = e.asks := rfl
@[simp] theorem EthPort.one_arp (e : EthPort) (i : Nat) : (e.one i).arp = e.arp := rfl
@[simp] theorem EthPort.one_sent (e : EthPort) (i : Nat) : (e.one i).sent = e.sent := rfl
@[simp] theorem EthPort.put_arp (e : EthPort) (x : EthOut) : (e.put x).arp = e.arp := rfl

/-- There are two management ports. -/
theorem port_of_ethLive {s : State} {k : Nat} (live : s.ethLive k = true) : k < 2 := by
  simp only [State.ethLive, Bool.and_eq_true, decide_eq_true_eq] at live
  exact live.2

/-- A change of a port touches the ports alone. -/
theorem updEth_frame (s : State) (k : Nat) (f : EthPort → EthPort) :
    ∃ e0 e1, s.updEth k f = { s with eth0 := e0, eth1 := e1 } := by
  unfold State.updEth
  split
  · exact ⟨_, s.eth1, rfl⟩
  · split
    · exact ⟨s.eth0, _, rfl⟩
    · exact ⟨s.eth0, s.eth1, rfl⟩

@[simp] theorem ownIp_updEth (s : State) (k j : Nat) (f : EthPort → EthPort) : (s.updEth k f).ownIp j = s.ownIp j := by
  obtain ⟨_, _, frame⟩ := updEth_frame s k f
  rw [frame]
  rfl

@[simp] theorem updEth_clk (s : State) (k : Nat) (f : EthPort → EthPort) : (s.updEth k f).clk = s.clk := by
  obtain ⟨_, _, frame⟩ := updEth_frame s k f
  rw [frame]

@[simp] theorem updEth_chans (s : State) (k : Nat) (f : EthPort → EthPort) : (s.updEth k f).chans = s.chans := by
  obtain ⟨_, _, frame⟩ := updEth_frame s k f
  rw [frame]

theorem eth_updEth {k : Nat} (port : k < 2) (s : State) (f : EthPort → EthPort) : (s.updEth k f).eth k = f (s.eth k) := by
  obtain rfl | rfl : k = 0 ∨ k = 1 := by omega
  · rfl
  · rfl

theorem updEth_updEth (s : State) (k : Nat) (f g : EthPort → EthPort) :
    (s.updEth k f).updEth k g = s.updEth k fun e => g (f e) := by
  unfold State.updEth
  split
  · rfl
  · split <;> rfl

/-! #### ARP (R127) -/

theorem execArpRequestRx_live {s : State} {port : Nat} (live : s.ethLive port = true) (target sender : Ip) (mac : Nat) :
    execArpRequestRx port target sender mac s = .next (if s.ownIp port = some target then
      s.updEth port fun e => ((e.count 0 arpBytes).one 12).put (.arpAnswer sender mac)
    else s.updEth port (·.count 0 arpBytes)) := by
  simp only [execArpRequestRx, live, Bool.not_true, Bool.false_eq_true, if_false, ownIp_updEth, updEth_updEth]

section
variable {s : State} {port : Nat} {sender : Ip} (live : s.ethLive port = true) (mac : Nat)
include live

/-- The frame of a reply is counted before its sender is looked up. -/
theorem asks_counted : ((s.updEth port (·.count 0 arpBytes)).eth port).asks = (s.eth port).asks := by
  rw [eth_updEth (port_of_ethLive live), EthPort.count_asks]

theorem execArpReplyRx_asked (asked : (s.eth port).asks.contains sender = true) :
    execArpReplyRx port sender mac s = .next ((s.updEth port fun e =>
      { (e.count 0 arpBytes).one 12 with arp := lastN 64 (e.arp.filter (·.1 ≠ sender) ++ [(sender, mac, s.clk.cycles)])
                                         asks := e.asks.filter (· ≠ sender) }).sendHeld sender) := by
  simp only [execArpReplyRx, live, asks_counted live, asked, Bool.not_true, Bool.false_eq_true, if_false, if_true,
    updEth_updEth, updEth_clk, EthPort.count_arp, EthPort.count_asks]

theorem execArpReplyRx_unasked (unasked : (s.eth port).asks.contains sender = false) :
    execArpReplyRx port sender mac s = .next (s.updEth port (·.count 0 arpBytes)) := by
  simp only [execArpReplyRx, live, asks_counted live, unasked, Bool.not_true, Bool.false_eq_true, if_false]
end

/-- An entry whose time is over leaves the cache, and only the ports change, whether or not its address is asked for again. -/
theorem execArpEntryExpiry_drops {s : State} {port : Nat} {addr : Ip} {mac at_ : Nat}
    (held : (addr, mac, at_) ∈ (s.eth port).arp) (past : s.reached (at_ + 300 * Config.hz) = true) : ∃ f,
    execArpEntryExpiry port addr s = .next (s.updEth port f) ∧
      (f (s.eth port)).arp = (s.eth port).arp.filter (·.1 ≠ addr) := by
  have due : ((s.eth port).arp.any fun x => x.1 = addr && s.reached (x.2.2 + 300 * Config.hz)) = true :=
    List.any_eq_true.mpr ⟨_, held, by simp [past]⟩
  unfold execArpEntryExpiry
  rw [if_neg (by simp [due])]
  extract_lets used dropped
  split
  · exact ⟨_, congrArg _ (updEth_updEth s ..), rfl⟩
  · exact ⟨fun e => { e with arp := e.arp.filter (·.1 ≠ addr) }, rfl, rfl⟩

/-! #### Discarded frames (R125, R623) -/

/-- The counters a discarded frame moves. -/
def EthPort.discard (e : EthPort) (port : Nat) (why : EthDiscard) (bytes : Nat) : EthPort :=
  let e := if why = .fcs then e else e.count 0 bytes
  if port = 0 && why = .source then e else e.one (discardIndex why)

theorem EthPort.discard_frame (e : EthPort) (port : Nat) (why : EthDiscard) (bytes : Nat) :
    ∃ c, e.discard port why bytes = { e with counters := c } := by
  unfold EthPort.discard
  split <;> split <;> exact ⟨_, rfl⟩

/-- A discarded frame moves counters, and on channel 0 in a session SEC_DISCARD where it is a secured message (R138, R614). -/
theorem execEthFrameDiscard_live {s : State} {port : Nat} (live : s.ethLive port = true) (why : EthDiscard) (bytes : Nat) :
    ∃ cs, execEthFrameDiscard port why bytes s =
      .next { s.updEth port (·.discard port why bytes) with chans := cs } ∧ (why ≠ .secured → cs = s.chans) := by
  simp only [execEthFrameDiscard, live, Bool.not_true, Bool.false_eq_true, if_false]
  split
  next secured =>
    simp only [Bool.and_eq_true, decide_eq_true_eq] at secured
    exact ⟨_, rfl, fun other => absurd secured.1.1 other⟩
  next => exact ⟨(s.updEth port (·.discard port why bytes)).chans, rfl, fun _ => updEth_chans ..⟩

/-- Settles O27, row by row. -/
theorem ethernetRowsRun : Obligations.EthernetRowsRun := by
  unfold Obligations.EthernetRowsRun
  refine ⟨?request, ?reply, ?unasked, ?discard, ?linkUp, ?expiry⟩
  case request => exact fun s port target sender mac live => execArpRequestRx_live live target sender mac
  case reply => exact fun s port sender mac live asked => execArpReplyRx_asked live mac asked
  case unasked => exact fun s port sender mac live unasked => execArpReplyRx_unasked live mac unasked
  case discard =>
    intro s port why bytes live
    obtain ⟨cs, runs, others⟩ := execEthFrameDiscard_live live why bytes
    obtain ⟨e0, e1, frame⟩ := updEth_frame s port (·.discard port why bytes)
    obtain ⟨c, counted⟩ := (s.eth port).discard_frame port why bytes
    have here : ({ s.updEth port (·.discard port why bytes) with chans := cs } : State).eth port =
        { s.eth port with counters := c } := (eth_updEth (port_of_ethLive live) s _).trans counted
    exact ⟨_, runs, by rw [here], by rw [here], by rw [frame], others⟩
  case linkUp =>
    intro s port live down
    simp [exec, execEthLinkUp, live, down]
  case expiry =>
    intro s port addr mac at_ two held past
    obtain ⟨f, runs, dropped⟩ := execArpEntryExpiry_drops held past
    obtain ⟨e0, e1, frame⟩ := updEth_frame s port f
    exact ⟨_, runs, by rw [eth_updEth two, dropped], by rw [frame]⟩

end Sys2Proof.Machine
end

section
/-! PROOFS. The family of discovery and position: the commands of identity, position and discovery (R145-R148, R524-R529), the
rounds of a scan (R158), the control packets of endpoints and directors (R165, R200, R214, R234, R494-R511), and the events of ports
(R163, R165, R589). -/
namespace Sys2Proof.Machine

/-! ### Identity and position (R145-R148, R524-R526) -/

/-- A pos.assign of the volume in effect is OK, and changes nothing. -/
theorem hPosAssign_same {c : Taken} {s : State} (ok : posAssignRefusal c s = none) (same : c.u8 0 = effVolume s.boot s.val) :
    hPosAssign c s = volatileOk c s [] := by
  simp only [hPosAssign, ok, if_pos same]

/-- A pos.assign of another volume is durable, with the map it clears. -/
theorem hPosAssign_other {c : Taken} {s : State} (ok : posAssignRefusal c s = none) (other : c.u8 0 ≠ effVolume s.boot s.val) :
    hPosAssign c s = durable c s [.position (some (c.u8 0)) (c.u8 0) s.val.softLock, .map (s.val.map.cleared s.val.manifest)]
      none [] := by
  simp only [hPosAssign, ok, if_neg other]

theorem hPosLock_durable {c : Taken} {s : State} (ok : posLockRefusal c s = none) :
    hPosLock c s = durable c s [.position s.val.assigned s.val.volume (c.u8 0 = 1)] none [] := by
  simp only [hPosLock, ok]

/-- Settles O6, clause by clause, each from what its handler answers. -/
theorem identityAndPositionCommandsRun : Obligations.IdentityAndPositionCommandsRun := by
  unfold Obligations.IdentityAndPositionCommandsRun
  refine ⟨?caps, ?attest, ?assignSame, ?assignOther, ?lock⟩
  case caps =>
    intro s p taken
    exact congrArg Host.Outcome.next (present_replies (h := hIdentCaps) taken rfl)
  case attest =>
    intro s p taken
    exact congrArg Host.Outcome.next (present_accepts (h := hIdentAttest) taken rfl)
  case assignSame =>
    intro s p taken ok same
    exact congrArg Host.Outcome.next (present_accepts taken (hPosAssign_same ok same))
  case assignOther =>
    intro s p taken ok other works
    refine congrArg Host.Outcome.next ((present_taken s _ hPosAssign p taken).trans ?_)
    rw [hPosAssign_other ok other]
    exact conclude_durable works _ _ _
  case lock =>
    intro s p taken ok works
    refine congrArg Host.Outcome.next ((present_taken s _ hPosLock p taken).trans ?_)
    rw [hPosLock_durable ok]
    exact conclude_durable works _ _ _

/-! ### Discovery (R149, R182, R523, R527-R529) -/

/-- Only the units, what goes out to them, and the port it goes out on differ: what asking units can change. -/
def UnitsAsked (s t : State) : Prop :=
  ∃ us out hold n e, t = { s with ocs := { s.ocs with units := us, out := out, hold := hold, nextSeq := n }, eth1 := e }

theorem UnitsAsked.refl (s : State) : UnitsAsked s s := ⟨s.ocs.units, s.ocs.out, s.ocs.hold, s.ocs.nextSeq, s.eth1, rfl⟩

theorem UnitsAsked.trans {a b c : State} (first : UnitsAsked a b) (second : UnitsAsked b c) : UnitsAsked a c := by
  obtain ⟨_, _, _, _, _, rfl⟩ := first
  obtain ⟨_, _, _, _, _, rfl⟩ := second
  exact ⟨_, _, _, _, _, rfl⟩

theorem UnitsAsked.updUnit (s : State) (u : Nat) (f : OcsUnit → OcsUnit) : UnitsAsked s (s.updUnit u f) :=
  ⟨_, s.ocs.out, s.ocs.hold, s.ocs.nextSeq, s.eth1, rfl⟩

/-- A message to a unit goes out, or waits for the unit's address (R127). -/
theorem UnitsAsked.putOcs (s : State) (m : OcsMsg) : UnitsAsked s (s.putOcs m) := by
  unfold State.putOcs
  dsimp only
  split
  · exact ⟨s.ocs.units, _, s.ocs.hold, s.ocs.nextSeq, _, rfl⟩
  · exact ⟨s.ocs.units, s.ocs.out, _, s.ocs.nextSeq, _, rfl⟩

theorem UnitsAsked.sendOcs (s : State) (u type : Nat) (body : List Byte) : UnitsAsked s (s.sendOcs u type body) := by
  unfold State.sendOcs
  split
  · exact .refl s
  · exact .trans ⟨s.ocs.units, s.ocs.out, s.ocs.hold, _, s.eth1, rfl⟩ (.putOcs _ _)

theorem UnitsAsked.fold {f : State → Nat → State} (each : ∀ s u, UnitsAsked s (f s u)) (us : List Nat) (s : State) :
    UnitsAsked s (us.foldl f s) :=
  List.foldlRecOn us f (motive := UnitsAsked s) (.refl s) fun _ asked u _ => asked.trans (each _ u)

/-- A scan that nothing refuses is a task, clears the identifiers of its planes' units, asks those units, and is due on its
planes. -/
theorem hDiscScan_starts {c : Taken} {s : State} (ok : discScanRefusal c s = none) :
    let planes := bitsOf (c.u8 0) 4
    let us := planes.flatMap (unitsOf s.val.manifest)
    ∃ t : State, hDiscScan c s = (t, .accepted) ∧
      t.tasks = (s.startTask (some c.ident) c.pkt.quire (.scan (c.u8 0))).tasks ∧
      t.ocs.scanDue = s.ocs.scanDue ++ planes.map (fun p => (p, some s.nextTask)) ∧
      t.ledger.unbuilt = s.ledger.unbuilt ++ [durRec c
        [.map { s.val.map with unitIds := s.val.map.unitIds.mapIdx fun u x => if us.contains u then none else x }]
        none none none] ∧ t.vis = s.vis := by
  unfold hDiscScan
  rw [ok]
  extract_lets planes us id m1 m2 r s1 s2 due
  obtain ⟨units, out, hold, n, e, frame⟩ : UnitsAsked s1 s2 :=
    .fold (fun s u => (UnitsAsked.updUnit s u _).trans (.sendOcs _ u 0x01 [])) us s1
  clear_value s2
  subst frame
  exact ⟨_, rfl, rfl, rfl, rfl, rfl⟩

theorem hDiscMap_page {c : Taken} {s : State} {size : Nat} {es : List (List Byte)} (known : c.u8 0 ≤ 4)
    (listed : s.mapSection (c.u8 0) = (size, es)) (within : c.u16 2 < es.length) :
    hDiscMap c s = (s, .reply .ok (let pg := pageOf es size 4064 (c.u16 2) (c.u16 4)
      le 1 (c.u8 0) ++ le 1 0 ++ le 2 (c.u16 2) ++ le 2 pg.length ++ le 2 es.length ++ pg.flatten)) := by
  simp [hDiscMap, known.not_gt, listed, within.not_ge]

section
variable {c : Taken} {s : State}

/-- A chunk that leaves the image unfinished is kept with those before it. -/
theorem hDiscManifest_more {x : Staging} (chunk : chunkStep s.disc.manifest (c.u32 4) (c.pkt.params.drop 8)
      (fun n => 5312 ≤ n && n ≤ 9536) = .more x) :
    hDiscManifest c s = volatileOk c { s with disc := { s.disc with manifest := some x } } [] := by
  simp only [hDiscManifest, chunk]

/-- A whole image that nothing refuses is durable, with the map that is adopted to it. -/
theorem hDiscManifest_whole {b : List Byte} (chunk : chunkStep s.disc.manifest (c.u32 4) (c.pkt.params.drop 8)
      (fun n => 5312 ≤ n && n ≤ 9536) = .whole b)
    (ok : manifestRefusal { s with disc := { s.disc with manifest := none } } b = none) :
    hDiscManifest c s = durable c { s with disc := { s.disc with manifest := none } }
      [.manifest (some (parseManifest b)), .map (s.val.map.adopt s.val.manifest (parseManifest b))] none [] := by
  simp only [hDiscManifest, chunk, ok]
  rfl

end

/-- Settles O10, clause by clause, each from what its handler answers. -/
theorem discoveryCommandsRun : Obligations.DiscoveryCommandsRun := by
  unfold Obligations.DiscoveryCommandsRun
  refine ⟨?scan, ?map, ?chunk, ?whole⟩
  case scan =>
    intro s p taken ok a ps us
    obtain ⟨t, answer, tasks, due, staged, view⟩ := hDiscScan_starts ok
    exact ⟨t, congrArg Host.Outcome.next (present_accepts taken answer), tasks, due, staged, view⟩
  case map =>
    intro s p es size taken known listed within
    exact congrArg Host.Outcome.next (present_replies taken
      (hDiscMap_page (c := s.takenOf 0x0204 p) (s := s.accepted 0x0204 p) known listed within))
  case chunk =>
    intro s p x taken chunk
    exact congrArg Host.Outcome.next (present_accepts taken (hDiscManifest_more (c := s.takenOf 0x0205 p) chunk))
  case whole =>
    intro s p b taken chunk a ok works
    refine congrArg Host.Outcome.next ((present_taken s _ hDiscManifest p taken).trans ?_)
    rw [hDiscManifest_whole (c := s.takenOf 0x0205 p) chunk ok]
    exact conclude_durable works _ _ _

/-! ### The rounds of a scan (R158) -/

/-- A round whose time ends with this very tick has not ended yet. -/
theorem execScanRoundEnd_last_tick {s : State} {plane r : Nat} {task : Option Nat} {pairs : List (PortRef × PortRef)}
    {ch : PlaneChange} (planned : s.ocs.planes.getD plane none = some ch) (kind : ch.kind = .scan task r pairs)
    (sent : ch.sent = true) (last : s.clk.cycles + s.clk.period = ch.sentAt + s.roundCycles plane) :
    exec (.scanRoundEnd plane) s = .next s := by
  obtain ⟨k, parts, sent, sentAt⟩ := ch
  subst kind sent
  simp only [exec, execScanRoundEnd, planned]
  exact if_pos (by simp [last])

/-- A scan has two rounds at least. -/
theorem one_lt_scanRounds (s : State) (plane : Nat) : 1 < s.scanRounds plane := by
  unfold State.scanRounds
  split <;> decide

@[simp] theorem mapTo_ocs (s : State) (m : DiscMap) : (s.mapTo m).ocs = s.ocs := by
  obtain ⟨f, g, frame⟩ := mapTo_frame s m
  rw [frame]

/-- A round that begins has its change waiting to be sent. -/
theorem startRound_unsent {s : State} {plane : Nat} (inside : plane < s.ocs.planes.length) (task : Option Nat) (round : Nat)
    (before : List (PortRef × PortRef)) :
    ∃ ch, (s.startRound plane task round before).ocs.planes.getD plane none = some ch ∧ ch.sent = false := by
  unfold State.startRound
  extract_lets m pairs es named off s1
  have planes : s1.ocs.planes = s.ocs.planes := by
    unfold s1
    split
    · rw [mapTo_ocs]
    · rfl
  refine ⟨_, modAt_getD_self _ _ _ _ ?_, rfl⟩
  change plane < s1.ocs.planes.length
  rwa [planes]

/-- The change of the first round of a scan on plane 0, sent when the clock started. -/
def firstRound : PlaneChange where
  kind := .scan none 0 []
  parts := []
  sent := true
  sentAt := 0

/-- The director in the sixteenth tick after it sent the first round on plane 0, which has no units: the round's time, 16 ticks,
ends with the tick. -/
def sixteenthTick : State :=
  { State.reset with
    clk := { Clock.init with running := true, cycles := 15 * Clock.init.period }
    ocs := { Ocs.init with planes := [some firstRound, none, none, none] } }

/-- Refutes O29 at the bound of its fifth clause, which has a round end in the tick with which its time ends: the model ends it in
the next one. In `sixteenthTick` the first round stands as it was sent, where the clause has the second round wait to be sent. -/
theorem not_unitTimersAndScansRun : ¬ Obligations.UnitTimersAndScansRun := by
  unfold Obligations.UnitTimersAndScansRun
  rintro ⟨-, -, -, -, ends, -⟩
  obtain ⟨x, t, -, -, -, -, seen, runs⟩ := ends sixteenthTick 0 none 0 [] firstRound rfl rfl rfl (by decide)
    (List.forall_mem_nil _)
  have stays : exec (.scanRoundEnd 0) sixteenthTick = .next sixteenthTick :=
    execScanRoundEnd_last_tick (ch := firstRound) rfl rfl rfl (by decide)
  rw [stays, if_pos (one_lt_scanRounds _ _)] at runs
  have inside : 0 < t.ocs.planes.length := by
    rw [seen]
    exact Nat.zero_lt_succ 3
  obtain ⟨ch, planned, unsent⟩ := startRound_unsent inside none (0 + 1) []
  rw [← Host.Outcome.next.inj runs] at planned
  obtain rfl : firstRound = ch := Option.some.inj planned
  exact Bool.noConfusion unsent

/-! ### Control packets of endpoints and directors (R165, R200, R234, R494, R496, R510, R511) -/

theorem retrainAsked_latches {b : List Byte} (port : field b 0 1 ≤ 63) (least : 1 ≤ field b 1 1) (most : field b 1 1 ≤ 3)
    (s : State) : s.retrainAsked b = some (s.latch (field b 0 1) 12) := by
  simp [State.retrainAsked, port.not_gt, least.not_gt, most.not_gt]

/-! #### Counter reports (R234, R515) -/

/-- Entries from `i` on, set one by one, keep a list's length. -/
theorem foldl_modAt_length (g : Nat → Nat) (i n : Nat) (l : List Nat) :
    ((List.range n).foldl (fun l k => modAt l (i + k) fun _ => g k) l).length = l.length := by
  induction n with
  | zero => rfl
  | succ n ih => simpa [List.range_succ, modAt_length] using ih

/-- Entries from `i` on, set one by one, hold what they were set to. -/
theorem foldl_modAt_getD (g : Nat → Nat) {i n k : Nat} {l : List Nat} (set : k < n) (inside : i + k < l.length) :
    ((List.range n).foldl (fun l k => modAt l (i + k) fun _ => g k) l).getD (i + k) 0 = g k := by
  induction n with
  | zero => omega
  | succ n ih =>
    rw [List.range_succ, List.foldl_append]
    change (modAt _ (i + n) _).getD (i + k) 0 = g k
    by_cases last : k = n
    · subst last
      exact modAt_getD_self _ _ _ _ (by rwa [foldl_modAt_length])
    · rw [modAt_getD_other _ _ _ _ _ (by omega)]
      exact ih (by omega)

/-- A counter report keeps its three counters with the link that it names; counter 20 is not one of a report. -/
theorem counterReport_keeps {b : List Byte} {i : Nat} (link : field b 0 1 ≤ 3 ∨ (16 ≤ field b 0 1 ∧ field b 0 1 ≤ 31))
    (group : field b 1 1 = 3 * i) (last : i ≤ 6) (s : State) (src : Coord) :
    ∃ (t : State) (x : LinkCounters), s.counterReport src b = some t ∧ x ∈ t.links ∧ x.coord = src ∧
      x.link = field b 0 1 ∧ x.fresh = true ∧
      ∀ k, k < 3 → 3 * i + k ≠ 20 → 3 * i + k < x.vals.length → x.vals.getD (3 * i + k) 0 = field b (8 + 8 * k) 8 := by
  unfold State.counterReport
  extract_lets l j set old
  have formed : ¬ ((3 < l && l < 16) || 31 < l || 18 < j || j % 3 ≠ 0) = true := by
    simp only [Bool.or_eq_true, Bool.and_eq_true, decide_eq_true_eq, l, j, group]
    omega
  obtain ⟨coord, linked⟩ : old.coord = src ∧ old.link = l := by
    unfold old
    cases found : s.links.find? fun x => x.coord = src && x.link = l with
    | none => exact ⟨rfl, rfl⟩
    | some x => simpa using List.find?_some found
  rw [if_neg formed]
  refine ⟨_, _, rfl, List.mem_append_right _ (List.mem_singleton_self _), coord, linked, rfl, fun k three other within => ?_⟩
  have held : 3 * i + k < old.vals.length := lt_of_lt_of_eq within (foldl_modAt_length _ _ _ _)
  change (set old.vals).getD (3 * i + k) 0 = _
  unfold set
  rw [show j = 3 * i from group, foldl_modAt_getD (fun k => if 3 * i + k = 20 then 0 else field b (8 + 8 * k) 8) three held,
    if_neg other]

/-! #### Completion reports (R510, R511) -/

/-- What a quire summary says of its sender (R511). -/
def summaryOf (s : State) (src : Coord) (b : List Byte) : Summary :=
  { coord := src, pending := bit (field b 1 1) 0, originated := field b 4 8, accepted := field b 12 8, givenUp := field b 20 8,
    tick := s.now }

/-- A summary of a quire that stands, or of the house quire, is kept where it counts as many resets as the quire. -/
theorem quireSummary_keeps {s : State} {b : List Byte} (known : (s.stg.led.quire (field b 2 2)).isSome = true ∨ field b 2 2 = 0)
    (resets : ∀ q, s.stg.led.quire (field b 2 2) = some q → q.resetCount = field b 28 4) (src : Coord) :
    summaryOf s src b ∈ ((s.quireSummary src b).stg.vol.quire (field b 2 2)).summaries := by
  unfold State.quireSummary
  extract_lets x rc
  have current : rc = field b 28 4 := by
    unfold rc
    cases quire : s.stg.led.quire (field b 2 2) with
    | none => rfl
    | some q => exact resets q quire
  have taken : ((s.stg.led.quire (field b 2 2)).isSome || decide (field b 2 2 = 0)) = true := by simpa using known
  rw [if_pos taken, if_pos current, updQuireVol_stg, updQuire_quire_self _ _ fun _ => by rfl]
  exact List.mem_append_right _ (List.mem_singleton_self _)

/-- An endpoint that has confirmed a reset is admitted again. -/
theorem resetConfirm_admits (s : State) (src : Coord) (b : List Byte) :
    src ∉ ((s.resetConfirm src b).stg.vol.quire (field b 2 2)).excluded := by
  unfold State.resetConfirm
  extract_lets q count s1
  rw [updQuireVol_stg, updQuire_quire_self _ _ fun _ => by rfl]
  simp

/-! #### Table writes and legs (R200, R496) -/

/-- The acknowledgement of a written word closes the write of the only task's only job (R496). -/
theorem tableAck_closes {s : State} {t : Task} {j : ShadowJob} {w : ShadowWrite} {src : Coord} {b : List Byte}
    (least : 1 ≤ field b 0 1) (most : field b 0 1 ≤ 3) (written : field b 9 1 = 0) (only : s.tasks = [t])
    (quire : t.writeQuire = field b 2 2) (job : t.kind.jobs = [j]) (sender : j.coord = src) (table : j.table = field b 0 1)
    (index : j.index = field b 1 1) (open_ : j.unacked.find? (·.off = field b 4 4) = some w) :
    ∃ t' : State, s.tableAck src b = some t' ∧
      t'.tasks = [{ t with kind := t.kind.withJobs [{ j with unacked := j.unacked.filter (·.off ≠ field b 4 4) }] }] := by
  refine ⟨s.jobAck t j (field b 4 4) (field b 9 1), ?_, ?_⟩
  · simp [State.tableAck, least.not_gt, most.not_gt, written, only, quire, job, sender, table, index]
  · simp [State.jobAck, open_, written, State.updJobs, modWhere, only, job]

/-- The acknowledgement of a leg of the only multicast is kept with it. -/
theorem legAck_kept {s : State} {c : Multicast} {src : Coord} {b : List Byte} (known : field b 0 1 ≤ 1)
    (here : field b 4 4 % 2 ^ 20 = s.dataEnd) (only : s.casts = [c]) (quire : c.quire = field b 2 2) (seq : c.seq = field b 8 4)
    (leg : src ∈ c.legs) :
    ∃ t : State, s.legAck src b = some t ∧ t.casts = [{ c with acked := insertNew src c.acked }] := by
  have found : (s.casts.find? fun x => x.quire = field b 2 2 && x.seq = field b 8 4 && x.legs.contains src) = some c := by
    simp [only, quire, seq, leg]
  unfold State.legAck
  rw [if_neg known.not_gt, if_neg (not_not_intro here)]
  simp only [found]
  exact ⟨_, rfl, by simp [State.ackLegs, modWhere, only, quire, seq]⟩

/-- Settles O33, clause by clause: a packet that passes its checks is judged by its kind's handler. -/
theorem controlPacketsRun : Obligations.ControlPacketsRun := by
  unfold Obligations.ControlPacketsRun
  refine ⟨?retrain, ?counters, ?house, ?summary, ?operation, ?reset, ?table, ?leg, ?tick⟩
  case retrain =>
    intro s d u pkt src body run checks port least most
    exact congrArg Host.Outcome.next (ctlRx_take run checks (retrainAsked_latches port least most _))
  case counters =>
    intro s d u pkt src body i run checks link group last
    obtain ⟨t, x, answer, kept⟩ := counterReport_keeps link group last (s.rxGood d 64) src
    exact ⟨t, x, congrArg Host.Outcome.next (ctlRx_take run checks answer), kept⟩
  case house =>
    intro s d u pkt src body run checks kind quire none_carved
    have answer : (s.rxGood d 64).completionReport src body = some ((s.rxGood d 64).quireSummary src body) := by
      simp [State.completionReport, kind]
    have kept := quireSummary_keeps (s := s.rxGood d 64) (.inr quire)
      (fun q found => by rw [quire] at found; exact absurd (none_carved.symm.trans found) (by simp)) src
    rw [quire] at kept
    exact ⟨_, congrArg Host.Outcome.next (ctlRx_take run checks answer), kept⟩
  case summary =>
    intro s d u pkt src body q run checks kind carved resets
    have answer : (s.rxGood d 64).completionReport src body = some ((s.rxGood d 64).quireSummary src body) := by
      simp [State.completionReport, kind]
    have kept := quireSummary_keeps (s := s.rxGood d 64) (.inl (Option.isSome_of_eq_some carved))
      (fun r found => Option.some.inj (carved.symm.trans found) ▸ resets) src
    exact ⟨_, congrArg Host.Outcome.next (ctlRx_take run checks answer), kept⟩
  case operation =>
    intro s d u pkt src body run checks kind
    have answer : (s.rxGood d 64).completionReport src body = some ((s.rxGood d 64).opReport src body) := by
      simp [State.completionReport, kind]
    exact congrArg Host.Outcome.next (ctlRx_take run checks answer)
  case reset =>
    intro s d u pkt src body run checks kind
    have answer : (s.rxGood d 64).completionReport src body = some ((s.rxGood d 64).resetConfirm src body) := by
      simp [State.completionReport, kind]
    exact ⟨_, congrArg Host.Outcome.next (ctlRx_take run checks answer), resetConfirm_admits _ _ _⟩
  case table =>
    intro s d u pkt src body t run checks least most written only quire j w job sender table index open_
    obtain ⟨t', answer, closed⟩ :=
      tableAck_closes (s := s.rxGood d 64) least most written only quire job sender table index open_
    exact ⟨t', congrArg Host.Outcome.next (ctlRx_take run checks answer), closed⟩
  case leg =>
    intro s d u pkt src body c run checks known here only quire seq leg
    obtain ⟨t, answer, kept⟩ := legAck_kept (s := s.rxGood d 64) known here only quire seq leg
    exact ⟨t, congrArg Host.Outcome.next (ctlRx_take run checks answer), kept⟩
  case tick =>
    intro s d u e pkt src body run checks
    exact congrArg Host.Outcome.next (ctlRx_take run checks rfl)

/-! ### The events of ports (R163, R165, R589) -/

/-- Latching an event on ports latches it at each of them, and leaves it at every other port as it was. -/
theorem mem_latched_latchAll (on : List Nat) (e : Nat) {s : State} {d : Nat} (inside : d < s.ports.length) :
    e ∈ ((on.foldl (fun s d => s.latch d e) s).port d).latched ↔ d ∈ on ∨ e ∈ (s.port d).latched := by
  induction on generalizing s with
  | nil => simp
  | cons x on ih =>
    rw [List.foldl_cons, ih (s := s.latch x e) (by rwa [latch_ports, modAt_length])]
    by_cases here : d = x
    · subst here
      have latched : e ∈ ((s.latch d e).port d).latched := by
        rw [State.latch, updPort_port_self inside]
        exact mem_insertSorted_self _ _
      simp [latched]
    · have other : (s.latch x e).port d = s.port d := modAt_getD_other _ _ _ _ _ here
      simp [here, other]

/-- The ports that a laser source feeds: eight in a row (R589). -/
def fauPorts (fau : Nat) : List Nat := (List.range 8).map (8 * fau + ·)

theorem mem_fauPorts {d fau : Nat} : d ∈ fauPorts fau ↔ d / 8 = fau := by
  simp only [fauPorts, List.mem_map, List.mem_range]
  exact ⟨by rintro ⟨i, inside, rfl⟩; omega, fun h => ⟨d % 8, by omega, by omega⟩⟩

/-- The alarm of a laser source is event 2 at the ports it feeds. -/
theorem execElsAlarm_latches {s : State} {fau : Nat} (up : s.boot.stage ≠ .held) (known : fau ≤ 7) :
    exec (.elsAlarm fau) s = .next ((fauPorts fau).foldl (fun s d => s.latch d 2) s) := by
  simp [exec, execElsAlarm, up, known.not_gt, fauPorts, List.foldl_map]

/-- Settles O34, clause by clause. -/
theorem portEventsRun : Obligations.PortEventsRun := by
  unfold Obligations.PortEventsRun
  refine ⟨?physical, ?timer, ?laser⟩
  case physical =>
    intro s d e up physical
    simp [exec, execPortLinkEvent, up, physical]
  case timer =>
    intro s d last
    simp [exec, execLstTimerExpiry, last]
  case laser =>
    intro s fau up known
    obtain ⟨ps, frame⟩ := latchAll_frame (fauPorts fau) 2 s
    refine ⟨_, execElsAlarm_latches up known, fun d inside => ?_, by rw [frame]⟩
    rw [mem_latched_latchAll _ _ inside, mem_fauPorts]

end Sys2Proof.Machine
end

section
/-! PROOFS. The family of bores and routes: the commands of quires (R202, R260-R263, R379, R380, R530-R533), of routes (R189-R198,
R534-R537), of bores and rebinds (R171-R173, R340-R343, R536-R540), what the switch units answer (R171-R182, R625), measurements and
masks (R193, R366), and the timers of operations (R201, R278, R279, R307, R324-R331). -/
namespace Sys2Proof.Machine

/-! ### Commands that stage a durable change (R90, R520) -/

/-- A taken command whose handler stages a durable change that nothing bars is ACCEPTED. -/
theorem present_stages {s u : State} {op : Nat} {h : Handler} {p : Pkt} {objs : List Obj} {q : Option QuireId} {res : List Byte}
    (taken : s.takesIn op p = true) (works : u.durableRefusal = none)
    (answer : h (s.takenOf op p) (s.accepted op p) = durable (s.takenOf op p) u objs q res) :
    s.present op h p = staged (s.takenOf op p) u objs q res := by
  rw [present_taken s op h p taken, answer, conclude_durable works]

/-! ### Quires (R202, R260-R263, R379, R380, R530-R533) -/

section
variable {c : Taken} {s : State}

theorem durableRefusal_of_carveRefusal (ok : carveRefusal c s = none) : s.durableRefusal = none := by
  revert ok
  fun_cases carveRefusal c s <;> simp

theorem durableRefusal_of_growRefusal {q : QuireRec} (ok : growRefusal c s q = none) : s.durableRefusal = none := by
  revert ok
  fun_cases growRefusal c s q <;> simp

theorem hQuireCarve_durable (ok : carveRefusal c s = none) : hQuireCarve c s =
    durable c (s.zeroTiles (carved c s).clusters) [.quire c.pkt.quire (some (carved c s))] (some c.pkt.quire) [] := by
  simp only [hQuireCarve, ok]
  rfl

/-- The state a grow leaves: its new tile stores are being zeroed, and a tenant's new leaves await the scrubber (R263, R411). -/
def grownState (c : Taken) (s : State) (q : QuireRec) : State :=
  let b := s.zeroTiles ((s.freeClusters s.val).take (c.u16 0))
  if b.val.slotOf q.id ≠ 0 then b.soil ((s.freeLeaves s.val).take (c.u16 2)) else b

theorem grownState_durableRefusal (c : Taken) (s : State) (q : QuireRec) :
    (grownState c s q).durableRefusal = s.durableRefusal := by
  unfold grownState
  dsimp only
  split <;> rfl

theorem hQuireGrow_durable {q : QuireRec} (quire : s.val.quire c.pkt.quire = some q) (ok : growRefusal c s q = none) :
    hQuireGrow c s = durable c (grownState c s q) [.quire q.id (some (grown c s q))] (some q.id) [] := by
  simp only [hQuireGrow, quire, ok]
  rfl

theorem hQuireStatus_quire {q : QuireRec} (other : c.pkt.quire ≠ 0) (quire : s.vis.led.quire c.pkt.quire = some q) :
    hQuireStatus c s = (s, .reply .ok (s.statusResult q)) := by
  simp only [hQuireStatus, other, quire, if_false]

theorem hQuireStatus_house (house : c.pkt.quire = 0) : hQuireStatus c s = (s, .reply .ok s.houseStatus) := by
  simp only [hQuireStatus, house, if_true]

/-- The state in which a reset or release has set off its transit step (R202, R379): the command runs as a task, paths are masked,
and installs of re-routed solutions begin on its behalf; where there are none, step 1 of the reset ends at once. -/
def resetBegun (c : Taken) (s : State) (q : QuireRec) (ms : List (QuireId × List Mask)) (ins : List (QuireRec × Solution))
    (bound : Nat) (k : TaskKind) : State :=
  let t := s.startTask (some c.ident) q.id k
  let t := ms.foldl (fun t m => t.maskTransit m.1 m.2) t
  let t := ins.foldl (fun t i => t.startInstall none i.1 i.2 bound (some s.nextTask)) t
  if ins = [] then (t.resetStart q).setReset s.nextTask .start [] 0 else t

theorem resetAccept_begins {q : QuireRec} {force : Bool} {ms : List (QuireId × List Mask)} {ins : List (QuireRec × Solution)}
    (plan : s.transitPlan q force = .clear ms ins) (bound : Nat) (k : TaskKind) :
    resetAccept c s q force bound k = (resetBegun c s q ms ins bound k, .accepted) := by
  simp only [resetAccept, resetBegun, plan]
  split <;> rfl

theorem hQuireReset_accepts {q : QuireRec} (ok : quireResetRefusal c s = none) (quire : s.val.quire c.pkt.quire = some q) :
    hQuireReset c s = resetAccept c s q (bit (c.u8 2) 0) ((drainBound (c.u16 0)).getD Config.defaultDrain)
      (.reset (bit (c.u8 2) 0) .transit [] 0) := by
  simp only [hQuireReset, ok, quire]

theorem hQuireRelease_accepts {q : QuireRec} (ok : quireReleaseRefusal c s = none) (quire : s.val.quire c.pkt.quire = some q) :
    hQuireRelease c s = resetAccept c s q (bit (c.u8 2) 0) ((drainBound (c.u16 0)).getD Config.defaultDrain)
      (.release (bit (c.u8 2) 0) ((drainBound (c.u16 0)).getD Config.defaultDrain) .transit [] 0) := by
  simp only [hQuireRelease, ok, quire]

end

/-- Settles O12, clause by clause, each from what its handler answers. -/
theorem quireCommandsRun : Obligations.QuireCommandsRun := by
  unfold Obligations.QuireCommandsRun
  refine ⟨?carve, ?grow, ?status, ?house, ?reset, ?release⟩
  case carve =>
    intro s p taken ok q
    have works : ((s.accepted 0x0301 p).zeroTiles q.clusters).durableRefusal = none :=
      durableRefusal_of_carveRefusal (s := s.accepted 0x0301 p) ok
    exact ⟨congrArg Host.Outcome.next (present_stages taken works (hQuireCarve_durable ok)), rfl, rfl⟩
  case grow =>
    intro s p q taken quire ok a b
    have works : (grownState (s.takenOf 0x0302 p) a q).durableRefusal = none :=
      (grownState_durableRefusal _ _ _).trans (durableRefusal_of_growRefusal ok)
    exact congrArg Host.Outcome.next (present_stages taken works (hQuireGrow_durable (c := s.takenOf 0x0302 p) quire ok))
  case status =>
    intro s p q taken other quire
    exact congrArg Host.Outcome.next (present_replies taken (hQuireStatus_quire (c := s.takenOf 0x0305 p) other quire))
  case house =>
    intro s p taken house
    exact congrArg Host.Outcome.next (present_replies taken (hQuireStatus_house (c := s.takenOf 0x0305 p) house))
  case reset =>
    intro s p q ms ins taken ok quire f b plan
    exact congrArg Host.Outcome.next (present_accepts taken
      ((hQuireReset_accepts (c := s.takenOf 0x0304 p) ok quire).trans (resetAccept_begins plan _ _)))
  case release =>
    intro s p q ms ins taken ok quire f b plan
    exact congrArg Host.Outcome.next (present_accepts taken
      ((hQuireRelease_accepts (c := s.takenOf 0x0303 p) ok quire).trans (resetAccept_begins plan _ _)))

/-! ### Routes (R189-R198, R534, R535, R537) -/

section
variable {c : Taken} {s : State} {q : QuireRec}

theorem hRouteSolve_starts (ok : routeSolveRefusal c s = none) (quire : s.val.quire c.pkt.quire = some q) :
    hRouteSolve c s = multi c s (.solve (solveStart s.val q q.bores c.tick (transitSet s.val q))) := by
  simp only [hRouteSolve, ok, quire]

theorem hRouteInstall_starts {x : Solution} (ok : routeInstallRefusal c s = none)
    (solved : (s.stg.vol.quire c.pkt.quire).staged = some x) (quire : s.val.quire c.pkt.quire = some q) :
    hRouteInstall c s =
      (s.startInstall (some c.ident) q x ((drainBound (c.u16 6)).getD Config.defaultDrain) none, .accepted) := by
  simp only [hRouteInstall, ok, solved, quire]

theorem hRouteDrain_holds (mode : c.u8 0 = 0) (bound : (drainBound (c.u16 2)).isSome = true)
    (free : quireGate s c.pkt.quire = none) :
    hRouteDrain c s = multi c s (.drainHold (Drain.start ((drainBound (c.u16 2)).getD Config.defaultDrain))) := by
  simp [hRouteDrain, routeDrainHold, mode, Option.isSome_iff_ne_none.mp bound, free]

theorem hRouteDrain_resumes (mode : c.u8 0 = 1) (free : quireGate s c.pkt.quire = none)
    (held : (s.stg.vol.quire c.pkt.quire).drainHold = true) :
    hRouteDrain c s = volatileOk c ((s.updQuireVol c.pkt.quire fun v => { v with drainHold := false }).resumeAdmission
      c.pkt.quire (s.now + 1)) [] := by
  simp only [hRouteDrain, routeDrainResume, mode, free, held]
  rfl

end

/-- Settles O13, clause by clause, each from what its handler answers. -/
theorem routeCommandsRun : Obligations.RouteCommandsRun := by
  unfold Obligations.RouteCommandsRun
  refine ⟨?solve, ?install, ?hold, ?resume⟩
  case solve =>
    intro s p q taken ok quire
    exact congrArg Host.Outcome.next (present_accepts taken (hRouteSolve_starts (c := s.takenOf 0x0401 p) ok quire))
  case install =>
    intro s p x q taken ok solved quire
    exact congrArg Host.Outcome.next (present_accepts taken
      (hRouteInstall_starts (c := s.takenOf 0x0402 p) ok solved quire))
  case hold =>
    intro s p taken mode bound free
    exact congrArg Host.Outcome.next (present_accepts taken
      (hRouteDrain_holds (c := s.takenOf 0x0405 p) mode bound free))
  case resume =>
    intro s p taken mode free held
    exact congrArg Host.Outcome.next (present_accepts taken
      (hRouteDrain_resumes (c := s.takenOf 0x0405 p) mode free held))

/-! ### Bores and rebinds (R168-R173, R340-R343, R536, R538-R540) -/

section
variable {c : Taken} {s : State} {q : QuireRec}

theorem durableRefusal_of_boreOpenRefusal (ok : boreOpenRefusal c s q = none) : s.durableRefusal = none := by
  revert ok
  fun_cases boreOpenRefusal c s q <;> simp

theorem durableRefusal_of_boreCloseRefusal (ok : boreCloseRefusal c s q = none) : s.durableRefusal = none := by
  revert ok
  fun_cases boreCloseRefusal c s q <;> simp

section
variable {n : Nat} (quire : s.val.quire c.pkt.quire = some q) (ok : boreOpenRefusal c s q = none)
  (name : boreName s.val.manifest (portRef (c.u16 0)) (portRef (c.u16 2)) = some n)
include quire ok name

/-- On a patch plane the grant is durable at once. -/
theorem hBoreOpen_patched (patch : switchedPlane s.val.manifest (portRef (c.u16 0)).plane = false) :
    hBoreOpen c s = durable c s [.quire q.id (some { q with bores := q.bores ++
      [{ name := n, a := portRef (c.u16 0), b := portRef (c.u16 2) }] })] (some q.id) (le 2 n) := by
  simp [hBoreOpen, quire, ok, name, patch]

/-- On a switched plane the units join the landings first. -/
theorem hBoreOpen_switched (switched : switchedPlane s.val.manifest (portRef (c.u16 0)).plane = true) :
    hBoreOpen c s = ((s.startTask (some c.ident) c.pkt.quire
        (.boreOpen (portRef (c.u16 0)) (portRef (c.u16 2)) (portRef (c.u16 0)).plane)).planeChange (portRef (c.u16 0)).plane
      (.boreOpen s.nextTask) (joinOf s.val.manifest (portRef (c.u16 0)) (portRef (c.u16 2))).toList, .accepted) := by
  simp only [hBoreOpen, quire, ok, name, switched]
  rfl

end

/-- The state a bore.close leaves: a switched plane is held for its disconnects (R173). -/
def boreClosing (s : State) (b : Bore) : State :=
  if switchedPlane s.val.manifest b.a.plane then
    s.setPlane b.a.plane (some { kind := .boreClose b.name, parts := [], sent := false }) else s

theorem boreClosing_durableRefusal (s : State) (b : Bore) : (boreClosing s b).durableRefusal = s.durableRefusal := by
  unfold boreClosing
  split <;> rfl

theorem hBoreClose_durable {b : Bore} (quire : s.val.quire c.pkt.quire = some q) (ok : boreCloseRefusal c s q = none)
    (named : q.bores.find? (·.name = c.u16 0) = some b) : hBoreClose c s = durable c (boreClosing s b)
      [.quire q.id (some { q with bores := q.bores.filter (·.name ≠ b.name) })] (some q.id) [] := by
  simp only [hBoreClose, quire, ok, named]
  rfl

/-- A chunk that leaves the plan's image unfinished is kept with those before it. -/
theorem hRebindPlan_more {x : Staging} (quire : s.val.quire c.pkt.quire = some q)
    (chunk : chunkStep (s.stg.vol.quire c.pkt.quire).planChunks (c.u32 4) (c.pkt.params.drop 8)
      (fun n => 16 ≤ n && n ≤ 105416) = .more x) (free : planGate s c.pkt.quire = none) :
    hRebindPlan c s = volatileOk c (s.updQuireVol c.pkt.quire fun v => { v with planChunks := some x }) [] := by
  simp only [hRebindPlan, chunk, quire, free]

/-- A whole image that nothing refuses is kept no longer, and solved. -/
theorem hRebindPlan_whole {b : List Byte} {a : State} (quire : s.val.quire c.pkt.quire = some q)
    (chunk : chunkStep (s.stg.vol.quire c.pkt.quire).planChunks (c.u32 4) (c.pkt.params.drop 8)
      (fun n => 16 ≤ n && n ≤ 105416) = .whole b)
    (cleared : a = s.updQuireVol c.pkt.quire fun v => { v with planChunks := none }) (formed : planBad a.val q b = false)
    (free : planGate a c.pkt.quire = none) (ok : planRefused a q (parsePlan b) = false) :
    hRebindPlan c s = multi c a (.planSolve (planOf c q (parsePlan b)) (solveStart a.val q
      ((planOf c q (parsePlan b)).boresOf a.val.manifest q) c.tick (transitSet a.val q))) := by
  subst cleared
  simp only [hRebindPlan, chunk, quire, formed, free, ok]
  rfl

/-- A commit that nothing refuses starts the rebind in its draining step; before that only the reported rebind changes. -/
theorem hRebindCommit_starts {x : Plan} (ok : rebindCommitRefusal c s = none) (quire : s.val.quire c.pkt.quire = some q)
    (plan : (s.stg.vol.quire c.pkt.quire).plan = some x) : ∃ (run : RebindRun) (f : QuireVol → QuireVol),
      hRebindCommit c s = multi c (s.updQuireVol q.id f) (.rebind run) ∧
      run.plan = x ∧ run.step = .draining ∧ run.record = rebindRecord c s q x := by
  simp only [hRebindCommit, ok, quire, plan]
  exact ⟨_, _, rfl, rfl, rfl, rfl⟩

end

/-- Settles O14, clause by clause, each from what its handler answers. -/
theorem boreAndRebindCommandsRun : Obligations.BoreAndRebindCommandsRun := by
  unfold Obligations.BoreAndRebindCommandsRun
  refine ⟨?patched, ?switched, ?close, ?chunk, ?whole, ?commit, ?status⟩
  case patched =>
    intro s p q n taken quire ok name patch
    exact congrArg Host.Outcome.next (present_stages taken (durableRefusal_of_boreOpenRefusal ok)
      (hBoreOpen_patched (c := s.takenOf 0x0403 p) quire ok name patch))
  case switched =>
    intro s p q n taken quire ok name switched
    exact congrArg Host.Outcome.next (present_accepts taken
      (hBoreOpen_switched (c := s.takenOf 0x0403 p) quire ok name switched))
  case close =>
    intro s p q b taken quire ok named a
    have works : (boreClosing a b).durableRefusal = none :=
      (boreClosing_durableRefusal a b).trans (durableRefusal_of_boreCloseRefusal ok)
    exact congrArg Host.Outcome.next (present_stages taken works
      (hBoreClose_durable (c := s.takenOf 0x0404 p) quire ok named))
  case chunk =>
    intro s p x r taken quire chunk free
    exact congrArg Host.Outcome.next (present_accepts taken (hRebindPlan_more (c := s.takenOf 0x0501 p) quire chunk free))
  case whole =>
    intro s p b r taken quire chunk a x formed free ok
    exact congrArg Host.Outcome.next (present_accepts taken
      (hRebindPlan_whole (c := s.takenOf 0x0501 p) quire chunk rfl formed free ok))
  case commit =>
    intro s p q x taken ok quire plan
    obtain ⟨run, f, answer, planned, step, record⟩ := hRebindCommit_starts (c := s.takenOf 0x0502 p) ok quire plan
    exact ⟨run, _, congrArg Host.Outcome.next (present_accepts taken answer), planned, step, record, rfl, rfl, rfl⟩
  case status =>
    intro s p taken x
    exact congrArg Host.Outcome.next (present_replies (h := hRebindStatus) taken rfl)

/-! ### What the switch units answer (R171-R182, R625) -/

/-- A field of what follows the first bytes. -/
theorem field_drop (l : List Byte) (n off k : Nat) : field (l.drop n) off k = field l (n + off) k := by
  simp [field, slice]

/-- How the body of a unit's good message is acted on, by the message's type (R177). -/
def State.ocsAnswer (s : State) (u type : Nat) (b : List Byte) : State :=
  if type = 0x81 then s.ocsIdent u b
  else if type = 0x82 then s.ocsSetAck u b
  else if type = 0x83 then s.ocsSetDone u b
  else if type = 0x84 then s.ocsMap u b
  else s.ocsAlarm u b

/-- A well-formed message from a unit's address is counted and acted on (R175-R177, R182). -/
theorem ocsReceive_formed {s : State} {src : Ip} {msg : List Byte} {type u : Nat} (sender : s.unitAt src = some u)
    (formed : ocsFormed msg type u = true) : s.ocsReceive src msg = (s.unitHeard msg).ocsAnswer u type (msg.drop 16) := by
  simp only [ocsFormed, Bool.and_eq_true, decide_eq_true_eq] at formed
  obtain ⟨⟨⟨⟨⟨⟨⟨long, magic⟩, version⟩, kind⟩, length⟩, shape⟩, crc⟩, unit⟩ := formed
  subst kind
  unfold State.ocsReceive
  extract_lets s1 us b type s2
  have found : us.find? (fun u => s1.unitIp u = src) = some u := sender
  have good : ¬ (msg.length < 16 || field msg 0 2 ≠ 0x534F || field msg 2 1 ≠ 1 || field msg 8 2 ≠ b.length ||
      !ocsLengthOk type b || crc32c (msg.take 12 ++ b) ≠ BitVec.ofNat 32 (field msg 12 4)) = true := by
    simp [b, type, long, magic, version, length, shape, crc]
  rw [found]
  dsimp only
  rw [if_neg good, if_neg (not_not.mpr unit)]
  rfl

/-! #### Messages to units -/

/-- What goes out to a unit leaves the units, the planes and the generations of the tick (R176). -/
theorem sendOcs_frame (s : State) (u type : Nat) (body : List Byte) : ∃ out hold n e,
    s.sendOcs u type body = { s with ocs := { s.ocs with out := out, hold := hold, nextSeq := n }, eth1 := e } := by
  unfold State.sendOcs State.putOcs
  split
  · exact ⟨s.ocs.out, s.ocs.hold, s.ocs.nextSeq, s.eth1, rfl⟩
  · dsimp only
    split
    · exact ⟨_, s.ocs.hold, _, _, rfl⟩
    · exact ⟨s.ocs.out, _, _, _, rfl⟩

@[simp] theorem sendOcs_planes (s : State) (u type : Nat) (body : List Byte) :
    (s.sendOcs u type body).ocs.planes = s.ocs.planes := by
  obtain ⟨_, _, _, _, frame⟩ := sendOcs_frame s u type body
  rw [frame]

@[simp] theorem sendOcs_setsNow (s : State) (u type : Nat) (body : List Byte) :
    (s.sendOcs u type body).ocs.setsNow = s.ocs.setsNow := by
  obtain ⟨_, _, _, _, frame⟩ := sendOcs_frame s u type body
  rw [frame]

@[simp] theorem sendOcs_unit (s : State) (u type : Nat) (body : List Byte) (w : Nat) :
    (s.sendOcs u type body).unit w = s.unit w := by
  obtain ⟨_, _, _, _, frame⟩ := sendOcs_frame s u type body
  rw [frame]
  rfl

/-! #### Units after the shared updates -/

theorem updUnit_unit_self {s : State} {u : Nat} (inside : u < s.ocs.units.length) (f : OcsUnit → OcsUnit) :
    (s.updUnit u f).unit u = f (s.unit u) := modAt_getD_self _ _ _ _ inside

/-- A change that leaves a component of every unit alone leaves it alone in the unit it changes. -/
theorem updUnit_component {β : Type} {f : OcsUnit → OcsUnit} {g : OcsUnit → β} (kept : ∀ x, g (f x) = g x) (s : State)
    (u : Nat) : g ((s.updUnit u f).unit u) = g (s.unit u) := by
  by_cases inside : u < s.ocs.units.length
  · rw [updUnit_unit_self inside, kept]
  · unfold State.unit State.updUnit
    rw [List.getD_eq_default _ _ (by rw [modAt_length]; omega), List.getD_eq_default _ _ (by omega)]

theorem fault_ocs (s : State) (cls fn object : Nat) : (s.fault cls fn object).ocs = s.ocs := by
  obtain ⟨_, _, _, frame⟩ := fault_frame s cls fn object
  rw [frame]

/-! #### IDENT (R177, R181, R182) -/

/-- The identity an IDENT tells. -/
def identOf (b : List Byte) : UnitIdent :=
  { ident := field b 0 8, ports := field b 8 2, switchUs := field b 12 4, boot := field b 16 4, latching := bit (field b 21 1) 0 }

/-- The changes of the planes, and what unit `u` has told of itself and owes an answer to. -/
def State.heardOf (s : State) (u : Nat) : List (Option PlaneChange) × Nat × Bool × Option UnitIdent :=
  (s.ocs.planes, (s.unit u).missed, (s.unit u).asked, (s.unit u).ident)

theorem heardOf_of_ocs {s t : State} (same : t.ocs = s.ocs) (u : Nat) : t.heardOf u = s.heardOf u := by
  simp only [State.heardOf, State.unit, same]

@[simp] theorem mapTo_heardOf (s : State) (m : DiscMap) (u : Nat) : (s.mapTo m).heardOf u = s.heardOf u :=
  heardOf_of_ocs (mapTo_ocs s m) u

@[simp] theorem fault_heardOf (s : State) (cls fn object u : Nat) : (s.fault cls fn object).heardOf u = s.heardOf u :=
  heardOf_of_ocs (fault_ocs s cls fn object) u

theorem updUnit_heardOf {f : OcsUnit → OcsUnit}
    (kept : ∀ x, ((f x).missed, (f x).asked, (f x).ident) = (x.missed, x.asked, x.ident)) (s : State) (u : Nat) :
    (s.updUnit u f).heardOf u = s.heardOf u :=
  congrArg (s.ocs.planes, ·) (updUnit_component (g := fun x => (x.missed, x.asked, x.ident)) kept s u)

/-- An IDENT answers what the unit was asked, and its identity is recorded, whether or not it stands the checks. -/
theorem ocsIdent_heardOf {s : State} {u : Nat} (inside : u < s.ocs.units.length) (b : List Byte) :
    (s.ocsIdent u b).heardOf u = (s.ocs.planes, 0, false, some (identOf b)) := by
  unfold State.ocsIdent
  extract_lets id old s1 recd before s2 range mm s3
  have answered : s1.heardOf u = (s.ocs.planes, 0, false, some (identOf b)) := by
    simp only [State.heardOf, s1, updUnit_unit_self inside]
    rfl
  cases s1.vis.led.manifest with
  | none => exact answered
  | some m =>
    dsimp -zeta only
    extract_lets fits lanes laned s4 s5
    have recorded : s2.heardOf u = s1.heardOf u := by
      unfold s2
      split <;> simp
    rw [← answered, ← recorded]
    split
    · rw [mapTo_heardOf, updUnit_heardOf fun _ => by rfl]
      unfold s3
      split <;> simp
    · have mapped : s4.heardOf u = s2.heardOf u := mapTo_heardOf _ _ _
      rw [← mapped]
      split
      · rw [updUnit_heardOf fun _ => by rfl]
        unfold s5
        split <;> simp
      · exact updUnit_heardOf (fun _ => by rfl) _ _

/-! #### SET_ACK and SET_DONE (R171, R172, R178, R179) -/

theorem ocsSetAck_accepted {b : List Byte} (good : field b 8 1 = 0) (s : State) (u : Nat) : s.ocsSetAck u b = s := by
  simp [State.ocsSetAck, good]

theorem openPart_eq_some_iff {s : State} {u : Nat} {ch : PlaneChange} {x : UnitPart} : s.openPart u = some (ch, x) ↔
    s.ocs.planes.getD (u / 8) none = some ch ∧ ch.parts.find? (fun x => x.unit = u && !x.done && !x.failed) = some x := by
  simp only [State.openPart, Option.bind_eq_some_iff, Option.map_eq_some_iff, Prod.mk.injEq]
  constructor
  · rintro ⟨_, planned, _, found, rfl, rfl⟩
    exact ⟨planned, found⟩
  · rintro ⟨planned, found⟩
    exact ⟨ch, planned, x, found, rfl, rfl⟩

section
variable {s : State} {u : Nat} {ch : PlaneChange} {x : UnitPart} (open_ : s.openPart u = some (ch, x))
include open_

theorem plane_inside_of_openPart : u / 8 < s.ocs.planes.length := by
  obtain ⟨planned, -⟩ := openPart_eq_some_iff.mp open_
  exact lt_length_of_getD_ne (planned ▸ Option.some_ne_none ch)

/-- A part that is open is found by its generation. -/
theorem partOfGen_of_openPart : ∃ y, s.partOfGen u x.gen = some y := by
  obtain ⟨planned, found⟩ := openPart_eq_some_iff.mp open_
  have named : (decide (x.unit = u) && decide (x.gen = x.gen) && !x.done && !x.failed) = true := by
    simpa using List.find?_some found
  simp only [State.partOfGen, planned, Option.bind_some]
  exact Option.isSome_iff_exists.mp (List.find?_isSome.mpr ⟨x, List.mem_of_find?_eq_some found, named⟩)

theorem updPart_of_openPart (f : UnitPart → UnitPart) : s.updPart u f =
    s.setPlane (u / 8) (some { ch with parts := modWhere ch.parts (·.unit = u) f }) := by
  obtain ⟨planned, -⟩ := openPart_eq_some_iff.mp open_
  simp only [State.updPart, planned]

/-- A SET refused for the first time goes out once more under the next generation (R172, R179). -/
theorem failPart_again (first : x.retried = false) : s.failPart u false =
    (s.nextGen.2.setPlane (u / 8) (some { ch with parts := modWhere ch.parts (·.unit = u) fun x =>
      { x with retried := true, gen := s.nextGen.1, sentAt := s.sealCycle } })).sendSet u s.nextGen.1 x.entries := by
  obtain ⟨planned, found⟩ := openPart_eq_some_iff.mp open_
  have next : s.nextGen.2.openPart u = some (ch, x) := open_
  simp only [State.failPart, planned, Option.bind_some, found, first]
  exact congrArg (State.sendSet · u s.nextGen.1 x.entries) (updPart_of_openPart next _)

theorem ocsSetAck_refused {b : List Byte} (gen : x.gen = field b 0 8) (refused : field b 8 1 ≠ 0) :
    s.ocsSetAck u b = s.failPart u false := by
  obtain ⟨y, named⟩ := partOfGen_of_openPart open_
  rw [State.ocsSetAck, ← gen, named, if_pos (by simp [refused])]

end

/-- A change some part of which is open has no outcome yet (R171). -/
theorem checkChange_waits {s : State} {p : Nat} {ch : PlaneChange} (planned : s.ocs.planes.getD p none = some ch)
    (waits : ch.parts.any (fun x => !x.done && !x.failed) = true) : s.checkChange p = s := by
  simp only [State.checkChange, planned, waits, Bool.or_true, if_true]

/-- Whatever becomes of a unit's part, the other units' open parts stay open. -/
theorem open_of_others {ch : PlaneChange} {u : Nat} (others : ch.others u = true) (f : UnitPart → UnitPart) :
    (modWhere ch.parts (·.unit = u) f).any (fun x => !x.done && !x.failed) = true := by
  simp only [PlaneChange.others, List.any_eq_true, Bool.and_eq_true, bne_iff_ne] at others
  obtain ⟨x, mem, ⟨other, undone⟩, unfailed⟩ := others
  exact List.any_eq_true.mpr ⟨x, List.mem_map.mpr ⟨x, mem, by simp [other]⟩, by rw [undone, unfailed]; rfl⟩

/-- A SET_DONE without failed entries completes the unit's part; while other parts are open the change goes on (R171). -/
theorem ocsSetDone_completes {s : State} {u : Nat} {ch : PlaneChange} {x : UnitPart} {b : List Byte}
    (open_ : s.openPart u = some (ch, x)) (gen : x.gen = field b 0 8) (good : field b 10 2 = 0) (others : ch.others u = true) :
    s.ocsSetDone u b =
      s.setPlane (u / 8) (some { ch with parts := modWhere ch.parts (·.unit = u) fun x => { x with done := true } }) := by
  obtain ⟨y, named⟩ := partOfGen_of_openPart open_
  simp only [State.ocsSetDone, ← gen, named, good, if_true, updPart_of_openPart open_]
  exact checkChange_waits (modAt_getD_self _ _ _ _ (plane_inside_of_openPart open_)) (open_of_others others _)

/-! #### MAP and ALARM (R174, R177, R625) -/

/-- The connections a MAP tells. -/
def mapTold (b : List Byte) : List (Nat × Nat) :=
  (List.range (field b 10 2)).filterMap fun i =>
    if field b (12 + 2 * i) 2 = 0xFFFF then none else some (field b 8 2 + i, field b (12 + 2 * i) 2)

/-- A MAP that leaves ports unread adds what it tells, and the unit is asked for the rest. -/
theorem ocsMap_adds {s : State} {u : Nat} {ch : PlaneChange} {b : List Byte} (planned : s.ocs.planes.getD (u / 8) none = some ch)
    (kind : ch.kind = .reconcile u) (asking : ch.parts = []) (told : field b 10 2 ≠ 0)
    (more : field b 8 2 + field b 10 2 < (s.unit u).ident.elim 0 (·.ports)) : s.ocsMap u b =
      (s.updUnit u fun x => { x with conn := x.conn ++ mapTold b }).askMap u (field b 8 2 + field b 10 2) := by
  obtain ⟨k, ps, sent, sentAt⟩ := ch
  subst kind asking
  unfold State.ocsMap
  rw [planned]
  dsimp -zeta only
  rw [if_neg (not_not.mpr rfl)]
  extract_lets first k new s1 ports
  have known : ports = (s.unit u).ident.elim 0 (·.ports) := by
    have same : (s1.unit u).ident = (s.unit u).ident := updUnit_component (g := OcsUnit.ident) (fun _ => by rfl) s u
    unfold ports
    rw [same]
    cases (s.unit u).ident <;> rfl
  rw [if_pos (by rw [known]; simpa [told, k, first] using more)]
  rfl

theorem ocsAlarm_transient {b : List Byte} (other : field b 2 2 ≠ 2) (s : State) (u : Nat) :
    s.ocsAlarm u b = (s.fault 1 0x03 u).updUnit u fun x => { x with reconcile := true } := by
  simp only [State.ocsAlarm, other, if_false]

/-- Settles O28, clause by clause: a message from a unit is judged by its type's handler. -/
theorem unitMessagesRun : Obligations.UnitMessagesRun := by
  unfold Obligations.UnitMessagesRun
  refine ⟨?ident, ?ack, ?refused, ?done, ?map, ?alarm⟩
  case ident =>
    intro s src msg u sender formed inside
    have heard := ocsIdent_heardOf (s := s.unitHeard msg) inside (msg.drop 16)
    simp only [State.heardOf, Prod.mk.injEq, identOf, field_drop] at heard
    obtain ⟨planes, missed, asked, ident⟩ := heard
    exact ⟨_, congrArg Host.Outcome.next (ocsReceive_formed sender formed), missed, asked, ident, planes⟩
  case ack =>
    intro s src msg u sender formed good
    exact congrArg Host.Outcome.next ((ocsReceive_formed sender formed).trans
      (ocsSetAck_accepted (by rwa [field_drop]) _ _))
  case refused =>
    intro s src msg u ch x sender formed refused open_ gen first g
    have heard : (s.unitHeard msg).openPart u = some (ch, x) := open_
    have again : (s.unitHeard msg).ocsSetAck u (msg.drop 16) = _ :=
      (ocsSetAck_refused heard (by rwa [field_drop]) (by rwa [field_drop])).trans (failPart_again heard first)
    refine ⟨_, congrArg Host.Outcome.next ((ocsReceive_formed sender formed).trans again), ?_, ?_⟩
    · exact sendOcs_setsNow _ _ _ _
    · rw [State.sendSet, sendOcs_planes]
      exact modAt_getD_self _ _ _ _ (plane_inside_of_openPart heard)
  case done =>
    intro s src msg u ch x sender formed good open_ gen others
    exact congrArg Host.Outcome.next ((ocsReceive_formed sender formed).trans
      (ocsSetDone_completes (s := s.unitHeard msg) open_ (by rwa [field_drop]) (by rwa [field_drop]) others))
  case map =>
    intro s src msg u ch sender formed inside planned kind asking told more
    have adds := ocsMap_adds (s := s.unitHeard msg) (b := msg.drop 16) planned kind asking (by rwa [field_drop])
      (by rw [field_drop, field_drop]; exact more)
    refine ⟨_, congrArg Host.Outcome.next ((ocsReceive_formed sender formed).trans adds), sendOcs_planes _ _ _ _, ?_⟩
    rw [State.askMap, sendOcs_unit, updUnit_unit_self (s := s.unitHeard msg) inside]
    simp only [mapTold, field_drop, ← Nat.add_assoc]
    rfl
  case alarm =>
    intro s src msg u sender formed other
    exact congrArg Host.Outcome.next ((ocsReceive_formed sender formed).trans
      (ocsAlarm_transient (by rwa [field_drop]) _ _))

/-! ### Measurements and masks (R193, R366, R576) -/

/-- What is being measured, what is suspect, and what is visible. -/
def State.suspicion (s : State) : List (Element × Option Nat × Tick) × List Element × Fabric :=
  (s.faults.measuring, s.faults.suspects, s.vis)

theorem fault_suspicion (s : State) (cls fn object : Nat) : (s.fault cls fn object).suspicion = s.suspicion := by
  obtain ⟨_, _, _, frame⟩ := addFault_frame s (.plain s.now cls fn 0 object)
  rw [State.fault, frame]
  rfl

theorem degradePort_suspicion (s : State) (d : Nat) : (s.degradePort d).suspicion = s.suspicion := rfl

theorem laneFailed_suspicion (s : State) (e : Element) : (s.laneFailed e).suspicion = s.suspicion := by
  cases e with
  | port d => exact (degradePort_suspicion _ d).trans (fault_suspicion _ _ _ _)
  | uplink c p => exact fault_suspicion _ _ _ _
  | elec g x y => exact fault_suspicion _ _ _ _

theorem endTask_suspicion (s : State) (t : Task) (st : Status) (res : List Byte) :
    (s.endTask t st res).suspicion = s.suspicion := by
  obtain ⟨_, _, _, frame⟩ := near_completeCmd (s.dropTask t.id) t.ident st res t.retries
  exact (congrArg State.suspicion frame).trans rfl

theorem execScheduledDiagLane_begins {s : State} {e : Element} (scheduled : e ∈ s.faults.scheduled)
    (idle : s.faults.measuring.any (·.1 = e) = false) : exec (.scheduledDiagLane e) s = .next { s with faults := { s.faults with
      scheduled := s.faults.scheduled.filter (· ≠ e), measuring := s.faults.measuring ++ [(e, none, s.now)] } } := by
  have acts : ¬ (!s.faults.scheduled.contains e || s.faults.measuring.any (·.1 = e)) = true := by simp [scheduled, idle]
  simp only [exec, execScheduledDiagLane]
  rw [if_neg acts]

section
variable {s : State} {e : Element} {x : Option Nat} {at_ : Tick} {lanes : List LaneEntry} {unc miss : Bool}
  (running : s.faults.measuring.find? (·.1 = e) = some (e, x, at_))
include running

theorem execDiagLaneEnd_early (early : s.since at_ < 4096) : exec (.diagLaneEnd e lanes unc miss) s = .next s := by
  simp only [exec, execDiagLaneEnd, running, early, if_true]

/-- A measurement that has had its time ends, and a pass takes its element from the suspects. -/
theorem execDiagLaneEnd_ends (due : 4096 ≤ s.since at_) : ∃ t : State, exec (.diagLaneEnd e lanes unc miss) s = .next t ∧
    t.suspicion = (s.faults.measuring.filter (·.1 ≠ e),
      if s.lanePasses e lanes unc miss then s.faults.suspects.filter (· ≠ e) else s.faults.suspects, s.vis) := by
  simp only [exec]
  unfold execDiagLaneEnd
  rw [running]
  dsimp -zeta only
  rw [if_neg due.not_gt]
  extract_lets pass marked old f s1 s2 s3
  have measured : s2.suspicion = s1.suspicion := by
    cases e <;> rfl
  have judged : s3.suspicion = s1.suspicion := by
    rw [← measured]
    unfold s3
    split
    · split <;> rfl
    · exact laneFailed_suspicion _ _
  split
  · exact ⟨_, rfl, (endTask_suspicion _ _ _ _).trans judged⟩
  · exact ⟨_, rfl, judged⟩

end

theorem CtlOnly.stg {s t : State} (h : CtlOnly s t) : t.stg = s.stg := by
  obtain ⟨_, _, rfl⟩ := h
  rfl

/-- Masks are told in control packets (R509). -/
theorem tellMasks_ctlOnly (s : State) (q : QuireId) (x : Solution) (old new : QuireVol) (eff : Tick) :
    CtlOnly s (s.tellMasks q x old new eff) := by
  refine .fold (fun s pr => ?_) _ s
  dsimp only
  split
  · exact .refl s
  · exact sendCtls_ctlOnly _ _ _ _

/-- The masks that are due to clear on a path of a quire (R193). -/
def maskDue (g h path : Nat) (m : Mask) : Bool := m.kind = .health && m.g = g && m.h = h && m.path = path && 64 ≤ m.goodFor

theorem execPathMaskClear_clears {s : State} {q g h path : Nat} {x : Solution} {m : Mask}
    (installed : (s.stg.vol.quire q).installed = some x) (set : m ∈ (s.stg.vol.quire q).masks)
    (due : maskDue g h path m = true) : ∃ t : State, exec (.pathMaskClear q g h path) s = .next t ∧
      (t.stg.vol.quire q).masks = (s.stg.vol.quire q).masks.filter fun m => !maskDue g h path m := by
  have anyDue : (s.stg.vol.quire q).masks.any (maskDue g h path) = true := List.any_eq_true.mpr ⟨m, set, due⟩
  simp only [exec, execPathMaskClear, installed]
  refine ⟨_, if_pos anyDue, ?_⟩
  rw [(tellMasks_ctlOnly _ _ _ _ _ _).stg, updQuireVol_stg, updQuire_quire_self _ _ fun _ => by rfl]
  rfl

/-- Settles O35, clause by clause. -/
theorem measurementsRun : Obligations.MeasurementsRun := by
  unfold Obligations.MeasurementsRun
  refine ⟨?begins, ?early, ?ends, ?clears⟩
  case begins => exact fun s e scheduled idle => execScheduledDiagLane_begins scheduled idle
  case early => exact fun s e lanes unc miss x at_ running early => execDiagLaneEnd_early running early
  case ends =>
    intro s e lanes unc miss x at_ running due
    obtain ⟨t, runs, told⟩ := execDiagLaneEnd_ends (lanes := lanes) (unc := unc) (miss := miss) running due
    simp only [State.suspicion, Prod.mk.injEq] at told
    obtain ⟨measuring, suspects, view⟩ := told
    exact ⟨t, runs, measuring, fun pass => by rw [suspects, if_pos pass], fun fail => by rw [suspects, fail]; rfl, view⟩
  case clears =>
    intro s q g h path x m installed set health hg hh hpath good
    have due : maskDue g h path m = true := by simp [maskDue, health, hg, hh, hpath, good]
    obtain ⟨t, runs, left⟩ := execPathMaskClear_clears installed set due
    refine ⟨t, runs, by simp [left, due], fun n held transit => ?_⟩
    rw [left]
    exact List.mem_filter.mpr ⟨held, by simp [maskDue, transit]⟩

/-! ### The horizons of operations (R201, R307, R324, R325, R331) -/

section
variable {s : State} {q : QuireId} {tag : Nat} {o : Op} {r : QuireRec} (live : (s.stg.vol.liveOps q).find? (·.tag = tag) = some o)
  (quire : s.stg.led.quire q = some r)
include live quire

section
variable {k c : Nat} {m : Missing} (lacking : o.missing.find? (fun m => m.contributor = k && m.chunk = c) = some m)
  (past : o.horizon ≤ m.age)
include lacking past

theorem execRetryHorizon_lost (again : m.retried = true) :
    exec (.retryHorizon q tag (.chunk k c)) s = .next (s.lostChunk o k) := by
  simp only [exec, execRetryHorizon, live, quire, lacking, past.not_gt, again, if_true, if_false]

theorem execRetryHorizon_asks (first : m.retried = false) : exec (.retryHorizon q tag (.chunk k c)) s =
    .next ((s.updOp q tag fun o => { o with
      retries := o.retries + 1
      missing := modWhere o.missing (fun x => x.contributor = k && x.chunk = c) fun x =>
        { x with retried := true, age := 0 } }).sendCtl 0x0D (o.set.getD k 0)
        (windowNotice q tag o.cLow o.window false (some c))) := by
  simp only [exec, execRetryHorizon, live, quire, lacking, past.not_gt, first, if_false]
  rfl

end

/-- A leg to an endpoint that was sent again is lost at its second horizon. -/
theorem execRetryHorizon_legLost {dst c : Nat} {l : Leg}
    (waiting : o.legs.find? (fun l => l.dst = dst && l.chunk = c && !l.acked && !l.failed) = some l) (single : o.multicast = false)
    (endpoint : cGath dst ≠ 63) (past : o.horizon ≤ l.age) (again : l.retried = true) :
    exec (.retryHorizon q tag (.leg dst c)) s = .next (s.lostLeg o l) := by
  have late : ¬ (o.multicast || l.age < o.horizon + b2n (!true)) = true := by simp [single, b2n, past]
  simp only [exec, execRetryHorizon, live, quire, endpoint, waiting, again, late, Bool.false_eq_true, if_true, if_false]

end

/-- A multicast whose legs have all answered is over at its horizon. -/
theorem execMulticastHorizon_over {s : State} {q : QuireId} {sq : Nat} {c : Multicast} {o : Op} {r : QuireRec}
    (running : s.casts.find? (fun c => c.quire = q && c.seq = sq) = some c)
    (live : (s.stg.vol.liveOps q).find? (·.tag = c.tag) = some o) (quire : s.stg.led.quire q = some r)
    (answered : ∀ x ∈ c.legs, x ∈ c.acked) :
    exec (.multicastHorizon q sq) s = .next { s with casts := s.casts.filter fun x => !(x.quire = q && x.seq = sq) } := by
  have none_open : (c.legs.filter fun d => !c.acked.contains d) = [] :=
    List.filter_eq_nil_iff.mpr fun x leg => by simp [answered x leg]
  simp only [exec, execMulticastHorizon, running, live, quire, none_open, if_true]

theorem execLaunchMatchTimeout_ends {s : State} {q : QuireId} {tag : Nat} {o : Op} (op : s.stg.vol.op q tag = some o)
    (waits : o.state = .awaiting) (past : 2 * o.horizon ≤ s.since o.accTick) :
    exec (.launchMatchTimeout q tag) s = .next (s.endOp o .opTimeout) := by
  simp [exec, execLaunchMatchTimeout, op, waits, past]

/-! ### The end of work items (R276-R279) -/

/-- A cluster of the quire may end a work item of a live local operation, and nothing the operation reads is bad (R276, R367). -/
structure LocalItemEnds (s : State) (q : QuireId) (tag item rc : Nat) (o : Op) (r : QuireRec) (d : Desc) : Prop where
  op : s.stg.vol.op q tag = some o
  quire : s.stg.led.quire q = some r
  desc : o.desc = some d
  alive : s.faults.fatal = none
  live : o.state = .live
  due : item ∈ o.items
  local_ : o.kind = 0
  clean : r.quarantined = false
  up : (s.stg.vol.quire q).inReset = false
  member : rc ∈ r.clusters
  good : o.readsBad s.stg.vol r.leaves = false

section
variable {s : State} {q : QuireId} {tag item rc : Nat} {o : Op} {r : QuireRec} {d : Desc}
  (ends : LocalItemEnds s q tag item rc o r d)
include ends

/-- Nothing holds the item's end back. -/
theorem LocalItemEnds.unhindered : (s.faults.fatal.isSome || o.state ≠ .live || !o.items.contains item ||
    !(o.kind = 0 || ((s.locals o).all fun l => o.held.contains (l.1, item)) && o.fedFor s.volume item) ||
    !r.clusters.contains rc || r.quarantined || (s.stg.vol.quire q).inReset) = false := by
  simp [ends.alive, ends.live, ends.due, ends.local_, ends.member, ends.clean, ends.up]

/-- The item's outputs are written; an operation without row statistics writes nothing else. -/
theorem execWorkItemDone_runs (plain : d.optStats = false) : exec (.workItemDone q tag item rc .ok) s =
    .next (s.itemRan o item rc (d.runItem (if d.optAct then actCurve s.vis.led s.fw.ver d.curve else none) s.stg.vol.hbm
      r.leaves item)) := by
  simp only [exec, execWorkItemDone, ends.op, ends.quire, ends.desc, ends.unhindered, ends.good, plain, Bool.false_and,
    Bool.false_eq_true, if_false]
  rw [if_pos ends.local_]

/-- An item that fails for the first time is to be run once more. -/
theorem execWorkItemDone_reruns (first : item ∉ o.retriedItems) : exec (.workItemDone q tag item rc .tileStoreError) s =
    .next (s.updOp q tag fun o => { o with retriedItems := o.retriedItems ++ [item], retries := o.retries + 1 }) := by
  have untried : o.retriedItems.contains item = false := by simpa using first
  simp only [exec, execWorkItemDone, ends.op, ends.quire, ends.desc, ends.unhindered, ends.good, untried,
    Bool.false_eq_true, if_false, reduceCtorEq]

end

/-- Settles O50, row by row. -/
theorem collectiveTimersRun : Obligations.CollectiveTimersRun := by
  unfold Obligations.CollectiveTimersRun
  refine ⟨?lost, ?asks, ?leg, ?cast, ?tag, ?launch, ?ran, ?rerun⟩
  case lost => exact fun s q tag o r k c m live quire lacking past again => execRetryHorizon_lost live quire lacking past again
  case asks => exact fun s q tag o r k c m live quire lacking past first => execRetryHorizon_asks live quire lacking past first
  case leg =>
    exact fun s q tag o r dst c l live quire waiting single endpoint past again =>
      execRetryHorizon_legLost live quire waiting single endpoint past again
  case cast => exact fun s q sq c o r running live quire answered => execMulticastHorizon_over running live quire answered
  case tag =>
    intro s q tag
    refine ⟨_, rfl, fun o => List.mem_filter.trans (and_congr_right fun _ => ?_), rfl⟩
    rw [Bool.not_eq_true', ← Bool.not_eq_true]
    simp only [Bool.and_eq_true, decide_eq_true_eq, and_assoc]
  case launch => exact fun s q tag o op waits past => execLaunchMatchTimeout_ends op waits past
  case ran =>
    exact fun s q tag item rc o r d op quire desc alive live due loc clean up member good plain =>
      execWorkItemDone_runs ⟨op, quire, desc, alive, live, due, loc, clean, up, member, good⟩ plain
  case rerun =>
    exact fun s q tag item rc o r d op quire desc alive live due loc clean up member good first =>
      execWorkItemDone_reruns ⟨op, quire, desc, alive, live, due, loc, clean, up, member, good⟩ first

end Sys2Proof.Machine
end

section
/-! PROOFS. The family of packets and ports: how fragments enter the on-die rings and leave them (R239-R246), errors of ring slots
(R240), the senders of ports (R226, R227, R229), and codewords (R207, R208). -/
namespace Sys2Proof.Machine

/-! ### Entry to the rings (R239, R241-R243) -/

/-- The ring packet as which a fragment sets out on the first leg of its path: by the shorter direction, with no lap behind it. -/
def setOut (o : RingOffer) (f : FabricPkt) (l : RingLeg) (rest : List RingLeg) : RingPkt where
  id := o.id
  quire := f.quire
  ring := l.ring
  dir := shorterDir l.ring l.src l.dst
  src := l.src
  dst := l.dst
  agent := l.agent
  lap := 0
  path := rest
  final := f.dst

section
variable {s : State} {o : RingOffer} {f : FabricPkt} {l : RingLeg} {rest : List RingLeg} (known : s.offered o = some f)
  (valid : o.id.frag < f.frags) (fresh : o.id.frag ∉ f.entered) (path : s.fuses.ringPath s.freeBool.1 f.src f.dst = l :: rest)
include known valid fresh path

/-- A waiting fragment's row has two outcomes; the free value it takes is the crossing of a column in the middle (log entry 188). -/
theorem execRingEntry_cases : exec (.ringEntry o) s =
    let p := setOut o f l rest
    if s.mayEnter p.ring p.dir p.src && !s.rings.turnWaits p then .next ((s.freeBool.2.fragEntered f o.id.frag).enterRing p)
    else .next (s.freeBool.2.ringCount p.ring p.dir 8).ringCycle := by
  have waiting : (decide (f.frags ≤ o.id.frag) || f.entered.contains o.id.frag) = false := by simp [valid, fresh]
  have crossing : s.freeBool.2.fuses.ringPath s.freeBool.1 f.src f.dst = l :: rest := path
  simp only [exec, execRingEntry, known, waiting, crossing, Bool.false_eq_true, if_false]
  rfl

theorem execRingEntry_enters (room : s.mayEnter l.ring (shorterDir l.ring l.src l.dst) l.src = true)
    (first : s.rings.turnWaits (setOut o f l rest) = false) :
    exec (.ringEntry o) s = .next ((s.freeBool.2.fragEntered f o.id.frag).enterRing (setOut o f l rest)) := by
  have enters : (s.mayEnter l.ring (shorterDir l.ring l.src l.dst) l.src && !s.rings.turnWaits (setOut o f l rest)) = true := by
    simp [room, first]
  exact (execRingEntry_cases known valid fresh path).trans (if_pos enters)

/-- A fragment that may not enter is counted, and a ring cycle passes (log entry 8); the turn queue comes before it (log entry 193). -/
theorem execRingEntry_waits (held : s.mayEnter l.ring (shorterDir l.ring l.src l.dst) l.src = false ∨
      s.rings.turnWaits (setOut o f l rest) = true) :
    exec (.ringEntry o) s = .next (s.freeBool.2.ringCount l.ring (shorterDir l.ring l.src l.dst) 8).ringCycle := by
  have waits : ¬ (s.mayEnter l.ring (shorterDir l.ring l.src l.dst) l.src && !s.rings.turnWaits (setOut o f l rest)) = true := by
    rcases held with full | turn
    · simp [full]
    · simp [turn]
  exact (execRingEntry_cases known valid fresh path).trans (if_neg waits)

end

/-! ### A packet alone on the rings (R241, R243, R244) -/

theorem turnHeads_of_ejectQ_nil {r : Rings} (empty : r.ejectQ = []) : r.turnHeads = [] := by simp [Rings.turnHeads, empty]

theorem heads_of_transit_single {r : Rings} {x : RingPkt × Nat} (alone : r.transit = [x]) : r.heads = [x] := by
  simp [Rings.heads, alone]

/-- A packet that no other meets at its destination stop has no rival for the eject port. -/
theorem arrival_unrivalled (s : State) (x : RingPkt × Nat) : s.arrival [x] x = s.arrive x.1 := by simp [State.arrival]

/-- A packet ejects where its agent is in service and its queue has room. -/
theorem arrive_ejects {s : State} {p : RingPkt} (young : p.lap < 64) (serving : s.agentOut p.agent = false)
    (room : (if 3 ≤ p.lap then 1 else 3) ≤ ejectDepth p.agent - s.ejectHeld p) : s.arrive p = s.ejectRing p := by
  unfold State.arrive
  rw [if_neg (by omega), if_neg (by simp [serving])]
  exact if_pos room

section
variable {s : State} {p : RingPkt} {stop : Nat} (alone : s.rings.transit = [(p, stop)])
  (due : nextStop p.ring p.dir stop = p.dst)
include alone due

/-- The ring cycle in which a packet alone on the rings meets its destination stop: it arrives, then the agents take what they will. -/
theorem ringCycle_alone (empty : s.rings.ejectQ = []) : s.ringCycle =
    let t := s.arrive p
    let t := t.rings.agentHeads.foldl State.agentTakes t
    { t with rings := { t.rings with entries := [] } } := by
  have meets : arriving (p, stop) = true := decide_eq_true due
  simp [State.ringCycle, turnHeads_of_ejectQ_nil empty, heads_of_transit_single alone, meets, arrival_unrivalled]

/-- The ring cycle in which the packet meets its destination stop is the last to pass in its row (log entry 8). -/
theorem untilArrived_due (n : Nat) : State.untilArrived p.id (n + 1) s = s.ringCycle := by
  have meets : arriving (p, stop) = true := decide_eq_true due
  simp [State.untilArrived, alone, heads_of_transit_single alone, meets]

end

/-! ### Errors of ring slots (R240) -/

section
variable {ring : Nat} (real : ring ≤ 25) (s : State) (dir : RingDir) (stop : Nat) (id : RingId)
include real

theorem execSlotEccError_corrected : exec (.slotEccError ring dir stop id false) s = .next (s.ringCount ring dir 6) := by
  simp [exec, execSlotEccError, real.not_gt]

theorem execSlotEccError_retires {p : RingPkt}
    (hit : (s.rings.transit.find? fun x => x.1.id = id && x.1.ring = ring && x.1.dir = dir && x.2 = stop).map (·.1) = some p) :
    exec (.slotEccError ring dir stop id true) s = .next (s.retireRing p ring dir stop 7) := by
  simp only [exec, execSlotEccError, real.not_gt, if_false, Bool.not_true, Bool.false_eq_true, hit]

end

/-! ### What reassembly at a port leaves of its sender (R226, R231, R239)

A sent packet makes room in its egress buffer, and the eject queue drains into it. -/

/-- Where a port's sender stands, beside the visible and the staged state: the quire it served last, and the slots it has started. -/
def State.sending (s : State) (d : Nat) : QuireId × List (List Byte) × Fabric × Fabric :=
  ((s.port d).lastServed, (s.port d).slots, s.vis, s.stg)

theorem updPort_sending {f : Port → Port} (kept : ∀ p, ((f p).lastServed, (f p).slots) = (p.lastServed, p.slots)) (s : State)
    (e d : Nat) : (s.updPort e f).sending d = s.sending d := by
  have same := updPort_component (g := fun p => (p.lastServed, p.slots)) kept s e d
  simp only [Prod.mk.injEq] at same
  simp only [State.sending, updPort_vis, updPort_stg, same]

@[simp] theorem count_sending (s : State) (e i n d : Nat) : (s.count e i n).sending d = s.sending d :=
  updPort_sending (fun _ => by rfl) s e d

@[simp] theorem putBucket_sending (s : State) (b : Bucket) (d : Nat) : (s.putBucket b).sending d = s.sending d := rfl

@[simp] theorem updBook_sending (s : State) (q : QuireId) (ring stop : Nat) (f : RingBook → RingBook) (d : Nat) :
    (s.updBook q ring stop f).sending d = s.sending d := rfl

@[simp] theorem assembled_sending (s : State) (f : FabricPkt) (d : Nat) : (s.assembled f).sending d = s.sending d := by
  unfold State.assembled
  split
  · split
    · exact count_sending ..
    · exact updPort_sending (fun _ => by rfl) ..
  · rfl

@[simp] theorem seeDepth_sending (s : State) (a : RingPlace) (d : Nat) : (s.seeDepth a).sending d = s.sending d := by
  unfold State.seeDepth
  split
  · exact updPort_sending (fun _ => by rfl) ..
  · rfl

@[simp] theorem fragEnded_sending (s : State) (id : RingId) (lost : Bool) (d : Nat) :
    (s.fragEnded id lost).sending d = s.sending d := by
  unfold State.fragEnded
  split
  · rfl
  · rw [seeDepth_sending]
    split
    · exact assembled_sending ..
    · rfl

@[simp] theorem takeEjected_sending (s : State) (p : RingPkt) (d : Nat) : (s.takeEjected p).sending d = s.sending d :=
  fragEnded_sending ..

@[simp] theorem drainPort_sending (s : State) (e : Nat) (l : List RingPkt) (d : Nat) :
    (s.drainPort e l).sending d = s.sending d := by
  induction l generalizing s with
  | nil => rfl
  | cons p l ih =>
    unfold State.drainPort
    split
    · rw [ih, takeEjected_sending]
    · rfl

@[simp] theorem drainEgress_sending (s : State) (e d : Nat) : (s.drainEgress e).sending d = s.sending d :=
  (drainPort_sending ..).trans <| List.foldlRecOn _ State.takeEjected (motive := fun t => t.sending d = s.sending d) rfl
    fun t kept p _ => (takeEjected_sending t p d).trans kept

/-! ### The senders of ports (R227, R229) -/

section
variable {s : State} {d : Nat} (inside : d < s.ports.length) (free : (s.port d).slots.length < slotsPerTick s.clk.period)
include inside free

/-- The oldest control packet that may go starts, counted; nothing but the port changes. -/
theorem execPortSend_control {c : List Byte} (oldest : (s.port d).ctl.find? (s.maySend (s.port d)) = some c) :
    ∃ t : State, exec (.portSend d) s = .next t ∧ (t.port d).ctl = (s.port d).ctl.erase c ∧ (t.port d).egress = (s.port d).egress ∧
      (t.port d).slots = (s.port d).slots ++ slotBytes c ∧ t = { s with ports := t.ports } := by
  let u := s.updPort d fun p => { p with ctl := p.ctl.erase c, slots := p.slots ++ slotBytes c }
  have starts : exec (.portSend d) s = .next ((u.count d 2 1).count d 3 64) := by
    simp only [exec, execPortSend, free.not_ge, if_false, oldest]
    rfl
  have counted {β : Type} {g : Port → β} (kept : ∀ p c, g { p with counters := c } = g p) :
      g (((u.count d 2 1).count d 3 64).port d) = g (u.port d) :=
    (updPort_component (fun p => kept p _) _ d d).trans (updPort_component (fun p => kept p _) u d d)
  have port : u.port d = { s.port d with ctl := (s.port d).ctl.erase c, slots := (s.port d).slots ++ slotBytes c } :=
    updPort_port_self inside _
  exact ⟨_, starts, (counted (g := Port.ctl) fun _ _ => rfl).trans (by rw [port]),
    (counted (g := Port.egress) fun _ _ => rfl).trans (by rw [port]),
    (counted (g := Port.slots) fun _ _ => rfl).trans (by rw [port]), rfl⟩

/-- The next eligible quire's oldest data packet starts; neither the visible nor the staged state changes. -/
theorem execPortSend_data {q : QuireId} {e : EgressPkt} (idle : (s.port d).ctl = []) (up : (s.port d).vis.status = 2)
    (unheld : (s.port d).heldDown = false) (alive : s.faults.fatal = none)
    (next : (s.port d).turn.find? (s.eligible d) = some q) (oldest : (s.port d).egress.find? (·.quire = q) = some e) :
    ∃ t : State, exec (.portSend d) s = .next t ∧
      t.sending d = (q, (s.port d).slots ++ slotBytes e.bytes, s.vis, s.stg) := by
  let u := s.updPort d fun p => { p with egress := p.egress.erase e, lastServed := q, slots := p.slots ++ slotBytes e.bytes }
  have sent : u.sending d = (q, (s.port d).slots ++ slotBytes e.bytes, s.vis, s.stg) := by
    simp only [u, State.sending, updPort_port_self inside, updPort_vis, updPort_stg]
  have clear : ¬ (decide ((s.port d).vis.status ≠ 2) || (s.port d).heldDown || s.faults.fatal.isSome) = true := by
    simp [up, unheld, alive]
  simp only [exec, execPortSend, free.not_ge, if_false, idle, List.find?_nil, clear, next, oldest]
  refine ⟨_, rfl, ?_⟩
  rw [drainEgress_sending, count_sending, count_sending]
  split
  · exact sent
  · exact sent

end

/-- Settles O56, row by row. -/
theorem ringAndPortRowsRun : Obligations.RingAndPortRowsRun := by
  unfold Obligations.RingAndPortRowsRun
  refine ⟨?entry, ?eject, ?ecc, ?control, ?data, ?codeword, ?starts⟩
  case entry =>
    exact fun s o f l rest known valid fresh path =>
      ⟨execRingEntry_enters known valid fresh path, execRingEntry_waits known valid fresh path⟩
  case eject =>
    intro s p stop alone empty due young serving room
    have ejects := ringCycle_alone alone due empty
    rw [arrive_ejects young serving room] at ejects
    exact congrArg Host.Outcome.next ((untilArrived_due alone due 79).trans ejects)
  case ecc =>
    exact fun s ring dir stop id p real =>
      ⟨execSlotEccError_corrected real s dir stop id, execSlotEccError_retires real s dir stop id⟩
  case control => exact fun s d c inside free oldest => execPortSend_control inside free oldest
  case data =>
    intro s d q e inside free idle up unheld alive next oldest
    obtain ⟨t, runs, sent⟩ := execPortSend_data inside free idle up unheld alive next oldest
    simp only [State.sending, Prod.mk.injEq] at sent
    exact ⟨t, runs, sent⟩
  case codeword => exact fun s d n => rfl
  case starts => exact fun s d parsing => if_pos parsing

end Sys2Proof.Machine
end

section
/-! PROOFS. The family of director memory (R259-R263, R411-R416, R556): first, what leaves the staged memory alone. Each operation of
the model but a dozen stages no byte of director HBM; one equation per operation says so, in the order of the model's files. -/

namespace Sys2Proof.Machine

open Laws Kept

@[simp] theorem foldl_hbm {α : Type} {f : State → α → State} (kept : ∀ s x, (f s x).stg.vol.hbm = s.stg.vol.hbm) (l : List α)
    (s : State) : (l.foldl f s).stg.vol.hbm = s.stg.vol.hbm :=
  List.foldlRecOn (motive := fun t : State => t.stg.vol.hbm = s.stg.vol.hbm) l f rfl fun t same x _ => (kept t x).trans same

/-- A fold that carries data beside the state. -/
@[simp] theorem foldl_fst_hbm {α β : Type} {f : State × β → α → State × β}
    (kept : ∀ x a, (f x a).1.stg.vol.hbm = x.1.stg.vol.hbm) (l : List α) (x : State × β) :
    (l.foldl f x).1.stg.vol.hbm = x.1.stg.vol.hbm :=
  List.foldlRecOn (motive := fun y : State × β => y.1.stg.vol.hbm = x.1.stg.vol.hbm) l f rfl fun y same a _ => (kept y a).trans same

@[simp] theorem ite_hbm (c : Prop) [Decidable c] (s t : State) :
    (if c then s else t).stg.vol.hbm = if c then s.stg.vol.hbm else t.stg.vol.hbm := by split <;> rfl

@[simp] theorem updQuire_hbm (v : Vol) (q : QuireId) (f : QuireVol → QuireVol) : (v.updQuire q f).hbm = v.hbm := by
  unfold Vol.updQuire
  split <;> rfl

/-- What a command goes on with stages the memory of the state before. -/
def LeavesMemory (s : State) (o : Host.Outcome State Fault Refusal) : Prop := ∀ t, o = .next t → t.stg.vol.hbm = s.stg.vol.hbm

@[simp] theorem leavesMemory_next {s t : State} : LeavesMemory s (.next t) ↔ t.stg.vol.hbm = s.stg.vol.hbm :=
  ⟨fun leaves => leaves t rfl, fun same _ next => by cases next; exact same⟩

/-! #### Operations over the state (R90, R91, R113-R142, R363) -/

@[simp] theorem freeNat_hbm (s : State) : s.freeNat.2.stg.vol.hbm = s.stg.vol.hbm := by unfold State.freeNat; rfl
@[simp] theorem freeBool_hbm (s : State) : s.freeBool.2.stg.vol.hbm = s.stg.vol.hbm := by unfold State.freeBool; rfl
@[simp] theorem freeBytes_hbm (s : State) (n : Nat) : (s.freeBytes n).2.stg.vol.hbm = s.stg.vol.hbm := by unfold State.freeBytes; rfl
@[simp] theorem raiseNow_hbm (s : State) (bits : Word64) : (s.raiseNow bits).stg.vol.hbm = s.stg.vol.hbm := by unfold State.raiseNow; rfl
@[simp] theorem raiseNext_hbm (s : State) (k : Nat) : (s.raiseNext k).stg.vol.hbm = s.stg.vol.hbm := by unfold State.raiseNext; rfl
@[simp] theorem stage_hbm (s : State) (r : DurRec) : (s.stage r).stg.vol.hbm = s.stg.vol.hbm := by simp [State.stage]
@[simp] theorem stageOwn_hbm (s : State) (objs : List Obj) : (s.stageOwn objs).stg.vol.hbm = s.stg.vol.hbm := by simp [State.stageOwn]
@[simp] theorem stageHist_hbm (s : State) (h : HistRec) (folios : Nat) : (s.stageHist h folios).stg.vol.hbm = s.stg.vol.hbm := by
  simp [State.stageHist]
@[simp] theorem addFault_hbm (s : State) (e : FaultEntry) : (s.addFault e).stg.vol.hbm = s.stg.vol.hbm := by simp [State.addFault]
@[simp] theorem fault_hbm (s : State) (cls fn object : Nat) : (s.fault cls fn object).stg.vol.hbm = s.stg.vol.hbm := by simp [State.fault]
@[simp] theorem setDegraded_hbm (s : State) (fn : Nat) (b : Bool) : (s.setDegraded fn b).stg.vol.hbm = s.stg.vol.hbm := by
  unfold State.setDegraded; rfl
@[simp] theorem lasting_hbm (s : State) (fn object : Nat) : (s.lasting fn object).stg.vol.hbm = s.stg.vol.hbm := by simp [State.lasting]

@[simp] theorem post_hbm (s : State) (r : Reply) : (s.post r).stg.vol.hbm = s.stg.vol.hbm := by
  unfold State.post
  split <;> simp

@[simp] theorem postAll_hbm (s : State) (l : List Reply) : (s.postAll l).1.stg.vol.hbm = s.stg.vol.hbm := by
  induction l generalizing s with
  | nil => rfl
  | cons r l ih =>
    unfold State.postAll
    split <;> simp [ih]

@[simp] theorem flushDue_hbm (s : State) (c : Nat) : (s.flushDue c).stg.vol.hbm = s.stg.vol.hbm := by simp [State.flushDue]
@[simp] theorem flushSeal_hbm (s : State) (c : Nat) : (s.flushSeal c).stg.vol.hbm = s.stg.vol.hbm := by simp [State.flushSeal]
@[simp] theorem postDue_hbm (s : State) (c : Nat) : (s.postDue c).stg.vol.hbm = s.stg.vol.hbm := by simp [State.postDue]
@[simp] theorem queueSeal_hbm (s : State) (r : Reply) : (s.queueSeal r).stg.vol.hbm = s.stg.vol.hbm := by simp [State.queueSeal]
@[simp] theorem refuse_hbm (s : State) (st : Status) : (refuse s st).1.stg.vol.hbm = s.stg.vol.hbm := by unfold refuse; rfl
@[simp] theorem volatileOk_hbm (c : Taken) (s : State) (res : List Byte) : (volatileOk c s res).1.stg.vol.hbm = s.stg.vol.hbm := by
  simp [volatileOk]

@[simp] theorem failCmd_hbm (s : State) (i : Option CmdIdent) (st : Status) (res : List Byte) (retry : Nat) :
    (s.failCmd i st res retry).stg.vol.hbm = s.stg.vol.hbm := by
  unfold State.failCmd
  split <;> simp

@[simp] theorem completeCmd_hbm (s : State) (i : Option CmdIdent) (st : Status) (res : List Byte) (retry : Nat) :
    (s.completeCmd i st res retry).stg.vol.hbm = s.stg.vol.hbm := by
  unfold State.completeCmd
  split <;> simp

@[simp] theorem durable_hbm (c : Taken) (s : State) (objs : List Obj) (q : Option QuireId) (res : List Byte) :
    (durable c s objs q res).1.stg.vol.hbm = s.stg.vol.hbm := by
  unfold durable
  split <;> simp

@[simp] theorem startTask_hbm (s : State) (ident : Option CmdIdent) (q : QuireId) (k : TaskKind) :
    (s.startTask ident q k).stg.vol.hbm = s.stg.vol.hbm := by unfold State.startTask; rfl
@[simp] theorem multi_hbm (c : Taken) (s : State) (k : TaskKind) : (multi c s k).1.stg.vol.hbm = s.stg.vol.hbm := by simp [multi]
@[simp] theorem dropTask_hbm (s : State) (id : Nat) : (s.dropTask id).stg.vol.hbm = s.stg.vol.hbm := by unfold State.dropTask; rfl
@[simp] theorem failTask_hbm (s : State) (t : Task) (st : Status) (res : List Byte) : (s.failTask t st res).stg.vol.hbm = s.stg.vol.hbm := by
  simp [State.failTask]
@[simp] theorem endTask_hbm (s : State) (t : Task) (st : Status) (res : List Byte) : (s.endTask t st res).stg.vol.hbm = s.stg.vol.hbm := by
  simp [State.endTask]
@[simp] theorem sealTask_hbm (s : State) (t : Task) (st : Status) (res : List Byte) : (s.sealTask t st res).stg.vol.hbm = s.stg.vol.hbm := by
  simp [State.sealTask]
@[simp] theorem stageTask_hbm (s : State) (t : Task) (kind : Nat) (objs : List Obj) (q : Option QuireId) :
    (s.stageTask t kind objs q).stg.vol.hbm = s.stg.vol.hbm := by simp [State.stageTask]

/-! #### Images of the status registers (R602-R619) -/

@[simp] theorem latchRegs_hbm (s : State) : s.latchRegs.stg.vol.hbm = s.stg.vol.hbm := by unfold State.latchRegs; rfl

@[simp] theorem earlyRegs_hbm (s : State) : s.earlyRegs.stg.vol.hbm = s.stg.vol.hbm := by
  unfold State.earlyRegs
  split <;> rfl

@[simp] theorem fatalRegs_hbm (s : State) (fn : Nat) : (s.fatalRegs fn).stg.vol.hbm = s.stg.vol.hbm := by unfold State.fatalRegs; rfl

/-! #### The intake of one packet (R130-R140, R548-R550) -/

@[simp] theorem drew_hbm (s : State) : s.drew.stg.vol.hbm = s.stg.vol.hbm := by unfold State.drew; rfl
@[simp] theorem answer_hbm (s : State) (op : Nat) (p : Pkt) (st : Status) : (s.answer op p st).stg.vol.hbm = s.stg.vol.hbm := by
  simp [State.answer]
@[simp] theorem take_hbm (s : State) (op : Nat) (p : Pkt) (fromJournal : Bool) : (s.take op p fromJournal).stg.vol.hbm = s.stg.vol.hbm := by
  simp [State.take]

@[simp] theorem conclude_hbm (c : Taken) (r : State × Verdict) : (conclude c r).stg.vol.hbm = r.1.stg.vol.hbm := by
  unfold conclude
  split <;> simp

@[simp] theorem notOpened_hbm (s : State) (op : Nat) (p : Pkt) : (s.notOpened op p).stg.vol.hbm = s.stg.vol.hbm := by simp [State.notOpened]

/-- What the staged memory has before a packet is read and its handler keeps, it has afterwards. -/
theorem read_memory {P : List Host.Cell → Prop} {s : State} {op : Nat} {h : Handler} {p : Pkt}
    (handles : ∀ c u, P u.stg.vol.hbm → P (h c u).1.stg.vol.hbm) (holds : P s.stg.vol.hbm) : P (s.read op h p).stg.vol.hbm := by
  unfold State.read
  split
  · simpa using holds
  · split
    · simpa using holds
    · split
      · simpa using holds
      · exact holds
    · simpa using holds
    · split
      · simpa using holds
      · dsimp only
        split
        · simpa using holds
        · rw [conclude_hbm]
          exact handles _ _ (by simpa using holds)

@[simp] theorem checkRing_hbm (s : State) (c : Nat) : (s.checkRing c).stg.vol.hbm = s.stg.vol.hbm := by simp [State.checkRing]
@[simp] theorem hostWrite_hbm (s : State) (c : Nat) (data : List Byte) (tail : Word32) :
    (s.hostWrite c data tail).stg.vol.hbm = s.stg.vol.hbm := by simp [State.hostWrite]
@[simp] theorem inserted_hbm (s : State) (op : Nat) (p : Pkt) : (s.inserted op p).stg.vol.hbm = s.stg.vol.hbm := by simp [State.inserted]
@[simp] theorem datagram_hbm (s : State) (op : Nat) (p : Pkt) : (s.datagram op p).stg.vol.hbm = s.stg.vol.hbm := by simp [State.datagram]

@[simp] theorem delivered_hbm (s : State) (op : Nat) (p : Pkt) : (s.delivered op p).stg.vol.hbm = s.stg.vol.hbm := by
  unfold State.delivered
  split <;> simp

@[simp] theorem turn_hbm (s : State) (p : Pkt) : (s.turn p).stg.vol.hbm = s.stg.vol.hbm := by simp [State.turn]

/-- What the staged memory has before a packet reaches the director and its handler keeps, it has afterwards. -/
theorem present_memory {P : List Host.Cell → Prop} {s : State} {op : Nat} {h : Handler} {p : Pkt}
    (handles : ∀ c u, P u.stg.vol.hbm → P (h c u).1.stg.vol.hbm) (holds : P s.stg.vol.hbm) : P (s.present op h p).stg.vol.hbm := by
  unfold State.present
  split
  · exact read_memory handles (by simpa using holds)
  · simpa using holds

@[simp] theorem present_hbm (s : State) (op : Nat) {h : Handler} (kept : ∀ c s, (h c s).1.stg.vol.hbm = s.stg.vol.hbm) (p : Pkt) :
    (s.present op h p).stg.vol.hbm = s.stg.vol.hbm := present_memory (P := (· = s.stg.vol.hbm)) (fun c u same => (kept c u).trans same) rfl

/-! #### Channel and identity commands (R524, R525, R571-R574) -/

@[simp] theorem hChanOpen_hbm (c : Taken) (s : State) : (hChanOpen c s).1.stg.vol.hbm = s.stg.vol.hbm := by simp [hChanOpen]

@[simp] theorem hChanClose_hbm (c : Taken) (s : State) : (hChanClose c s).1.stg.vol.hbm = s.stg.vol.hbm := by
  unfold hChanClose
  dsimp only
  (repeat' split) <;> simp

@[simp] theorem closeChan_hbm (s : State) (n : Nat) : (s.closeChan n).stg.vol.hbm = s.stg.vol.hbm := by simp [State.closeChan]
@[simp] theorem hChanNop_hbm (c : Taken) (s : State) : (hChanNop c s).1.stg.vol.hbm = s.stg.vol.hbm := by unfold hChanNop; rfl

@[simp] theorem hChanFence_hbm (c : Taken) (s : State) : (hChanFence c s).1.stg.vol.hbm = s.stg.vol.hbm := by
  unfold hChanFence
  split <;> simp

@[simp] theorem endFences_hbm (s : State) : s.endFences.stg.vol.hbm = s.stg.vol.hbm := foldl_hbm (fun _ _ => by (repeat' split) <;> simp) ..
@[simp] theorem hIdentColophon_hbm (c : Taken) (s : State) : (hIdentColophon c s).1.stg.vol.hbm = s.stg.vol.hbm := by
  unfold hIdentColophon; rfl
@[simp] theorem hIdentCaps_hbm (c : Taken) (s : State) : (hIdentCaps c s).1.stg.vol.hbm = s.stg.vol.hbm := by unfold hIdentCaps; rfl
@[simp] theorem hIdentAttest_hbm (c : Taken) (s : State) : (hIdentAttest c s).1.stg.vol.hbm = s.stg.vol.hbm := by simp [hIdentAttest]

/-! #### Position, manifest and discovery map (R143-R152, R526-R529) -/

@[simp] theorem hPosAssign_hbm (c : Taken) (s : State) : (hPosAssign c s).1.stg.vol.hbm = s.stg.vol.hbm := by
  unfold hPosAssign
  (repeat' split) <;> simp

@[simp] theorem hPosLock_hbm (c : Taken) (s : State) : (hPosLock c s).1.stg.vol.hbm = s.stg.vol.hbm := by
  unfold hPosLock
  split <;> simp

@[simp] theorem hDiscManifest_hbm (c : Taken) (s : State) : (hDiscManifest c s).1.stg.vol.hbm = s.stg.vol.hbm := by
  unfold hDiscManifest
  dsimp only
  (repeat' split) <;> simp

@[simp] theorem hDiscMap_hbm (c : Taken) (s : State) : (hDiscMap c s).1.stg.vol.hbm = s.stg.vol.hbm := by
  unfold hDiscMap
  dsimp only
  (repeat' split) <;> simp

/-! #### Loadable tables (R220-R222, R298-R301, R544-R547) -/

@[simp] theorem hTableLoad_hbm (c : Taken) (s : State) : (hTableLoad c s).1.stg.vol.hbm = s.stg.vol.hbm := by
  unfold hTableLoad
  dsimp only
  (repeat' split) <;> simp

@[simp] theorem hTableRead_hbm (c : Taken) (s : State) : (hTableRead c s).1.stg.vol.hbm = s.stg.vol.hbm := by
  unfold hTableRead
  dsimp only
  (repeat' split) <;> simp

@[simp] theorem hTableActivate_hbm (c : Taken) (s : State) : (hTableActivate c s).1.stg.vol.hbm = s.stg.vol.hbm := by
  unfold hTableActivate
  dsimp only
  (repeat' split) <;> simp

/-! #### What the director sends (R175-R179, R210-R214, R494-R498) -/

@[simp] theorem ctlOn_hbm (s : State) (d kind : Nat) (isLocal : Bool) (dst : Coord) (body : List Byte) :
    (s.ctlOn d kind isLocal dst body).stg.vol.hbm = s.stg.vol.hbm := by simp [State.ctlOn]

@[simp] theorem sendCtl_hbm (s : State) (kind : Nat) (dst : Coord) (body : List Byte) :
    (s.sendCtl kind dst body).stg.vol.hbm = s.stg.vol.hbm := by
  unfold State.sendCtl
  split <;> simp

@[simp] theorem sendCtls_hbm (s : State) (kind : Nat) (dsts : List Coord) (body : List Byte) :
    (s.sendCtls kind dsts body).stg.vol.hbm = s.stg.vol.hbm := foldl_hbm (fun _ _ => by simp) ..
@[simp] theorem latch_hbm (s : State) (d ev : Nat) : (s.latch d ev).stg.vol.hbm = s.stg.vol.hbm := by simp [State.latch]
@[simp] theorem announceQuire_hbm (s : State) (q : QuireId) (reset : Bool) (eff : Tick) :
    (s.announceQuire q reset eff).stg.vol.hbm = s.stg.vol.hbm := by simp [State.announceQuire]
@[simp] theorem stopAdmission_hbm (s : State) (q : QuireId) (eff : Tick) : (s.stopAdmission q eff).stg.vol.hbm = s.stg.vol.hbm := by
  simp [State.stopAdmission]
@[simp] theorem resumeAdmission_hbm (s : State) (q : QuireId) (eff : Tick) : (s.resumeAdmission q eff).stg.vol.hbm = s.stg.vol.hbm := by
  simp [State.resumeAdmission]

@[simp] theorem tellEnd_hbm (s : State) (r : PortRef) (phase name : Nat) : (s.tellEnd r phase name).stg.vol.hbm = s.stg.vol.hbm := by
  unfold State.tellEnd
  split <;> simp

@[simp] theorem tellBores_hbm (s : State) (bs : List Bore) (phase : Nat) : (s.tellBores bs phase).stg.vol.hbm = s.stg.vol.hbm :=
  foldl_hbm (fun _ _ => by simp) ..
@[simp] theorem assignCoord_hbm (s : State) (g sl board : Nat) : (s.assignCoord g sl board).stg.vol.hbm = s.stg.vol.hbm := by
  simp [State.assignCoord]

@[simp] theorem askRetrain_hbm (s : State) (r : PortRef) (reason : Nat) : (s.askRetrain r reason).stg.vol.hbm = s.stg.vol.hbm := by
  unfold State.askRetrain
  split <;> simp

@[simp] theorem sendWrites_hbm (s : State) (q : QuireId) (j : ShadowJob) (offs : List Nat) :
    (s.sendWrites q j offs).stg.vol.hbm = s.stg.vol.hbm := foldl_hbm (fun _ _ => by simp) ..
@[simp] theorem sendSwitch_hbm (s : State) (q : QuireId) (c : Coord) (router : Bool) (eff : Tick) :
    (s.sendSwitch q c router eff).stg.vol.hbm = s.stg.vol.hbm := by simp [State.sendSwitch]
@[simp] theorem switchJobs_hbm (s : State) (q : QuireId) (js : List ShadowJob) (eff : Tick) :
    (s.switchJobs q js eff).stg.vol.hbm = s.stg.vol.hbm := foldl_hbm (fun _ _ => by simp) ..
@[simp] theorem putOcs_hbm (s : State) (m : OcsMsg) : (s.putOcs m).stg.vol.hbm = s.stg.vol.hbm := by simp [State.putOcs]
@[simp] theorem sendOcs_hbm (s : State) (u type : Nat) (body : List Byte) : (s.sendOcs u type body).stg.vol.hbm = s.stg.vol.hbm := by
  simp [State.sendOcs]
@[simp] theorem sendSet_hbm (s : State) (u gen : Nat) (entries : List (Nat × Nat)) :
    (s.sendSet u gen entries).stg.vol.hbm = s.stg.vol.hbm := by simp [State.sendSet]
@[simp] theorem nextGen_hbm (s : State) : s.nextGen.2.stg.vol.hbm = s.stg.vol.hbm := by unfold State.nextGen; rfl

/-! #### Routes (R185-R203, R534-R537) -/

@[simp] theorem tellMasks_hbm (s : State) (q : QuireId) (x : Solution) (old new : QuireVol) (eff : Tick) :
    (s.tellMasks q x old new eff).stg.vol.hbm = s.stg.vol.hbm := foldl_hbm (fun _ _ => by simp) ..
@[simp] theorem maskNow_hbm (s : State) (q : QuireId) (ms : List Mask) : (s.maskNow q ms).stg.vol.hbm = s.stg.vol.hbm := by
  simp [State.maskNow]

@[simp] theorem renewMasks_hbm (s : State) : s.renewMasks.stg.vol.hbm = s.stg.vol.hbm := by
  unfold State.renewMasks
  refine foldl_hbm (fun s r => ?_) _ _
  dsimp only
  split
  · rfl
  · split <;> simp

theorem execPathMaskClear_leavesMemory (q : QuireId) (g h path : Nat) (s : State) : LeavesMemory s (execPathMaskClear q g h path s) := by
  unfold execPathMaskClear
  dsimp only
  (repeat' split) <;> simp

@[simp] theorem beginDrain_hbm (s : State) (q : QuireId) (d : Drain) : (s.beginDrain q d).1.stg.vol.hbm = s.stg.vol.hbm := by
  unfold State.beginDrain
  split <;> simp

@[simp] theorem hRouteSolve_hbm (c : Taken) (s : State) : (hRouteSolve c s).1.stg.vol.hbm = s.stg.vol.hbm := by
  unfold hRouteSolve
  split <;> simp

@[simp] theorem workSolve_hbm (s : State) (t : Task) (j : SolveJob) (left : Nat) : (s.workSolve t j left).1.stg.vol.hbm = s.stg.vol.hbm := by
  unfold State.workSolve
  (repeat' split) <;> simp

@[simp] theorem cancelSolves_hbm (s : State) (q : QuireId) : (s.cancelSolves q).stg.vol.hbm = s.stg.vol.hbm :=
  foldl_hbm (fun _ _ => by split <;> simp) ..
@[simp] theorem startInstall_hbm (s : State) (ident : Option CmdIdent) (q : QuireRec) (x : Solution) (bound : Nat) (parent : Option Nat) :
    (s.startInstall ident q x bound parent).stg.vol.hbm = s.stg.vol.hbm := by simp [State.startInstall]

@[simp] theorem hRouteInstall_hbm (c : Taken) (s : State) : (hRouteInstall c s).1.stg.vol.hbm = s.stg.vol.hbm := by
  unfold hRouteInstall
  split <;> simp

@[simp] theorem writeShadows_hbm (s : State) (r : QuireRec) (x : Solution) (bores : List Bore) (op : Nat) (l : List Coord)
    (js : List ShadowJob) (left : Nat) : (s.writeShadows r x bores op l js left).1.stg.vol.hbm = s.stg.vol.hbm := by
  induction l generalizing s js left with
  | nil => rfl
  | cons c cs ih =>
    unfold State.writeShadows
    split <;> simp [ih]

@[simp] theorem writeAgain_hbm (s : State) (q : QuireId) (js : List ShadowJob) : (s.writeAgain q js).1.stg.vol.hbm = s.stg.vol.hbm :=
  foldl_hbm (fun _ _ => by simp) ..

@[simp] theorem failInstall_hbm (s : State) (t : Task) (parent : Option Nat) (st : Status) :
    (s.failInstall t parent st).stg.vol.hbm = s.stg.vol.hbm := by
  unfold State.failInstall
  dsimp only
  (repeat' split) <;> simp

@[simp] theorem workInstall_hbm (s : State) (t : Task) (x : Solution) (d : Drain) (step : InstallStep) (js : List ShadowJob)
    (todo : List Coord) (parent : Option Nat) (left : Nat) :
    (s.workInstall t x d step js todo parent left).1.stg.vol.hbm = s.stg.vol.hbm := by
  unfold State.workInstall
  dsimp only
  (repeat' split) <;> simp

@[simp] theorem installSealed_hbm (s : State) (t : Task) (x : Solution) (js : List ShadowJob) :
    (s.installSealed t x js).stg.vol.hbm = s.stg.vol.hbm := by simp [State.installSealed]

@[simp] theorem routeDrainHold_hbm (c : Taken) (s : State) : (routeDrainHold c s).1.stg.vol.hbm = s.stg.vol.hbm := by
  unfold routeDrainHold
  (repeat' split) <;> simp

@[simp] theorem routeDrainResume_hbm (c : Taken) (s : State) : (routeDrainResume c s).1.stg.vol.hbm = s.stg.vol.hbm := by
  unfold routeDrainResume
  (repeat' split) <;> simp

@[simp] theorem hRouteDrain_hbm (c : Taken) (s : State) : (hRouteDrain c s).1.stg.vol.hbm = s.stg.vol.hbm := by
  unfold hRouteDrain
  split <;> simp

/-! #### Work that leaves the quires alone (R306-R336) -/

@[simp] theorem queueClaim_hbm (s : State) (vols : List Nat) (c : Claim) : (s.queueClaim vols c).stg.vol.hbm = s.stg.vol.hbm := by
  unfold State.queueClaim; rfl

@[simp] theorem countSlots_hbm (s : State) (q : QuireId) (place : RingPlace) (taken released : Nat) :
    (s.countSlots q place taken released).stg.vol.hbm = s.stg.vol.hbm := by
  unfold State.countSlots
  split <;> rfl

@[simp] theorem restartSlots_hbm (s : State) (q : QuireId) : (s.restartSlots q).stg.vol.hbm = s.stg.vol.hbm := by
  unfold State.restartSlots; rfl

/-! #### Quire commands (R260-R265, R530-R533) -/

@[simp] theorem zeroTiles_hbm (s : State) (cs : List Nat) : (s.zeroTiles cs).stg.vol.hbm = s.stg.vol.hbm := by unfold State.zeroTiles; rfl

@[simp] theorem hQuireCarve_hbm (c : Taken) (s : State) : (hQuireCarve c s).1.stg.vol.hbm = s.stg.vol.hbm := by
  unfold hQuireCarve
  split <;> simp

@[simp] theorem soil_hbm (s : State) (ls : List Nat) : (s.soil ls).stg.vol.hbm = s.stg.vol.hbm := by simp [State.soil]

@[simp] theorem hQuireGrow_hbm (c : Taken) (s : State) : (hQuireGrow c s).1.stg.vol.hbm = s.stg.vol.hbm := by
  unfold hQuireGrow
  (repeat' split) <;> simp

@[simp] theorem maskTransit_hbm (s : State) (q : QuireId) (ms : List Mask) : (s.maskTransit q ms).stg.vol.hbm = s.stg.vol.hbm := by
  unfold State.maskTransit
  dsimp only
  (repeat' split) <;> simp

@[simp] theorem setReset_hbm (s : State) (id : Nat) (st : ResetStep) (cs : List Coord) (left : Nat) :
    (s.setReset id st cs left).stg.vol.hbm = s.stg.vol.hbm := by simp [State.setReset]

@[simp] theorem boundaryReset_hbm (s : State) (t : Task) (st : ResetStep) : (s.boundaryReset t st).stg.vol.hbm = s.stg.vol.hbm := by
  unfold State.boundaryReset
  split <;> simp

@[simp] theorem zeroiseSlot_hbm (s : State) (n : Nat) : (s.zeroiseSlot n).stg.vol.hbm = s.stg.vol.hbm := by unfold State.zeroiseSlot; rfl
@[simp] theorem takeRefs_hbm (s : State) (n : Nat) : (s.takeRefs n).stg.vol.hbm = s.stg.vol.hbm := by simp [State.takeRefs]
@[simp] theorem lessRefs_hbm (s : State) (n : Nat) : (s.lessRefs n).stg.vol.hbm = s.stg.vol.hbm := by simp [State.lessRefs]
@[simp] theorem endUses_hbm (s : State) (n : Nat) : (s.endUses n).stg.vol.hbm = s.stg.vol.hbm := foldl_hbm (fun _ _ => by simp) ..
@[simp] theorem restartBooks_hbm (s : State) (q : QuireId) : (s.restartBooks q).stg.vol.hbm = s.stg.vol.hbm := by simp [State.restartBooks]
@[simp] theorem stageReset_hbm (s : State) (t : Task) (q : QuireRec) : (s.stageReset t q).stg.vol.hbm = s.stg.vol.hbm := by
  simp [State.stageReset]
@[simp] theorem stageRelease_hbm (s : State) (t : Task) (q : QuireRec) : (s.stageRelease t q).stg.vol.hbm = s.stg.vol.hbm := by
  simp [State.stageRelease]
@[simp] theorem releaseLeaves_hbm (s : State) (t : Task) (q : QuireRec) : (s.releaseLeaves t q).stg.vol.hbm = s.stg.vol.hbm := by
  simp [State.releaseLeaves]

@[simp] theorem resetConfirmed_hbm (s : State) (t : Task) (q : QuireRec) : (s.resetConfirmed t q).stg.vol.hbm = s.stg.vol.hbm := by
  unfold State.resetConfirmed
  split <;> simp

@[simp] theorem releaseScrub_hbm (s : State) (t : Task) (q : QuireRec) (n : Nat) : (s.releaseScrub t q n).stg.vol.hbm = s.stg.vol.hbm := by
  simp [State.releaseScrub]

@[simp] theorem sealReset_hbm (s : State) (t : Task) (st : ResetStep) (cs : List Coord) (left : Nat) :
    (s.sealReset t st cs left).stg.vol.hbm = s.stg.vol.hbm := by
  unfold State.sealReset
  split <;> simp

theorem execResetConfirmTimeout_leavesMemory (q : QuireId) (s : State) : LeavesMemory s (execResetConfirmTimeout q s) := by
  unfold execResetConfirmTimeout
  dsimp only
  (repeat' split) <;> simp

@[simp] theorem dropBores_hbm (s : State) (bs : List Bore) : (s.dropBores bs).stg.vol.hbm = s.stg.vol.hbm := by unfold State.dropBores; rfl

@[simp] theorem resetSealed_hbm (s : State) (t : Task) (old : Option QuireRec) : (s.resetSealed t old).stg.vol.hbm = s.stg.vol.hbm := by
  unfold State.resetSealed
  split <;> simp

@[simp] theorem hQuireStatus_hbm (c : Taken) (s : State) : (hQuireStatus c s).1.stg.vol.hbm = s.stg.vol.hbm := by
  unfold hQuireStatus
  (repeat' split) <;> simp

@[simp] theorem announcePart_hbm (s : State) (q : QuireRec) (released : Bool) : (s.announcePart q released).stg.vol.hbm = s.stg.vol.hbm := by
  simp [State.announcePart]
@[simp] theorem announceAll_hbm (s : State) : s.announceAll.stg.vol.hbm = s.stg.vol.hbm := foldl_hbm (fun _ _ => by simp) ..

theorem execQuireAnnouncementRx_leavesMemory (port : Nat) (ann : Announcement) (s : State) :
    LeavesMemory s (execQuireAnnouncementRx port ann s) := by
  unfold execQuireAnnouncementRx
  split <;> simp

/-! #### Bores and the OCS units (R158-R182) -/

@[simp] theorem updUnit_hbm (s : State) (u : Nat) (f : OcsUnit → OcsUnit) : (s.updUnit u f).stg.vol.hbm = s.stg.vol.hbm := by
  unfold State.updUnit; rfl
@[simp] theorem unitFault_hbm (s : State) (u : Nat) : (s.unitFault u).stg.vol.hbm = s.stg.vol.hbm := by simp [State.unitFault]

@[simp] theorem unitFaultOf_hbm (s : State) (u : Nat) (t : Option Task) (st : Status) :
    (s.unitFaultOf u t st).stg.vol.hbm = s.stg.vol.hbm := by
  unfold State.unitFaultOf
  split <;> simp

@[simp] theorem planeChange_hbm (s : State) (p : Nat) (k : ChangeKind) (es : List (Nat × Nat)) :
    (s.planeChange p k es).stg.vol.hbm = s.stg.vol.hbm := by simp [State.planeChange]

@[simp] theorem sendChange_hbm (s : State) (p : Nat) (ch : PlaneChange) : (s.sendChange p ch).stg.vol.hbm = s.stg.vol.hbm := by
  unfold State.sendChange
  dsimp only
  rw [tellBores_hbm, setPlane_stg]
  exact foldl_fst_hbm (fun x u => by split <;> simp) _ _

@[simp] theorem hBoreOpen_hbm (c : Taken) (s : State) : (hBoreOpen c s).1.stg.vol.hbm = s.stg.vol.hbm := by
  unfold hBoreOpen
  dsimp only
  (repeat' split) <;> simp

@[simp] theorem hBoreClose_hbm (c : Taken) (s : State) : (hBoreClose c s).1.stg.vol.hbm = s.stg.vol.hbm := by
  unfold hBoreClose
  (repeat' split) <;> simp

@[simp] theorem closeSealed_hbm (s : State) : s.closeSealed.stg.vol.hbm = s.stg.vol.hbm := foldl_hbm (fun _ _ => by split <;> simp) ..

@[simp] theorem closeDropped_hbm (s : State) (i : Option CmdIdent) : (s.closeDropped i).stg.vol.hbm = s.stg.vol.hbm := by
  unfold State.closeDropped
  split
  · exact foldl_hbm (fun s p => by (repeat' split) <;> simp) _ _
  · rfl

@[simp] theorem askMap_hbm (s : State) (u first : Nat) : (s.askMap u first).stg.vol.hbm = s.stg.vol.hbm := by simp [State.askMap]
@[simp] theorem startReconcile_hbm (s : State) (u : Nat) : (s.startReconcile u).stg.vol.hbm = s.stg.vol.hbm := by
  simp [State.startReconcile]
@[simp] theorem mapTo_hbm (s : State) (m : DiscMap) : (s.mapTo m).stg.vol.hbm = s.stg.vol.hbm := by simp [State.mapTo]
@[simp] theorem forget_hbm (s : State) (rs : List PortRef) : (s.forget rs).stg.vol.hbm = s.stg.vol.hbm := by unfold State.forget; rfl
@[simp] theorem startRound_hbm (s : State) (p : Nat) (task : Option Nat) (round : Nat) (before : List (PortRef × PortRef)) :
    (s.startRound p task round before).stg.vol.hbm = s.stg.vol.hbm := by simp [State.startRound]

@[simp] theorem hDiscScan_hbm (c : Taken) (s : State) : (hDiscScan c s).1.stg.vol.hbm = s.stg.vol.hbm := by
  unfold hDiscScan
  split <;> simp

@[simp] theorem nextChange_hbm (s : State) (p : Nat) : (s.nextChange p).stg.vol.hbm = s.stg.vol.hbm := by
  unfold State.nextChange
  dsimp only
  (repeat' split) <;> simp

@[simp] theorem nextChanges_hbm (s : State) : s.nextChanges.stg.vol.hbm = s.stg.vol.hbm := foldl_hbm (fun _ _ => by simp) ..
@[simp] theorem stageMap_hbm (s : State) (m : DiscMap) (task : Option Nat) (ident : Option CmdIdent) (res : Option (List Byte)) :
    (s.stageMap m task ident res).stg.vol.hbm = s.stg.vol.hbm := by simp [State.stageMap]

@[simp] theorem scanEnded_hbm (s : State) (p : Nat) (task : Option Nat) (pairs : List (PortRef × PortRef)) :
    (s.scanEnded p task pairs).stg.vol.hbm = s.stg.vol.hbm := by
  unfold State.scanEnded
  dsimp only
  (repeat' split) <;> simp

theorem execScanRoundEnd_leavesMemory (plane : Nat) (s : State) : LeavesMemory s (execScanRoundEnd plane s) := by
  unfold execScanRoundEnd
  (repeat' split) <;> simp

@[simp] theorem finishChange_hbm (s : State) (p : Nat) (ch : PlaneChange) : (s.finishChange p ch).stg.vol.hbm = s.stg.vol.hbm := by
  unfold State.finishChange
  dsimp only
  split
  case h_1 =>
    split
    · split
      · split
        · split
          · split <;> simp
          · simp
        · simp
      · rfl
    · rfl
  case h_2 | h_3 =>
    rw [setPlane_stg, foldl_hbm fun _ _ => unitFaultOf_hbm ..]
    exact foldl_hbm (fun _ _ => updUnit_hbm ..) _ _
  all_goals simp

@[simp] theorem checkChange_hbm (s : State) (p : Nat) : (s.checkChange p).stg.vol.hbm = s.stg.vol.hbm := by
  unfold State.checkChange
  (repeat' split) <;> simp

@[simp] theorem sendChanges_hbm (s : State) : s.sendChanges.stg.vol.hbm = s.stg.vol.hbm := by
  unfold State.sendChanges
  split
  · rfl
  · exact foldl_hbm (fun s p => by (repeat' split) <;> simp) _ _

@[simp] theorem updPart_hbm (s : State) (u : Nat) (f : UnitPart → UnitPart) : (s.updPart u f).stg.vol.hbm = s.stg.vol.hbm := by
  unfold State.updPart
  split <;> simp

@[simp] theorem failPart_hbm (s : State) (u : Nat) (silent : Bool) : (s.failPart u silent).stg.vol.hbm = s.stg.vol.hbm := by
  unfold State.failPart
  split <;> simp

@[simp] theorem ocsSetAck_hbm (s : State) (u : Nat) (b : List Byte) : (s.ocsSetAck u b).stg.vol.hbm = s.stg.vol.hbm := by
  simp [State.ocsSetAck]

@[simp] theorem ocsSetDone_hbm (s : State) (u : Nat) (b : List Byte) : (s.ocsSetDone u b).stg.vol.hbm = s.stg.vol.hbm := by
  unfold State.ocsSetDone
  split <;> simp

@[simp] theorem ocsMap_hbm (s : State) (u : Nat) (b : List Byte) : (s.ocsMap u b).stg.vol.hbm = s.stg.vol.hbm := by
  unfold State.ocsMap
  split <;> simp

@[simp] theorem ocsIdent_hbm (s : State) (u : Nat) (b : List Byte) : (s.ocsIdent u b).stg.vol.hbm = s.stg.vol.hbm := by
  unfold State.ocsIdent
  dsimp only
  (repeat' split) <;> simp

@[simp] theorem ocsAlarm_hbm (s : State) (u : Nat) (b : List Byte) : (s.ocsAlarm u b).stg.vol.hbm = s.stg.vol.hbm := by
  simp [State.ocsAlarm]
@[simp] theorem ethDiscard1_hbm (s : State) (i : Nat) : (s.ethDiscard1 i).stg.vol.hbm = s.stg.vol.hbm := by unfold State.ethDiscard1; rfl

@[simp] theorem ocsReceive_hbm (s : State) (src : Ip) (msg : List Byte) : (s.ocsReceive src msg).stg.vol.hbm = s.stg.vol.hbm := by
  unfold State.ocsReceive
  dsimp only
  (repeat' split) <;> simp

theorem execIdentRx_leavesMemory (src : Ip) (msg : List Byte) (s : State) : LeavesMemory s (execIdentRx src msg s) := by simp [execIdentRx]
theorem execSetAckRx_leavesMemory (src : Ip) (msg : List Byte) (s : State) : LeavesMemory s (execSetAckRx src msg s) := by
  simp [execSetAckRx]
theorem execSetDoneRx_leavesMemory (src : Ip) (msg : List Byte) (s : State) : LeavesMemory s (execSetDoneRx src msg s) := by
  simp [execSetDoneRx]
theorem execMapRx_leavesMemory (src : Ip) (msg : List Byte) (s : State) : LeavesMemory s (execMapRx src msg s) := by simp [execMapRx]
theorem execAlarmRx_leavesMemory (src : Ip) (msg : List Byte) (s : State) : LeavesMemory s (execAlarmRx src msg s) := by simp [execAlarmRx]
theorem execSetDeadlineExpiry_leavesMemory (unit : Nat) (s : State) : LeavesMemory s (execSetDeadlineExpiry unit s) := by
  simp [execSetDeadlineExpiry]
@[simp] theorem identReq_hbm (s : State) (u : Nat) : (s.identReq u).stg.vol.hbm = s.stg.vol.hbm := by simp [State.identReq]

theorem execIdentReqTimer_leavesMemory (s : State) : LeavesMemory s (execIdentReqTimer s) := by
  unfold execIdentReqTimer
  dsimp only
  (repeat' split) <;> simp

@[simp] theorem loseReach_hbm (s : State) (g : Nat) : (s.loseReach g).stg.vol.hbm = s.stg.vol.hbm := by simp [State.loseReach]

theorem execHouseBoreMove_leavesMemory (g : Nat) (s : State) : LeavesMemory s (execHouseBoreMove g s) := by
  unfold execHouseBoreMove
  dsimp only
  (repeat' split) <;> simp

/-! #### Rebind (R337-R357, R538-R540) -/

@[simp] theorem hRebindPlan_hbm (c : Taken) (s : State) : (hRebindPlan c s).1.stg.vol.hbm = s.stg.vol.hbm := by
  unfold hRebindPlan
  dsimp only
  (repeat' split) <;> simp

@[simp] theorem workPlan_hbm (s : State) (t : Task) (p : Plan) (j : SolveJob) (left : Nat) :
    (s.workPlan t p j left).1.stg.vol.hbm = s.stg.vol.hbm := by
  unfold State.workPlan
  (repeat' split) <;> simp

@[simp] theorem hRebindCommit_hbm (c : Taken) (s : State) : (hRebindCommit c s).1.stg.vol.hbm = s.stg.vol.hbm := by
  unfold hRebindCommit
  split <;> simp

@[simp] theorem hRebindStatus_hbm (c : Taken) (s : State) : (hRebindStatus c s).1.stg.vol.hbm = s.stg.vol.hbm := by
  unfold hRebindStatus; rfl
@[simp] theorem setRebind_hbm (s : State) (t : Task) (r : RebindRun) : (s.setRebind t r).stg.vol.hbm = s.stg.vol.hbm := by
  simp [State.setRebind]
@[simp] theorem rebindOver_hbm (s : State) (q : QuireId) (st : Status) (at_ : Tick) :
    (s.rebindOver q st at_).stg.vol.hbm = s.stg.vol.hbm := by simp [State.rebindOver]
@[simp] theorem rebindBegin_hbm (s : State) (t : Task) (r : RebindRun) : (s.rebindBegin t r).stg.vol.hbm = s.stg.vol.hbm := by
  simp [State.rebindBegin]
@[simp] theorem rebindAbort_hbm (s : State) (t : Task) (st : Status) : (s.rebindAbort t st).stg.vol.hbm = s.stg.vol.hbm := by
  simp [State.rebindAbort]
@[simp] theorem mendPlanes_hbm (s : State) (ps : List Nat) : (s.mendPlanes ps).stg.vol.hbm = s.stg.vol.hbm :=
  foldl_hbm (fun _ _ => by simp) ..
@[simp] theorem rebindRollback_hbm (s : State) (t : Task) (r : RebindRun) (st : Status) :
    (s.rebindRollback t r st).stg.vol.hbm = s.stg.vol.hbm := by simp [State.rebindRollback]

@[simp] theorem rebindPlanes_hbm (s : State) (t : Task) (r : RebindRun) : (s.rebindPlanes t r).stg.vol.hbm = s.stg.vol.hbm := by
  unfold State.rebindPlanes
  split <;> simp

@[simp] theorem rebindBegun_hbm (s : State) (t : Task) (r : RebindRun) : (s.rebindBegun t r).stg.vol.hbm = s.stg.vol.hbm := by
  unfold State.rebindBegun
  split <;> simp

@[simp] theorem copySome_hbm (s : State) (q : QuireId) : (s.copySome q).stg.vol.hbm = s.stg.vol.hbm := by simp [State.copySome]

@[simp] theorem workRebind_hbm (s : State) (t : Task) (r : RebindRun) (left : Nat) :
    (s.workRebind t r left).1.stg.vol.hbm = s.stg.vol.hbm := by
  unfold State.workRebind
  (repeat' split) <;> simp

@[simp] theorem verifyEnd_hbm (s : State) (me peer : PortRef) (up : Bool) : (s.verifyEnd me peer up).stg.vol.hbm = s.stg.vol.hbm :=
  foldl_hbm (fun _ _ => by split <;> simp) ..

@[simp] theorem boundaryRebind_hbm (s : State) (t : Task) (r : RebindRun) : (s.boundaryRebind t r).stg.vol.hbm = s.stg.vol.hbm := by
  unfold State.boundaryRebind
  split <;> simp

theorem execRebindVerifyTimeout_leavesMemory (q : QuireId) (s : State) : LeavesMemory s (execRebindVerifyTimeout q s) := by
  unfold execRebindVerifyTimeout
  split
  · simp
  · split
    · extract_lets due late s1 dead s2 ends m x
      have asked : s1.stg.vol.hbm = s.stg.vol.hbm := foldl_hbm (fun _ _ => by simp) _ _
      have faulted : s2.stg.vol.hbm = s1.stg.vol.hbm :=
        foldl_hbm (fun _ _ => foldl_hbm (fun _ e => by cases e <;> simp) _ _) _ _
      clear_value s1 s2 x
      (repeat' split) <;> simp [faulted, asked]
    · simp

@[simp] theorem rebindCommitReady_hbm (s : State) (t : Task) (r : RebindRun) : (s.rebindCommitReady t r).stg.vol.hbm = s.stg.vol.hbm := by
  unfold State.rebindCommitReady
  (repeat' split) <;> simp

@[simp] theorem sealRebind_hbm (s : State) (t : Task) (r : RebindRun) : (s.sealRebind t r).stg.vol.hbm = s.stg.vol.hbm := by
  unfold State.sealRebind
  split <;> simp

@[simp] theorem rebindCommitted_hbm (s : State) (t : Task) (r : RebindRun) (old : QuireRec) :
    (s.rebindCommitted t r old).stg.vol.hbm = s.stg.vol.hbm := by simp [State.rebindCommitted]
@[simp] theorem rebindUndone_hbm (s : State) (t : Task) (r : RebindRun) : (s.rebindUndone t r).stg.vol.hbm = s.stg.vol.hbm := by
  simp [State.rebindUndone]

@[simp] theorem rebindSealed_hbm (s : State) (t : Task) (r : RebindRun) (old : Option QuireRec) :
    (s.rebindSealed t r old).stg.vol.hbm = s.stg.vol.hbm := by
  unfold State.rebindSealed
  split <;> simp

@[simp] theorem rebindStop_hbm (s : State) (t : Task) (r : RebindRun) (st : Status) : (s.rebindStop t r st).stg.vol.hbm = s.stg.vol.hbm := by
  unfold State.rebindStop
  split <;> simp

/-! #### Ports and shapers (R228-R232, R541-R543) -/

@[simp] theorem hPortConfig_hbm (c : Taken) (s : State) : (hPortConfig c s).1.stg.vol.hbm = s.stg.vol.hbm := by
  unfold hPortConfig
  dsimp only
  (repeat' split) <;> simp

@[simp] theorem hShaperSet_hbm (c : Taken) (s : State) : (hShaperSet c s).1.stg.vol.hbm = s.stg.vol.hbm := by
  unfold hShaperSet
  dsimp only
  (repeat' split) <;> simp

@[simp] theorem putBucket_hbm (s : State) (b : Bucket) : (s.putBucket b).stg.vol.hbm = s.stg.vol.hbm := by unfold State.putBucket; rfl
@[simp] theorem refillAll_hbm (s : State) (old : Led) : (s.refillAll old).stg.vol.hbm = s.stg.vol.hbm := by unfold State.refillAll; rfl

@[simp] theorem hPortCounters_hbm (c : Taken) (s : State) : (hPortCounters c s).1.stg.vol.hbm = s.stg.vol.hbm := by
  unfold hPortCounters
  dsimp only
  (repeat' split) <;> simp

/-! #### Data packets (R191-R194, R206-R227) -/

@[simp] theorem toRings_hbm (s : State) (q : QuireId) (src : RingPlace) (out : Nat) (bytes : List Byte) :
    (s.toRings q src out bytes).stg.vol.hbm = s.stg.vol.hbm := by simp [State.toRings]
@[simp] theorem useNonce_hbm (s : State) (slot epoch : Nat) : (s.useNonce slot epoch).stg.vol.hbm = s.stg.vol.hbm := by
  unfold State.useNonce; rfl

@[simp] theorem sealBody_hbm (s : State) (q : QuireId) (h : LinkHdr) (fmt : Nat) (body : List Byte) :
    (s.sealBody q h fmt body).2.2.2.stg.vol.hbm = s.stg.vol.hbm := by
  unfold State.sealBody
  dsimp only
  (repeat' split) <;> simp

@[simp] theorem originate_hbm (s : State) (q : QuireId) (dst : Coord) (seq : Nat) (multi : Bool) (fmt : Nat) (body : List Byte) :
    (s.originate q dst seq multi fmt body).stg.vol.hbm = s.stg.vol.hbm := by
  unfold State.originate
  (repeat' split) <;> simp

@[simp] theorem putFlow_hbm (s : State) (f : SendFlow) : (s.putFlow f).stg.vol.hbm = s.stg.vol.hbm := by unfold State.putFlow; rfl

@[simp] theorem flushFlow_hbm (s : State) (q : QuireId) (dst : Coord) (n : Nat) : (s.flushFlow q dst n).stg.vol.hbm = s.stg.vol.hbm := by
  induction n generalizing s with
  | zero => rfl
  | succ n ih =>
    unfold State.flushFlow
    dsimp only
    split
    · rfl
    · split <;> simp [ih]

@[simp] theorem sendBody_hbm (s : State) (q : QuireId) (dst : Coord) (fmt : Nat) (body : List Byte) :
    (s.sendBody q dst fmt body).stg.vol.hbm = s.stg.vol.hbm := by simp [State.sendBody]
@[simp] theorem flowAcked_hbm (s : State) (q : QuireId) (dst : Coord) (n : Nat) : (s.flowAcked q dst n).stg.vol.hbm = s.stg.vol.hbm := by
  simp [State.flowAcked]
@[simp] theorem resendFlow_hbm (s : State) (f : SendFlow) : (s.resendFlow f).stg.vol.hbm = s.stg.vol.hbm := by simp [State.resendFlow]
@[simp] theorem resendFlows_hbm (s : State) : s.resendFlows.stg.vol.hbm = s.stg.vol.hbm := foldl_hbm (fun _ _ => by simp) ..
@[simp] theorem tookSeq_hbm (s : State) (q : QuireId) (src : Coord) (g : Flow) : (s.tookSeq q src g).stg.vol.hbm = s.stg.vol.hbm := by
  simp [State.tookSeq]
@[simp] theorem acceptSeq_hbm (s : State) (q : QuireId) (src : Coord) (seq : Nat) :
    ∀ t, s.acceptSeq q src seq = some t → t.stg.vol.hbm = s.stg.vol.hbm := by simp [State.acceptSeq]
@[simp] theorem reportFlows_hbm (s : State) : s.reportFlows.stg.vol.hbm = s.stg.vol.hbm := by simp [State.reportFlows]

@[simp] theorem forwardPkt_hbm (s : State) (d : Nat) (q : QuireId) (pkt : List Byte) :
    (s.forwardPkt d q pkt).stg.vol.hbm = s.stg.vol.hbm := by
  unfold State.forwardPkt
  dsimp only
  (repeat' split) <;> simp

@[simp] theorem rxCount_hbm (s : State) (d n : Nat) : (s.rxCount d n).stg.vol.hbm = s.stg.vol.hbm := by simp [State.rxCount]
theorem execUncorrectableCodeword_leavesMemory (port packets : Nat) (s : State) :
    LeavesMemory s (execUncorrectableCodeword port packets s) := by simp [execUncorrectableCodeword]

theorem execFirstStartDisagreement_leavesMemory (port : Nat) (s : State) : LeavesMemory s (execFirstStartDisagreement port s) := by
  unfold execFirstStartDisagreement
  split <;> simp

/-! #### The on-die rings (R235-R254) -/

@[simp] theorem ringCount_hbm (s : State) (ring : Nat) (dir : RingDir) (i : Nat) : (s.ringCount ring dir i).stg.vol.hbm = s.stg.vol.hbm := by
  unfold State.ringCount; rfl
@[simp] theorem updBook_hbm (s : State) (q : QuireId) (ring stop : Nat) (f : RingBook → RingBook) :
    (s.updBook q ring stop f).stg.vol.hbm = s.stg.vol.hbm := by unfold State.updBook; rfl
@[simp] theorem latchRings_hbm (s : State) : s.latchRings.stg.vol.hbm = s.stg.vol.hbm := by unfold State.latchRings; rfl

@[simp] theorem assembled_hbm (s : State) (f : FabricPkt) : (s.assembled f).stg.vol.hbm = s.stg.vol.hbm := by
  unfold State.assembled
  split <;> simp

@[simp] theorem seeDepth_hbm (s : State) (x1 : RingPlace) : (s.seeDepth x1).stg.vol.hbm = s.stg.vol.hbm := by
  unfold State.seeDepth
  split <;> simp

@[simp] theorem fragEnded_hbm (s : State) (id : RingId) (lost : Bool) : (s.fragEnded id lost).stg.vol.hbm = s.stg.vol.hbm := by
  unfold State.fragEnded
  split <;> simp

@[simp] theorem takeEjected_hbm (s : State) (p : RingPkt) : (s.takeEjected p).stg.vol.hbm = s.stg.vol.hbm := by simp [State.takeEjected]

@[simp] theorem drainPort_hbm (s : State) (d : Nat) (l : List RingPkt) : (s.drainPort d l).stg.vol.hbm = s.stg.vol.hbm := by
  induction l generalizing s with
  | nil => rfl
  | cons p l ih =>
    unfold State.drainPort
    split <;> simp [ih]

@[simp] theorem drainEgress_hbm (s : State) (d : Nat) : (s.drainEgress d).stg.vol.hbm = s.stg.vol.hbm := by simp [State.drainEgress]
@[simp] theorem retireRing_hbm (s : State) (p : RingPkt) (ring : Nat) (dir : RingDir) (stop counter : Nat) :
    (s.retireRing p ring dir stop counter).stg.vol.hbm = s.stg.vol.hbm := by simp [State.retireRing]
@[simp] theorem chargeLap_hbm (s : State) (d uid : Nat) : (s.chargeLap d uid).stg.vol.hbm = s.stg.vol.hbm := by simp [State.chargeLap]

@[simp] theorem retireLap_hbm (s : State) (p : RingPkt) : (s.retireLap p).stg.vol.hbm = s.stg.vol.hbm := by
  unfold State.retireLap
  split <;> simp

@[simp] theorem deflect_hbm (s : State) (p : RingPkt) : (s.deflect p).stg.vol.hbm = s.stg.vol.hbm := by
  unfold State.deflect
  split <;> simp

@[simp] theorem ejectRing_hbm (s : State) (p : RingPkt) : (s.ejectRing p).stg.vol.hbm = s.stg.vol.hbm := by
  unfold State.ejectRing
  (repeat' split) <;> simp

@[simp] theorem arrive_hbm (s : State) (p : RingPkt) : (s.arrive p).stg.vol.hbm = s.stg.vol.hbm := by simp [State.arrive]
@[simp] theorem arriveTwo_hbm (s : State) (w l : RingPkt) : (s.arriveTwo w l).stg.vol.hbm = s.stg.vol.hbm := by simp [State.arriveTwo]
@[simp] theorem enterRing_hbm (s : State) (p : RingPkt) : (s.enterRing p).stg.vol.hbm = s.stg.vol.hbm := by simp [State.enterRing]
@[simp] theorem turnEnter_hbm (s : State) (x : RingPkt × RingLeg × List RingLeg) : (s.turnEnter x).stg.vol.hbm = s.stg.vol.hbm := by
  simp [State.turnEnter]
@[simp] theorem advance_hbm (s : State) (x : RingPkt × Nat) : (s.advance x).stg.vol.hbm = s.stg.vol.hbm := by unfold State.advance; rfl

@[simp] theorem arrival_hbm (s : State) (all : List (RingPkt × Nat)) (x : RingPkt × Nat) : (s.arrival all x).stg.vol.hbm = s.stg.vol.hbm := by
  unfold State.arrival
  split <;> simp

@[simp] theorem agentTakes_hbm (s : State) (p : RingPkt) : (s.agentTakes p).stg.vol.hbm = s.stg.vol.hbm := by simp [State.agentTakes]
@[simp] theorem ringCycle_hbm (s : State) : s.ringCycle.stg.vol.hbm = s.stg.vol.hbm := by simp [State.ringCycle]

@[simp] theorem untilArrived_hbm (id : RingId) (n : Nat) (s : State) : (State.untilArrived id n s).stg.vol.hbm = s.stg.vol.hbm := by
  induction n generalizing s with
  | zero => rfl
  | succ n ih =>
    unfold State.untilArrived
    split
    · rfl
    · split <;> simp [ih]

@[simp] theorem fragEntered_hbm (s : State) (f : FabricPkt) (frag : Nat) : (s.fragEntered f frag).stg.vol.hbm = s.stg.vol.hbm := by
  simp [State.fragEntered]

theorem execRingEntry_leavesMemory (o : RingOffer) (s : State) : LeavesMemory s (execRingEntry o s) := by
  unfold execRingEntry
  dsimp only
  (repeat' split) <;> simp

theorem execRingEjectArrival_leavesMemory (fabric frag : Nat) (s : State) : LeavesMemory s (execRingEjectArrival fabric frag s) := by
  simp [execRingEjectArrival]

theorem execSlotEccError_leavesMemory (ring : Nat) (dir : RingDir) (stop : Nat) (id : RingId) (double : Bool) (s : State) :
    LeavesMemory s (execSlotEccError ring dir stop id double s) := by
  unfold execSlotEccError
  (repeat' split) <;> simp

@[simp] theorem retireEject_hbm (s : State) : s.retireEject.stg.vol.hbm = s.stg.vol.hbm := foldl_hbm (fun _ _ => by simp) ..

theorem execPortSend_leavesMemory (port : Nat) (s : State) : LeavesMemory s (execPortSend port s) := by
  unfold execPortSend
  dsimp only
  (repeat' split) <;> simp

/-! #### Descriptors, operations and tiles (R306-R336, R552-R557) -/

@[simp] theorem hRedDefine_hbm (c : Taken) (s : State) : (hRedDefine c s).1.stg.vol.hbm = s.stg.vol.hbm := by
  unfold hRedDefine
  split <;> simp

@[simp] theorem hCollLaunch_hbm (c : Taken) (s : State) : (hCollLaunch c s).1.stg.vol.hbm = s.stg.vol.hbm := by
  unfold hCollLaunch
  (repeat' split) <;> simp

@[simp] theorem hCollStatus_hbm (c : Taken) (s : State) : (hCollStatus c s).1.stg.vol.hbm = s.stg.vol.hbm := by
  unfold hCollStatus
  (repeat' split) <;> simp

@[simp] theorem hTileRead_hbm (c : Taken) (s : State) : (hTileRead c s).1.stg.vol.hbm = s.stg.vol.hbm := by
  unfold hTileRead
  dsimp only
  (repeat' split) <;> simp

@[simp] theorem castSeq_hbm (s : State) (q : QuireId) : (s.castSeq q).2.stg.vol.hbm = s.stg.vol.hbm := by simp [State.castSeq]

@[simp] theorem sendChunk_hbm (s : State) (q : QuireRec) (tag r : Nat) : (s.sendChunk q tag r).stg.vol.hbm = s.stg.vol.hbm := by
  unfold State.sendChunk
  split <;> simp

@[simp] theorem sendReady_hbm (s : State) (q : QuireRec) (tag : Nat) : (s.sendReady q tag).stg.vol.hbm = s.stg.vol.hbm := by
  unfold State.sendReady
  split <;> simp

@[simp] theorem sendFar_hbm (s : State) (m : FarMsg) : (s.sendFar m).stg.vol.hbm = s.stg.vol.hbm := by
  unfold State.sendFar
  split <;> simp

@[simp] theorem passFar_hbm (s : State) (o : Op) (xs : List FarChunk) (u : Nat) : (s.passFar o xs u).stg.vol.hbm = s.stg.vol.hbm :=
  foldl_hbm (fun _ _ => by simp) ..
@[simp] theorem chunkPassed_hbm (s : State) (o : Op) (c : Nat) (xs : List FarChunk) : (s.chunkPassed o c xs).stg.vol.hbm = s.stg.vol.hbm :=
  foldl_hbm (fun _ _ => by simp) ..

@[simp] theorem retireCluster_hbm (s : State) (rc : Nat) : (s.retireCluster rc).stg.vol.hbm = s.stg.vol.hbm := by
  unfold State.retireCluster
  dsimp only
  (repeat' split) <;> simp

@[simp] theorem opFault_hbm (s : State) (cls fn object : Nat) (o : Op) (st : Nat) :
    (s.opFault cls fn object o st).stg.vol.hbm = s.stg.vol.hbm := by simp [State.opFault]
@[simp] theorem suspect_hbm (s : State) (e : Element) : (s.suspect e).stg.vol.hbm = s.stg.vol.hbm := by simp [State.suspect]

@[simp] theorem suspectPath_hbm (s : State) (q : QuireId) (src dst : Coord) (g h seq : Nat) :
    (s.suspectPath q src dst g h seq).stg.vol.hbm = s.stg.vol.hbm := by
  unfold State.suspectPath
  dsimp only
  (repeat' split) <;> simp

@[simp] theorem lostLeg_hbm (s : State) (o : Op) (l : Leg) : (s.lostLeg o l).stg.vol.hbm = s.stg.vol.hbm := by simp [State.lostLeg]

theorem execMulticastHorizon_leavesMemory (q : QuireId) (seq : Nat) (s : State) : LeavesMemory s (execMulticastHorizon q seq s) := by
  unfold execMulticastHorizon
  dsimp only
  (repeat' split) <;> simp

@[simp] theorem ackLegs_hbm (s : State) (q : QuireId) (tag : Nat) (f : Leg → Bool) : (s.ackLegs q tag f).stg.vol.hbm = s.stg.vol.hbm := by
  simp [State.ackLegs]
theorem execTagCloseEnd_leavesMemory (q : QuireId) (tag : Nat) (s : State) : LeavesMemory s (execTagCloseEnd q tag s) := by
  simp [execTagCloseEnd]

@[simp] theorem tellOp_hbm (s : State) (o : Op) : (s.tellOp o).stg.vol.hbm = s.stg.vol.hbm := by
  unfold State.tellOp
  dsimp only
  (repeat' split) <;> simp

@[simp] theorem boundaryOps_hbm (s : State) : s.boundaryOps.stg.vol.hbm = s.stg.vol.hbm := foldl_hbm (fun _ _ => by simp) ..

/-! #### Drains (R195-R198) -/

@[simp] theorem setActivate_hbm (s : State) (t : Task) (k : TaskKind) : (s.setActivate t k).stg.vol.hbm = s.stg.vol.hbm := by
  simp [State.setActivate]
@[simp] theorem stageSwap_hbm (s : State) (t : Task) (k : Nat) : (s.stageSwap t k).stg.vol.hbm = s.stg.vol.hbm := by simp [State.stageSwap]
@[simp] theorem activateDrained_hbm (s : State) (t : Task) (k : Nat) (d : Drain) (qs : List QuireId) :
    (s.activateDrained t k d qs).stg.vol.hbm = s.stg.vol.hbm := by simp [State.activateDrained]
@[simp] theorem resumeAll_hbm (s : State) (qs : List QuireId) (eff : Tick) : (s.resumeAll qs eff).stg.vol.hbm = s.stg.vol.hbm :=
  foldl_hbm (fun _ _ => by simp) ..
@[simp] theorem failActivate_hbm (s : State) (t : Task) (qs : List QuireId) (st : Status) :
    (s.failActivate t qs st).stg.vol.hbm = s.stg.vol.hbm := by simp [State.failActivate]

@[simp] theorem writePfts_hbm (s : State) (img : List Byte) (l : List Coord) (js : List ShadowJob) (left : Nat) :
    (s.writePfts img l js left).1.stg.vol.hbm = s.stg.vol.hbm := by
  induction l generalizing s js left with
  | nil => rfl
  | cons c cs ih =>
    unfold State.writePfts
    split <;> simp [ih]

@[simp] theorem workActivate_hbm (s : State) (t : Task) (k : Nat) (d : Drain) (qs : List QuireId) (js : List ShadowJob)
    (todo : List Coord) (left : Nat) : (s.workActivate t k d qs js todo left).1.stg.vol.hbm = s.stg.vol.hbm := by
  unfold State.workActivate
  dsimp only
  (repeat' split) <;> simp

@[simp] theorem activateSealed_hbm (s : State) (t : Task) (k : Nat) (qs : List QuireId) (js : List ShadowJob) :
    (s.activateSealed t k qs js).stg.vol.hbm = s.stg.vol.hbm := by simp [State.activateSealed]

@[simp] theorem boundaryDrain_hbm (s : State) (t : Task) : (s.boundaryDrain t).stg.vol.hbm = s.stg.vol.hbm := by
  unfold State.boundaryDrain
  split <;> simp

@[simp] theorem sealDrain_hbm (s : State) (t : Task) : (s.sealDrain t).stg.vol.hbm = s.stg.vol.hbm := by
  unfold State.sealDrain
  split <;> simp

@[simp] theorem drainOut_hbm (s : State) (q : QuireId) (t : Task) : (s.drainOut q t).stg.vol.hbm = s.stg.vol.hbm := by
  unfold State.drainOut
  split <;> simp

theorem execDrainTimeout_leavesMemory (q : QuireId) (s : State) : LeavesMemory s (execDrainTimeout q s) := by simp [execDrainTimeout]

/-! #### What arrives at optical ports (R185-R225, R494-R515) -/

@[simp] theorem rxGood_hbm (s : State) (d n : Nat) : (s.rxGood d n).stg.vol.hbm = s.stg.vol.hbm := by simp [State.rxGood]
@[simp] theorem rxDrop_hbm (s : State) (d : Nat) (uncorrectable : Bool) (pkt : List Byte) (counter : Nat) :
    (s.rxDrop d uncorrectable pkt counter).stg.vol.hbm = s.stg.vol.hbm := by simp [State.rxDrop]

@[simp] theorem forwardCtl_hbm (s : State) (d : Nat) (dst : Coord) (pkt : List Byte) :
    (s.forwardCtl d dst pkt).stg.vol.hbm = s.stg.vol.hbm := by
  unfold State.forwardCtl
  split <;> simp

@[simp] theorem ctlRx_hbm (s : State) (d : Nat) (u : Bool) (pkt : List Byte) (kind : Nat) (loc : Bool)
    {h : State → Coord → List Byte → Option State} (kept : ∀ s src b t, h s src b = some t → t.stg.vol.hbm = s.stg.vol.hbm) :
    (s.ctlRx d u pkt kind loc h).stg.vol.hbm = s.stg.vol.hbm := by
  unfold State.ctlRx
  split
  · rfl
  · split
    case h_5 =>
      split
      · next answer => rw [kept _ _ _ _ answer, rxGood_hbm]
      · simp
    all_goals simp

@[simp] theorem legAck_hbm (s : State) (src : Coord) (b : List Byte) : ∀ t, s.legAck src b = some t → t.stg.vol.hbm = s.stg.vol.hbm := by
  unfold State.legAck
  dsimp only
  (repeat' split) <;> simp

theorem execLegAckRx_leavesMemory (port : Nat) (uncorrectable : Bool) (pkt : List Byte) (s : State) :
    LeavesMemory s (execLegAckRx port uncorrectable pkt s) := leavesMemory_next.mpr (ctlRx_hbm _ _ _ _ _ _ legAck_hbm)
@[simp] theorem quireSummary_hbm (s : State) (src : Coord) (b : List Byte) : (s.quireSummary src b).stg.vol.hbm = s.stg.vol.hbm := by
  simp [State.quireSummary]

@[simp] theorem opReport_hbm (s : State) (src : Coord) (b : List Byte) : (s.opReport src b).stg.vol.hbm = s.stg.vol.hbm := by
  unfold State.opReport
  dsimp only
  (repeat' split) <;> simp

@[simp] theorem resetConfirm_hbm (s : State) (src : Coord) (b : List Byte) : (s.resetConfirm src b).stg.vol.hbm = s.stg.vol.hbm := by
  simp [State.resetConfirm]

@[simp] theorem completionReport_hbm (s : State) (src : Coord) (b : List Byte) :
    ∀ t, s.completionReport src b = some t → t.stg.vol.hbm = s.stg.vol.hbm := by
  unfold State.completionReport
  (repeat' split) <;> simp

theorem execCompletionReportRx_leavesMemory (port : Nat) (uncorrectable : Bool) (pkt : List Byte) (s : State) :
    LeavesMemory s (execCompletionReportRx port uncorrectable pkt s) := leavesMemory_next.mpr (ctlRx_hbm _ _ _ _ _ _ completionReport_hbm)

@[simp] theorem counterReport_hbm (s : State) (src : Coord) (b : List Byte) :
    ∀ t, s.counterReport src b = some t → t.stg.vol.hbm = s.stg.vol.hbm := by
  unfold State.counterReport
  dsimp only
  (repeat' split) <;> simp

theorem execCounterReportRx_leavesMemory (port : Nat) (uncorrectable : Bool) (pkt : List Byte) (s : State) :
    LeavesMemory s (execCounterReportRx port uncorrectable pkt s) := leavesMemory_next.mpr (ctlRx_hbm _ _ _ _ _ _ counterReport_hbm)

@[simp] theorem retrainAsked_hbm (s : State) (b : List Byte) : ∀ t, s.retrainAsked b = some t → t.stg.vol.hbm = s.stg.vol.hbm := by
  unfold State.retrainAsked
  split <;> simp

theorem execRetrainRequestRx_leavesMemory (port : Nat) (uncorrectable : Bool) (pkt : List Byte) (s : State) :
    LeavesMemory s (execRetrainRequestRx port uncorrectable pkt s) :=
  leavesMemory_next.mpr (ctlRx_hbm _ _ _ _ _ _ fun s _ => retrainAsked_hbm s)

@[simp] theorem shadowFailed_hbm (s : State) (t : Task) (c : Coord) : (s.shadowFailed t c).stg.vol.hbm = s.stg.vol.hbm := by
  unfold State.shadowFailed
  (repeat' split) <;> simp

@[simp] theorem updJobs_hbm (s : State) (t : Task) (p : ShadowJob → Bool) (f : ShadowJob → ShadowJob) :
    (s.updJobs t p f).stg.vol.hbm = s.stg.vol.hbm := by simp [State.updJobs]

@[simp] theorem jobAck_hbm (s : State) (t : Task) (j : ShadowJob) (off status : Nat) :
    (s.jobAck t j off status).stg.vol.hbm = s.stg.vol.hbm := by
  unfold State.jobAck
  split <;> simp

@[simp] theorem tableAck_hbm (s : State) (src : Coord) (b : List Byte) : ∀ t, s.tableAck src b = some t → t.stg.vol.hbm = s.stg.vol.hbm := by
  intro t taken
  unfold State.tableAck at taken
  split at taken
  · cases taken
  · cases taken
    exact foldl_hbm (fun s t => by (repeat' split) <;> simp) _ _

theorem execTableWriteAckRx_leavesMemory (port : Nat) (uncorrectable : Bool) (pkt : List Byte) (s : State) :
    LeavesMemory s (execTableWriteAckRx port uncorrectable pkt s) := leavesMemory_next.mpr (ctlRx_hbm _ _ _ _ _ _ tableAck_hbm)
@[simp] theorem jobRetry_hbm (s : State) (t : Task) (j : ShadowJob) : (s.jobRetry t j).stg.vol.hbm = s.stg.vol.hbm := by
  simp [State.jobRetry]
theorem execShadowWriteRetry_leavesMemory (c : Coord) (q : QuireId) (s : State) : LeavesMemory s (execShadowWriteRetry c q s) := by
  simp [execShadowWriteRetry]

/-! #### Discovery (R153-R167, R492-R494) -/

@[simp] theorem assignAll_hbm (s : State) (g : Nat) (e : Board) : (s.assignAll g e).stg.vol.hbm = s.stg.vol.hbm :=
  foldl_hbm (fun _ _ => by simp) ..
@[simp] theorem scanAll_hbm (s : State) : s.scanAll.stg.vol.hbm = s.stg.vol.hbm := by unfold State.scanAll; rfl
@[simp] theorem reachReturns_hbm (s : State) (g : Nat) (old : Board) : (s.reachReturns g old).stg.vol.hbm = s.stg.vol.hbm := by
  simp [State.reachReturns]
@[simp] theorem boardJudged_hbm (s : State) (g : Nat) (new : Bool) : (s.boardJudged g new).stg.vol.hbm = s.stg.vol.hbm := by
  simp [State.boardJudged]

@[simp] theorem accelBeacon_hbm (s : State) (d : Nat) (src : Coord) (b : List Byte) :
    (s.accelBeacon d src b).stg.vol.hbm = s.stg.vol.hbm := by
  unfold State.accelBeacon
  dsimp only
  (repeat' split) <;> simp

@[simp] theorem directorBeacon_hbm (s : State) (d : Nat) (src : Coord) (b : List Byte) :
    (s.directorBeacon d src b).stg.vol.hbm = s.stg.vol.hbm := by
  unfold State.directorBeacon
  dsimp only
  (repeat' split) <;> simp

@[simp] theorem linkBeacon_hbm (s : State) (d : Nat) (src : Coord) (b : List Byte) :
    ∀ t, s.linkBeacon d src b = some t → t.stg.vol.hbm = s.stg.vol.hbm := by
  unfold State.linkBeacon
  split <;> simp

theorem execLinkBeaconRx_leavesMemory (port : Nat) (uncorrectable : Bool) (pkt : List Byte) (s : State) :
    LeavesMemory s (execLinkBeaconRx port uncorrectable pkt s) := leavesMemory_next.mpr (ctlRx_hbm _ _ _ _ _ _ fun s => linkBeacon_hbm s _)

@[simp] theorem peerReport_hbm (s : State) (src : Coord) (b : List Byte) :
    ∀ t, s.peerReport src b = some t → t.stg.vol.hbm = s.stg.vol.hbm := by
  unfold State.peerReport
  dsimp only
  (repeat' split) <;> simp

theorem execPeerReportRx_leavesMemory (port : Nat) (uncorrectable : Bool) (pkt : List Byte) (s : State) :
    LeavesMemory s (execPeerReportRx port uncorrectable pkt s) := leavesMemory_next.mpr (ctlRx_hbm _ _ _ _ _ _ peerReport_hbm)
@[simp] theorem confirmed_hbm (s : State) (c : Coord) (b : List Byte) : (s.confirmed c b).stg.vol.hbm = s.stg.vol.hbm := by
  simp [State.confirmed]

@[simp] theorem confirmation_hbm (s : State) (d : Nat) (src : Coord) (b : List Byte) :
    (s.confirmation d src b).stg.vol.hbm = s.stg.vol.hbm := by
  unfold State.confirmation
  split <;> simp

theorem execCoordinateConfirmationRx_leavesMemory (port : Nat) (uncorrectable : Bool) (pkt : List Byte) (s : State) :
    LeavesMemory s (execCoordinateConfirmationRx port uncorrectable pkt s) := by simp [execCoordinateConfirmationRx]

theorem execUplinkSilent_leavesMemory (c : Coord) (uplink : Nat) (s : State) : LeavesMemory s (execUplinkSilent c uplink s) := by
  unfold execUplinkSilent
  dsimp only
  (repeat' split) <;> simp

theorem execBoardMissing_leavesMemory (g : Nat) (s : State) : LeavesMemory s (execBoardMissing g s) := by
  unfold execBoardMissing
  dsimp only
  split
  · simp
  · split
    · simp
    · split
      · exact execHouseBoreMove_leavesMemory g { s with disc := _ }
      · simp

theorem execDiscoveryComplete_leavesMemory (s : State) : LeavesMemory s (execDiscoveryComplete s) := by
  unfold execDiscoveryComplete
  split <;> simp

/-! #### The root of trust (R390-R401) -/

@[simp] theorem updDice_hbm (s : State) (f : Dice → Dice) : (s.updDice f).stg.vol.hbm = s.stg.vol.hbm := by unfold State.updDice; rfl
@[simp] theorem deriveDevice_hbm (s : State) : s.deriveDevice.stg.vol.hbm = s.stg.vol.hbm := by simp [State.deriveDevice]
@[simp] theorem deriveLayer_hbm (s : State) (image : List Byte) : (s.deriveLayer image).stg.vol.hbm = s.stg.vol.hbm := by
  simp [State.deriveLayer]
@[simp] theorem deriveHouse_hbm (s : State) : s.deriveHouse.stg.vol.hbm = s.stg.vol.hbm := by simp [State.deriveHouse]

@[simp] theorem attested_hbm (s : State) (t : Task) (req rsp : List Byte) (sessionUp sessionDown : Bool) (peerCert : Option (List Byte)) :
    (s.attested t req rsp sessionUp sessionDown peerCert).stg.vol.hbm = s.stg.vol.hbm := by
  unfold State.attested
  dsimp only
  (repeat' split) <;> simp

theorem execSpdmResponse_leavesMemory (rsp : Option (List Byte)) (failed sessionUp sessionDown : Bool) (peerCert : Option (List Byte))
    (s : State) : LeavesMemory s (execSpdmResponse rsp failed sessionUp sessionDown peerCert s) := by
  unfold execSpdmResponse
  dsimp only
  (repeat' split) <;> simp

/-! #### Tenants and keys (R389-R425, R558-R561) -/

@[simp] theorem rotSend_hbm (s : State) (peer : Coord) (msg : List Byte) : (s.rotSend peer msg).stg.vol.hbm = s.stg.vol.hbm := by
  simp [State.rotSend]
@[simp] theorem sendKeys_hbm (s : State) (q op epoch : Nat) (key : List Byte) : (s.sendKeys q op epoch key).stg.vol.hbm = s.stg.vol.hbm :=
  foldl_hbm (fun _ _ => by simp) ..

@[simp] theorem hTenantOpen_hbm (c : Taken) (s : State) : (hTenantOpen c s).1.stg.vol.hbm = s.stg.vol.hbm := by
  unfold hTenantOpen
  split
  · rfl
  · extract_lets -lift clear quick id cert s1 s2 r s3 s4
    have soiled : s4.stg.vol.hbm = s.stg.vol.hbm := by
      unfold s4 s3
      rw [soil_hbm]
      split <;> rfl
    clear_value s4
    split
    · exact (stageTask_hbm ..).trans soiled
    · exact soiled
  · rfl

@[simp] theorem tenantOpened_hbm (s : State) (t : Task) (n : Nat) : (s.tenantOpened t n).stg.vol.hbm = s.stg.vol.hbm := by
  simp [State.tenantOpened]

@[simp] theorem keyReady_hbm (s : State) (t : Task) (n e : Nat) (key : List Byte) : (s.keyReady t n e key).stg.vol.hbm = s.stg.vol.hbm := by
  unfold State.keyReady
  dsimp only
  (repeat' split) <;> simp

@[simp] theorem keysAnswered_hbm (s : State) (q : QuireId) : (s.keysAnswered q).stg.vol.hbm = s.stg.vol.hbm := by
  unfold State.keysAnswered
  split
  · rfl
  · exact foldl_hbm (fun s t => by (repeat' split) <;> simp) _ _

@[simp] theorem installKey_hbm (c : Taken) (s : State) : (installKey c s).1.stg.vol.hbm = s.stg.vol.hbm := by simp [installKey]

@[simp] theorem hKeyInstall_hbm (c : Taken) (s : State) : (hKeyInstall c s).1.stg.vol.hbm = s.stg.vol.hbm := by
  unfold hKeyInstall
  (repeat' split) <;> simp

@[simp] theorem zeroiseOld_hbm (s : State) : s.zeroiseOld.stg.vol.hbm = s.stg.vol.hbm := by unfold State.zeroiseOld; rfl
@[simp] theorem raiseNonces_hbm (s : State) : s.raiseNonces.stg.vol.hbm = s.stg.vol.hbm := foldl_hbm (fun _ _ => by simp) ..
@[simp] theorem setEvict_hbm (s : State) (t : Task) (n b : Nat) (st : EvictStep) (left : Nat) :
    (s.setEvict t n b st left).stg.vol.hbm = s.stg.vol.hbm := by simp [State.setEvict]
@[simp] theorem boundaryEvict_hbm (s : State) (t : Task) (n b : Nat) (st : EvictStep) (left : Nat) :
    (s.boundaryEvict t n b st left).stg.vol.hbm = s.stg.vol.hbm := by simp [State.boundaryEvict]
@[simp] theorem evictZero_hbm (s : State) (t : Task) (n b : Nat) : (s.evictZero t n b).stg.vol.hbm = s.stg.vol.hbm := by
  simp [State.evictZero]

@[simp] theorem evictFinish_hbm (s : State) (t : Task) (n b : Nat) : (s.evictFinish t n b).stg.vol.hbm = s.stg.vol.hbm := by
  unfold State.evictFinish
  split <;> simp

@[simp] theorem sealEvict_hbm (s : State) (t : Task) (n b : Nat) (st : EvictStep) (left : Nat) :
    (s.sealEvict t n b st left).stg.vol.hbm = s.stg.vol.hbm := by
  unfold State.sealEvict
  split <;> simp

theorem execEvictBound_leavesMemory (q : QuireId) (s : State) : LeavesMemory s (execEvictBound q s) := by
  unfold execEvictBound
  exact leavesMemory_next.mpr (foldl_hbm (fun s t => by (repeat' split) <;> simp) _ _)

@[simp] theorem evictSealed_hbm (s : State) (t : Task) (n b : Nat) (st : EvictStep) :
    (s.evictSealed t n b st).stg.vol.hbm = s.stg.vol.hbm := by
  unfold State.evictSealed
  split <;> simp

@[simp] theorem hMemScrub_hbm (c : Taken) (s : State) : (hMemScrub c s).1.stg.vol.hbm = s.stg.vol.hbm := by
  unfold hMemScrub
  (repeat' split) <;> simp

theorem execPatrolScrub_leavesMemory (_corrected : Nat) (s : State) : LeavesMemory s (execPatrolScrub _corrected s) := by
  simp [execPatrolScrub]
@[simp] theorem requestSession_hbm (s : State) (peer : Coord) : (s.requestSession peer).stg.vol.hbm = s.stg.vol.hbm := by
  simp [State.requestSession]

theorem execHouseSessionStart_leavesMemory (peer : Coord) (s : State) : LeavesMemory s (execHouseSessionStart peer s) := by
  unfold execHouseSessionStart
  split <;> simp

@[simp] theorem sessionLost_hbm (s : State) (peer : Coord) : (s.sessionLost peer).stg.vol.hbm = s.stg.vol.hbm := by simp [State.sessionLost]

theorem execHouseSessionRetry_leavesMemory (peer : Coord) (s : State) : LeavesMemory s (execHouseSessionRetry peer s) := by
  unfold execHouseSessionRetry
  (repeat' split) <;> simp

theorem execSpdmMessageRx_leavesMemory (peer : Coord) (msg : List Byte) (done good : Bool) (s : State) :
    LeavesMemory s (execSpdmMessageRx peer msg done good s) := by
  unfold execSpdmMessageRx
  dsimp only
  (repeat' split) <;> simp

@[simp] theorem endSessions_hbm (s : State) : s.endSessions.stg.vol.hbm = s.stg.vol.hbm := by unfold State.endSessions; rfl

theorem execKeyMessageAnswerRx_leavesMemory (peer : Coord) (msg : List Byte) (s : State) :
    LeavesMemory s (execKeyMessageAnswerRx peer msg s) := by
  unfold execKeyMessageAnswerRx
  dsimp only
  (repeat' split) <;> simp

theorem execKeyMessageTimeout_leavesMemory (peer : Coord) (q : QuireId) (s : State) : LeavesMemory s (execKeyMessageTimeout peer q s) := by
  unfold execKeyMessageTimeout
  dsimp only
  (repeat' split) <;> simp

theorem execTileZeroDone_leavesMemory (q : QuireId) (s : State) : LeavesMemory s (execTileZeroDone q s) := by simp [execTileZeroDone]

/-! #### Status commands (R562-R570) -/

@[simp] theorem hLedgerStatus_hbm (c : Taken) (s : State) : (hLedgerStatus c s).1.stg.vol.hbm = s.stg.vol.hbm := by
  unfold hLedgerStatus
  dsimp only
  (repeat' split) <;> simp

@[simp] theorem hLedgerCheckpoint_hbm (c : Taken) (s : State) : (hLedgerCheckpoint c s).1.stg.vol.hbm = s.stg.vol.hbm := by
  unfold hLedgerCheckpoint
  (repeat' split) <;> simp

@[simp] theorem hLedgerRead_hbm (c : Taken) (s : State) : (hLedgerRead c s).1.stg.vol.hbm = s.stg.vol.hbm := by
  unfold hLedgerRead
  dsimp only
  (repeat' split) <;> simp

@[simp] theorem hFwStatus_hbm (c : Taken) (s : State) : (hFwStatus c s).1.stg.vol.hbm = s.stg.vol.hbm := by unfold hFwStatus; rfl

@[simp] theorem hTelemSubscribe_hbm (c : Taken) (s : State) : (hTelemSubscribe c s).1.stg.vol.hbm = s.stg.vol.hbm := by
  unfold hTelemSubscribe
  split <;> simp

@[simp] theorem hTelemSnapshot_hbm (c : Taken) (s : State) : (hTelemSnapshot c s).1.stg.vol.hbm = s.stg.vol.hbm := by
  unfold hTelemSnapshot
  (repeat' split) <;> simp

@[simp] theorem hPowerStatus_hbm (c : Taken) (s : State) : (hPowerStatus c s).1.stg.vol.hbm = s.stg.vol.hbm := by unfold hPowerStatus; rfl

@[simp] theorem hPowerBudget_hbm (c : Taken) (s : State) : (hPowerBudget c s).1.stg.vol.hbm = s.stg.vol.hbm := by
  unfold hPowerBudget
  (repeat' split) <;> simp

/-! #### Firmware update (R471-R486) -/

@[simp] theorem queueChunk_hbm (s : State) (task slot off : Nat) (data : List Byte) :
    (s.queueChunk task slot off data).stg.vol.hbm = s.stg.vol.hbm := by simp [State.queueChunk]

@[simp] theorem hFwDownload_hbm (c : Taken) (s : State) : (hFwDownload c s).1.stg.vol.hbm = s.stg.vol.hbm := by
  unfold hFwDownload
  split <;> simp

@[simp] theorem downloadSealed_hbm (s : State) (t : Task) (slot len off n : Nat) :
    (s.downloadSealed t slot len off n).stg.vol.hbm = s.stg.vol.hbm := by simp [State.downloadSealed]

@[simp] theorem hFwVerify_hbm (c : Taken) (s : State) : (hFwVerify c s).1.stg.vol.hbm = s.stg.vol.hbm := by
  unfold hFwVerify
  split <;> simp

theorem execImageCheckDone_leavesMemory (s : State) : LeavesMemory s (execImageCheckDone s) := by
  unfold execImageCheckDone
  (repeat' split) <;> simp

@[simp] theorem hFwActivate_hbm (c : Taken) (s : State) : (hFwActivate c s).1.stg.vol.hbm = s.stg.vol.hbm := by
  unfold hFwActivate
  split <;> simp

@[simp] theorem hFwConfirm_hbm (c : Taken) (s : State) : (hFwConfirm c s).1.stg.vol.hbm = s.stg.vol.hbm := by
  unfold hFwConfirm
  (repeat' split) <;> simp

@[simp] theorem endBurn_hbm (s : State) : s.endBurn.stg.vol.hbm = s.stg.vol.hbm := by
  unfold State.endBurn
  dsimp only
  (repeat' split) <;> simp

theorem execOtpBurnDone_leavesMemory (programmed : Bool) (s : State) : LeavesMemory s (execOtpBurnDone programmed s) := by
  unfold execOtpBurnDone
  (repeat' split) <;> simp

@[simp] theorem fwSealed_hbm (s : State) (t : Task) : (s.fwSealed t).stg.vol.hbm = s.stg.vol.hbm := by
  unfold State.fwSealed
  split <;> simp

@[simp] theorem fwAnchor_hbm (s : State) (a : Anchor) : (s.fwAnchor a).stg.vol.hbm = s.stg.vol.hbm := by simp [State.fwAnchor]

@[simp] theorem fwUnsealed_hbm (s : State) (t : Task) : (s.fwUnsealed t).stg.vol.hbm = s.stg.vol.hbm := by
  unfold State.fwUnsealed
  split <;> simp

@[simp] theorem fwLost_hbm (s : State) : s.fwLost.stg.vol.hbm = s.stg.vol.hbm := by
  unfold State.fwLost
  dsimp only
  (repeat' split) <;> simp

theorem execConfirmWindowExpiry_leavesMemory (s : State) : LeavesMemory s (execConfirmWindowExpiry s) := by
  unfold execConfirmWindowExpiry
  dsimp only
  (repeat' split) <;> simp

/-! #### Commits (R88-R105, R626) -/

@[simp] theorem sizeRec_hbm (s : State) (r : DurRec) : (s.sizeRec r).2.stg.vol.hbm = s.stg.vol.hbm := by
  unfold State.sizeRec
  split <;> simp

@[simp] theorem sizeRecs_hbm (s : State) (l : List DurRec) : (s.sizeRecs l).2.stg.vol.hbm = s.stg.vol.hbm := by
  induction l generalizing s with
  | nil => rfl
  | cons r l ih => simp [State.sizeRecs, ih]

@[simp] theorem buildGroups_hbm (s : State) : s.buildGroups.stg.vol.hbm = s.stg.vol.hbm := by simp [State.buildGroups]
@[simp] theorem buildAnchor_hbm (s : State) : s.buildAnchor.stg.vol.hbm = s.stg.vol.hbm := by simp [State.buildAnchor]
@[simp] theorem startAnchor_hbm (s : State) (a : Anchor) (tick : Tick) : (s.startAnchor a tick).stg.vol.hbm = s.stg.vol.hbm := by
  simp [State.startAnchor]

@[simp] theorem startGroup_hbm (s : State) (x : Group) (rest : List Group) (free : Bool) :
    (s.startGroup x rest free).stg.vol.hbm = s.stg.vol.hbm := by
  unfold State.startGroup
  dsimp only
  (repeat' split) <;> simp

@[simp] theorem startNext_hbm (s : State) : s.startNext.stg.vol.hbm = s.stg.vol.hbm := by
  unfold State.startNext
  (repeat' split) <;> simp

theorem execJournalWriteStart_leavesMemory (s : State) : LeavesMemory s (execJournalWriteStart s) := by simp [execJournalWriteStart]
@[simp] theorem freshQuires_hbm (s : State) (r : DurRec) : (s.freshQuires r).stg.vol.hbm = s.stg.vol.hbm :=
  foldl_hbm (fun _ _ => by split <;> simp) ..

@[simp] theorem taskSealed_hbm (s : State) (t : Task) (old : Led) : (s.taskSealed t old).stg.vol.hbm = s.stg.vol.hbm := by
  unfold State.taskSealed
  split <;> simp

@[simp] theorem recDone_hbm (s : State) (r : DurRec) (old : Led) : (s.recDone r old).stg.vol.hbm = s.stg.vol.hbm := by
  unfold State.recDone
  (repeat' split) <;> simp

@[simp] theorem joinRec_hbm (s : State) (r : DurRec) : (s.joinRec r).stg.vol.hbm = s.stg.vol.hbm := by simp [State.joinRec]

@[simp] theorem joinList_hbm (s : State) (l held : List DurRec) : (s.joinList l held).stg.vol.hbm = s.stg.vol.hbm := by
  induction l generalizing s held with
  | nil => rfl
  | cons r l ih =>
    unfold State.joinList
    split <;> simp [ih]

@[simp] theorem joinLate_hbm (s : State) : s.joinLate.stg.vol.hbm = s.stg.vol.hbm := by simp [State.joinLate]
@[simp] theorem groupSealed_hbm (s : State) (x : Group) : (s.groupSealed x).stg.vol.hbm = s.stg.vol.hbm := by simp [State.groupSealed]

@[simp] theorem taskDropped_hbm (s : State) (t : Task) (st : Status) : (s.taskDropped t st).stg.vol.hbm = s.stg.vol.hbm := by
  unfold State.taskDropped
  (repeat' split) <;> simp

@[simp] theorem dropRec_hbm (s : State) (r : DurRec) (st : Status) : (s.dropRec r st).stg.vol.hbm = s.stg.vol.hbm := by
  unfold State.dropRec
  (repeat' split) <;> simp

@[simp] theorem dropCkpt_hbm (s : State) (st : Status) : (s.dropCkpt st).stg.vol.hbm = s.stg.vol.hbm :=
  foldl_hbm (fun _ _ => by split <;> simp) ..
@[simp] theorem journalLost_hbm (s : State) : s.journalLost.stg.vol.hbm = s.stg.vol.hbm := by simp [State.journalLost]
@[simp] theorem failDev_hbm (s : State) (d : Dev) : (s.failDev d).stg.vol.hbm = s.stg.vol.hbm := by simp [State.failDev]
@[simp] theorem ckptSealed_hbm (s : State) (x : Checkpoint) : (s.ckptSealed x).stg.vol.hbm = s.stg.vol.hbm :=
  foldl_hbm (fun _ _ => by split <;> simp) ..

@[simp] theorem anchorSealed_hbm (s : State) (a : Anchor) (f : Folio) : (s.anchorSealed a f).stg.vol.hbm = s.stg.vol.hbm := by
  unfold State.anchorSealed
  dsimp only
  (repeat' split) <;> simp

@[simp] theorem folioSealed_hbm (s : State) (w : Writing) (f : Folio) (rest : List Folio) :
    (s.folioSealed w f rest).stg.vol.hbm = s.stg.vol.hbm := by
  unfold State.folioSealed
  (repeat' split) <;> simp

@[simp] theorem deviceDone_hbm (s : State) (w : Writing) (f : Folio) (rest : List Folio) :
    (s.deviceDone w f rest).stg.vol.hbm = s.stg.vol.hbm := by simp [State.deviceDone]

theorem execFolioWriteDone_leavesMemory (matched : Bool) (s : State) : LeavesMemory s (execFolioWriteDone matched s) := by
  unfold execFolioWriteDone
  dsimp only
  (repeat' split) <;> simp

theorem execCreditRefill_leavesMemory (s : State) : LeavesMemory s (execCreditRefill s) := by simp [execCreditRefill]

theorem execTickReservationRaise_leavesMemory (s : State) : LeavesMemory s (execTickReservationRaise s) := by
  unfold execTickReservationRaise
  (repeat' split) <;> simp

@[simp] theorem failArc_hbm (s : State) (d : Dev) : (s.failArc d).stg.vol.hbm = s.stg.vol.hbm := by simp [State.failArc]

@[simp] theorem chunkEnded_hbm (s : State) (task off : Nat) (data : List Byte) (ok : Bool) :
    (s.chunkEnded task off data ok).stg.vol.hbm = s.stg.vol.hbm := by
  unfold State.chunkEnded
  (repeat' split) <;> simp

theorem execArchiveWriteDone_leavesMemory (dev : Dev) (verified : Bool) (s : State) :
    LeavesMemory s (execArchiveWriteDone dev verified s) := by
  unfold execArchiveWriteDone
  dsimp only
  (repeat' split) <;> simp

theorem execCheckpointTimer_leavesMemory (s : State) : LeavesMemory s (execCheckpointTimer s) := by
  unfold execCheckpointTimer
  split <;> simp

theorem execCheckpointStart_leavesMemory (s : State) : LeavesMemory s (execCheckpointStart s) := by
  unfold execCheckpointStart
  dsimp only
  (repeat' split) <;> simp

@[simp] theorem ckptAnchor_hbm (s : State) (r : CkptRun) : (s.ckptAnchor r).stg.vol.hbm = s.stg.vol.hbm := by simp [State.ckptAnchor]
@[simp] theorem ckptFailed_hbm (s : State) (d : Dev) : (s.ckptFailed d).stg.vol.hbm = s.stg.vol.hbm := by simp [State.ckptFailed]

theorem execCheckpointCopyDone_leavesMemory (dev : Dev) (verified : Bool) (s : State) :
    LeavesMemory s (execCheckpointCopyDone dev verified s) := by
  unfold execCheckpointCopyDone
  dsimp only
  (repeat' split) <;> simp

theorem execLaneMarginSample_leavesMemory (sample : LaneSample) (s : State) : LeavesMemory s (execLaneMarginSample sample s) := by
  unfold execLaneMarginSample
  split <;> simp

/-! #### Power and heat (R432-R447, R596) -/

@[simp] theorem powerEvent_hbm (s : State) (e : PowerEvent) : (s.powerEvent e).stg.vol.hbm = s.stg.vol.hbm := by simp [State.powerEvent]

@[simp] theorem holdTask_hbm (s : State) (t : Task) : (s.holdTask t).stg.vol.hbm = s.stg.vol.hbm := by
  unfold State.holdTask
  (repeat' split) <;> simp

@[simp] theorem holdCkpt_hbm (s : State) : s.holdCkpt.stg.vol.hbm = s.stg.vol.hbm := by simp [State.holdCkpt]
@[simp] theorem finalGroup_hbm (s : State) : s.finalGroup.stg.vol.hbm = s.stg.vol.hbm := by simp [State.finalGroup]
@[simp] theorem powerSeal_hbm (s : State) : s.powerSeal.stg.vol.hbm = s.stg.vol.hbm := by simp [State.powerSeal]

theorem execPwrWarnRecognised_leavesMemory (s : State) : LeavesMemory s (execPwrWarnRecognised s) := by
  unfold execPwrWarnRecognised
  dsimp only
  (repeat' split) <;> simp

theorem execPwrWarnPulseIgnored_leavesMemory (s : State) : LeavesMemory s (execPwrWarnPulseIgnored s) := by simp [execPwrWarnPulseIgnored]

theorem execPwrWarnDeassert_leavesMemory (s : State) : LeavesMemory s (execPwrWarnDeassert s) := by
  unfold execPwrWarnDeassert
  split <;> simp

@[simp] theorem holdAdmission_hbm (s : State) : s.holdAdmission.stg.vol.hbm = s.stg.vol.hbm := by simp [State.holdAdmission]
@[simp] theorem resumeRebinds_hbm (s : State) : s.resumeRebinds.stg.vol.hbm = s.stg.vol.hbm := foldl_hbm (fun _ _ => by split <;> simp) ..

theorem execResumption_leavesMemory (s : State) : LeavesMemory s (execResumption s) := by
  unfold execResumption
  (repeat' split) <;> simp

@[simp] theorem seeEvent_hbm (s : State) (r : ShelfReading) (k : Nat) : (s.seeEvent r k).stg.vol.hbm = s.stg.vol.hbm := by
  unfold State.seeEvent; rfl
@[simp] theorem endEvents_hbm (s : State) (u : Nat) (ks : List Nat) : (s.endEvents u ks).stg.vol.hbm = s.stg.vol.hbm :=
  foldl_hbm (fun _ _ => by simp) ..

@[simp] theorem setNominal_hbm (s : State) (f : Nat) : (s.setNominal f).stg.vol.hbm = s.stg.vol.hbm := by
  unfold State.setNominal
  dsimp only
  (repeat' split) <;> simp

@[simp] theorem shelfAnswer_hbm (s : State) (r : ShelfReading) : (s.shelfAnswer r).stg.vol.hbm = s.stg.vol.hbm := by
  simp [State.shelfAnswer]

@[simp] theorem shelfSilent_hbm (s : State) (u : Nat) : (s.shelfSilent u).stg.vol.hbm = s.stg.vol.hbm := by
  unfold State.shelfSilent
  split <;> simp

theorem execPmbusPoll_leavesMemory (readings : List ShelfReading) (s : State) : LeavesMemory s (execPmbusPoll readings s) := by
  unfold execPmbusPoll
  dsimp only
  split
  · simp
  · refine leavesMemory_next.mpr ((foldl_hbm (fun s r => by (repeat' split) <;> simp) _ _).trans ?_)
    split <;> rfl

theorem execPmbusReprobe_leavesMemory (unit : Nat) (answered : Bool) (s : State) : LeavesMemory s (execPmbusReprobe unit answered s) := by
  simp [execPmbusReprobe]
theorem execPmbAlert_leavesMemory (s : State) : LeavesMemory s (execPmbAlert s) := by simp [execPmbAlert]
@[simp] theorem senseHeat_hbm (s : State) (tj : ℤ) : (s.senseHeat tj).stg.vol.hbm = s.stg.vol.hbm := by simp [State.senseHeat]
@[simp] theorem newTtc_hbm (s : State) : s.newTtc.stg.vol.hbm = s.stg.vol.hbm := by unfold State.newTtc; rfl
@[simp] theorem sensePower_hbm (s : State) (w : Nat) : (s.sensePower w).stg.vol.hbm = s.stg.vol.hbm := by unfold State.sensePower; rfl
theorem execBudgetCeilingRise_leavesMemory (s : State) : LeavesMemory s (execBudgetCeilingRise s) := by simp [execBudgetCeilingRise]

theorem execThermalCeilingRise_leavesMemory (s : State) : LeavesMemory s (execThermalCeilingRise s) := by
  unfold execThermalCeilingRise
  (repeat' split) <;> simp

theorem execClusterClockStep_leavesMemory (s : State) : LeavesMemory s (execClusterClockStep s) := by
  unfold execClusterClockStep
  dsimp only
  (repeat' split) <;> simp

/-! #### The management Ethernet ports (R125-R127, R583) -/

@[simp] theorem updEth_hbm (s : State) (k : Nat) (f : EthPort → EthPort) : (s.updEth k f).stg.vol.hbm = s.stg.vol.hbm := by
  simp [State.updEth]

@[simp] theorem announceIp_hbm (s : State) (k : Nat) : (s.announceIp k).stg.vol.hbm = s.stg.vol.hbm := by
  unfold State.announceIp
  split <;> simp

theorem execArpRequestRx_leavesMemory (port : Nat) (target sender : Ip) (mac : Nat) (s : State) :
    LeavesMemory s (execArpRequestRx port target sender mac s) := by
  unfold execArpRequestRx
  split <;> simp

@[simp] theorem sendHeld_hbm (s : State) (ip : Ip) : (s.sendHeld ip).stg.vol.hbm = s.stg.vol.hbm := foldl_hbm (fun _ _ => by simp) ..

theorem execArpReplyRx_leavesMemory (port : Nat) (sender : Ip) (mac : Nat) (s : State) :
    LeavesMemory s (execArpReplyRx port sender mac s) := by
  unfold execArpReplyRx
  dsimp only
  (repeat' split) <;> simp

theorem execEthFrameDiscard_leavesMemory (port : Nat) (why : EthDiscard) (bytes : Nat) (s : State) :
    LeavesMemory s (execEthFrameDiscard port why bytes s) := by
  unfold execEthFrameDiscard
  split <;> simp

theorem execEthLinkUp_leavesMemory (port : Nat) (s : State) : LeavesMemory s (execEthLinkUp port s) := by
  unfold execEthLinkUp
  split <;> simp

theorem execArpEntryExpiry_leavesMemory (port : Nat) (addr : Ip) (s : State) : LeavesMemory s (execArpEntryExpiry port addr s) := by
  unfold execArpEntryExpiry
  split <;> simp

/-! #### The link state table (R42, R163-R166, R575, R576) -/

theorem execPortLinkEvent_leavesMemory (port event : Nat) (s : State) : LeavesMemory s (execPortLinkEvent port event s) := by
  simp [execPortLinkEvent]
theorem execLstTimerExpiry_leavesMemory (port : Nat) (s : State) : LeavesMemory s (execLstTimerExpiry port s) := by
  simp [execLstTimerExpiry]

theorem execElsAlarm_leavesMemory (fau : Nat) (s : State) : LeavesMemory s (execElsAlarm fau s) := by
  unfold execElsAlarm
  refine leavesMemory_next.mpr ?_
  split
  · rfl
  · exact foldl_hbm (fun _ _ => latch_hbm ..) _ _

@[simp] theorem sendBeacon_hbm (s : State) (d : Nat) : (s.sendBeacon d).stg.vol.hbm = s.stg.vol.hbm := by simp [State.sendBeacon]

@[simp] theorem linkBeacons_hbm (s : State) : s.linkBeacons.stg.vol.hbm = s.stg.vol.hbm := by
  unfold State.linkBeacons
  exact foldl_hbm (fun s d => by dsimp only; split <;> simp) _ _

@[simp] theorem degradePort_hbm (s : State) (d : Nat) : (s.degradePort d).stg.vol.hbm = s.stg.vol.hbm := by simp [State.degradePort]

@[simp] theorem enterLst_hbm (s : State) (d st : Nat) : (s.enterLst d st).stg.vol.hbm = s.stg.vol.hbm := by
  unfold State.enterLst
  dsimp only
  (repeat' split) <;> simp

@[simp] theorem lstApply_hbm (s : State) (d ev : Nat) : (s.lstApply d ev).stg.vol.hbm = s.stg.vol.hbm := by simp [State.lstApply]

@[simp] theorem lstRun_hbm (s : State) (d : Nat) (l : List Nat) (n : Nat) : (s.lstRun d l n).stg.vol.hbm = s.stg.vol.hbm := by
  induction l generalizing s n with
  | nil => rfl
  | cons e l ih => cases n <;> simp [State.lstRun, ih]

@[simp] theorem recoverPort_hbm (s : State) (d : Nat) : (s.recoverPort d).stg.vol.hbm = s.stg.vol.hbm := by simp [State.recoverPort]
@[simp] theorem lstPort_hbm (s : State) (d : Nat) : (s.lstPort d).stg.vol.hbm = s.stg.vol.hbm := by simp [State.lstPort]

@[simp] theorem lstAll_hbm (s : State) : s.lstAll.stg.vol.hbm = s.stg.vol.hbm := by
  unfold State.lstAll
  split <;> simp

@[simp] theorem newLst_hbm (s : State) : s.newLst.stg.vol.hbm = s.stg.vol.hbm := by unfold State.newLst; rfl
@[simp] theorem disablePort_hbm (s : State) (d : Nat) : (s.disablePort d).stg.vol.hbm = s.stg.vol.hbm := by simp [State.disablePort]

@[simp] theorem enableEvents_hbm (s : State) (old : Led) : (s.enableEvents old).stg.vol.hbm = s.stg.vol.hbm := by
  unfold State.enableEvents
  exact foldl_hbm (fun s d => by dsimp only; (repeat' split) <;> simp) _ _

@[simp] theorem dropMasked_hbm (s : State) : s.dropMasked.stg.vol.hbm = s.stg.vol.hbm := by
  unfold State.dropMasked
  exact foldl_hbm (fun s d => by dsimp only; split <;> simp) _ _

@[simp] theorem fecEvents_hbm (s : State) : s.fecEvents.stg.vol.hbm = s.stg.vol.hbm := by
  unfold State.fecEvents
  exact foldl_hbm (fun s d => by dsimp only; split <;> simp) _ _

@[simp] theorem hDiagLoop_hbm (c : Taken) (s : State) : (hDiagLoop c s).1.stg.vol.hbm = s.stg.vol.hbm := by
  unfold hDiagLoop
  dsimp only
  (repeat' split) <;> simp

@[simp] theorem boundaryLoop_hbm (s : State) (t : Task) : (s.boundaryLoop t).stg.vol.hbm = s.stg.vol.hbm := by
  unfold State.boundaryLoop
  split <;> simp

@[simp] theorem freeSample_hbm (s : State) : s.freeSample.2.stg.vol.hbm = s.stg.vol.hbm := by unfold State.freeSample; rfl

@[simp] theorem resetReference_hbm (c : Taken) (s : State) : (resetReference c s).1.stg.vol.hbm = s.stg.vol.hbm := by
  unfold resetReference
  split <;> simp

@[simp] theorem hDiagLane_hbm (c : Taken) (s : State) : (hDiagLane c s).1.stg.vol.hbm = s.stg.vol.hbm := by
  unfold hDiagLane
  (repeat' split) <;> simp

theorem execScheduledDiagLane_leavesMemory (e : Element) (s : State) : LeavesMemory s (execScheduledDiagLane e s) := by
  unfold execScheduledDiagLane
  split <;> simp

@[simp] theorem laneFailed_hbm (s : State) (e : Element) : (s.laneFailed e).stg.vol.hbm = s.stg.vol.hbm := by
  unfold State.laneFailed
  split <;> simp

theorem execDiagLaneEnd_leavesMemory (e : Element) (lanes : List LaneEntry) (uncorrectable reportsMissing : Bool) (s : State) :
    LeavesMemory s (execDiagLaneEnd e lanes uncorrectable reportsMissing s) := by
  unfold execDiagLaneEnd
  dsimp only
  (repeat' split) <;> simp

/-! #### Library alignment and claims (R64-R73, R331, R334) -/

@[simp] theorem announcePeriod_hbm (s : State) (p : Nat) (t : Tick) : (s.announcePeriod p t).stg.vol.hbm = s.stg.vol.hbm := by
  simp [State.announcePeriod]
@[simp] theorem newPeriod_hbm (s : State) (p : Nat) : (s.newPeriod p).stg.vol.hbm = s.stg.vol.hbm := by simp [State.newPeriod]

@[simp] theorem announceMerge_hbm (s : State) (v : Nat) : (s.announceMerge v).stg.vol.hbm = s.stg.vol.hbm := by
  unfold State.announceMerge
  split <;> simp

@[simp] theorem leads_hbm (s : State) : s.leads.stg.vol.hbm = s.stg.vol.hbm := by
  unfold State.leads
  split <;> simp

@[simp] theorem elect_hbm (s : State) : s.elect.stg.vol.hbm = s.stg.vol.hbm := by simp [State.elect]
@[simp] theorem periodDiffers_hbm (s : State) : s.periodDiffers.stg.vol.hbm = s.stg.vol.hbm := by simp [State.periodDiffers]
@[simp] theorem adopt_hbm (s : State) (b : List Byte) (tick : Tick) : (s.adopt b tick).stg.vol.hbm = s.stg.vol.hbm := by simp [State.adopt]
@[simp] theorem adoptJump_hbm (s : State) (x : Beacon) (b : List Byte) : (s.adoptJump x b).stg.vol.hbm = s.stg.vol.hbm := by
  simp [State.adoptJump]
@[simp] theorem meetJoiner_hbm (s : State) (b : Beacon) : (s.meetJoiner b).stg.vol.hbm = s.stg.vol.hbm := by simp [State.meetJoiner]
@[simp] theorem tickBeacon_hbm (s : State) (d : Nat) (src : Coord) (phase : ℤ) (b : List Byte) :
    (s.tickBeacon d src phase b).stg.vol.hbm = s.stg.vol.hbm := by simp [State.tickBeacon]
theorem execTickBeaconRx_leavesMemory (port : Nat) (uncorrectable : Bool) (phaseError : ℤ) (pkt : List Byte) (s : State) :
    LeavesMemory s (execTickBeaconRx port uncorrectable phaseError pkt s) := by simp [execTickBeaconRx]
@[simp] theorem tickBeacons_hbm (s : State) : s.tickBeacons.stg.vol.hbm = s.stg.vol.hbm := foldl_hbm (fun _ _ => by simp) ..
theorem execLeaderTimeout_leavesMemory (s : State) : LeavesMemory s (execLeaderTimeout s) := by simp [execLeaderTimeout]
@[simp] theorem rejoined_hbm (s : State) : s.rejoined.stg.vol.hbm = s.stg.vol.hbm := by simp [State.rejoined]

@[simp] theorem joinStep_hbm (s : State) (leader i delta : Nat) : (s.joinStep leader i delta).stg.vol.hbm = s.stg.vol.hbm := by
  unfold State.joinStep
  dsimp only
  (repeat' split) <;> simp

theorem execJoinStep_leavesMemory (leader : Nat) (leaderIndex : Tick) (delta : Nat) (s : State) :
    LeavesMemory s (execJoinStep leader leaderIndex delta s) := by
  unfold execJoinStep
  dsimp only
  (repeat' split) <;> simp

theorem execIndexJump_leavesMemory (s : State) : LeavesMemory s (execIndexJump s) := by
  unfold execIndexJump
  (repeat' split) <;> simp

theorem execPeriodSwitch_leavesMemory (s : State) : LeavesMemory s (execPeriodSwitch s) := by
  unfold execPeriodSwitch
  (repeat' split) <;> simp

theorem execFsyncEdge_leavesMemory (error : ℤ) (s : State) : LeavesMemory s (execFsyncEdge error s) := by
  unfold execFsyncEdge
  dsimp only
  (repeat' split) <;> simp

@[simp] theorem slewOnce_hbm (s : State) : s.slewOnce.stg.vol.hbm = s.stg.vol.hbm := by
  unfold State.slewOnce
  split <;> rfl

theorem execLibraryClaimRx_leavesMemory (port : Nat) (claim : Claim) (s : State) : LeavesMemory s (execLibraryClaimRx port claim s) := by
  simp [execLibraryClaimRx]
@[simp] theorem sendClaim_hbm (s : State) (d dest : Nat) (c : Claim) : (s.sendClaim d dest c).stg.vol.hbm = s.stg.vol.hbm := by
  simp [State.sendClaim]

@[simp] theorem sendClaims_hbm (s : State) : s.sendClaims.stg.vol.hbm = s.stg.vol.hbm := by
  unfold State.sendClaims
  dsimp only
  rw [foldl_hbm fun _ _ => sendClaim_hbm ..]
  exact foldl_hbm (fun s o => by split <;> simp) _ _

@[simp] theorem resolveTask_hbm (s : State) (heard : List (Nat × Claim)) (id : Nat) :
    (s.resolveTask heard id).stg.vol.hbm = s.stg.vol.hbm := by
  unfold State.resolveTask
  dsimp only
  (repeat' split) <;> simp

@[simp] theorem neighbourClaim_hbm (s : State) (mine : List OwnClaim) (d : Nat) (c : Claim) :
    (s.neighbourClaim mine d c).stg.vol.hbm = s.stg.vol.hbm := by
  unfold State.neighbourClaim
  (repeat' split) <;> simp

@[simp] theorem matchedOps_hbm (s : State) : s.matchedOps.stg.vol.hbm = s.stg.vol.hbm := by simp [State.matchedOps]

theorem execClaimTimeout_leavesMemory (port : Nat) (s : State) : LeavesMemory s (execClaimTimeout port s) := by
  unfold execClaimTimeout
  exact leavesMemory_next.mpr (foldl_hbm (fun s id => by dsimp only; split <;> simp) _ _)

/-! #### Overruns and degraded mode (R60, R367) -/

@[simp] theorem haltGroup_hbm (s : State) (e : FaultEntry) : (s.haltGroup e).stg.vol.hbm = s.stg.vol.hbm := by simp [State.haltGroup]
@[simp] theorem driveFaultN_hbm (s : State) : s.driveFaultN.stg.vol.hbm = s.stg.vol.hbm := by unfold State.driveFaultN; rfl

theorem execStepOverrun_leavesMemory (task : Nat) (s : State) : LeavesMemory s (execStepOverrun task s) := by
  unfold execStepOverrun
  (repeat' split) <;> simp

@[simp] theorem stepRan_hbm (s : State) (id : Nat) : (s.stepRan id).stg.vol.hbm = s.stg.vol.hbm := by
  unfold State.stepRan
  split <;> simp

theorem execDegradedModeLeft_leavesMemory (s : State) : LeavesMemory s (execDegradedModeLeft s) := by
  unfold execDegradedModeLeft
  (repeat' split) <;> simp

/-! #### Bring-up (R449-R470) -/

@[simp] theorem noteRegs_hbm (s : State) (old : Regs) : (s.noteRegs old).stg.vol.hbm = s.stg.vol.hbm := by simp [State.noteRegs]
@[simp] theorem follow_hbm (s : State) : s.follow.stg.vol.hbm = s.stg.vol.hbm := by simp [State.follow]
@[simp] theorem toStage_hbm (s : State) (st : Stage) : (s.toStage st).stg.vol.hbm = s.stg.vol.hbm := by unfold State.toStage; rfl
@[simp] theorem haltBoot_hbm (s : State) (code : Nat) : (s.haltBoot code).stg.vol.hbm = s.stg.vol.hbm := by simp [State.haltBoot]

theorem execBringUpStart_leavesMemory (straps : Straps) (s : State) : LeavesMemory s (execBringUpStart straps s) := by
  unfold execBringUpStart
  split <;> simp

@[simp] theorem bootSlot_hbm (s : State) (k : Nat) : (s.bootSlot k).stg.vol.hbm = s.stg.vol.hbm := by simp [State.bootSlot]

@[simp] theorem selectBlind_hbm (s : State) : s.selectBlind.stg.vol.hbm = s.stg.vol.hbm := by
  unfold State.selectBlind
  dsimp only
  split <;> simp

@[simp] theorem sealBootFw_hbm (s : State) (f : FwState) (w : AnchorWrite) : (s.sealBootFw f w).stg.vol.hbm = s.stg.vol.hbm := by
  simp [State.sealBootFw]

@[simp] theorem selectImage_hbm (s : State) (w : AnchorWrite) : (s.selectImage w).stg.vol.hbm = s.stg.vol.hbm := by
  unfold State.selectImage
  dsimp only
  (repeat' split) <;> simp

theorem execFwVerifyStageDone_leavesMemory (anchorWritable : AnchorWrite) (s : State) :
    LeavesMemory s (execFwVerifyStageDone anchorWritable s) := by
  unfold execFwVerifyStageDone
  (repeat' split) <;> simp

@[simp] theorem hearArcs_hbm (s : State) (a b : BusAnswer) : (s.hearArcs a b).stg.vol.hbm = s.stg.vol.hbm := by simp [State.hearArcs]
@[simp] theorem reserveRun_hbm (s : State) (start : Tick) (a : Anchor) (ledA ledB arcA arcB : BusAnswer) :
    (s.reserveRun start a ledA ledB arcA arcB).stg.vol.hbm = s.stg.vol.hbm := by simp [State.reserveRun]

theorem execClusterWaveStart_leavesMemory (w : Nat) (s : State) : LeavesMemory s (execClusterWaveStart w s) := by
  unfold execClusterWaveStart
  dsimp only
  (repeat' split) <;> simp

theorem execClusterSelftestDone_leavesMemory (rc : Nat) (passed : Bool) (s : State) :
    LeavesMemory s (execClusterSelftestDone rc passed s) := by
  unfold execClusterSelftestDone
  dsimp only
  (repeat' split) <;> simp

theorem execEntropyReady_leavesMemory (ms : Nat) (s : State) : LeavesMemory s (execEntropyReady ms s) := by
  unfold execEntropyReady
  dsimp only
  (repeat' split) <;> simp

theorem execEntropyHealthFail_leavesMemory (s : State) : LeavesMemory s (execEntropyHealthFail s) := by
  unfold execEntropyHealthFail
  dsimp only
  (repeat' split) <;> simp

theorem execDrbgReseed_leavesMemory (s : State) : LeavesMemory s (execDrbgReseed s) := by simp [execDrbgReseed]

/-! #### Restore (R101-R104, R459-R465) -/

@[simp] theorem finishRevoked_hbm (s : State) (n : Nat) : (s.finishRevoked n).stg.vol.hbm = s.stg.vol.hbm := by
  unfold State.finishRevoked
  dsimp only
  (repeat' split) <;> simp

@[simp] theorem freeFailure_hbm (s : State) : s.freeFailure.2.stg.vol.hbm = s.stg.vol.hbm := by simp [State.freeFailure]
@[simp] theorem finishRebind_hbm (s : State) (b : RebindRec) : (s.finishRebind b).stg.vol.hbm = s.stg.vol.hbm := by
  simp [State.finishRebind]

@[simp] theorem volumeReset_hbm (s : State) (eff : Nat) : (s.volumeReset eff).stg.vol.hbm = s.stg.vol.hbm := by
  unfold State.volumeReset
  dsimp only
  rw [stageOwn_hbm]
  exact foldl_hbm (fun _ _ => zeroiseSlot_hbm ..) _ _

@[simp] theorem checkVolume_hbm (s : State) (recorded : Bool) : (s.checkVolume recorded).stg.vol.hbm = s.stg.vol.hbm := by
  simp [State.checkVolume]
@[simp] theorem mendQuire_hbm (s : State) (q : QuireRec) : (s.mendQuire q).stg.vol.hbm = s.stg.vol.hbm := by simp [State.mendQuire]
@[simp] theorem mendAll_hbm (s : State) : s.mendAll.stg.vol.hbm = s.stg.vol.hbm := by simp [State.mendAll]
@[simp] theorem checkMirror_hbm (s : State) : s.checkMirror.stg.vol.hbm = s.stg.vol.hbm := by simp [State.checkMirror]
@[simp] theorem fromCkpt_hbm (s : State) (c : Checkpoint) : (s.fromCkpt c).stg.vol.hbm = s.stg.vol.hbm := by simp [State.fromCkpt]

@[simp] theorem settleCuts_hbm (s : State) : s.settleCuts.stg.vol.hbm = s.stg.vol.hbm := by
  unfold State.settleCuts
  dsimp only
  rw [foldl_hbm fun s k => by split <;> simp, foldl_hbm fun s i => by split <;> simp]
  exact foldl_hbm (fun _ _ => finishRebind_hbm ..) _ _

@[simp] theorem restoreFaults_hbm (s : State) (cut : Bool) : (s.restoreFaults cut).stg.vol.hbm = s.stg.vol.hbm := by
  simp [State.restoreFaults]
@[simp] theorem restoreRest_hbm (s : State) : s.restoreRest.stg.vol.hbm = s.stg.vol.hbm := by unfold State.restoreRest; rfl

theorem execHbmTrainDone_leavesMemory (trained : List Bool) (ids : List (List Byte)) (s : State) :
    LeavesMemory s (execHbmTrainDone trained ids s) := by
  unfold execHbmTrainDone
  (repeat' split) <;> simp

@[simp] theorem memFound_hbm (s : State) (f : MemFinding) : (s.memFound f).stg.vol.hbm = s.stg.vol.hbm := by simp [State.memFound]

theorem execMemTestDone_leavesMemory (findings : List MemFinding) (s : State) : LeavesMemory s (execMemTestDone findings s) := by
  unfold execMemTestDone
  split <;> simp

theorem execLaneTrainDone_leavesMemory (s : State) : LeavesMemory s (execLaneTrainDone s) := by simp [execLaneTrainDone]

/-! #### The books of the seal phase (R371-R374) -/

@[simp] theorem markRefs_hbm (s : State) : s.markRefs.stg.vol.hbm = s.stg.vol.hbm := by unfold State.markRefs; rfl
@[simp] theorem withdraw_hbm (s : State) (q : QuireId) : (s.withdraw q).stg.vol.hbm = s.stg.vol.hbm := foldl_hbm (fun _ _ => by simp) ..
@[simp] theorem turnReplies_hbm (s : State) (q : QuireId) (c : Nat) : (s.turnReplies q c).stg.vol.hbm = s.stg.vol.hbm :=
  foldl_hbm (fun _ _ => by simp) ..
@[simp] theorem turnTasks_hbm (s : State) (q : QuireId) : (s.turnTasks q).stg.vol.hbm = s.stg.vol.hbm := foldl_hbm (fun _ _ => by simp) ..
@[simp] theorem stopRebinds_hbm (s : State) (q : QuireId) : (s.stopRebinds q).stg.vol.hbm = s.stg.vol.hbm :=
  foldl_hbm (fun _ _ => by split <;> simp) ..
@[simp] theorem markQuarantined_hbm (s : State) (q : QuireId) : (s.markQuarantined q).stg.vol.hbm = s.stg.vol.hbm := by
  simp [State.markQuarantined]
@[simp] theorem auditPort_hbm (s : State) (d : Nat) : (s.auditPort d).stg.vol.hbm = s.stg.vol.hbm := by simp [State.auditPort]

/-! #### The intake of a tick (R113-R124) -/

@[simp] theorem planChan_hbm (s : State) (c used : Nat) : (s.planChan c used).1.stg.vol.hbm = s.stg.vol.hbm := by simp [State.planChan]
@[simp] theorem intake_hbm (s : State) : s.intake.stg.vol.hbm = s.stg.vol.hbm := by simp [State.intake]

/-! #### The tick boundary (R46-R53, R63) -/

@[simp] theorem newTick_hbm (s : State) : s.newTick.stg.vol.hbm = s.stg.vol.hbm := by unfold State.newTick; rfl
@[simp] theorem countHours_hbm (s : State) (before : Nat) : (s.countHours before).stg.vol.hbm = s.stg.vol.hbm := by simp [State.countHours]
@[simp] theorem scrubTick_hbm (s : State) (period : Nat) : (s.scrubTick period).stg.vol.hbm = s.stg.vol.hbm := by simp [State.scrubTick]
@[simp] theorem publish_hbm (s : State) : s.publish.stg.vol.hbm = s.stg.vol.hbm := by unfold State.publish; rfl

@[simp] theorem discoveryEnds_hbm (s : State) : s.discoveryEnds.stg.vol.hbm = s.stg.vol.hbm := by
  unfold State.discoveryEnds
  split <;> rfl

@[simp] theorem fixRegs_hbm (s : State) : s.fixRegs.stg.vol.hbm = s.stg.vol.hbm := by simp [State.fixRegs]
@[simp] theorem moveChan_hbm (s : State) (m : Manifest) (c : Nat) : (s.moveChan m c).stg.vol.hbm = s.stg.vol.hbm := by simp [State.moveChan]

@[simp] theorem newManifest_hbm (s : State) (old : Led) : (s.newManifest old).stg.vol.hbm = s.stg.vol.hbm := by
  unfold State.newManifest
  split <;> simp

@[simp] theorem newVolume_hbm (s : State) (was : Led) (old : Nat) (running : Bool) :
    (s.newVolume was old running).stg.vol.hbm = s.stg.vol.hbm := by simp [State.newVolume]
@[simp] theorem unbind_hbm (s : State) (old : Nat) : (s.unbind old).stg.vol.hbm = s.stg.vol.hbm := by simp [State.unbind]
@[simp] theorem newIp_hbm (s : State) (k : Nat) (old : Option Ip) : (s.newIp k old).stg.vol.hbm = s.stg.vol.hbm := by simp [State.newIp]

@[simp] theorem wantScans_hbm (s : State) : s.wantScans.stg.vol.hbm = s.stg.vol.hbm := by
  unfold State.wantScans
  split <;> rfl

@[simp] theorem newTables_hbm (s : State) (old : Fabric) : (s.newTables old).stg.vol.hbm = s.stg.vol.hbm := by simp [State.newTables]
@[simp] theorem tellQuire_hbm (s : State) (old : Led) (r : QuireRec) : (s.tellQuire old r).stg.vol.hbm = s.stg.vol.hbm := by
  simp [State.tellQuire]
@[simp] theorem tellPart_hbm (s : State) (old : Fabric) (r : QuireRec) : (s.tellPart old r).stg.vol.hbm = s.stg.vol.hbm := by
  simp [State.tellPart]
@[simp] theorem tellReleased_hbm (s : State) (old : Led) : (s.tellReleased old).stg.vol.hbm = s.stg.vol.hbm :=
  foldl_hbm (fun _ _ => by simp) ..

@[simp] theorem wantTables_hbm (s : State) (r : QuireRec) : (s.wantTables r).stg.vol.hbm = s.stg.vol.hbm := by
  unfold State.wantTables
  dsimp only
  (repeat' split) <;> simp

@[simp] theorem greetNew_hbm (s : State) (old : Fabric) (r : QuireRec) : (s.greetNew old r).stg.vol.hbm = s.stg.vol.hbm := by
  simp [State.greetNew]
@[simp] theorem newQuires_hbm (s : State) (old : Fabric) : (s.newQuires old).stg.vol.hbm = s.stg.vol.hbm := by simp [State.newQuires]

@[simp] theorem boundaryTask_hbm (s : State) (id : Nat) : (s.boundaryTask id).stg.vol.hbm = s.stg.vol.hbm := by
  unfold State.boundaryTask
  (repeat' split) <;> simp

@[simp] theorem boundaryTasks_hbm (s : State) : s.boundaryTasks.stg.vol.hbm = s.stg.vol.hbm := foldl_hbm (fun _ _ => by simp) ..
@[simp] theorem countReports_hbm (s : State) : s.countReports.stg.vol.hbm = s.stg.vol.hbm := by unfold State.countReports; rfl
@[simp] theorem tellDone_hbm (s : State) : s.tellDone.stg.vol.hbm = s.stg.vol.hbm := by simp [State.tellDone]

@[simp] theorem planReset_hbm (s : State) : s.planReset.stg.vol.hbm = s.stg.vol.hbm := by
  unfold State.planReset
  split <;> simp

@[simp] theorem noteReply_hbm (s : State) : s.noteReply.stg.vol.hbm = s.stg.vol.hbm := by
  unfold State.noteReply
  split <;> simp

@[simp] theorem houseReturned_hbm (s : State) : s.houseReturned.stg.vol.hbm = s.stg.vol.hbm := foldl_hbm (fun _ _ => by simp) ..
@[simp] theorem carryOut_hbm (s : State) (old : Fabric) : (s.carryOut old).stg.vol.hbm = s.stg.vol.hbm := by simp [State.carryOut]
@[simp] theorem enginesAt0_hbm (s : State) : s.enginesAt0.stg.vol.hbm = s.stg.vol.hbm := by simp [State.enginesAt0]

@[simp] theorem liveBoundary_hbm (s0 : State) : s0.liveBoundary.stg.vol.hbm = s0.stg.vol.hbm := by
  unfold State.liveBoundary
  simp

@[simp] theorem haltedBoundary_hbm (s0 : State) : s0.haltedBoundary.stg.vol.hbm = s0.stg.vol.hbm := by
  unfold State.haltedBoundary
  dsimp only
  split <;> simp

/-! #### Host writes and the TAP (R120-R123, R586, R602-R619) -/

theorem execCmdTailWrite_leavesMemory (ch : Nat) (data : List Byte) (tail : Word32) (s : State) :
    LeavesMemory s (execCmdTailWrite ch data tail s) := by simp [execCmdTailWrite]

theorem execRplHeadWrite_leavesMemory (ch : Nat) (head : Word32) (s : State) : LeavesMemory s (execRplHeadWrite ch head s) := by
  unfold execRplHeadWrite
  split <;> simp

theorem execIrqStatClear_leavesMemory (w : Word64) (s : State) : LeavesMemory s (execIrqStatClear w s) := by
  unfold execIrqStatClear
  split <;> simp

theorem execIrqMaskWrite_leavesMemory (w : Word64) (s : State) : LeavesMemory s (execIrqMaskWrite w s) := by
  unfold execIrqMaskWrite
  split <;> simp

theorem execRimodeWrite_leavesMemory (w : Byte) (s : State) : LeavesMemory s (execRimodeWrite w s) := by
  unfold execRimodeWrite
  split <;> simp

theorem execMbxDoorbellWrite_leavesMemory (w : Word64) (s : State) : LeavesMemory s (execMbxDoorbellWrite w s) := by
  unfold execMbxDoorbellWrite
  split <;> simp

theorem execRegisterWriteIgnored_leavesMemory (_offset _size : Nat) (_w : Word64) (s : State) :
    LeavesMemory s (execRegisterWriteIgnored _offset _size _w s) := by simp [execRegisterWriteIgnored]
@[simp] theorem perstReset_hbm (s : State) : s.perstReset.stg.vol.hbm = s.stg.vol.hbm := by unfold State.perstReset; rfl

theorem execPerstNAssert_leavesMemory (ns : Nat) (s : State) : LeavesMemory s (execPerstNAssert ns s) := by
  unfold execPerstNAssert
  dsimp only
  (repeat' split) <;> simp

theorem execPerstNDeassert_leavesMemory (s : State) : LeavesMemory s (execPerstNDeassert s) := by simp [execPerstNDeassert]

theorem execConfigurationRequest_leavesMemory (r : CfgReq) (s : State) : LeavesMemory s (execConfigurationRequest r s) := by
  unfold execConfigurationRequest
  split <;> simp

theorem execJtagInstruction_leavesMemory (i : JtagInstr) (s : State) : LeavesMemory s (execJtagInstruction i s) := by
  simp [execJtagInstruction]

/-! #### The phases of a tick (R58-R62) -/

@[simp] theorem workRewrite_hbm (s : State) (t : Task) (x : Solution) (js : List ShadowJob) (todo : List Coord) (left : Nat) :
    (s.workRewrite t x js todo left).1.stg.vol.hbm = s.stg.vol.hbm := by
  unfold State.workRewrite
  dsimp only
  (repeat' split) <;> simp

@[simp] theorem closeDue_hbm (s : State) : s.closeDue.stg.vol.hbm = s.stg.vol.hbm := by
  unfold State.closeDue
  exact foldl_hbm (fun s c => by split <;> simp) _ _

@[simp] theorem moveHouses_hbm (s : State) : s.moveHouses.stg.vol.hbm = s.stg.vol.hbm := by
  refine foldl_hbm (fun s g => ?_) _ _
  split
  · next moved => exact execHouseBoreMove_leavesMemory g s _ moved
  · rfl

@[simp] theorem samplePorts_hbm (s : State) : s.samplePorts.stg.vol.hbm = s.stg.vol.hbm := by unfold State.samplePorts; rfl
@[simp] theorem sampleMirror_hbm (s : State) : s.sampleMirror.stg.vol.hbm = s.stg.vol.hbm := by unfold State.sampleMirror; rfl

theorem execDronePhase_leavesMemory (sample : SensorSample) (s : State) : LeavesMemory s (execDronePhase sample s) := by
  unfold execDronePhase
  dsimp only
  (repeat' split) <;> simp

@[simp] theorem sealTaskOf_hbm (s : State) (id : Nat) : (s.sealTaskOf id).stg.vol.hbm = s.stg.vol.hbm := by
  unfold State.sealTaskOf
  (repeat' split) <;> simp

@[simp] theorem postSeal_hbm (s : State) : s.postSeal.stg.vol.hbm = s.stg.vol.hbm := by
  unfold State.postSeal
  exact foldl_hbm (fun _ _ => flushSeal_hbm ..) _ _

end Sys2Proof.Machine
end

section
/-! PROOFS. The family of director memory: what writes it keeps the canonical form (R259, R262, R411, R413). The writes of the arithmetic,
of operations that end and of data packets, the commands and tasks that end operations, and the faults that discard what is staged. -/

namespace Sys2Proof.Machine

open Laws Kept

/-! ### What arithmetic writes (R267, R268, R278, R293, R296, R316, R334) -/

theorem foldl_write_wf (cs : List Host.Cell) (m : List Host.Cell) (formed : Memory.wf m = true) :
    Memory.wf (cs.foldl (fun m c => Memory.write m c.1 c.2) m) = true :=
  List.foldlRecOn (motive := fun m => Memory.wf m = true) cs _ formed fun m formed c _ => write_wf m c.1 c.2 formed

theorem leavesFrom_wf {new : List Host.Cell} (formed : Memory.wf new = true) (old : List Host.Cell) (ls : List Nat) :
    Memory.wf (leavesFrom old new ls) = true :=
  foldl_write_wf _ _ (filter_wf _ _ formed)

theorem zeroGrant_wf {m : List Host.Cell} (formed : Memory.wf m = true) (ls : List Nat) (a n : Nat) :
    Memory.wf (zeroGrant m ls a n) = true := filter_wf _ _ formed

theorem writeCode_wf {m : List Host.Cell} (formed : Memory.wf m = true) (ls : List Nat) (base f off x : Nat) :
    Memory.wf (writeCode m ls base f off x) = true := by
  unfold writeCode
  split
  · exact write_wf _ _ _ formed
  · exact hbmWrite_wf _ _ _ _ formed

/-- A write of a code that is made only under some option. -/
theorem writeCodeIf_wf {m : List Host.Cell} (formed : Memory.wf m = true) (b : Bool) (ls : List Nat) (base f off x : Nat) :
    Memory.wf (if b then writeCode m ls base f off x else m) = true := by
  split
  · exact writeCode_wf formed ..
  · exact formed

theorem putElem_wf {w : ItemOut} (formed : Memory.wf w.mem = true) (d : Desc) (ls : List Nat) (o : Outcome3) (far : Fp) (y f : Nat) :
    Memory.wf (d.putElem ls o far y f w).mem = true :=
  writeCodeIf_wf (writeCodeIf_wf (writeCode_wf formed ..) ..) ..

theorem putPad_wf {w : ItemOut} (formed : Memory.wf w.mem = true) (d : Desc) (ls : List Nat) (y f : Nat) :
    Memory.wf (d.putPad ls y f w).mem = true :=
  writeCodeIf_wf (writeCodeIf_wf (writeCode_wf formed ..) ..) ..

/-- Steps that each keep the form keep it together. -/
theorem foldl_item_wf {α : Type} {f : ItemOut → α → ItemOut} (step : ∀ w x, Memory.wf w.mem = true → Memory.wf (f w x).mem = true)
    (l : List α) {w : ItemOut} (formed : Memory.wf w.mem = true) : Memory.wf (l.foldl f w).mem = true :=
  List.foldlRecOn (motive := fun w : ItemOut => Memory.wf w.mem = true) l f formed fun w formed x _ => step w x formed

theorem runItem_wf {m : List Host.Cell} (formed : Memory.wf m = true) (d : Desc) (curve : Option (List (Fp × Fp × Fp)))
    (ls : List Nat) (item : Nat) : Memory.wf (d.runItem curve m ls item).mem = true := by
  refine foldl_item_wf (fun w i formed => foldl_item_wf (fun w j formed => ?_) _ formed) _ formed
  dsimp only
  split
  · exact putElem_wf formed ..
  · exact putPad_wf formed ..

theorem writeStats_wf {m : List Host.Cell} (formed : Memory.wf m = true) (d : Desc) (curve : Option (List (Fp × Fp × Fp)))
    (ls : List Nat) : Memory.wf (d.writeStats curve m ls) = true := hbmWrite_wf _ _ _ _ formed

theorem padVec_wf {w : ItemOut} (formed : Memory.wf w.mem = true) (d : Desc) (ls : List Nat) (c : Nat) :
    Memory.wf (d.padVec ls c w).mem = true := by
  unfold Desc.padVec
  split
  · exact foldl_item_wf (fun w i formed => putPad_wf formed ..) _ formed
  · exact formed

theorem promoteChunk_wf {m : List Host.Cell} (formed : Memory.wf m = true) (o : Op) (d : Desc)
    (curve : Option (List (Fp × Fp × Fp))) (v : Nat) (at_ : List (Nat × Coord)) (ls : List Nat) (c : Nat) :
    Memory.wf (o.promoteChunk d curve v at_ m ls c).1.mem = true := by
  unfold Op.promoteChunk
  dsimp only
  split
  · exact formed
  · exact padVec_wf (foldl_item_wf (fun w y formed => putElem_wf formed ..) _ formed) ..

theorem writeFar_wf {m : List Host.Cell} (formed : Memory.wf m = true) (o : Op) (d : Desc) (u : Nat) (ls : List Nat) (c : Nat) :
    Memory.wf (o.writeFar d u m ls c).mem = true :=
  padVec_wf (foldl_item_wf (fun _ _ formed => writeCodeIf_wf (writeCode_wf formed ..) ..) _ formed) ..

/-! ### Operations that end or write (R313, R315, R320-R322, R328, R332-R335, R375, R417) -/

theorem scramble_wf {s : State} (formed : Memory.wf s.stg.vol.hbm = true) (ls : List Nat) (rs : List (Nat × Nat)) :
    Memory.wf (s.scramble ls rs).stg.vol.hbm = true := by
  induction rs generalizing s with
  | nil => exact formed
  | cons r rs ih => exact ih (hbmWrite_wf _ _ _ _ formed)

/-- Steps that each keep the form keep it together. -/
theorem foldl_state_wf {α : Type} {f : State → α → State}
    (step : ∀ s x, Memory.wf s.stg.vol.hbm = true → Memory.wf (f s x).stg.vol.hbm = true)
    (l : List α) {s : State} (formed : Memory.wf s.stg.vol.hbm = true) : Memory.wf (l.foldl f s).stg.vol.hbm = true :=
  List.foldlRecOn (motive := fun s : State => Memory.wf s.stg.vol.hbm = true) l f formed fun s formed x _ => step s x formed

theorem ite_wf {c : Prop} [Decidable c] {s t : State} (yes : Memory.wf s.stg.vol.hbm = true) (no : Memory.wf t.stg.vol.hbm = true) :
    Memory.wf (if c then s else t).stg.vol.hbm = true := by
  split
  · exact yes
  · exact no

section
variable {s : State} (formed : Memory.wf s.stg.vol.hbm = true)
include formed

theorem endOp_wf (o : Op) (st : Status) : Memory.wf (s.endOp o st).stg.vol.hbm = true := by
  unfold State.endOp
  extract_lets -lift fails ended written
  have scrambled : Memory.wf written.stg.vol.hbm = true := by
    unfold written
    split
    · split
      · exact scramble_wf (by simpa [ended] using formed) ..
      · simpa [ended] using formed
    · simpa [ended] using formed
  clear_value written
  split
  · split <;> simpa using scrambled
  · exact scrambled

theorem failOp_wf (o : Op) (st : Status) : Memory.wf (s.failOp o st).stg.vol.hbm = true := by
  unfold State.failOp
  dsimp only
  split
  · rw [queueClaim_hbm]
    exact endOp_wf formed ..
  · exact endOp_wf formed ..

theorem endOps_wf (q : QuireId) (st : Status) : Memory.wf (s.endOps q st).stg.vol.hbm = true :=
  foldl_state_wf (fun _ _ formed => failOp_wf formed ..) _ formed

theorem resetStart_wf (r : QuireRec) : Memory.wf (s.resetStart r).stg.vol.hbm = true := by
  simpa [State.resetStart] using endOps_wf formed r.id .cancelled

theorem lostChunk_wf (o : Op) (k : Nat) : Memory.wf (s.lostChunk o k).stg.vol.hbm = true :=
  failOp_wf (by simpa using formed) ..

theorem retryFar_wf (o : Op) (dst c : Nat) : Memory.wf (s.retryFar o dst c).stg.vol.hbm = true := by
  unfold State.retryFar
  split
  · exact formed
  · split
    · exact formed
    · split
      · have failed := failOp_wf (s := s.opFault 2 0x08 dst o Status.lastingFault.code) (by simpa using formed) o .lastingFault
        dsimp only
        split
        · rwa [suspect_hbm]
        · exact failed
      · simpa using formed

theorem transfer_wf (q : QuireId) (src : Coord) (h data : List Byte) : Memory.wf (s.transfer q src h data).stg.vol.hbm = true := by
  unfold State.transfer
  dsimp only
  split
  · split
    · simpa using formed
    · exact hbmWrite_wf _ _ _ _ formed
  · split
    · split
      · simpa using formed
      · exact foldl_state_wf (fun _ _ formed => by simpa using formed) _ formed
    · exact formed

theorem contribution_wf (q : QuireId) (src : Coord) (h data : List Byte) :
    Memory.wf (s.contribution q src h data).stg.vol.hbm = true := by
  unfold State.contribution
  dsimp only
  split
  · exact ite_wf formed (ite_wf formed (ite_wf formed (ite_wf formed (hbmWrite_wf _ _ _ _ formed))))
  · simpa using formed

theorem finishFar_wf (q : QuireRec) (o : Op) (c : Nat) : Memory.wf (s.finishFar q o c).stg.vol.hbm = true := by
  unfold State.finishFar
  split
  · exact formed
  · split
    · exact formed
    · dsimp only
      rw [sendReady_hbm]
      exact writeFar_wf formed ..

theorem farRx_wf (data : List Byte) : Memory.wf (s.farRx data).stg.vol.hbm = true := by
  unfold State.farRx
  split
  · exact formed
  · refine ite_wf (by simpa using formed) ?_
    split
    · refine ite_wf formed (ite_wf formed (ite_wf formed ?_))
      exact ite_wf formed (ite_wf (finishFar_wf (by simpa using formed) ..) (by simpa using formed))
    · exact formed

theorem consume_wf (q : QuireId) (src : Coord) (seq fmt : Nat) (hdr data : List Byte) (tenant : Bool) :
    Memory.wf (s.consume q src seq fmt hdr data tenant).stg.vol.hbm = true := by
  unfold State.consume
  dsimp only
  split
  · exact formed
  · split
    · simpa using formed
    · split
      · exact formed
      · split
        · exact formed
        · next t taken =>
          have accepted : Memory.wf t.stg.vol.hbm = true := by rwa [acceptSeq_hbm _ _ _ _ _ taken]
          split
          · exact transfer_wf accepted ..
          · split
            · split
              · exact farRx_wf accepted ..
              · exact accepted
            · split
              · exact contribution_wf accepted ..
              · exact accepted

theorem dataRx_wf (d : Nat) (u : Bool) (pkt : List Byte) : Memory.wf (s.dataRx d u pkt).stg.vol.hbm = true := by
  unfold State.dataRx
  dsimp only
  split
  · exact formed
  · split
    · exact formed
    · split
      · simpa using formed
      · split
        · simpa using formed
        · simpa using formed
        · exact consume_wf (by simpa using formed) ..

theorem opClaim_wf (d : Nat) (c : Claim) : Memory.wf (s.opClaim d c).stg.vol.hbm = true := by
  unfold State.opClaim
  split
  · split
    · split
      · exact formed
      · exact ite_wf formed (endOp_wf formed ..)
    · exact formed
  · split
    · split
      · exact endOp_wf formed ..
      · exact formed
    · exact formed
  · split
    · split
      · rw [suspect_hbm]
        exact endOp_wf formed ..
      · exact formed
    · exact formed
  all_goals exact formed

omit formed in
theorem itemRan_wf (o : Op) (item rc : Nat) {w : ItemOut} (written : Memory.wf w.mem = true) :
    Memory.wf (s.itemRan o item rc w).stg.vol.hbm = true := written

theorem sealOp_wf (o : Op) : Memory.wf (s.sealOp o).stg.vol.hbm = true := by
  unfold State.sealOp
  dsimp only
  split
  · exact formed
  · split
    · exact failOp_wf (by simpa using formed) ..
    · exact ite_wf (endOp_wf (by simpa using formed) ..) (by simpa using formed)

theorem sealAll_wf : Memory.wf s.sealAll.stg.vol.hbm = true := by
  unfold State.sealAll
  rw [foldl_hbm fun _ _ => sealTaskOf_hbm ..]
  exact foldl_state_wf (fun _ _ formed => sealOp_wf formed ..) _ formed

theorem resolveClaims_wf : Memory.wf s.resolveClaims.stg.vol.hbm = true := by
  unfold State.resolveClaims
  dsimp only
  rw [matchedOps_hbm]
  refine foldl_state_wf (fun s h formed => opClaim_wf (by simpa using formed) ..) _ ?_
  simpa using formed

/-! ### Tasks (R58, R379) -/

theorem workReset_wf (t : Task) (st : ResetStep) (left : Nat) : Memory.wf (s.workReset t st left).1.stg.vol.hbm = true := by
  unfold State.workReset
  split
  · split
    · exact formed
    · split
      · rw [setReset_hbm]
        exact resetStart_wf formed ..
      · exact formed
  · exact formed

theorem workOf_wf (t : Task) (left : Nat) : Memory.wf (s.workOf t left).1.stg.vol.hbm = true := by
  unfold State.workOf
  split
  case h_7 | h_8 => exact workReset_wf formed ..
  all_goals simpa using formed

theorem workTask_wf (left id : Nat) : Memory.wf (s.workTask left id).1.stg.vol.hbm = true := by
  unfold State.workTask
  split
  · exact formed
  · split
    · simpa using formed
    · dsimp only
      split
      · simpa using formed
      · exact workOf_wf (by simpa using formed) ..

theorem workTasks_wf : Memory.wf s.workTasks.stg.vol.hbm = true :=
  List.foldlRecOn (motive := fun x : State × Nat => Memory.wf x.1.stg.vol.hbm = true) _ _ formed
    fun _ formed _ _ => workTask_wf formed ..
end

/-! ### Commands (R329, R379, R380, R556-R559) -/

section
variable {s : State} (formed : Memory.wf s.stg.vol.hbm = true) (c : Taken)
include formed

theorem resetAccept_wf (q : QuireRec) (force : Bool) (bound : Nat) (k : TaskKind) :
    Memory.wf (resetAccept c s q force bound k).1.stg.vol.hbm = true := by
  unfold resetAccept
  split
  · exact formed
  · dsimp only
    split
    · rw [setReset_hbm]
      exact resetStart_wf (by simpa using formed) _
    · simpa using formed

theorem hQuireReset_wf : Memory.wf (hQuireReset c s).1.stg.vol.hbm = true := by
  unfold hQuireReset
  split
  · exact formed
  · exact formed
  · exact resetAccept_wf formed ..

theorem hQuireRelease_wf : Memory.wf (hQuireRelease c s).1.stg.vol.hbm = true := by
  unfold hQuireRelease
  split
  · exact formed
  · exact formed
  · exact resetAccept_wf formed ..

theorem hTenantEvict_wf : Memory.wf (hTenantEvict c s).1.stg.vol.hbm = true := by
  unfold hTenantEvict
  split
  · exact formed
  · have ended := endOps_wf formed c.pkt.quire .keyRevoked
    dsimp only
    split
    · simpa using ended
    · exact ended

theorem hCollCancel_wf : Memory.wf (hCollCancel c s).1.stg.vol.hbm = true := by
  unfold hCollCancel
  split
  · exact formed
  · split
    · exact formed
    · split
      · exact formed
      · split
        · exact formed
        · rw [volatileOk_hbm]
          exact failOp_wf formed ..

theorem hTileWrite_wf : Memory.wf (hTileWrite c s).1.stg.vol.hbm = true := by
  unfold hTileWrite
  dsimp only
  split
  · exact formed
  · split
    · exact formed
    · exact formed
    · split
      · exact formed
      · exact hbmWrite_wf _ _ _ _ formed

theorem handlerOf_wf (op : Nat) : Memory.wf (handlerOf op c s).1.stg.vol.hbm = true := by
  unfold handlerOf
  split
  case h_11 => exact hQuireRelease_wf formed c
  case h_12 => exact hQuireReset_wf formed c
  case h_29 => exact hTileWrite_wf formed c
  case h_30 => exact hCollCancel_wf formed c
  case h_33 => exact hTenantEvict_wf formed c
  all_goals simpa using formed

omit c

theorem readAll_wf (l : List (Nat × Pkt)) : Memory.wf (s.readAll l).stg.vol.hbm = true := by
  induction l generalizing s with
  | nil => exact formed
  | cons x l ih =>
    exact ih (read_memory (P := (Memory.wf · = true)) (fun c u formed => handlerOf_wf formed c x.1) (by simpa using formed))

theorem endIntake_wf : Memory.wf s.endIntake.stg.vol.hbm = true := by
  unfold State.endIntake
  exact foldl_state_wf (fun _ _ formed => readAll_wf formed _) _ formed
end

/-! ### The audit and fatal faults (R370, R371, R375) -/

/-- Director memory in canonical form, in the visible and in the staged state. -/
structure State.Formed (s : State) : Prop where
  vis : Memory.wf s.vis.vol.hbm = true
  stg : Memory.wf s.stg.vol.hbm = true

theorem State.Formed.of_core {s t : State} (formed : s.Formed) (core : t.core = s.core) (stg : Memory.wf t.stg.vol.hbm = true) :
    t.Formed := by
  simp only [State.core, Prod.mk.injEq] at core
  obtain ⟨-, -, view, -⟩ := core
  exact ⟨view ▸ formed.vis, stg⟩

theorem State.Formed.of_kept {s t : State} (formed : s.Formed) (core : t.core = s.core) (same : t.stg.vol.hbm = s.stg.vol.hbm) :
    t.Formed := formed.of_core core (same ▸ formed.stg)

section
variable {s : State} (formed : s.Formed)
include formed

/-- A fatal fault discards what is staged (R370). -/
theorem fatal_wf (fn object : Nat) : Memory.wf (s.fatal fn object).stg.vol.hbm = true := by
  unfold State.fatal
  split
  · exact formed.stg
  · simpa using formed.vis

theorem fatalOf_wf (c : FatalCause) : Memory.wf (s.fatalOf c).stg.vol.hbm = true := by
  unfold State.fatalOf
  split
  · exact fatal_wf (formed.of_kept (State_freeNat_kept s) (freeNat_hbm s)) ..
  · exact fatal_wf formed ..

theorem trip_wf : Memory.wf s.trip.stg.vol.hbm = true := by
  unfold State.trip
  split
  · exact formed.stg
  · refine fatalOf_wf ?_ _
    exact ⟨formed.vis, formed.stg⟩

omit formed in
theorem discardVol_wf (stg : Memory.wf s.stg.vol.hbm = true) (q : QuireId) : Memory.wf (s.discardVol q).stg.vol.hbm = true := by
  unfold State.discardVol
  exact leavesFrom_wf (by simpa using stg) ..

theorem quarantine_wf (q : QuireId) (codes : List Nat) : Memory.wf (s.quarantine q codes).stg.vol.hbm = true := by
  unfold State.quarantine
  dsimp only
  rw [foldl_hbm fun _ _ => fault_hbm .., stopAdmission_hbm, markQuarantined_hbm, stopRebinds_hbm]
  refine endOps_wf (discardVol_wf ?_ _) ..
  rw [foldl_hbm fun _ _ => turnReplies_hbm ..]
  simpa using formed.stg

theorem auditQuire_wf (q : QuireId) : Memory.wf (s.auditQuire q).stg.vol.hbm = true := by
  unfold State.auditQuire
  dsimp only
  exact ite_wf formed.stg (quarantine_wf formed ..)

theorem audit_wf : Memory.wf s.audit.stg.vol.hbm = true := by
  unfold State.audit
  split
  · exact fatal_wf formed ..
  · exact fatal_wf formed ..
  · dsimp only
    rw [markRefs_hbm, foldl_hbm fun _ _ => auditPort_hbm ..]
    exact (List.foldlRecOn (motive := State.Formed) _ _ formed fun _ formed _ _ =>
      formed.of_core (State_auditQuire_kept _ _) (auditQuire_wf formed _)).stg
end

/-- A restore starts from memory that lists nothing (R101). -/
theorem rebuild_hbm (s : State) (r : Restored) : (s.rebuild r).stg.vol.hbm = [] := by
  unfold State.rebuild
  dsimp only
  split <;> simp [Vol.init]

theorem restore_hbm (s : State) : s.restore.stg.vol.hbm = [] := by
  simp [State.restore, rebuild_hbm]

end Sys2Proof.Machine
end

section
/-! PROOFS. The family of director memory: its canonical form is an invariant (O53). Every row stages memory in canonical form, and a
boundary shows what is staged. -/

namespace Sys2Proof.Machine

open Laws Kept

/-! ### Every row -/

/-- The outcome's next state stages memory in canonical form where the state before held it in that form. -/
def KeepsForm (s : State) (o : Host.Outcome State Fault Refusal) : Prop :=
  ∀ t, o = .next t → s.Formed → Memory.wf t.stg.vol.hbm = true

namespace KeepsForm

variable {s : State}

theorem of_next {t : State} (formed : s.Formed → Memory.wf t.stg.vol.hbm = true) : KeepsForm s (.next t) :=
  fun _ next => by cases next; exact formed

theorem of_leaves {o : Host.Outcome State Fault Refusal} (leaves : LeavesMemory s o) : KeepsForm s o :=
  fun t next formed => leaves t next ▸ formed.stg

/-- A command whose handler leaves memory alone. -/
theorem of_command {op : Nat} {h : Handler} {p : Pkt} (kept : ∀ c s, (h c s).1.stg.vol.hbm = s.stg.vol.hbm) :
    KeepsForm s (.next (s.present op h p)) := .of_leaves (leavesMemory_next.mpr (present_hbm s op kept p))

/-- A command whose handler writes memory. -/
theorem of_handler {op : Nat} {h : Handler} {p : Pkt}
    (handles : ∀ {s}, Memory.wf s.stg.vol.hbm = true → ∀ c, Memory.wf (h c s).1.stg.vol.hbm = true) :
    KeepsForm s (.next (s.present op h p)) :=
  .of_next fun formed => present_memory (P := (Memory.wf · = true)) (fun c _ formed => handles formed c) formed.stg

end KeepsForm

section
variable (s : State)

theorem execDataPacketRx_keepsForm (d : Nat) (u : Bool) (pkt : List Byte) : KeepsForm s (execDataPacketRx d u pkt s) :=
  .of_next fun formed => dataRx_wf formed.stg ..

theorem boundary_wf {s : State} (formed : s.Formed) : Memory.wf s.boundary.stg.vol.hbm = true := by
  unfold State.boundary
  extract_lets t
  have begun : Memory.wf t.stg.vol.hbm = true := ite_wf (fatalOf_wf formed _) formed.stg
  clear_value t
  exact ite_wf (by simpa using begun) (by simpa using begun)

theorem execTickBoundary_keepsForm : KeepsForm s (execTickBoundary s) := by
  unfold execTickBoundary
  split
  · exact .of_next boundary_wf
  · exact .of_next State.Formed.stg

theorem execWorkPhase_keepsForm : KeepsForm s (execWorkPhase s) := by
  unfold execWorkPhase
  split
  · exact .of_next State.Formed.stg
  · extract_lets t k u v
    have taken (formed : s.Formed) : Memory.wf u.stg.vol.hbm = true := by
      simpa [u, t] using endIntake_wf formed.stg
    clear_value u
    split
    · exact .of_next taken
    · refine .of_next fun formed => ?_
      rw [nextChanges_hbm, moveHouses_hbm]
      refine workTasks_wf ?_
      simpa [v] using resolveClaims_wf (s := u.joinLate) (by simpa using taken formed)

theorem execSealPhase_keepsForm : KeepsForm s (execSealPhase s) := by
  unfold execSealPhase
  split
  · exact .of_next State.Formed.stg
  · extract_lets k t u v w
    refine .of_next fun formed => ?_
    have latched : u.Formed := .of_kept (s := t) ⟨formed.vis, formed.stg⟩ (State_latchRings_kept t) (latchRings_hbm t)
    have audited : Memory.wf v.stg.vol.hbm = true :=
      ite_wf latched.stg (audit_wf (latched.of_kept (State_joinLate_kept u) (joinLate_hbm u)))
    rw [postSeal_hbm]
    exact ite_wf audited (by simpa using sealAll_wf audited)

theorem execReservationExhausted_keepsForm : KeepsForm s (execReservationExhausted s) :=
  .of_next fun formed => ite_wf (fatalOf_wf formed _) formed.stg

theorem execThermalTrip_keepsForm : KeepsForm s (execThermalTrip s) := .of_next trip_wf

theorem execFatalFault_keepsForm (cause : FatalCause) : KeepsForm s (execFatalFault cause s) :=
  .of_next fun formed => ite_wf (trip_wf formed) (fatalOf_wf formed _)

theorem execRotRomDone_keepsForm (romOk fusesOk : Bool) : KeepsForm s (execRotRomDone romOk fusesOk s) := by
  unfold execRotRomDone
  split
  · exact .of_next State.Formed.stg
  · split
    · refine .of_next fun formed => ?_
      rw [follow_hbm]
      exact fatalOf_wf (formed.of_kept (State_haltBoot_kept s 1) (haltBoot_hbm s 1)) _
    · split
      · exact .of_next fun formed => by simpa using formed.stg
      · exact .of_next fun formed => by simpa using formed.stg

theorem execRestoreDone_keepsForm : KeepsForm s (execRestoreDone s) :=
  .of_next fun formed => ite_wf formed.stg (by rw [restore_hbm]; rfl)

theorem execLeafZeroDone_keepsForm : KeepsForm s (execLeafZeroDone s) := by
  unfold execLeafZeroDone
  dsimp only
  split
  · exact .of_next State.Formed.stg
  · refine .of_next fun _ => ?_
    rw [foldl_hbm fun _ _ => latch_hbm ..]
    rfl

theorem execLaunchMatchTimeout_keepsForm (q : QuireId) (tag : Nat) : KeepsForm s (execLaunchMatchTimeout q tag s) := by
  unfold execLaunchMatchTimeout
  split
  · split
    · exact .of_next fun formed => endOp_wf formed.stg ..
    · exact .of_next State.Formed.stg
  · exact .of_next State.Formed.stg

theorem execRetryHorizon_keepsForm (q : QuireId) (tag : Nat) (item : RetryItem) : KeepsForm s (execRetryHorizon q tag item s) := by
  unfold execRetryHorizon
  split
  · split
    · split
      · exact .of_next State.Formed.stg
      · split
        · exact .of_next State.Formed.stg
        · split
          · exact .of_next fun formed => lostChunk_wf formed.stg ..
          · exact .of_next fun formed => by simpa using formed.stg
    · split
      · exact .of_next fun formed => retryFar_wf formed.stg ..
      · split
        · exact .of_next State.Formed.stg
        · split
          · exact .of_next State.Formed.stg
          · split
            · exact .of_next fun formed => by simpa using formed.stg
            · exact .of_next fun formed => by simpa using formed.stg
  · exact .of_next State.Formed.stg

theorem execAlignmentLost_keepsForm : KeepsForm s (execAlignmentLost s) := by
  unfold execAlignmentLost
  split
  · exact .of_next State.Formed.stg
  · extract_lets near t u v
    refine .of_next fun formed => ?_
    have ended : Memory.wf u.stg.vol.hbm = true :=
      foldl_state_wf (fun _ _ formed => failOp_wf formed ..) _ (by simpa [t] using formed.stg)
    clear_value near u
    rw [leads_hbm]
    change Memory.wf v.stg.vol.hbm = true
    unfold v
    split
    · rwa [suspect_hbm]
    · exact ended

theorem execRebindCopyDone_keepsForm (q : QuireId) (u : Bool) : KeepsForm s (execRebindCopyDone q u s) := by
  unfold execRebindCopyDone
  split
  · split
    · dsimp only
      split
      · exact .of_next State.Formed.stg
      · split
        · split
          · exact .of_next fun formed => by simpa using formed.stg
          · exact .of_next fun formed => by simpa using formed.stg
        · refine .of_next fun formed => ?_
          rw [setRebind_hbm]
          exact copyAll_wf _ _ _ _ (zeroLeaves_wf _ _ formed.stg)
    · exact .of_next State.Formed.stg
  · exact .of_next State.Formed.stg

theorem execScrubDone_keepsForm (ls : List Nat) : KeepsForm s (execScrubDone ls s) := by
  unfold execScrubDone
  dsimp only
  split
  · exact .of_next State.Formed.stg
  · refine .of_next fun formed => foldl_state_wf (fun s t formed => ?_) _ (zeroLeaves_wf _ _ formed.stg)
    split
    · refine ite_wf ?_ formed
      rw [endTask_hbm]
      exact zeroGrant_wf formed ..
    · exact formed

theorem execHbmEccError_keepsForm (leaf a : Nat) : KeepsForm s (execHbmEccError leaf a s) := by
  unfold execHbmEccError
  split
  · exact .of_next State.Formed.stg
  · extract_lets t u v
    refine .of_next fun formed => ?_
    have noted : Memory.wf v.stg.vol.hbm = true := ite_wf (by simpa [u, t] using formed.stg) (by simpa [u, t] using formed.stg)
    clear_value v
    split
    · exact noted
    · exact foldl_state_wf (fun _ _ formed => failOp_wf formed ..) _ noted

theorem execWorkItemDone_keepsForm (q : QuireId) (tag item rc : Nat) (o : ItemOutcome) :
    KeepsForm s (execWorkItemDone q tag item rc o s) := by
  unfold execWorkItemDone
  split
  · split
    · exact .of_next State.Formed.stg
    · dsimp only
      split
      · exact .of_next State.Formed.stg
      · split
        · exact .of_next fun formed => failOp_wf formed.stg ..
        · split
          · split
            · refine .of_next fun formed => itemRan_wf _ _ _ ?_
              split
              · exact writeStats_wf (runItem_wf formed.stg ..) ..
              · exact runItem_wf formed.stg ..
            · refine .of_next fun formed => ?_
              rw [sendReady_hbm, chunkPassed_hbm]
              exact itemRan_wf _ _ _ (promoteChunk_wf formed.stg ..)
          · split
            · refine .of_next fun formed => failOp_wf ?_ ..
              rw [opFault_hbm]
              exact ite_wf (ite_wf (by simpa using formed.stg) formed.stg) (by simpa using formed.stg)
            · exact .of_next fun formed => ite_wf (by simpa using formed.stg) formed.stg
  · exact .of_next State.Formed.stg

theorem execControlStart_keepsForm (ledA ledB arcA arcB : BusAnswer) : KeepsForm s (execControlStart ledA ledB arcA arcB s) := by
  unfold execControlStart
  split
  · exact .of_next State.Formed.stg
  · extract_lets s1 s2 heard start a blank lost s3 s4 _ s5 dead s6 _ _ s7 _ s8 s9
    refine .of_next fun formed => ?_
    have view : s5.vis = s.vis := (reserveRun_keepsView s3 start a ledA ledB arcA arcB).view.trans
      (KeepsView.of_core (State_hearArcs_kept s1 arcA arcB)).view
    have opened : s5.Formed := ⟨view ▸ formed.vis, by simpa [s5, s4, s3, s2, s1] using formed.stg⟩
    have halted : Memory.wf s6.stg.vol.hbm = true := ite_wf (fatalOf_wf opened _) opened.stg
    have trial : Memory.wf s8.stg.vol.hbm = true := ite_wf halted halted
    simpa [s9] using trial
end

/-! #### Resets of the whole director (R449, R453) -/

theorem wholeReset_formed (s : State) : s.wholeReset.Formed := ⟨rfl, rfl⟩

theorem execRstNAssert_formed {s t : State} {ns : Nat} (runs : execRstNAssert ns s = .next t) (formed : s.Formed) : t.Formed := by
  unfold execRstNAssert at runs
  cases runs
  split
  · exact formed
  · exact ⟨rfl, rfl⟩

theorem execPwrGoodDeassert_formed {s t : State} {ns : Nat} (runs : execPwrGoodDeassert ns s = .next t) (formed : s.Formed) :
    t.Formed := by
  unfold execPwrGoodDeassert at runs
  split at runs
  · cases runs
    exact ⟨rfl, rfl⟩
  · cases runs
    split
    · exact ⟨rfl, rfl⟩
    · exact ⟨formed.vis, formed.stg⟩

theorem State.Formed.follow {s : State} (formed : s.Formed) : s.follow.Formed :=
  formed.of_kept (State_follow_kept _) (follow_hbm _)

theorem execFwReset_formed {s t : State} (runs : execFwReset s = .next t) (formed : s.Formed) : t.Formed := by
  unfold execFwReset at runs
  split at runs
  · cases runs
    exact formed
  · obtain ⟨vis, stg⟩ := wholeReset_formed s
    dsimp only at runs
    generalize s.wholeReset = w at *
    cases runs
    refine .follow ?_
    exact ⟨vis, stg⟩

/-- Every row stages memory in canonical form; most leave memory alone. -/
theorem exec_keepsForm (i : Instr) (s : State) : KeepsForm s (exec i s) :=
  match i with
  | .identColophon _ => .of_command hIdentColophon_hbm
  | .identAttest _ => .of_command hIdentAttest_hbm
  | .identCaps _ => .of_command hIdentCaps_hbm
  | .posAssign _ => .of_command hPosAssign_hbm
  | .posLock _ => .of_command hPosLock_hbm
  | .discScan _ => .of_command hDiscScan_hbm
  | .discMap _ => .of_command hDiscMap_hbm
  | .discManifest _ => .of_command hDiscManifest_hbm
  | .quireCarve _ => .of_command hQuireCarve_hbm
  | .quireGrow _ => .of_command hQuireGrow_hbm
  | .quireRelease _ => .of_handler hQuireRelease_wf
  | .quireReset _ => .of_handler hQuireReset_wf
  | .quireStatus _ => .of_command hQuireStatus_hbm
  | .routeSolve _ => .of_command hRouteSolve_hbm
  | .routeInstall _ => .of_command hRouteInstall_hbm
  | .boreOpen _ => .of_command hBoreOpen_hbm
  | .boreClose _ => .of_command hBoreClose_hbm
  | .routeDrainHold _ => .of_command hRouteDrain_hbm
  | .routeDrainResume _ => .of_command hRouteDrain_hbm
  | .rebindPlan _ => .of_command hRebindPlan_hbm
  | .rebindCommit _ => .of_command hRebindCommit_hbm
  | .rebindStatus _ => .of_command hRebindStatus_hbm
  | .portConfig _ => .of_command hPortConfig_hbm
  | .shaperSet _ => .of_command hShaperSet_hbm
  | .portCounters _ => .of_command hPortCounters_hbm
  | .tableLoad _ => .of_command hTableLoad_hbm
  | .tableRead _ => .of_command hTableRead_hbm
  | .tableActivate _ => .of_command hTableActivate_hbm
  | .redDefine _ => .of_command hRedDefine_hbm
  | .collLaunch _ => .of_command hCollLaunch_hbm
  | .collStatus _ => .of_command hCollStatus_hbm
  | .tileRead _ => .of_command hTileRead_hbm
  | .tileWrite _ => .of_handler hTileWrite_wf
  | .collCancel _ => .of_handler hCollCancel_wf
  | .tenantOpen _ => .of_command hTenantOpen_hbm
  | .installLinkKey _ => .of_command hKeyInstall_hbm
  | .retirePrevious _ => .of_command hKeyInstall_hbm
  | .addTrustRoot _ => .of_command hKeyInstall_hbm
  | .removeTrustRoot _ => .of_command hKeyInstall_hbm
  | .tenantEvict _ => .of_handler hTenantEvict_wf
  | .memScrub _ => .of_command hMemScrub_hbm
  | .ledgerStatus _ => .of_command hLedgerStatus_hbm
  | .ledgerCheckpoint _ => .of_command hLedgerCheckpoint_hbm
  | .ledgerRead _ => .of_command hLedgerRead_hbm
  | .fwDownload _ => .of_command hFwDownload_hbm
  | .fwVerify _ => .of_command hFwVerify_hbm
  | .fwActivate _ => .of_command hFwActivate_hbm
  | .fwConfirm _ => .of_command hFwConfirm_hbm
  | .fwReject _ => .of_command hFwConfirm_hbm
  | .fwStatus _ => .of_command hFwStatus_hbm
  | .telemSubscribe _ => .of_command hTelemSubscribe_hbm
  | .telemSnapshot _ => .of_command hTelemSnapshot_hbm
  | .powerStatus _ => .of_command hPowerStatus_hbm
  | .powerBudget _ => .of_command hPowerBudget_hbm
  | .chanOpen _ => .of_command hChanOpen_hbm
  | .chanClose _ => .of_command hChanClose_hbm
  | .chanNop _ => .of_command hChanNop_hbm
  | .chanFence _ => .of_command hChanFence_hbm
  | .diagLoop _ => .of_command hDiagLoop_hbm
  | .diagLaneMeasure _ => .of_command hDiagLane_hbm
  | .diagLaneResetReference _ => .of_command hDiagLane_hbm
  | .cmdTailWrite ch data tail => .of_leaves (execCmdTailWrite_leavesMemory ch data tail s)
  | .rplHeadWrite ch head => .of_leaves (execRplHeadWrite_leavesMemory ch head s)
  | .irqStatClear w => .of_leaves (execIrqStatClear_leavesMemory w s)
  | .irqMaskWrite w => .of_leaves (execIrqMaskWrite_leavesMemory w s)
  | .rimodeWrite w => .of_leaves (execRimodeWrite_leavesMemory w s)
  | .mbxDoorbellWrite w => .of_leaves (execMbxDoorbellWrite_leavesMemory w s)
  | .registerWriteIgnored offset size w => .of_leaves (execRegisterWriteIgnored_leavesMemory offset size w s)
  | .arpRequestRx port target sender mac => .of_leaves (execArpRequestRx_leavesMemory port target sender mac s)
  | .arpReplyRx port sender mac => .of_leaves (execArpReplyRx_leavesMemory port sender mac s)
  | .ethFrameDiscard port why bytes => .of_leaves (execEthFrameDiscard_leavesMemory port why bytes s)
  | .ethLinkUp port => .of_leaves (execEthLinkUp_leavesMemory port s)
  | .arpEntryExpiry port addr => .of_leaves (execArpEntryExpiry_leavesMemory port addr s)
  | .identReqTimer => .of_leaves (execIdentReqTimer_leavesMemory s)
  | .identRx src msg => .of_leaves (execIdentRx_leavesMemory src msg s)
  | .setAckRx src msg => .of_leaves (execSetAckRx_leavesMemory src msg s)
  | .setDoneRx src msg => .of_leaves (execSetDoneRx_leavesMemory src msg s)
  | .mapRx src msg => .of_leaves (execMapRx_leavesMemory src msg s)
  | .alarmRx src msg => .of_leaves (execAlarmRx_leavesMemory src msg s)
  | .setDeadlineExpiry unit => .of_leaves (execSetDeadlineExpiry_leavesMemory unit s)
  | .dataPacketRx port uncorrectable pkt => execDataPacketRx_keepsForm s port uncorrectable pkt
  | .linkBeaconRx port uncorrectable pkt => .of_leaves (execLinkBeaconRx_leavesMemory port uncorrectable pkt s)
  | .tickBeaconRx port uncorrectable phaseError pkt => .of_leaves (execTickBeaconRx_leavesMemory port uncorrectable phaseError pkt s)
  | .peerReportRx port uncorrectable pkt => .of_leaves (execPeerReportRx_leavesMemory port uncorrectable pkt s)
  | .coordinateConfirmationRx port uncorrectable pkt => .of_leaves (execCoordinateConfirmationRx_leavesMemory port uncorrectable pkt s)
  | .tableWriteAckRx port uncorrectable pkt => .of_leaves (execTableWriteAckRx_leavesMemory port uncorrectable pkt s)
  | .legAckRx port uncorrectable pkt => .of_leaves (execLegAckRx_leavesMemory port uncorrectable pkt s)
  | .completionReportRx port uncorrectable pkt => .of_leaves (execCompletionReportRx_leavesMemory port uncorrectable pkt s)
  | .counterReportRx port uncorrectable pkt => .of_leaves (execCounterReportRx_leavesMemory port uncorrectable pkt s)
  | .retrainRequestRx port uncorrectable pkt => .of_leaves (execRetrainRequestRx_leavesMemory port uncorrectable pkt s)
  | .libraryClaimRx port claim => .of_leaves (execLibraryClaimRx_leavesMemory port claim s)
  | .quireAnnouncementRx port ann => .of_leaves (execQuireAnnouncementRx_leavesMemory port ann s)
  | .spdmMessageRx peer msg done good => .of_leaves (execSpdmMessageRx_leavesMemory peer msg done good s)
  | .keyMessageAnswerRx peer msg => .of_leaves (execKeyMessageAnswerRx_leavesMemory peer msg s)
  | .tickBoundary => execTickBoundary_keepsForm s
  | .workPhase => execWorkPhase_keepsForm s
  | .stepOverrun task => .of_leaves (execStepOverrun_leavesMemory task s)
  | .dronePhase sample => .of_leaves (execDronePhase_leavesMemory sample s)
  | .sealPhase => execSealPhase_keepsForm s
  | .drainTimeout q => .of_leaves (execDrainTimeout_leavesMemory q s)
  | .tickReservationRaise => .of_leaves (execTickReservationRaise_leavesMemory s)
  | .reservationExhausted => execReservationExhausted_keepsForm s
  | .creditRefill => .of_leaves (execCreditRefill_leavesMemory s)
  | .journalWriteStart => .of_leaves (execJournalWriteStart_leavesMemory s)
  | .folioWriteDone matched => .of_leaves (execFolioWriteDone_leavesMemory matched s)
  | .checkpointTimer => .of_leaves (execCheckpointTimer_leavesMemory s)
  | .checkpointStart => .of_leaves (execCheckpointStart_leavesMemory s)
  | .checkpointCopyDone dev verified => .of_leaves (execCheckpointCopyDone_leavesMemory dev verified s)
  | .laneMarginSample sample => .of_leaves (execLaneMarginSample_leavesMemory sample s)
  | .rstNAssert _ => fun _ runs formed => (execRstNAssert_formed runs formed).stg
  | .pwrGoodDeassert _ => fun _ runs formed => (execPwrGoodDeassert_formed runs formed).stg
  | .perstNAssert ns => .of_leaves (execPerstNAssert_leavesMemory ns s)
  | .bringUpStart straps => .of_leaves (execBringUpStart_leavesMemory straps s)
  | .rotRomDone romOk fusesOk => execRotRomDone_keepsForm s romOk fusesOk
  | .fwVerifyStageDone anchorWritable => .of_leaves (execFwVerifyStageDone_leavesMemory anchorWritable s)
  | .controlStart ledA ledB arcA arcB => execControlStart_keepsForm s ledA ledB arcA arcB
  | .clusterWaveStart w => .of_leaves (execClusterWaveStart_leavesMemory w s)
  | .clusterSelftestDone rc passed => .of_leaves (execClusterSelftestDone_leavesMemory rc passed s)
  | .restoreDone => execRestoreDone_keepsForm s
  | .hbmTrainDone trained ids => .of_leaves (execHbmTrainDone_leavesMemory trained ids s)
  | .memTestDone findings => .of_leaves (execMemTestDone_leavesMemory findings s)
  | .leafZeroDone => execLeafZeroDone_keepsForm s
  | .laneTrainDone => .of_leaves (execLaneTrainDone_leavesMemory s)
  | .discoveryComplete => .of_leaves (execDiscoveryComplete_leavesMemory s)
  | .entropyReady ms => .of_leaves (execEntropyReady_leavesMemory ms s)
  | .entropyHealthFail => .of_leaves (execEntropyHealthFail_leavesMemory s)
  | .drbgReseed => .of_leaves (execDrbgReseed_leavesMemory s)
  | .scanRoundEnd plane => .of_leaves (execScanRoundEnd_leavesMemory plane s)
  | .uplinkSilent c uplink => .of_leaves (execUplinkSilent_leavesMemory c uplink s)
  | .boardMissing g => .of_leaves (execBoardMissing_leavesMemory g s)
  | .houseBoreMove g => .of_leaves (execHouseBoreMove_leavesMemory g s)
  | .portLinkEvent port event => .of_leaves (execPortLinkEvent_leavesMemory port event s)
  | .lstTimerExpiry port => .of_leaves (execLstTimerExpiry_leavesMemory port s)
  | .elsAlarm fau => .of_leaves (execElsAlarm_leavesMemory fau s)
  | .pathMaskClear q g h path => .of_leaves (execPathMaskClear_leavesMemory q g h path s)
  | .scheduledDiagLane e => .of_leaves (execScheduledDiagLane_leavesMemory e s)
  | .diagLaneEnd e lanes uncorrectable reportsMissing => .of_leaves (execDiagLaneEnd_leavesMemory e lanes uncorrectable reportsMissing s)
  | .joinStep leader leaderIndex delta => .of_leaves (execJoinStep_leavesMemory leader leaderIndex delta s)
  | .indexJump => .of_leaves (execIndexJump_leavesMemory s)
  | .periodSwitch => .of_leaves (execPeriodSwitch_leavesMemory s)
  | .leaderTimeout => .of_leaves (execLeaderTimeout_leavesMemory s)
  | .alignmentLost => execAlignmentLost_keepsForm s
  | .fsyncEdge error => .of_leaves (execFsyncEdge_leavesMemory error s)
  | .claimTimeout port => .of_leaves (execClaimTimeout_leavesMemory port s)
  | .shadowWriteRetry c q => .of_leaves (execShadowWriteRetry_leavesMemory c q s)
  | .multicastHorizon q seq => .of_leaves (execMulticastHorizon_leavesMemory q seq s)
  | .retryHorizon q tag item => execRetryHorizon_keepsForm s q tag item
  | .tagCloseEnd q tag => .of_leaves (execTagCloseEnd_leavesMemory q tag s)
  | .launchMatchTimeout q tag => execLaunchMatchTimeout_keepsForm s q tag
  | .workItemDone q tag item rc outcome => execWorkItemDone_keepsForm s q tag item rc outcome
  | .tileZeroDone q => .of_leaves (execTileZeroDone_leavesMemory q s)
  | .rebindCopyDone q uncorrectable => execRebindCopyDone_keepsForm s q uncorrectable
  | .rebindVerifyTimeout q => .of_leaves (execRebindVerifyTimeout_leavesMemory q s)
  | .resetConfirmTimeout q => .of_leaves (execResetConfirmTimeout_leavesMemory q s)
  | .evictBound q => .of_leaves (execEvictBound_leavesMemory q s)
  | .scrubDone leaves => execScrubDone_keepsForm s leaves
  | .patrolScrub corrected => .of_leaves (execPatrolScrub_leavesMemory corrected s)
  | .hbmEccError leaf addr => execHbmEccError_keepsForm s leaf addr
  | .keyMessageTimeout peer q => .of_leaves (execKeyMessageTimeout_leavesMemory peer q s)
  | .houseSessionStart peer => .of_leaves (execHouseSessionStart_leavesMemory peer s)
  | .houseSessionRetry peer => .of_leaves (execHouseSessionRetry_leavesMemory peer s)
  | .pwrWarnRecognised => .of_leaves (execPwrWarnRecognised_leavesMemory s)
  | .pwrWarnPulseIgnored => .of_leaves (execPwrWarnPulseIgnored_leavesMemory s)
  | .pwrWarnDeassert => .of_leaves (execPwrWarnDeassert_leavesMemory s)
  | .resumption => .of_leaves (execResumption_leavesMemory s)
  | .pmbusPoll readings => .of_leaves (execPmbusPoll_leavesMemory readings s)
  | .pmbusReprobe unit answered => .of_leaves (execPmbusReprobe_leavesMemory unit answered s)
  | .pmbAlert => .of_leaves (execPmbAlert_leavesMemory s)
  | .clusterClockStep => .of_leaves (execClusterClockStep_leavesMemory s)
  | .budgetCeilingRise => .of_leaves (execBudgetCeilingRise_leavesMemory s)
  | .thermalCeilingRise => .of_leaves (execThermalCeilingRise_leavesMemory s)
  | .thermalTrip => execThermalTrip_keepsForm s
  | .fatalFault cause => execFatalFault_keepsForm s cause
  | .confirmWindowExpiry => .of_leaves (execConfirmWindowExpiry_leavesMemory s)
  | .fwReset => fun _ runs formed => (execFwReset_formed runs formed).stg
  | .ringEntry offer => .of_leaves (execRingEntry_leavesMemory offer s)
  | .ringEjectArrival fabric frag => .of_leaves (execRingEjectArrival_leavesMemory fabric frag s)
  | .portSend port => .of_leaves (execPortSend_leavesMemory port s)
  | .uncorrectableCodeword port packets => .of_leaves (execUncorrectableCodeword_leavesMemory port packets s)
  | .firstStartDisagreement port => .of_leaves (execFirstStartDisagreement_leavesMemory port s)
  | .slotEccError ring dir stop pkt double => .of_leaves (execSlotEccError_leavesMemory ring dir stop pkt double s)
  | .degradedModeLeft => .of_leaves (execDegradedModeLeft_leavesMemory s)
  | .imageCheckDone => .of_leaves (execImageCheckDone_leavesMemory s)
  | .archiveWriteDone dev verified => .of_leaves (execArchiveWriteDone_leavesMemory dev verified s)
  | .otpBurnDone programmed => .of_leaves (execOtpBurnDone_leavesMemory programmed s)
  | .spdmResponse rsp failed sessionUp sessionDown peerCert =>
    .of_leaves (execSpdmResponse_leavesMemory rsp failed sessionUp sessionDown peerCert s)
  | .perstNDeassert => .of_leaves (execPerstNDeassert_leavesMemory s)
  | .configurationRequest r => .of_leaves (execConfigurationRequest_leavesMemory r s)
  | .jtagInstruction x => .of_leaves (execJtagInstruction_leavesMemory x s)

/-! #### What is visible -/

/-- A boundary shows what is staged, the memory with it (R57, R63). -/
theorem boundary_vis_wf {s : State} (formed : s.Formed) : Memory.wf s.boundary.vis.vol.hbm = true := by
  unfold State.boundary
  extract_lets t
  have begun : Memory.wf t.stg.vol.hbm = true := ite_wf (fatalOf_wf formed _) formed.stg
  clear_value t
  have shows (u : State) (view : u.vis.still = t.stg.still) : Memory.wf u.vis.vol.hbm = true := by
    have memory : u.vis.still.vol.hbm = t.stg.still.vol.hbm := congrArg (·.vol.hbm) view
    exact memory ▸ begun
  split
  · exact shows _ (congrArg (·.2.2.1) (haltedBoundary_calm t))
  · exact shows _ (congrArg (·.2.2.1) (liveBoundary_calm t))

theorem exec_vis_wf {i : Instr} {s t : State} (runs : exec i s = .next t) (formed : s.Formed) : Memory.wf t.vis.vol.hbm = true := by
  by_cases resets : isReset i = true
  · unfold isReset at resets
    split at resets
    · exact (execRstNAssert_formed runs formed).vis
    · exact (execPwrGoodDeassert_formed runs formed).vis
    · exact (execFwReset_formed runs formed).vis
    · cases resets
  · by_cases turns : i = .tickBoundary
    · subst turns
      simp only [exec, execTickBoundary] at runs
      split at runs
      · cases runs
        exact boundary_vis_wf formed
      · cases runs
        exact formed.vis
    · rw [(exec_keeps runs).visible turns (by simpa using resets)]
      exact formed.vis

/-- Settles O53: the table of what every row stages, and what a step shows. -/
theorem memoryKeepsItsForm : Obligations.MemoryKeepsItsForm := by
  unfold Obligations.MemoryKeepsItsForm
  intro s t vis stg runs
  unfold step at runs
  split at runs
  · cases runs
    exact ⟨vis, stg⟩
  · exact ⟨exec_vis_wf runs ⟨vis, stg⟩, exec_keepsForm _ _ _ runs ⟨vis, stg⟩⟩

end Sys2Proof.Machine
end

section
/-! PROOFS. The family of director memory: what tile.read and tile.write do (O19, O20), and the rows of the scrubber, of memory
errors and of tile stores (O52). -/

namespace Sys2Proof.Machine

open Laws Kept

/-! ### tile.read and tile.write (R262, R556) -/

section
variable {c : Taken} {s : State} (reached : addrBad (c.u64 0) = false)
include reached

theorem hTileRead_reads {q v : QuireRec} (least : 1 ≤ c.u32 8) (most : c.u32 8 ≤ 4072) (still : s.rebinding c.pkt.quire = false)
    (owns : s.val.quire c.pkt.quire = some q) (shown : s.vis.led.quire c.pkt.quire = some v)
    (inside : inGrant q.leaves.length (c.u64 0) (c.u32 8) = true) :
    hTileRead c s = (s, .reply .ok (hbmRead s.vis.vol.hbm v.leaves (c.u64 0) (c.u32 8))) := by
  simp [hTileRead, reached, least.not_gt, most.not_gt, still, owns, shown, inside]

theorem hTileWrite_writes {q : QuireRec} (admits : quireGate s c.pkt.quire = none) (owns : s.val.quire c.pkt.quire = some q)
    (inside : inGrant q.leaves.length (c.u64 0) (c.pkt.params.length - 8) = true)
    (idle : ((s.stg.vol.liveOps q.id).any fun o => o.ranges.any fun x =>
      overlap x.1 x.2 (c.u64 0) (c.pkt.params.length - 8)) = false) :
    hTileWrite c s = volatileOk c (s.updVol fun v => { v with hbm := hbmWrite v.hbm q.leaves (c.u64 0) (c.pkt.params.drop 8) }) [] := by
  simp only [hTileWrite, reached, admits, owns, inside, idle, Bool.not_true, Bool.or_false, Bool.false_eq_true, if_false]

end

/-- Settles O19: the packet is taken in, and its handler passes its checks. -/
theorem tileCommandsRun : Obligations.TileCommandsRun := by
  refine ⟨fun s p q v taken reached least most still owns shown inside => ?_,
    fun s p q taken reached admits owns inside idle => ?_⟩
  · exact congrArg _ (present_replies taken (hTileRead_reads (c := s.takenOf 0x0704 p) reached least most still owns shown inside))
  · exact congrArg _ (present_accepts taken (hTileWrite_writes (c := s.takenOf 0x0705 p) reached admits owns inside idle))


/-! ### What a write puts into its range (R262) -/

/-- Distinct leaves hold distinct addresses of a grant. -/
theorem hbmAddr_inj {ls : List Nat} (distinct : ls.Nodup) {a b : Nat} (ha : a < ls.length * 2 ^ 30) (hb : b < ls.length * 2 ^ 30)
    (same : hbmAddr ls a = hbmAddr ls b) : a = b := by
  have ia : a / 2 ^ 30 < ls.length := Nat.div_lt_of_lt_mul (by omega)
  have ib : b / 2 ^ 30 < ls.length := Nat.div_lt_of_lt_mul (by omega)
  unfold hbmAddr at same
  rw [List.getD_eq_getElem _ _ ia, List.getD_eq_getElem _ _ ib] at same
  have leaf : a / 2 ^ 30 = b / 2 ^ 30 := (distinct.getElem_inj_iff (hi := ia) (hj := ib)).mp (by omega)
  omega

/-- A write into a grant puts each byte at its address. -/
theorem hbmWrite_self {ls : List Nat} (distinct : ls.Nodup) {bs : List Byte} {m : List Host.Cell} {a : Nat}
    (formed : Memory.wf m = true) (inside : a + bs.length ≤ ls.length * 2 ^ 30) {i : Nat} (hi : i < bs.length) :
    Memory.read (hbmWrite m ls a bs) (hbmAddr ls (a + i)) = bs[i] := by
  induction bs generalizing m a i with
  | nil => simp at hi
  | cons b bs ih =>
    simp only [List.length_cons] at inside hi
    unfold hbmWrite
    cases i with
    | zero =>
      rw [hbmWrite_other _ _ _ _ _ fun j hj same => ?_]
      · exact read_write_self _ _ _ formed
      · have := hbmAddr_inj distinct (by omega) (by omega) same
        omega
    | succ i =>
      rw [show a + (i + 1) = a + 1 + i by omega]
      exact ih (write_wf _ _ _ formed) (by omega) (by omega)

@[simp] theorem accepted_stg (s : State) (op : Nat) (p : Pkt) : (s.accepted op p).stg = s.stg := by
  obtain ⟨_, _, _, same⟩ := accepted_near s op p
  rw [same]

/-- Settles O20: the command is the write of O19, which leaves other addresses alone and puts the bytes at its own. -/
theorem tileWritesStayInTheirRange : Obligations.TileWritesStayInTheirRange := by
  intro s p q t taken reached admits owns inside idle distinct formed runs
  have next := tileCommandsRun.2 s p q taken reached admits owns inside idle
  have view : t.vis = s.vis := (exec_keeps runs).visible (by simp) rfl
  have memory : t.stg.vol.hbm = hbmWrite s.stg.vol.hbm q.leaves (field p.params 0 8) (p.params.drop 8) := by
    cases runs.symm.trans next
    simp [answeredTwice]
  have fits : field p.params 0 8 + (p.params.drop 8).length ≤ q.leaves.length * 2 ^ 30 := by
    simpa [inGrant] using inside
  rw [memory]
  refine ⟨fun a outside => hbmWrite_other _ _ _ _ _ (by simpa using outside), fun i hi => ?_, view⟩
  rw [hbmWrite_self distinct formed fits (by simpa using hi), List.getElem_drop, List.getD_eq_getElem]

/-! ### The scrubber, memory errors and tile stores (R263, R367, R412-R416) -/

theorem scrubCost_idle {s : State} (idle : s.tasks = []) (ls all : List Nat) :
    s.scrubCost ls all = ls.eraseDups.length * 2 ^ 30 := by
  simp [State.scrubCost, idle, total]

/-- The leaves `now` that await a scrub, where no command waits for them and the scrubber has had its time (R412, R415). -/
theorem execScrubDone_idle {s : State} {ls now : List Nat} (idle : s.tasks = []) (waiting : now = ls.filter s.stg.vol.dirty.contains)
    (time : now.eraseDups.length * 2 ^ 30 ≤ s.stg.vol.scrubbed) :
    execScrubDone ls s = .next (s.updVol fun v => { v with
      hbm := zeroLeaves v.hbm now, dirty := v.dirty.filter fun x => !now.contains x
      scrubbed := v.scrubbed - now.eraseDups.length * 2 ^ 30 }) := by
  subst waiting
  unfold execScrubDone
  dsimp only
  rw [scrubCost_idle idle, if_neg time.not_gt, updVol_tasks, idle]
  rfl

/-- A leaf is retired by its own record, or was before (R263). -/
theorem retireLeaf_retired {s : State} (works : s.ledgerFaulted = false) (leaf : Nat) :
    leaf ∈ (if s.val.retiredLeaf.contains leaf then s else s.stageOwn [.retireLeaf leaf]).val.retiredLeaf := by
  split
  · next retired => simpa using retired
  · rw [val_stageOwn works]
    exact mem_insertSorted_self ..

theorem lasting_stg (s : State) (fn object : Nat) : (s.lasting fn object).stg = s.stg := by
  obtain ⟨_, _, _, same⟩ := lasting_frame s fn object
  rw [same]

theorem stageHist_ledgerFaulted (s : State) (h : HistRec) (folios : Nat) :
    (s.stageHist h folios).ledgerFaulted = s.ledgerFaulted := by
  unfold State.stageHist
  split
  · rfl
  · split <;> rfl

/-- An entry of a lasting fault fails no device of the journal. -/
theorem lasting_ledgerFaulted (s : State) (fn object : Nat) : (s.lasting fn object).ledgerFaulted = s.ledgerFaulted :=
  stageHist_ledgerFaulted ..

/-- An uncorrectable error of a leaf that no quire holds (R263, R367, R416). -/
theorem execHbmEccError_unowned {s : State} {leaf a : Nat} (real : leaf < 384) (inside : a < 2 ^ 30) (works : s.ledgerFaulted = false)
    (unowned : s.stg.led.quires.find? (·.leaves.contains leaf) = none) :
    ∃ t : State, execHbmEccError leaf a s = .next t ∧ leaf ∈ t.val.retiredLeaf ∧ (leaf * 2 ^ 30 + a) ∈ t.stg.vol.bad ∧
      t.stg.vol.hbm = s.stg.vol.hbm := by
  unfold execHbmEccError
  rw [if_neg (by simpa [real] using inside)]
  extract_lets f b r
  have bworks : b.ledgerFaulted = false := (lasting_ledgerFaulted s 0x05 leaf).trans works
  have bstg : b.stg = { s.stg with vol := { s.stg.vol with bad := insertSorted (leaf * 2 ^ 30 + a) s.stg.vol.bad } } := by
    unfold b f
    rw [updVol_stg, lasting_stg]
  have retired : leaf ∈ r.val.retiredLeaf := retireLeaf_retired bworks leaf
  have rstg : r.stg = b.stg := by
    unfold r
    split
    · rfl
    · unfold State.stageOwn
      rw [bworks]
      rfl
  clear_value b r
  rw [rstg, bstg]
  refine ⟨r, ?_, retired, ?_, ?_⟩
  · dsimp only
    rw [unowned]
  · rw [rstg, bstg]
    exact mem_insertSorted_self ..
  · rw [rstg, bstg]

/-- A cluster of a quire whose tile store has been zeroed for its time (R263). -/
theorem execTileZeroDone_ready {s : State} {q : QuireId} {r : QuireRec} {i z : Nat} (owns : s.val.quire q = some r)
    (given : i ∈ r.clusters) (real : i < s.clusters.length) (zeroing : (s.clusters.getD i Cluster.init).zeroing = some z)
    (past : s.zeroOver z = true) :
    ∃ t : State, execTileZeroDone q s = .next t ∧ (t.clusters.getD i Cluster.init).zeroing = none ∧
      t = { s with clusters := t.clusters } := by
  refine ⟨_, rfl, ?_, rfl⟩
  rw [List.getD_eq_getElem _ _ real] at zeroing
  simp [real, zeroing, past, owns, given]

/-- Settles O52: each row from its own lemma, the visible state from the frame of every step. -/
theorem memoryRowsRun : Obligations.MemoryRowsRun := by
  unfold Obligations.MemoryRowsRun
  refine ⟨fun s ls idle time => execScrubDone_idle idle rfl time, fun _ _ => rfl, fun s leaf a real inside works unowned => ?_,
    fun s q r i z => execTileZeroDone_ready⟩
  obtain ⟨t, runs, retired, bad, memory⟩ := execHbmEccError_unowned real inside works unowned
  exact ⟨t, runs, retired, bad, memory, (exec_keeps (i := .hbmEccError leaf a) runs).visible (by simp) rfl⟩

end Sys2Proof.Machine
end

section
/-! PROOFS. The family of collectives: red.define, coll.launch, coll.status and coll.cancel (O18). -/

namespace Sys2Proof.Machine

/-! ### Collective commands (R328, R331, R552-R555, R557) -/

/-- The state that keeps a launched operation, in the place of an ended one of its tag (R307). -/
def State.withOp (s : State) (o : Op) : State :=
  s.updVol fun v => { v with ops := v.ops.filter (fun x => !(x.quire = o.quire && x.tag = o.tag)) ++ [o] }

section
variable {c : Taken} {s : State} {o : Op}

/-- A descriptor that nothing refuses is kept under its number. -/
theorem hRedDefine_keeps (ok : redDefineRefusal c s = none) :
    hRedDefine c s = volatileOk c (s.updQuireVol c.pkt.quire fun v =>
      { v with descs := v.descs.filter (·.1 ≠ c.u16 0) ++ [(c.u16 0, parseDesc (c.pkt.params.drop 16))] }) [] := by
  simp only [hRedDefine, ok]

section
variable {q : QuireRec} (judged : judgeLaunch c s = .ok o) (quire : s.val.quire c.pkt.quire = some q)
include judged quire

/-- A launch within the volume runs as a task. -/
theorem hCollLaunch_alone (alone : o.library = false) : hCollLaunch c s = multi c (s.withOp o) (.launch o.tag) := by
  simp only [hCollLaunch, judged, quire, alone]
  rfl

/-- A library-wide launch runs as a task, and its claim goes to the set's other volumes. -/
theorem hCollLaunch_claims (wide : o.library = true) : hCollLaunch c s =
    (((s.withOp o).startTask (some c.ident) c.pkt.quire (.launch o.tag)).queueClaim ((s.withOp o).otherVolumes o)
      ((s.withOp o).launchClaim q o), .accepted) := by
  simp only [hCollLaunch, judged, quire, wide]
  rfl

end

theorem hCollStatus_reports (shown : s.vis.vol.op c.pkt.quire (c.u32 0) = some o) (held : o.holdsTag = true) :
    hCollStatus c s = (s, .reply (if o.retrying then .retryPending else .ok) o.status) := by
  simp only [hCollStatus, shown, held, if_true]

theorem hCollCancel_cancels (known : s.stg.vol.op c.pkt.quire (c.u32 0) = some o) (held : o.holdsTag = true)
    (free : quireGate s c.pkt.quire = none) (live : o.state ≠ .ended) :
    hCollCancel c s = volatileOk c (s.failOp o .cancelled) [] := by
  simp [hCollCancel, known, held, free, live]

end

/-- Settles O18, clause by clause, each from what its handler answers. -/
theorem collectiveCommandsRun : Obligations.CollectiveCommandsRun := by
  unfold Obligations.CollectiveCommandsRun
  refine ⟨?define, ?launch, ?status, ?cancel⟩
  case define =>
    intro s p taken ok
    exact congrArg Host.Outcome.next (present_accepts taken (hRedDefine_keeps (c := s.takenOf 0x0701 p) ok))
  case launch =>
    intro s p o q taken judged quire a b
    cases reach : o.library with
    | false =>
      exact congrArg Host.Outcome.next (present_accepts taken
        (hCollLaunch_alone (c := s.takenOf 0x0702 p) judged quire reach))
    | true =>
      exact congrArg Host.Outcome.next (present_accepts taken
        (hCollLaunch_claims (c := s.takenOf 0x0702 p) judged quire reach))
  case status =>
    intro s p o taken shown held
    exact congrArg Host.Outcome.next (present_replies taken
      (hCollStatus_reports (c := s.takenOf 0x0703 p) shown held))
  case cancel =>
    intro s p o taken known held free live
    exact congrArg Host.Outcome.next (present_accepts taken
      (hCollCancel_cancels (c := s.takenOf 0x0706 p) known held free live))

end Sys2Proof.Machine
end

section
/-! PROOFS. The family of rebinds: a drain that times out in step 2 (O15), and the rows that end copies, checks of bores, resets,
evictions and table writes (O51). -/

namespace Sys2Proof.Machine

open Laws Kept

/-! ### A drain timeout in step 2 (R195, R351) -/

theorem Near.stg {s t : State} (h : Near s t) : t.stg = s.stg := by
  obtain ⟨_, _, _, rfl⟩ := h
  rfl

theorem Near.vis {s t : State} (h : Near s t) : t.vis = s.vis := by
  obtain ⟨_, _, _, rfl⟩ := h
  rfl

theorem Near.tasks {s t : State} (h : Near s t) : t.tasks = s.tasks := by
  obtain ⟨_, _, _, rfl⟩ := h
  rfl

theorem Near.ledger {s t : State} (h : Near s t) : t.ledger = s.ledger := by
  obtain ⟨_, _, _, rfl⟩ := h
  rfl

/-- A task that ends in failure leaves the tasks; its reply touches no grant, no journal and nothing visible (R135). -/
theorem failTask_near (s : State) (t : Task) (st : Status) (res : List Byte) : Near (s.dropTask t.id) (s.failTask t st res) :=
  near_failCmd (s.dropTask t.id) t.ident st res t.retries

theorem dropTask_only {s : State} {t : Task} (only : s.tasks = [t]) : (s.dropTask t.id).tasks = [] := by
  simp [State.dropTask, only]

theorem announceQuire_ctlOnly (s : State) (q : QuireId) (reset : Bool) (eff : Tick) : CtlOnly s (s.announceQuire q reset eff) :=
  sendCtls_ctlOnly s _ _ _

/-- The staged volatile part of a quire after a change of it. -/
theorem updQuireVol_quire_self (s : State) (q : QuireId) {f : QuireVol → QuireVol} (kept : ∀ w, (f w).id = w.id) :
    (s.updQuireVol q f).stg.vol.quire q = f (s.stg.vol.quire q) :=
  updQuire_quire_self s.stg.vol q kept

theorem rebindOver_state (s : State) (q : QuireId) (st : Status) (at_ : Tick) :
    ((s.rebindOver q st at_).stg.vol.quire q).rebind.state = 0 := by
  unfold State.rebindOver
  rw [updQuireVol_quire_self]
  exact fun _ => rfl

/-- What resuming a quire's admission keeps, and that it admits the quire where nothing else holds it (R195). -/
structure Resumed (q : QuireId) (s t : State) : Prop where
  tasks : t.tasks = s.tasks
  led : t.stg.led = s.stg.led
  vis : t.vis = s.vis
  ledger : t.ledger = s.ledger
  rebind : (t.stg.vol.quire q).rebind = (s.stg.vol.quire q).rebind
  admits : t.mayAdmit q = true → (t.stg.vol.quire q).admitted = true

theorem resumeAdmission_resumed (s : State) (q : QuireId) (eff : Tick) : Resumed q s (s.resumeAdmission q eff) := by
  unfold State.resumeAdmission
  split
  · have admitted := updQuireVol_quire_self s q (f := fun v => { v with admitted := true }) fun _ => rfl
    obtain ⟨n, ps, told⟩ := announceQuire_ctlOnly (s.updQuireVol q fun v => { v with admitted := true }) q false eff
    rw [told]
    exact ⟨rfl, rfl, rfl, rfl, (congrArg QuireVol.rebind admitted :), fun _ => (congrArg QuireVol.admitted admitted :)⟩
  · next barred => exact ⟨rfl, rfl, rfl, rfl, rfl, fun may => absurd may barred⟩

/-- The only task is a rebind whose drain has run to its bound: it ends before anything is recorded (R351). -/
theorem execDrainTimeout_rebind {s : State} {t : Task} {r : RebindRun} (only : s.tasks = [t]) (kind : t.kind = .rebind r)
    (draining : r.step = .draining) (past : r.drain.expired = true) :
    exec (.drainTimeout t.quire) s = .next (s.rebindAbort t .drainTimeout) := by
  simp [exec, execDrainTimeout, only, State.drainOut, kind, draining, past]

/-- A rebind that ends before its begin group seals records nothing (R351, R355). -/
theorem rebindAbort_recordsNothing {s : State} {t : Task} (only : s.tasks = [t]) (st : Status) :
    let u := s.rebindAbort t st
    u.tasks = [] ∧ u.stg.led = s.stg.led ∧ u.vis = s.vis ∧ u.ledger = s.ledger ∧
      (u.stg.vol.quire t.quire).rebind.state = 0 ∧ (u.mayAdmit t.quire = true → (u.stg.vol.quire t.quire).admitted = true) := by
  have ended := failTask_near s t st []
  have resumed := resumeAdmission_resumed ((s.failTask t st []).rebindOver t.quire st s.now) t.quire (s.now + 1)
  exact ⟨resumed.tasks.trans (ended.tasks.trans (dropTask_only only)), resumed.led.trans (congrArg (·.led) ended.stg),
    resumed.vis.trans ended.vis, resumed.ledger.trans ended.ledger, (congrArg (·.state) resumed.rebind).trans (rebindOver_state ..),
    resumed.admits⟩

/-- Settles O15: the row aborts the rebind, and an abort records nothing. -/
theorem rebindDrainTimeoutRecordsNothing : Obligations.RebindDrainTimeoutRecordsNothing := by
  unfold Obligations.RebindDrainTimeoutRecordsNothing
  intro s q t r only quire kind draining past
  subst quire
  have runs := execDrainTimeout_rebind only kind draining past
  refine ⟨runs, fun u next => ?_⟩
  cases runs.symm.trans next
  exact rebindAbort_recordsNothing only .drainTimeout

/-! ### Copies and checks of a rebind (R345, R347) -/

section
variable {s : State} {q : QuireId} {t : Task} {r : RebindRun}
  (found : s.tasks.find? (fun t => t.quire = q && match t.kind with | .rebind _ => true | _ => false) = some t)
  (kind : t.kind = .rebind r)
include found kind

/-- A rebind in step 5 whose bytes have all been moved ends its copies; an uncorrectable error runs them once more, and a second
one rolls it back (R345). -/
theorem execRebindCopyDone_moved {rec_ : QuireRec} (owns : s.val.quire q = some rec_) (running : r.step = .running)
    (open_ : r.copied = false) (moved : (s.stg.vol.quire q).rebind.toCopy ≤ (s.stg.vol.quire q).rebind.copied) (bad : Bool) :
    exec (.rebindCopyDone q bad) s = .next (
      if bad then
        if r.rerun then s.rebindRollback t r .lastingFault
        else (s.updQuireVol q fun v => { v with rebind := { v.rebind with copied := 0 } }).setRebind t { r with rerun := true }
      else (s.updVol fun v => { v with
        hbm := copyAll rec_.leaves (newGrant rec_.leaves r.record.keep r.record.newLeaves) r.plan.copies
          (zeroLeaves v.hbm r.record.newLeaves) }).setRebind t { r with copied := true }) := by
  simp only [exec]
  unfold execRebindCopyDone
  split
  · next t' rec' found' owns' =>
    cases found.symm.trans found'
    cases owns.symm.trans owns'
    simp only [kind, running, open_, Nat.not_lt.mpr moved]
    cases bad
    · rfl
    · cases r.rerun <;> rfl
  · next none_ => exact absurd owns (none_ t rec_ found)

/-- The one opened bore that is left unverified has its first bound run out: both its ends are asked to retrain (R347). -/
theorem execRebindVerifyTimeout_first {v : Verify} {b : Tick} (verifying : r.step = .verifying) (left : r.verify = [v])
    (first : v.again = false) (begun : v.since = some b) (late : 1024 ≤ s.since b) :
    exec (.rebindVerifyTimeout q) s = .next (((s.askRetrain v.bore.a 1).askRetrain v.bore.b 1).setRebind t
      { r with verify := [{ v with again := true }] }) := by
  simp only [exec]
  unfold execRebindVerifyTimeout
  split
  · next none_ => exact nomatch found.symm.trans none_
  · next t' found' =>
    cases found.symm.trans found'
    simp [kind, verifying, left, first, begun, late]

end

/-! ### Resets and evictions past their bound (R379, R417) -/

/-- Endpoints that did not confirm a reset are faulted and excluded, and the reset goes on (R379). -/
theorem execResetConfirmTimeout_reset {s : State} {q : QuireId} {t : Task} {r : QuireRec} {f : Bool} {cs : List Coord} {left : Nat}
    (found : s.tasks.find? (fun t => t.quire = q && match t.kind with
        | .reset _ .confirming _ left => decide (2048 ≤ left)
        | .release _ _ .confirming _ left => decide (2048 ≤ left)
        | _ => false) = some t)
    (kind : t.kind = .reset f .confirming cs left) (owns : s.val.quire q = some r) :
    exec (.resetConfirmTimeout q) s = .next (((cs.foldl (fun s c => s.fault 2 0x0C c) s).updQuireVol q fun v =>
      { v with excluded := v.excluded ++ cs.filter fun c => !v.excluded.contains c }).resetConfirmed t r) := by
  simp only [exec]
  unfold execResetConfirmTimeout
  extract_lets due
  split
  · next t' r' found' owns' =>
    cases found.symm.trans found'
    cases owns.symm.trans owns'
    simp only [kind]
  · next none_ => exact absurd owns (none_ t r found)

/-- The only task is an eviction whose bound has passed: its slot is zeroised at once (R417 step 4). -/
theorem execEvictBound_evict {s : State} {t : Task} {n b left : Nat} (only : s.tasks = [t])
    (kind : t.kind = .evict n b .waiting left) (past : b ≤ left) : exec (.evictBound t.quire) s = .next (s.evictZero t n b) := by
  simp [exec, execEvictBound, only, kind, past]

/-! ### Table writes that stay unacknowledged (R496, R535) -/

/-- The only task has one job to an endpoint: the writes of that job are retried (R535). -/
theorem execShadowWriteRetry_job {s : State} {t : Task} {j : ShadowJob} (only : s.tasks = [t]) (job : t.kind.jobs = [j]) :
    exec (.shadowWriteRetry j.coord t.writeQuire) s = .next (s.jobRetry t j) := by
  simp [exec, execShadowWriteRetry, only, job, State.task]

/-- Settles O51, row by row. -/
theorem rebindAndResetRowsRun : Obligations.RebindAndResetRowsRun := by
  unfold Obligations.RebindAndResetRowsRun
  refine ⟨?copied, ?rerun, ?verify, ?reset, ?evict, ?write⟩
  case copied =>
    intro s q t rec_ r found owns kind running open_ moved
    exact execRebindCopyDone_moved found kind owns running open_ moved false
  case rerun =>
    intro s q t rec_ r found owns kind running open_ fresh moved
    simpa [fresh] using execRebindCopyDone_moved found kind owns running open_ moved true
  case verify =>
    intro s q t r v found kind verifying left first ⟨b, begun, late⟩
    exact execRebindVerifyTimeout_first found kind verifying left first begun late
  case reset =>
    intro s q t r f cs left found kind owns
    exact execResetConfirmTimeout_reset found kind owns
  case evict =>
    intro s q t n b left only quire kind past
    subst quire
    exact execEvictBound_evict only kind past
  case write =>
    intro s c q t j only quire job coord
    subst quire coord
    exact execShadowWriteRetry_job only job

end Sys2Proof.Machine
end

section
/-! PROOFS. The family of faults: what a fatal fault leaves (O48), and the rows of firmware, of degraded operation and of the
entropy source (O49). -/

namespace Sys2Proof.Machine

/-! ### Fatal faults (R370, R382, R447, R617) -/

/-- The director has halted on a fatal fault of the function `fn`: `t` after `s`. -/
structure FatalHalt (s : State) (fn : Nat) (t : State) : Prop where
  fault : t.faults.fatal = some fn
  pin : t.pins.faultN = false
  pending : t.irq.stat.getLsbD 8 = true
  staged : t.stg = s.vis
  power : t.power = s.power

section
variable {s : State} (alive : s.faults.fatal = none) (on : s.boot.stage ≠ .held)
include alive on

/-- FATAL becomes pending with the fault, and the rails stay as they are. -/
theorem fatal_pending_power (fn object : Nat) :
    (s.fatal fn object).irq.stat.getLsbD 8 = true ∧ (s.fatal fn object).power = s.power := by
  unfold State.fatal
  rw [if_neg (by simp [alive, on])]
  extract_lets e _ _ _ _ _ s1
  obtain ⟨g, n, frame⟩ := haltGroup_frame ((s1.fatalRegs fn).raiseNow 0x100) e
  rw [frame]
  exact ⟨by simp [State.raiseNow, Irq.deliver], rfl⟩

theorem fatal_fatalHalt (fn object : Nat) : FatalHalt s fn (s.fatal fn object) := by
  obtain ⟨fault, staged, pin⟩ := fatal_halts alive on fn object
  obtain ⟨pending, power⟩ := fatal_pending_power alive on fn object
  exact ⟨fault, pin, pending, staged, power⟩

/-- Every cause halts on its function's code; which house book failed is free (R369, R371). -/
theorem fatalOf_fatalHalt (c : FatalCause) : FatalHalt s (fatalFn c) (s.fatalOf c) := by
  cases c
  case houseBook =>
    obtain ⟨fault, pin, pending, staged, power⟩ :=
      fatal_fatalHalt (s := s.freeNat.2) alive on 0x0D (65536 * (1 + s.freeNat.1 % 7))
    exact ⟨fault, pin, pending, staged, power⟩
  all_goals exact fatal_fatalHalt alive on _ 0

/-- THERM_TRIP_N asserts with its fatal fault (R447). -/
theorem trip_fatalHalt : FatalHalt { s with power := { s.power with thermTrip := true } } 0x0E s.trip := by
  rw [State.trip, if_neg on]
  exact fatalOf_fatalHalt (s := { s with power := { s.power with thermTrip := true } }) alive on .thermTrip

theorem execFatalFault_halts (c : FatalCause) : ∃ t : State, exec (.fatalFault c) s = .next t ∧ t.faults.fatal.isSome = true ∧
    t.pins.faultN = false ∧ t.irq.stat.getLsbD 8 = true ∧ t.stg = s.vis := by
  simp only [exec, execFatalFault]
  refine ⟨_, rfl, ?_⟩
  split
  · obtain ⟨fault, pin, pending, staged, -⟩ := trip_fatalHalt alive on
    exact ⟨by rw [fault]; rfl, pin, pending, staged⟩
  · obtain ⟨fault, pin, pending, staged, -⟩ := fatalOf_fatalHalt alive on c
    exact ⟨by rw [fault]; rfl, pin, pending, staged⟩

end

/-- Settles O48: every cause halts the director, and no command but a boundary or a reset moves what is visible. -/
theorem fatalFaultsStopTheBlock : Obligations.FatalFaultsStopTheBlock := by
  unfold Obligations.FatalFaultsStopTheBlock
  refine ⟨?detected, ?tripped⟩
  case detected =>
    intro s c on alive
    obtain ⟨t, runs, fault, pin, pending, staged⟩ := execFatalFault_halts alive on c
    have keeps := exec_keeps runs
    exact ⟨t, runs, fault, pin, pending, staged, keeps.visible (by simp) rfl, keeps.index (by simp) rfl (by simp)⟩
  case tripped =>
    intro s on alive
    have runs : exec .thermalTrip s = .next s.trip := rfl
    obtain ⟨fault, pin, pending, staged, power⟩ := trip_fatalHalt alive on
    exact ⟨s.trip, runs, fault, by rw [power], pin, pending, staged, (exec_keeps runs).visible (by simp) rfl⟩

/-! ### Firmware (R472, R476, R480, R482, R485) -/

@[simp] theorem updSlot_slot_self (f : FwState) (k : Nat) (g : FwSlot → FwSlot) : (f.updSlot k g).slot k = g (f.slot k) := by
  unfold FwState.updSlot FwState.slot
  split <;> rfl

@[simp] theorem setFw_fwState (s : State) (f : FwState → FwState) : (s.setFw f).fwState = f s.fwState := rfl

@[simp] theorem updTask_fwState (s : State) (id : Nat) (f : Task → Task) : (s.updTask id f).fwState = s.fwState := rfl

/-- The first task whose verifying anchor is sealed has its slot judged by the image's verdict (R476). -/
theorem execImageCheckDone_judges {s : State} {t : Task} {k : Nat}
    (found : s.tasks.find? (fun t => t.sealed && match t.kind with | .verify _ none => true | _ => false) = some t)
    (kind : t.kind = .verify k none) (works : s.ledgerFaulted = false) :
    ∃ u : State, exec .imageCheckDone s = .next u ∧
      u.fwState.slot k = (s.fwState.slot k).judged (s.ledger.image k) (s.imageVerdict k) := by
  simp only [exec]
  unfold execImageCheckDone
  split
  · next none_ => exact nomatch found.symm.trans none_
  · next t' found' =>
    cases found.symm.trans found'
    simp only [kind, works]
    refine ⟨_, rfl, ?_⟩
    rw [updTask_fwState, setFw_fwState]
    split <;> exact updSlot_slot_self ..

/-- Burning that has ended moves no fuse: the confirm that waited for it ends, with its reply (R481, R485). -/
theorem endBurn_near (s : State) : ∃ ts, Near { s with fw := { s.fw with burning := none }, tasks := ts } s.endBurn := by
  unfold State.endBurn
  extract_lets _ s1
  split
  · exact ⟨_, near_completeCmd (s1.dropTask _) _ _ _ _⟩
  · exact ⟨s.tasks, .refl _⟩

theorem endBurn_fuses (s : State) : s.endBurn.fuses = s.fuses := by
  obtain ⟨ts, cs, e, i, frame⟩ := endBurn_near s
  rw [frame]

theorem endBurn_burning (s : State) : s.endBurn.fw.burning = none := by
  obtain ⟨ts, cs, e, i, frame⟩ := endBurn_near s
  rw [frame]

section
variable {s : State} {e : Nat} (burning : s.fw.burning = some e)
include burning

/-- A programmed fuse counts, up to 64, and burning goes on below the epoch asked for (R481, R485). -/
theorem execOtpBurnDone_programmed : ∃ t : State, exec (.otpBurnDone true) s = .next t ∧
    t.fuses = { s.fuses with otp := min 64 (s.fuses.otp + 1) } ∧
    t.fw.burning = if e ≤ min 64 (s.fuses.otp + 1) then none else some e := by
  simp only [exec, execOtpBurnDone, burning]
  refine ⟨_, rfl, ?_⟩
  split
  · exact ⟨endBurn_fuses _, endBurn_burning _⟩
  · exact ⟨rfl, burning⟩

theorem execOtpBurnDone_failed : ∃ t : State, exec (.otpBurnDone false) s = .next t ∧ t.fuses = s.fuses ∧
    t.fw.burning = none := by
  simp only [exec, execOtpBurnDone, burning]
  obtain ⟨f, g, i, recorded⟩ := fault_frame s 2 0x0F 0
  exact ⟨_, rfl, (endBurn_fuses _).trans (by rw [recorded]), endBurn_burning _⟩

end

/-- A window that has run out, while nothing holds the ledger, reverts the running slot (R482). -/
theorem execConfirmWindowExpiry_reverts {s : State} {e : Nat} (window : s.fw.windowEnd = some e) (past : e ≤ s.clk.cycles)
    (runs : s.fw.stopped = false) (free : s.ledger.held = false) (powered : s.power.holdup = false)
    (works : s.ledgerFaulted = false) (alive : s.faults.fatal = none) :
    ∃ t : State, exec .confirmWindowExpiry s = .next t ∧ t.fwState = s.fwState.revert s.fw.running ∧ t.fw.reverting = true ∧
      t.fw.windowEnd = none := by
  have healthy : ({ s with fw := { s.fw with windowEnd := none, stopped := true } } : State).ledgerFaulted = false := works
  simp only [exec, execConfirmWindowExpiry, window, past.not_gt, runs, free, powered, healthy, alive]
  exact ⟨_, rfl, rfl, rfl, rfl⟩

/-! ### Degraded operation (R367) -/

/-- After 1,048,576 ticks without an overrun of the failing kind no step counts as slow. -/
theorem execDegradedModeLeft_ends {s : State} {op n : Nat} (slow : s.faults.slowStep = some (op, n)) (long : 1048576 ≤ n) :
    ∃ t : State, exec .degradedModeLeft s = .next t ∧ t.faults.slowStep = none := by
  simp only [exec, execDegradedModeLeft, slow, if_neg long.not_gt]
  refine ⟨_, rfl, ?_⟩
  obtain ⟨fns, g, i, frame⟩ := addFault_frame
    (({ s with faults := { s.faults with slowStep := none } } : State).setDegraded 1 false) (.plain s.now 5 0x01 0 op)
  exact congrArg (·.faults.slowStep) frame

/-! ### Entropy (R423-R425) -/

@[simp] theorem follow_rot (s : State) : s.follow.rot = s.rot := by
  obtain ⟨r, i, frame⟩ := follow_behind s
  rw [frame]

@[simp] theorem fault_rot (s : State) (cls fn object : Nat) : (s.fault cls fn object).rot = s.rot := by
  obtain ⟨f, g, i, frame⟩ := fault_frame s cls fn object
  rw [frame]

@[simp] theorem fault_clk (s : State) (cls fn object : Nat) : (s.fault cls fn object).clk = s.clk := by
  obtain ⟨f, g, i, frame⟩ := fault_frame s cls fn object
  rw [frame]

@[simp] theorem setDegraded_rot (s : State) (fn : Nat) (b : Bool) : (s.setDegraded fn b).rot = s.rot := rfl

@[simp] theorem setDegraded_clk (s : State) (fn : Nat) (b : Bool) : (s.setDegraded fn b).clk = s.clk := rfl

/-- A source under its start-up tests, at first or after a failure, is ready when they pass (R423). -/
theorem execEntropyReady_starts {s : State} (on : s.boot.stage ≠ .held)
    (testing : s.rot.entropy.state = 0 ∨ s.rot.entropy.state = 2) (ms : Nat) :
    ∃ t : State, exec (.entropyReady ms) s = .next t ∧ t.rot.entropy = { s.rot.entropy with
      state := 1, drbg := true, requests := 0, seededAt := s.clk.cycles,
      readyMs := if s.rot.entropy.readyMs = 0 then max 1 ms else s.rot.entropy.readyMs } := by
  simp only [exec, execEntropyReady]
  rw [if_neg (by rcases testing with tests | tests <;> simp [on, tests])]
  refine ⟨_, rfl, ?_⟩
  split <;> simp

/-- A health failure stops a ready source: until its tests pass again, at the third within 24 hours until reset (R425). -/
theorem execEntropyHealthFail_stops {s : State} (on : s.boot.stage ≠ .held) (ready : s.rot.entropy.state = 1) :
    let old := s.rot.entropy.failAt.filter fun c => s.clk.cycles < c + 24 * 3600 * Config.hz
    ∃ t : State, exec .entropyHealthFail s = .next t ∧ t.rot.entropy.drbg = false ∧
      t.rot.entropy.failAt = old ++ [s.clk.cycles] ∧ t.rot.entropy.state = (if 2 ≤ old.length then 3 else 2) := by
  intro old
  simp only [exec, execEntropyHealthFail]
  rw [if_neg (by simp [on, ready])]
  refine ⟨_, rfl, ?_, ?_, ?_⟩ <;> simp [old]

/-- A DRBG that has served its requests, or its day, is seeded again (R423). -/
theorem execDrbgReseed_reseeds {s : State} (live : s.rot.entropy.drbg = true)
    (due : 65536 ≤ s.rot.entropy.requests ∨ s.reached (s.rot.entropy.seededAt + 24 * 3600 * Config.hz) = true) :
    exec .drbgReseed s = .next (s.updEntropy fun e => { e with requests := 0, seededAt := s.clk.cycles }) := by
  simp [exec, execDrbgReseed, live, due]

/-- Settles O49, row by row. -/
theorem firmwareAndEntropyRowsRun : Obligations.FirmwareAndEntropyRowsRun := by
  unfold Obligations.FirmwareAndEntropyRowsRun
  refine ⟨?image, ?programmed, ?failed, ?window, ?degraded, ?ready, ?health, ?reseed⟩
  case image => exact fun s t k found kind works => execImageCheckDone_judges found kind works
  case programmed => exact fun s e burning => execOtpBurnDone_programmed burning
  case failed => exact fun s e burning => execOtpBurnDone_failed burning
  case window =>
    exact fun s e window past runs free powered works alive =>
      execConfirmWindowExpiry_reverts window past runs free powered works alive
  case degraded =>
    intro s op n slow long
    obtain ⟨t, runs, ended⟩ := execDegradedModeLeft_ends slow long
    exact ⟨t, runs, ended, (exec_keeps runs).visible (by simp) rfl⟩
  case ready => exact fun s ms on testing => execEntropyReady_starts on testing ms
  case health => exact fun s on ready => execEntropyHealthFail_stops on ready
  case reseed => exact fun s live due => execDrbgReseed_reseeds live due

end Sys2Proof.Machine
end

section
/-! PROOFS. The host interface: the host's writes to BAR0 (R602-R605, R616-R619), PERST_N, configuration requests and the TAP (R452,
R586, R597), and what reset leaves (R449, R453, R485). -/
namespace Sys2Proof.Machine

/-! ### Interrupt registers (R616-R619) -/

@[simp] theorem deliver_stat (old new : Irq) (hostWrite : Bool) : (Irq.deliver old new hostWrite).stat = new.stat := rfl

@[simp] theorem deliver_mask (old new : Irq) (hostWrite : Bool) : (Irq.deliver old new hostWrite).mask = new.mask := rfl

/-- A register constant of `n` ones has its lowest `n` bits. -/
theorem getLsbD_ones {n k : Nat} (fits : n ≤ 64) : (BitVec.ofNat 64 (2 ^ n - 1)).getLsbD k = decide (k < n) := by
  rw [BitVec.getLsbD_ofNat, Nat.testBit_two_pow_sub_one, ← Bool.decide_and]
  exact decide_eq_decide.mpr (by omega)

/-- FATAL is bit 8 of IRQ_STAT (R617). -/
theorem getLsbD_fatal (k : Nat) : (0x100#64).getLsbD k = decide (k = 8) := by
  change (BitVec.twoPow 64 8).getLsbD k = _
  rw [BitVec.getLsbD_twoPow]
  by_cases fatal : k = 8
  · simp [fatal]
  · simp [fatal, Ne.symm fatal]

/-- A write of ones to IRQ_STAT clears every bit it names but FATAL (R618). -/
theorem getLsbD_cleared (stat w : Word64) (k : Nat) :
    (stat &&& ~~~(w &&& ~~~0x100#64)).getLsbD k = (stat.getLsbD k && (!w.getLsbD k || k == 8)) := by
  simp only [BitVec.getLsbD_and, BitVec.getLsbD_not, getLsbD_fatal]
  by_cases inside : k < 64
  · simp only [inside, decide_true, Bool.true_and, Bool.not_and, Bool.not_not, beq_eq_decide]
  · simp [BitVec.getLsbD_of_ge stat k (by omega)]

/-- IRQ_MASK takes the 18 bits of its sources; the others are reserved (R602). -/
theorem getLsbD_masked (w : Word64) (k : Nat) : (w &&& 0x3FFFF#64).getLsbD k = (w.getLsbD k && decide (k < 18)) := by
  rw [BitVec.getLsbD_and]
  exact congrArg (w.getLsbD k && ·) (getLsbD_ones (n := 18) (by decide))

/-- The bits above the eight REPLY bits stay (R618). -/
theorem getLsbD_unreplied (stat : Word64) (k : Nat) : (stat &&& ~~~0xFF#64).getLsbD k = (stat.getLsbD k && decide (8 ≤ k)) := by
  have replies : (0xFF#64).getLsbD k = decide (k < 8) := getLsbD_ones (n := 8) (by decide)
  rw [BitVec.getLsbD_and, BitVec.getLsbD_not, replies]
  by_cases inside : k < 64
  · simp only [inside, decide_true, Bool.true_and, ← decide_not, not_lt]
  · simp [BitVec.getLsbD_of_ge stat k (by omega)]

/-! ### Channels changed one by one -/

/-- A channel after each was changed by its number. -/
theorem chan_mapIdx {s t : State} {f : Nat → Channel → Channel} (each : t.chans = s.chans.mapIdx f) {c : Nat}
    (inside : c < s.chans.length) : t.chan c = f c (s.chan c) := by
  have still : c < (s.chans.mapIdx f).length := by rwa [List.length_mapIdx]
  unfold State.chan
  rw [each, List.getD_eq_getElem _ _ still, List.getD_eq_getElem _ _ inside, List.getElem_mapIdx]

/-! ### Host writes (R603, R605, R615, R618) -/

/-- Only channels and interrupt registers differ, and FATAL is pending as before: what a write of the host may change. -/
def HostOnly (s t : State) : Prop :=
  ∃ cs i, t = { s with chans := cs, irq := i } ∧ i.stat.getLsbD 8 = s.irq.stat.getLsbD 8

theorem HostOnly.refl (s : State) : HostOnly s s := ⟨s.chans, s.irq, rfl, rfl⟩

theorem HostOnly.trans {a b c : State} (h : HostOnly a b) (g : HostOnly b c) : HostOnly a c := by
  obtain ⟨_, _, rfl, fatal⟩ := h
  obtain ⟨_, _, rfl, fatal'⟩ := g
  exact ⟨_, _, rfl, fatal'.trans fatal⟩

theorem HostOnly.updChan (s : State) (c : Nat) (f : Channel → Channel) : HostOnly s (s.updChan c f) := ⟨_, s.irq, rfl, rfl⟩

theorem HostOnly.checkRing (s : State) (c : Nat) : HostOnly s (s.checkRing c) := by
  unfold State.checkRing
  extract_lets ch cf rf s1
  have raised : HostOnly s s1 := by
    unfold s1
    split
    · exact ⟨s.chans, _, rfl, rfl⟩
    · exact .refl s
  exact raised.trans (.updChan s1 c _)

theorem HostOnly.irq (s : State) {i : Irq} (fatal : i.stat.getLsbD 8 = s.irq.stat.getLsbD 8) :
    HostOnly s { s with irq := i } := ⟨s.chans, i, rfl, fatal⟩

section
variable {s : State}

/-- Out of service, or without access, a ring takes no bytes. -/
theorem hostWrite_ignored {ch : Nat} (off : s.hostAccess = false ∨ s.ringIn ch = false) (data : List Byte) (tail : Word32) :
    s.hostWrite ch data tail = s := by
  rcases off with shut | out
  · simp [State.hostWrite, shut]
  · simp [State.hostWrite, out]

theorem execRplHeadWrite_ignored {ch : Nat} (off : s.hostAccess = false ∨ s.ringIn ch = false) (head : Word32) :
    exec (.rplHeadWrite ch head) s = .next s := by
  rcases off with shut | out
  · simp [exec, execRplHeadWrite, shut]
  · simp [exec, execRplHeadWrite, out]

section
variable (shut : s.hostAccess = false)
include shut

theorem execIrqStatClear_ignored (w : Word64) : exec (.irqStatClear w) s = .next s := by
  simp [exec, execIrqStatClear, shut]

theorem execIrqMaskWrite_ignored (w : Word64) : exec (.irqMaskWrite w) s = .next s := by
  simp [exec, execIrqMaskWrite, shut]

theorem execRimodeWrite_ignored (w : Byte) : exec (.rimodeWrite w) s = .next s := by
  simp [exec, execRimodeWrite, shut]

theorem execMbxDoorbellWrite_ignored (w : Word64) : exec (.mbxDoorbellWrite w) s = .next s := by
  simp [exec, execMbxDoorbellWrite, shut]
end

section
variable (access : s.hostAccess = true)
include access

theorem execIrqStatClear_acts (w : Word64) : exec (.irqStatClear w) s = .next { s with
    irq := Irq.deliver s.irq { s.irq with stat := s.irq.stat &&& ~~~(w &&& ~~~0x100#64) } true } := by
  simp only [exec, execIrqStatClear, access, if_true]

theorem execIrqMaskWrite_acts (w : Word64) : exec (.irqMaskWrite w) s = .next { s with
    irq := Irq.deliver s.irq { s.irq with mask := w &&& 0x3FFFF#64 } true } := by
  simp only [exec, execIrqMaskWrite, access, if_true]

theorem execRimodeWrite_acts (w : Byte) : exec (.rimodeWrite w) s = .next { s with irq := { s.irq with rimode := w } } := by
  simp only [exec, execRimodeWrite, access, if_true]

theorem execMbxDoorbellWrite_acts (w : Word64) : exec (.mbxDoorbellWrite w) s = .next { s with
    chans := s.chans.mapIdx fun c ch => { ch with armed := ch.armed || bit w.toNat c } } := by
  simp only [exec, execMbxDoorbellWrite, access, if_true]

variable {ch : Nat} (within : s.ringIn ch = true)
include within

theorem hostWrite_acts (data : List Byte) (tail : Word32) : s.hostWrite ch data tail = (s.updChan ch fun x =>
    { x with cmdRing := ringWrite x.cmdRing x.cmdTail.toNat data, cmdTail := tail }).checkRing ch := by
  simp [State.hostWrite, access, within]

theorem execRplHeadWrite_acts (head : Word32) :
    exec (.rplHeadWrite ch head) s = .next ((s.updChan ch fun x => { x with rplHead := head }).checkRing ch) := by
  simp [exec, execRplHeadWrite, access, within]
end

theorem HostOnly.hostWrite (s : State) (ch : Nat) (data : List Byte) (tail : Word32) : HostOnly s (s.hostWrite ch data tail) := by
  unfold State.hostWrite
  split
  · exact (HostOnly.updChan s ch _).trans (.checkRing _ _)
  · exact .refl s
end

/-- Row by row, a write of the host changes channels and interrupt registers, and not FATAL. -/
theorem exec_hostWrite {i : Instr} (host : isHostWrite i = true) (s : State) : ∃ t, exec i s = .next t ∧ HostOnly s t := by
  unfold isHostWrite at host
  split at host
  case h_1 ch data tail => exact ⟨_, rfl, .hostWrite s ch data tail⟩
  case h_2 ch head =>
    by_cases on : s.hostAccess = true ∧ s.ringIn ch = true
    · obtain ⟨access, within⟩ := on
      exact ⟨_, execRplHeadWrite_acts access within head, (HostOnly.updChan s ch _).trans (.checkRing _ ch)⟩
    · have off : s.hostAccess = false ∨ s.ringIn ch = false := by simpa [-not_and, not_and_or] using on
      exact ⟨s, execRplHeadWrite_ignored off head, .refl s⟩
  case h_3 w =>
    cases access : s.hostAccess with
    | false => exact ⟨s, execIrqStatClear_ignored access w, .refl s⟩
    | true => exact ⟨_, execIrqStatClear_acts access w, .irq s (by simp)⟩
  case h_4 w =>
    cases access : s.hostAccess with
    | false => exact ⟨s, execIrqMaskWrite_ignored access w, .refl s⟩
    | true => exact ⟨_, execIrqMaskWrite_acts access w, .irq s rfl⟩
  case h_5 w =>
    cases access : s.hostAccess with
    | false => exact ⟨s, execRimodeWrite_ignored access w, .refl s⟩
    | true => exact ⟨_, execRimodeWrite_acts access w, .irq s rfl⟩
  case h_6 w =>
    cases access : s.hostAccess with
    | false => exact ⟨s, execMbxDoorbellWrite_ignored access w, .refl s⟩
    | true => exact ⟨_, execMbxDoorbellWrite_acts access w, _, s.irq, rfl, rfl⟩
  case h_7 => exact ⟨s, rfl, .refl s⟩
  case h_8 => exact absurd host Bool.false_ne_true

/-- Where a write of the host is answered, the answer is the one that `exec_hostWrite` describes. -/
theorem hostOnly_of_exec {i : Instr} {s t : State} (host : isHostWrite i = true) (runs : exec i s = .next t) : HostOnly s t := by
  obtain ⟨u, next, only⟩ := exec_hostWrite host s
  rw [runs] at next
  exact Host.Outcome.next.inj next ▸ only

/-- Settles O24, write by write. -/
theorem hostWritesActOnlyWhereListed : Obligations.HostWritesActOnlyWhereListed := by
  unfold Obligations.HostWritesActOnlyWhereListed
  refine ⟨?tail, ?head, ?clear, ?mask, ?mode, ?doorbell, ?other, ?noTail, ?noHead, ?shut, ?noMode, ?frame⟩
  case tail => exact fun s ch data tail access within => congrArg Host.Outcome.next (hostWrite_acts access within data tail)
  case head => exact fun s ch head access within => execRplHeadWrite_acts access within head
  case clear => exact fun s w access => ⟨_, execIrqStatClear_acts access w, getLsbD_cleared s.irq.stat w, rfl⟩
  case mask => exact fun s w access => ⟨_, execIrqMaskWrite_acts access w, getLsbD_masked w, rfl⟩
  case mode => exact fun s w access => execRimodeWrite_acts access w
  case doorbell =>
    exact fun s w access => ⟨_, execMbxDoorbellWrite_acts access w, fun c inside =>
      chan_mapIdx (s := s) (f := fun c ch => { ch with armed := ch.armed || bit w.toNat c }) rfl inside, rfl, List.length_mapIdx⟩
  case other => exact fun s offset size w => rfl
  case noTail => exact fun s ch data tail off => congrArg Host.Outcome.next (hostWrite_ignored off data tail)
  case noHead => exact fun s ch head off => execRplHeadWrite_ignored off head
  case shut =>
    exact fun s w shut => ⟨execIrqStatClear_ignored shut w, execIrqMaskWrite_ignored shut w, execMbxDoorbellWrite_ignored shut w⟩
  case noMode => exact fun s w shut => execRimodeWrite_ignored shut w
  case frame =>
    intro i s t host runs
    obtain ⟨cs, irq, rfl, -⟩ := hostOnly_of_exec host runs
    exact ⟨rfl, rfl, rfl, rfl, rfl⟩

/-- Settles O25: no write of the host moves FATAL. -/
theorem fatalStaysPending : Obligations.FatalStaysPending := by
  unfold Obligations.FatalStaysPending
  intro i s t host runs pending
  obtain ⟨cs, irq, rfl, fatal⟩ := hostOnly_of_exec host runs
  exact fatal.trans pending

/-! ### PERST_N, configuration requests and the TAP (R452, R586, R597, R605, R619) -/

/-- A pulse of 100 µs or more is recognised (R597). -/
theorem execPerstNAssert_recognised {ns : Nat} (long : 100000 ≤ ns) (s : State) :
    exec (.perstNAssert ns) s = .next s.perstReset := by
  simp only [exec, execPerstNAssert]
  rw [if_neg (by omega), if_pos long]

/-- A pulse below 1 µs is ignored (R597). -/
theorem execPerstNAssert_ignored {ns : Nat} (short : ns < 1000) (s : State) : exec (.perstNAssert ns) s = .next s := by
  simp only [exec, execPerstNAssert, if_pos short]

/-- Between them it is free whether the pulse is recognised (R597). -/
theorem execPerstNAssert_free {ns : Nat} (least : 1000 ≤ ns) (most : ns < 100000) (s : State) :
    exec (.perstNAssert ns) s = .next (if s.freeBool.1 then s.freeBool.2.perstReset else s.freeBool.2) := by
  simp only [exec, execPerstNAssert]
  rw [if_neg (by omega), if_neg (by omega)]

/-- The PCIe endpoint's reset empties each ring in service and its channel's cache; the count of commands taken in stays (R452, R615). -/
theorem perstReset_chan {s : State} {c : Nat} (inside : c < s.chans.length) (ring : s.ringIn c = true) :
    let x := s.perstReset.chan c
    x.cmdTail = 0 ∧ x.cmdHead = 0 ∧ x.rplTail = 0 ∧ x.rplHead = 0 ∧ x.cache = [] ∧ x.baseline = none ∧
      x.taken = (s.chan c).taken := by
  intro x
  have changed := chan_mapIdx (s := s) (t := s.perstReset) rfl inside
  rw [if_pos ring] at changed
  unfold x
  rw [changed]
  exact ⟨rfl, rfl, rfl, rfl, rfl, rfl, rfl⟩

theorem perstReset_chan_eth {s : State} {c : Nat} (inside : c < s.chans.length) (out : s.ringIn c = false) :
    s.perstReset.chan c = s.chan c := by
  have changed := chan_mapIdx (s := s) (t := s.perstReset) rfl inside
  rwa [if_neg (by simp [out])] at changed

/-- EXTEST, CLAMP and HIGHZ act as BYPASS unless RST_N is asserted (R586). -/
theorem execJtagInstruction_pins {i : JtagInstr} (pins : i = .extest ∨ i = .clamp ∨ i = .highz) (s : State) :
    exec (.jtagInstruction i) s = .next { s with pins := { s.pins with tap := if s.pins.rstN then .bypass else i } } := by
  rcases pins with rfl | rfl | rfl <;> rfl

theorem execJtagInstruction_other {i : JtagInstr} (extest : i ≠ .extest) (clamp : i ≠ .clamp) (highz : i ≠ .highz) (s : State) :
    exec (.jtagInstruction i) s = .next { s with pins := { s.pins with tap := i } } := by
  cases i with
  | extest => exact absurd rfl extest
  | clamp => exact absurd rfl clamp
  | highz => exact absurd rfl highz
  | _ => rfl

/-- Under PERST_N the function answers no configuration request (R452). -/
theorem execConfigurationRequest_ignored {s : State} (perst : s.irq.perst = true) (r : CfgReq) :
    exec (.configurationRequest r) s = .next s := by
  simp [exec, execConfigurationRequest, perst]

/-- What a configuration write makes of the interrupt registers, INTA apart. -/
def configured (i : Irq) : CfgReq → Irq
  | .powerState d => { i with d3 := d }
  | .msi en n => { i with msi := if en && [1, 2, 4, 8].contains n then some n else none }
  | .intx en => { i with intx := en }

/-- A configuration write takes effect, and INTA follows it (R605, R619). -/
theorem execConfigurationRequest_acts {s : State} (free : s.irq.perst = false) (r : CfgReq) :
    ∃ inta, exec (.configurationRequest r) s = .next { s with irq := { configured s.irq r with inta := inta } } := by
  refine ⟨(configured s.irq r).msi.isNone && (configured s.irq r).intx && !(configured s.irq r).d3 &&
    (configured s.irq r).live ≠ 0, ?_⟩
  simp only [exec, execConfigurationRequest]
  rw [if_neg (by simp [free])]
  cases r <;> rfl

/-- Settles O26, row by row. -/
theorem pinsOfTheHostRun : Obligations.PinsOfTheHostRun := by
  unfold Obligations.PinsOfTheHostRun
  refine ⟨?short, ?long, ?between, ?deassert, ?power, ?msi, ?intx, ?shut, ?instruction, ?pinTest⟩
  case short => exact fun s ns short => execPerstNAssert_ignored short s
  case long =>
    exact fun s ns long => ⟨s.perstReset, execPerstNAssert_recognised long s, rfl, rfl, rfl, rfl, getLsbD_unreplied s.irq.stat,
      fun c inside ring => perstReset_chan inside ring, fun c inside out => perstReset_chan_eth inside out, rfl⟩
  case between => exact fun s ns least most => execPerstNAssert_free least most s
  case deassert => exact fun s => rfl
  case power =>
    intro s d free
    obtain ⟨inta, runs⟩ := execConfigurationRequest_acts free (.powerState d)
    exact ⟨_, runs, rfl, rfl⟩
  case msi =>
    intro s en n free
    obtain ⟨inta, runs⟩ := execConfigurationRequest_acts free (.msi en n)
    refine ⟨_, runs, ?_, rfl⟩
    simp [configured]
  case intx =>
    intro s en free
    obtain ⟨inta, runs⟩ := execConfigurationRequest_acts free (.intx en)
    exact ⟨_, runs, rfl, rfl⟩
  case shut => exact fun s r perst => execConfigurationRequest_ignored perst r
  case instruction => exact fun s i extest clamp highz => execJtagInstruction_other extest clamp highz s
  case pinTest => exact fun s i pins => execJtagInstruction_pins pins s

/-! ### Reset (R449, R453, R485) -/

/-- Settles O5, field by field: both copies of director HBM list no byte. -/
theorem resetIsBlank : Obligations.ResetIsBlank :=
  ⟨rfl, rfl, rfl, rfl, rfl, Nat.zero_le 448, rfl, rfl, fun _ => rfl⟩

end Sys2Proof.Machine
end

section
/-! PROOFS. The commands of identity and channels (R551, R571-R574), of tables (R523, R544-R547), of firmware (R475-R481, R565-R567)
and of diagnostics (R575, R576). -/
namespace Sys2Proof.Machine

/-! ### The colophon and the channels (R551, R571-R574) -/

/-- A taken command has passed the checks of the opcode table. -/
theorem tableCheck_of_takesIn {s : State} {op : Nat} {p : Pkt} (taken : s.takesIn op p = true) :
    tableCheck (s.turn p) op p.chan p = none := by
  unfold State.takesIn at taken
  simp only [Bool.and_eq_true, Option.isNone_iff_eq_none] at taken
  obtain ⟨-, passed⟩ := taken
  exact passed

/-- A packet whose parameters the opcode table admits has a length that its entry requires (R519). -/
theorem lengthOk_of_tableCheck {s : State} {op ring : Nat} {p : Pkt} (passed : tableCheck s op ring p = none) :
    lengthOk op p.params = some true := by
  revert passed
  fun_cases tableCheck s op ring p <;> simp_all

/-- A command that is always served is taken in when it passes the checks, whatever fault has halted the rest (R139). -/
theorem takesIn_of_alwaysServed {s : State} {op : Nat} {p : Pkt} (always : alwaysServed op = true)
    (due : s.readsNow op p = true) (passed : screen (s.turn p) op p = none) (new : seqCheck (s.turn p) op p = .fresh)
    (table : tableCheck (s.turn p) op p.chan p = none) : s.takesIn op p = true := by
  simp [State.takesIn, due, passed, new, always, table]

/-- The table asks of an ident.colophon no parameters, no quire and a channel that permits it, and of the stages nothing. -/
theorem tableCheck_identColophon {s : State} {p : Pkt} (bare : p.params = []) (none_named : p.quire = 0xFFFF)
    (permitted : chanPermits s p.chan 0x0101 = true) : tableCheck s 0x0101 p.chan p = none := by
  have length : lengthOk 0x0101 p.params = some true := by rw [bare]; rfl
  have staged : stageServes s 0x0101 = true := rfl
  have certain : needsEntropy 0x0101 = false := rfl
  have quire : quireCheck s 0x0101 p.quire = none := if_pos none_named
  simp [tableCheck, length, permitted, staged, certain, quire]

/-- Settles O7: the handler replies with the fuses' bytes, and no check of the table is one of stages or faults. -/
theorem colophonIsReturned : Obligations.ColophonIsReturned := by
  unfold Obligations.ColophonIsReturned
  refine ⟨?returned, ?served⟩
  case returned =>
    intro s p taken
    exact congrArg Host.Outcome.next (present_replies (h := hIdentColophon) taken rfl)
  case served =>
    intro s p due passed new bare none_named permitted
    exact takesIn_of_alwaysServed rfl due passed new (tableCheck_identColophon bare none_named permitted)

theorem lengthOk_chanNop (ps : List Byte) : lengthOk 0x0D03 ps = some (decide (ps.length ≤ 4072)) := rfl

/-- Settles O9: the table bounds the parameters, and the handler returns what it admits. -/
theorem nopReturnsItsParameters : Obligations.NopReturnsItsParameters := by
  unfold Obligations.NopReturnsItsParameters
  refine ⟨?returned, ?refused⟩
  case returned =>
    intro s p taken
    have length := lengthOk_of_tableCheck (tableCheck_of_takesIn taken)
    rw [lengthOk_chanNop] at length
    exact ⟨by simpa using length, congrArg Host.Outcome.next (present_replies (h := hChanNop) taken rfl)⟩
  case refused =>
    intro s p due passed new sound long
    have refused : tableCheck (s.turn p) 0x0D03 p.chan p = some .badLength := by
      simp [tableCheck, lengthOk_chanNop, long.not_ge]
    have read : s.present 0x0D03 hChanNop p = (s.turn p).read 0x0D03 hChanNop p := if_pos due
    refine congrArg Host.Outcome.next (read.trans ?_)
    rw [read_tabled hChanNop passed new (.inr rfl) refused, takenOf_turn]
    rfl

theorem hChanClose_closes {c : Taken} (known : c.u8 0 ≤ 7) (own : c.u8 0 = 0 → c.chan = 0) (s : State) :
    hChanClose c s = volatileOk c (s.updChan (c.u8 0) fun ch => { ch with closing := if ch.closing = 2 then 2 else 1 }) [] := by
  have permitted : ¬ (c.u8 0 = 0 ∧ ¬ c.chan = 0) := by tauto
  simp [hChanClose, known.not_gt, permitted]

theorem hChanFence_waits {c : Taken} (masked : c.u8 0 ≠ 0) (s : State) : hChanFence c s =
    multi c (s.updChan c.chan fun ch => { ch with fence := true }) (.fence (c.u8 0) c.tick []) := by
  simp only [hChanFence, if_neg masked]

/-- Settles O8, clause by clause, each from what its handler answers. -/
theorem channelCommandsRun : Obligations.ChannelCommandsRun := by
  unfold Obligations.ChannelCommandsRun
  refine ⟨?opened, ?closed, ?fenced⟩
  case opened =>
    intro s p taken
    exact congrArg Host.Outcome.next (present_accepts (h := hChanOpen) taken rfl)
  case closed =>
    intro s p taken known own
    exact congrArg Host.Outcome.next (present_accepts taken (hChanClose_closes (c := s.takenOf 0x0D02 p) known own _))
  case fenced =>
    intro s p taken masked
    exact congrArg Host.Outcome.next (present_accepts taken (hChanFence_waits (c := s.takenOf 0x0D04 p) masked _))

/-! ### Tables (R523, R544-R547) -/

/-- The state with the chunks of one kind of table taken out. -/
def withoutChunks (s : State) (k : Nat) : State := { s with disc := { s.disc with tables := s.disc.tables.filter (·.1 ≠ k) } }

/-- The task of an activation that has nothing to drain. -/
def swapTask (c : Taken) (s : State) : Task where
  id := s.nextTask
  ident := some c.ident
  quire := 0xFFFF
  kind := .activate (c.u8 0) (Drain.start ((drainBound (c.u16 2)).getD Config.defaultDrain)) [] true [] []
  retries := 0
  sealed := false
  overran := false
  skip := false

section
variable {c : Taken} {s : State} (least : 1 ≤ c.u8 0) (most : c.u8 0 ≤ 4)

section
variable (free : s.activating (c.u8 0) = false)
include least most free

/-- A chunk that leaves the image unfinished is kept with those before it. -/
theorem hTableLoad_more {x : Staging} (chunk : chunkStep ((s.disc.tables.find? (·.1 = c.u8 0)).map (·.2)) (c.u32 4)
      (c.pkt.params.drop 8) (· = tableLen (c.u8 0)) = .more x) :
    hTableLoad c s = volatileOk c { s with disc := { s.disc with
      tables := s.disc.tables.filter (·.1 ≠ c.u8 0) ++ [(c.u8 0, x)] } } [] := by
  have known : ¬ (c.u8 0 < 1 || 4 < c.u8 0) = true := by simp; omega
  simp only [hTableLoad, if_neg known, free, chunk]
  rfl

/-- A whole image without a fault is the loaded image of its kind, once its change is sealed. -/
theorem hTableLoad_whole {b : List Byte} (chunk : chunkStep ((s.disc.tables.find? (·.1 = c.u8 0)).map (·.2)) (c.u32 4)
      (c.pkt.params.drop 8) (· = tableLen (c.u8 0)) = .whole b) (sound : tableFault (c.u8 0) b = none)
    (settled : (withoutChunks s (c.u8 0)).awaiting (.table (c.u8 0)) = false) :
    hTableLoad c s = durable c (withoutChunks s (c.u8 0)) [.table (c.u8 0)
      { (withoutChunks s (c.u8 0)).val.table (c.u8 0) with loaded := some b }] none [] := by
  have known : ¬ (c.u8 0 < 1 || 4 < c.u8 0) = true := by simp; omega
  unfold withoutChunks at settled
  simp only [hTableLoad, if_neg known, free, chunk, sound, settled]
  rfl
end

section
variable (some_read : 1 ≤ c.u32 8) (fits : c.u32 8 ≤ 4072) (inside : c.u32 4 + c.u32 8 ≤ tableLen (c.u8 0))
include least most some_read fits inside

theorem hTableRead_active (kind : c.u8 1 = 0) : hTableRead c s =
    (s, .reply .ok (slice (activeTable s.vis.led (c.u8 0) s.fw.ver) (c.u32 4) (c.u32 8))) := by
  simp [hTableRead, least.not_gt, most.not_gt, some_read.not_gt, fits.not_gt, inside.not_gt, kind]

theorem hTableRead_loaded {b : List Byte} (kind : c.u8 1 = 1) (loaded : (s.vis.led.table (c.u8 0)).loaded = some b) :
    hTableRead c s = (s, .reply .ok (slice b (c.u32 4) (c.u32 8))) := by
  simp [hTableRead, least.not_gt, most.not_gt, some_read.not_gt, fits.not_gt, inside.not_gt, kind, loaded]
end

section
variable (ok : tableActivateRefusal c s = none)
include ok

theorem hTableActivate_drains (waits : s.activationDrains (c.u8 0) ≠ []) : hTableActivate c s = multi c s
    (.activate (c.u8 0) (Drain.start ((drainBound (c.u16 2)).getD Config.defaultDrain)) (s.activationDrains (c.u8 0))
      false [] []) := by
  simp only [hTableActivate, ok, if_neg waits]

theorem hTableActivate_swaps (idle : s.activationDrains (c.u8 0) = []) :
    let t := swapTask c s
    let a := s.startTask t.ident 0xFFFF t.kind
    hTableActivate c s = (a.stageTask t 1 [.table (c.u8 0) ((a.val.table (c.u8 0)).swap (c.u8 0) s.fw.ver)] none, .accepted) := by
  simp only [hTableActivate, ok, if_pos idle]
  rfl
end
end

/-- Settles O11, clause by clause, each from what its handler answers. -/
theorem tableCommandsRun : Obligations.TableCommandsRun := by
  unfold Obligations.TableCommandsRun
  refine ⟨?chunk, ?whole, ?active, ?loaded, ?drains, ?swaps⟩
  case chunk =>
    intro s p x taken least most free chunk
    exact congrArg Host.Outcome.next (present_accepts taken
      (hTableLoad_more (c := s.takenOf 0x0F01 p) least most free chunk))
  case whole =>
    intro s p b taken least most free chunk sound a settled works
    exact congrArg Host.Outcome.next (present_stages taken works
      (hTableLoad_whole (c := s.takenOf 0x0F01 p) least most free chunk sound settled))
  case active =>
    intro s p taken least most kind some_read fits inside
    exact congrArg Host.Outcome.next (present_replies taken
      (hTableRead_active (c := s.takenOf 0x0F02 p) least most some_read fits inside kind))
  case loaded =>
    intro s p b taken least most kind some_read fits inside loaded
    exact congrArg Host.Outcome.next (present_replies taken
      (hTableRead_loaded (c := s.takenOf 0x0F02 p) least most some_read fits inside kind loaded))
  case drains =>
    intro s p taken ok waits
    exact congrArg Host.Outcome.next (present_accepts taken (hTableActivate_drains (c := s.takenOf 0x0F03 p) ok waits))
  case swaps =>
    intro s p taken ok idle a k
    exact ⟨swapTask (s.takenOf 0x0F03 p) a, rfl, rfl, rfl, congrArg Host.Outcome.next
      (present_accepts taken (hTableActivate_swaps (c := s.takenOf 0x0F03 p) ok idle))⟩

/-! ### Firmware (R475-R481, R565-R567) -/

section
variable {c : Taken} {s : State}

/-- The state in which a download's chunk begins: at offset 0 the slot and its progress start afresh (R475). -/
def downloadBegun (c : Taken) (s : State) : State :=
  if c.u32 0 = 0 then
    (s.setFw (·.updSlot s.inactive fun _ => { FwSlot.init with status := 1, len := c.u32 4 })).stage
      (durRec c [.fwProgress 0 (c.u32 4)] none none none)
  else if (s.fwState.slot s.inactive).status = 1 then s
  else s.setFw (·.updSlot s.inactive fun x => { x with status := 1 })

theorem hFwDownload_queues (ok : fwDownloadRefusal c s = none) : hFwDownload c s =
    (((downloadBegun c s).startTask (some c.ident) c.pkt.quire
        (.download s.inactive (c.u32 4) (c.u32 0) (c.pkt.params.drop 8))).queueChunk s.nextTask s.inactive (c.u32 0)
      (c.pkt.params.drop 8), .accepted) := by
  simp only [hFwDownload, ok]
  rfl

theorem hFwVerify_starts (ok : fwVerifyRefusal c s = none) : hFwVerify c s =
    multi c (s.setFw (·.updSlot (c.u8 0) fun x => { x with status := 3 })) (.verify (c.u8 0) none) := by
  simp only [hFwVerify, ok]

theorem hFwActivate_starts (ok : fwActivateRefusal c s = none) :
    let w := if c.u16 2 = 0 then 30 else c.u16 2
    hFwActivate c s = multi c (s.setFw fun f =>
      { f.updSlot (c.u8 0) (fun x => { x with status := 5, boots := 0 }) with
        boot := c.u8 0, window := w, ident := some c.ident }) (.activateFw (c.u8 0) w (c.u8 1 = 1)) := by
  simp only [hFwActivate, ok]

/-- The state in which the confirm window has stopped (R483). -/
def windowStopped (s : State) : State := { s with fw := { s.fw with windowEnd := none, stopped := true } }

section
variable (ok : fwConfirmRefusal c s = none)
include ok

theorem hFwConfirm_confirms (confirms : c.u8 0 = 0) : hFwConfirm c s =
    multi c (((windowStopped s).setFw fun f => { f.confirm s.fw.running with ident := some c.ident }).updLedger fun g =>
      { g with anchor := { g.anchor with floor := max g.anchor.floor (s.fwState.slot s.fw.running).floor } })
      (.confirmFw false) := by
  simp only [hFwConfirm, ok, if_pos confirms]
  rfl

theorem hFwConfirm_rejects (rejects : c.u8 0 = 1) : hFwConfirm c s =
    multi c ((windowStopped s).setFw fun f => { f.revert s.fw.running with ident := some c.ident }) .rejectFw := by
  simp only [hFwConfirm, ok, rejects]
  rfl
end
end

/-- Settles O23, clause by clause, each from what its handler answers. -/
theorem firmwareCommandsRun : Obligations.FirmwareCommandsRun := by
  unfold Obligations.FirmwareCommandsRun
  refine ⟨?download, ?verify, ?activate, ?confirm, ?reject, ?status⟩
  case download =>
    intro s p taken ok o a
    exact congrArg Host.Outcome.next (present_accepts taken (hFwDownload_queues ok))
  case verify =>
    intro s p taken ok
    exact congrArg Host.Outcome.next (present_accepts taken (hFwVerify_starts ok))
  case activate =>
    intro s p taken ok w
    exact congrArg Host.Outcome.next (present_accepts taken (hFwActivate_starts ok))
  case confirm =>
    intro s p taken ok confirms a run b
    exact congrArg Host.Outcome.next (present_accepts taken
      (hFwConfirm_confirms (c := s.takenOf 0x0A04 p) ok confirms))
  case reject =>
    intro s p taken ok rejects a
    exact congrArg Host.Outcome.next (present_accepts taken
      (hFwConfirm_rejects (c := s.takenOf 0x0A04 p) ok rejects))
  case status =>
    intro s p taken
    exact congrArg Host.Outcome.next (present_replies taken rfl)

/-! ### Diagnostics (R575, R576) -/

section
variable {c : Taken} {s : State}

theorem hDiagLoop_starts (port : c.u8 0 ≤ 63) (side : c.u8 1 ≤ 1) (least : 64 ≤ c.u32 4) (most : c.u32 4 ≤ 1048576)
    (free : s.looped (c.u8 0) = false) (allowed : portEnabled s.val (c.u8 0) = false ∨ s.boot.straps.bench = true) :
    hDiagLoop c s = multi c (s.updPort (c.u8 0) fun x => { x with looping := true }) (.loop (c.u8 0) (c.u32 4)) := by
  have permitted : (portEnabled s.val (c.u8 0) && !s.boot.straps.bench) = false := by
    rcases allowed with disabled | bench
    · simp [disabled]
    · simp [bench]
  simp [hDiagLoop, port.not_gt, side.not_gt, least.not_gt, most.not_gt, free, permitted]

section
variable {e : Element} (named : laneElement c s = some e) (free : s.faults.measuring.any (·.1 = e) = false)
include named free

theorem hDiagLane_measures (action : c.u8 2 = 0) : hDiagLane c s = multi c
    { s with faults := { s.faults with measuring := s.faults.measuring ++ [(e, some s.nextTask, s.now)] } } (.lane e) := by
  simp only [hDiagLane, named, action, free]
  rfl

theorem hDiagLane_resets (port : c.u8 0 = 0) (action : c.u8 2 = 1) : hDiagLane c s = resetReference c s := by
  simp only [hDiagLane, named, action, port, free]
  rfl
end

/-- A history record bars no command from the journal. -/
theorem stageHist_durableRefusal (s : State) (h : HistRec) (n : Nat) : (s.stageHist h n).durableRefusal = s.durableRefusal := by
  unfold State.stageHist
  split
  · rfl
  · split <;> rfl

/-- A new reference is the laser reading of a sample that is free, kept in the history too (R112, R576). -/
theorem resetReference_stages (works : s.durableRefusal = none) :
    let x := s.freeSample
    resetReference c s = durable c (x.2.stageHist (.lane s.now x.1) 1) [newReference x.2.val (c.u8 1 / 8) x.1] none [] := by
  simp only [resetReference, works]
  rfl
end

/-- Settles O17, clause by clause, each from what its handler answers. -/
theorem diagnosticCommandsRun : Obligations.DiagnosticCommandsRun := by
  unfold Obligations.DiagnosticCommandsRun
  refine ⟨?loop, ?measure, ?reference⟩
  case loop =>
    intro s p taken port side least most free allowed
    exact congrArg Host.Outcome.next (present_accepts taken
      (hDiagLoop_starts (c := s.takenOf 0x0E01 p) (s := s.accepted 0x0E01 p) port side least most free allowed))
  case measure =>
    intro s p e taken named action free a
    exact congrArg Host.Outcome.next (present_accepts taken (hDiagLane_measures named free action))
  case reference =>
    intro s p e taken named port action free works a x
    have open_ : (x.2.stageHist (.lane s.now x.1) 1).durableRefusal = none := (stageHist_durableRefusal _ _ _).trans works
    exact congrArg Host.Outcome.next (present_stages taken open_
      ((hDiagLane_resets named free port action).trans (resetReference_stages works)))

end Sys2Proof.Machine
end

section
/-! PROOFS. Tenants, keys and scrubbing (R403, R405, R415, R417, R558-R561), and the exchanges of the RoT core: house sessions, key
messages and attestation (R395-R397, R517, R524). -/
namespace Sys2Proof.Machine

/-! ### Tasks that stage a record (R58, R90) -/

/-- The task that has just started is found, or one of the same identity before it. -/
theorem startTask_found (s : State) (i : Option CmdIdent) (q : QuireId) (k : TaskKind) :
    ∃ t, (s.startTask i q k).task s.nextTask = some t :=
  Option.isSome_iff_exists.mp (List.find?_isSome.mpr
    ⟨_, List.mem_append_right _ (List.mem_singleton_self _), decide_eq_true rfl⟩)

/-- The task that has just started is still there when a task stages its record. -/
theorem mem_tasks_stageTask (s : State) (i : Option CmdIdent) (q : QuireId) (k : TaskKind) (t : Task) (kind : Nat)
    (objs : List Obj) (hold : Option QuireId) :
    ∃ x ∈ ((s.startTask i q k).stageTask t kind objs hold).tasks, x.quire = q ∧ x.kind = k := by
  refine ⟨_, List.mem_map_of_mem (List.mem_append_right s.tasks (List.mem_singleton_self _)), ?_⟩
  split <;> exact ⟨rfl, rfl⟩

/-! ### tenant.open (R403, R558) -/

/-- The state in which a tenant.open has drawn the memory key of its slot, where the tenant wants encryption (R403). -/
def keyDrawn (c : Taken) (s : State) (n : Nat) : State :=
  if c.u8 0 = 1 then s else { s.drew with rot := { s.drew.rot with memKeys := insertSorted n s.rot.memKeys } }

theorem keyDrawn_frame (c : Taken) (s : State) (n : Nat) : ∃ r, keyDrawn c s n = { s with rot := r } ∧
    r.memKeys = if c.u8 0 = 1 then s.rot.memKeys else insertSorted n s.rot.memKeys := by
  unfold keyDrawn
  split
  · exact ⟨s.rot, rfl, rfl⟩
  · exact ⟨_, rfl, rfl⟩

/-- The certificate of the session that a slot is opened in (R404). -/
def sessionCert (s : State) : Option (List Byte) := match s.rot.session with | some x => x.cert | none => none

/-- The task of a tenant.open (R558). -/
def openTask (c : Taken) (n : Nat) : TaskKind := .tenantOpen n (c.u8 0 = 1) (bit (c.u8 1) 0) false false

/-- The state in which a tenant.open has begun its task, drawn its key, and left its leaves to the scrubber (R403, R411). -/
def openBegun (c : Taken) (s : State) (n : Nat) (q : QuireRec) : State :=
  (keyDrawn c (s.startTask (some c.ident) q.id (openTask c n)) n).soil q.leaves

theorem openBegun_frame (c : Taken) (s : State) (n : Nat) (q : QuireRec) : ∃ r,
    openBegun c s n q = ({ s.startTask (some c.ident) q.id (openTask c n) with rot := r } : State).soil q.leaves ∧
      r.memKeys = if c.u8 0 = 1 then s.rot.memKeys else insertSorted n s.rot.memKeys := by
  obtain ⟨r, drawn, keys⟩ := keyDrawn_frame c (s.startTask (some c.ident) q.id (openTask c n)) n
  exact ⟨r, congrArg (State.soil · q.leaves) drawn, keys⟩

/-- A tenant.open that nothing refuses stages the opened slot and the readmitted quire, and draws the slot's memory key. -/
theorem hTenantOpen_stages {c : Taken} {s : State} {n : Nat} {q : QuireRec} (ok : tenantOpenRefusal c s = none)
    (free : s.val.freeSlot = some n) (quire : s.val.quire c.pkt.quire = some q) :
    ∃ (t : State) (r : DurRec), hTenantOpen c s = (t, .accepted) ∧ t.ledger.unbuilt = s.ledger.unbuilt ++ [r] ∧
      r.objs = [.slot n (openedSlot q.id (c.u8 0 = 1) (bit (c.u8 1) 0) (sessionCert s)),
        .quire q.id (some { q with evicted := false })] ∧
      t.rot.memKeys = (if c.u8 0 = 1 then s.rot.memKeys else insertSorted n s.rot.memKeys) ∧ t.vis = s.vis := by
  obtain ⟨rot, frame, keys⟩ := openBegun_frame c s n q
  obtain ⟨x, started⟩ := startTask_found s (some c.ident) q.id (openTask c n)
  have found : (openBegun c s n q).task s.nextTask = some x := by
    rw [frame]
    exact started
  have runs : hTenantOpen c s = ((openBegun c s n q).stageTask x 1
      [.slot n (openedSlot q.id (c.u8 0 = 1) (bit (c.u8 1) 0) (sessionCert s)),
        .quire q.id (some { q with evicted := false })] (some q.id), .accepted) := by
    unfold hTenantOpen
    rw [ok, free, quire]
    dsimp only
    split
    · next y seen =>
      obtain rfl : x = y := Option.some.inj (found.symm.trans seen)
      rfl
    · next absent => exact nomatch absent.symm.trans found
  rw [frame] at runs
  exact ⟨_, _, runs, rfl, rfl, keys, rfl⟩

/-! ### key.install (R395, R405, R559) -/

section
variable {c : Taken} {s : State}

theorem hKeyInstall_installs (op : c.u8 0 = 0) (ok : keySlotRefusal c s = none) : hKeyInstall c s = installKey c s := by
  simp only [hKeyInstall, op, ok]

theorem hKeyInstall_retires (op : c.u8 0 = 1) (ok : keySlotRefusal c s = none) :
    let n := s.val.slotOf c.pkt.quire
    hKeyInstall c s = durable c (s.sendKeys c.pkt.quire 2 (s.val.slot n).prev []) [.slot n (s.val.slot n).retire]
      (some c.pkt.quire) [] := by
  simp only [hKeyInstall, op, ok]

theorem hKeyInstall_adds (op : c.u8 0 = 2) (ok : trustRefusal c s = none) : hKeyInstall c s =
    durable c s [.trust (insertNew (slice c.pkt.params 8 48) s.val.trust)] none [] := by
  simp only [hKeyInstall, op, ok]

theorem hKeyInstall_removes (op : c.u8 0 = 3) (ok : trustRefusal c s = none) : hKeyInstall c s =
    durable c s [.trust (s.val.trust.filter (· ≠ slice c.pkt.params 8 48))] none [] := by
  simp only [hKeyInstall, op, ok]

theorem durableRefusal_of_trustRefusal (ok : trustRefusal c s = none) : s.durableRefusal = none := by
  revert ok
  fun_cases trustRefusal c s <;> simp

end

/-! ### tenant.evict (R417, R560) -/

/-- What commands are validated against and what numbers the next task: ending operations leaves both. -/
def State.booked (s : State) : Ledger × Led × Nat := (s.ledger, s.stg.led, s.nextTask)

theorem Near.booked {s t : State} (h : Near s t) : t.booked = s.booked := by
  obtain ⟨_, _, _, rfl⟩ := h
  rfl

theorem failTask_booked (s : State) (t : Task) (st : Status) (res : List Byte) : (s.failTask t st res).booked = s.booked :=
  (failTask_near s t st res).booked

theorem endTask_booked (s : State) (t : Task) (st : Status) (res : List Byte) : (s.endTask t st res).booked = s.booked :=
  (near_completeCmd (s.dropTask t.id) _ _ _ _).booked

theorem scramble_booked (leaves : List Nat) (l : List (Nat × Nat)) (s : State) : (s.scramble leaves l).booked = s.booked := by
  induction l generalizing s with
  | nil => rfl
  | cons x l ih => exact ih _

theorem endOp_booked (s : State) (o : Op) (st : Status) : (s.endOp o st).booked = s.booked := by
  unfold State.endOp
  extract_lets fails ended filled
  have kept : filled.booked = s.booked := by
    unfold filled
    split
    · split
      · exact scramble_booked _ _ ended
      · rfl
    · rfl
  split
  · split
    · exact (failTask_booked _ _ _ _).trans kept
    · exact (endTask_booked _ _ _ _).trans kept
  · exact kept

theorem failOp_booked (s : State) (o : Op) (st : Status) : (s.failOp o st).booked = s.booked := by
  unfold State.failOp
  extract_lets ended
  split <;> exact endOp_booked s o st

theorem endOps_booked (s : State) (q : QuireId) (st : Status) : (s.endOps q st).booked = s.booked :=
  List.foldlRecOn (motive := fun t : State => t.booked = s.booked) _ _ rfl fun t kept o _ => (failOp_booked t o st).trans kept

theorem val_of_booked {s t : State} (kept : t.booked = s.booked) : t.val = s.val := by
  simp only [State.booked, Prod.mk.injEq] at kept
  obtain ⟨ledger, led, -⟩ := kept
  simp only [State.val, ledger, led]

/-- The state in which a tenant.evict has ended the quire's operations and begun its task (R417). -/
def evictBegun (c : Taken) (s : State) : State :=
  (s.endOps c.pkt.quire .keyRevoked).startTask (some c.ident) c.pkt.quire
    (.evict (s.val.slotOf c.pkt.quire) ((drainBound (c.u16 0)).getD Config.defaultDrain) .revoke 0)

theorem evictBegun_found (c : Taken) (s : State) : ∃ t, (evictBegun c s).task s.nextTask = some t := by
  have named : (s.endOps c.pkt.quire .keyRevoked).nextTask = s.nextTask := congrArg (·.2.2) (endOps_booked s _ _)
  rw [← named]
  exact startTask_found _ _ _ _

theorem evictBegun_val (c : Taken) (s : State) : (evictBegun c s).val = s.val :=
  val_of_booked (t := s.endOps c.pkt.quire .keyRevoked) (endOps_booked s _ _)

/-- A tenant.evict that nothing refuses stages its slot as revoking, and waits as a task. -/
theorem hTenantEvict_stages {c : Taken} {s : State} (ok : tenantEvictRefusal c s = none) :
    let n := s.val.slotOf c.pkt.quire
    ∃ t : State, hTenantEvict c s = (t, .accepted) ∧
      (∃ r ∈ t.ledger.unbuilt, r.quire = some c.pkt.quire ∧ r.objs = [.slot n { s.val.slot n with state := .revoking }]) ∧
      ∃ x ∈ t.tasks, x.quire = c.pkt.quire ∧
        x.kind = .evict n ((drainBound (c.u16 0)).getD Config.defaultDrain) .revoke 0 := by
  intro n
  obtain ⟨t, found⟩ := evictBegun_found c s
  have runs : hTenantEvict c s = ((evictBegun c s).stageTask t 1
      [.slot n { (evictBegun c s).val.slot n with state := .revoking }] (some c.pkt.quire), .accepted) := by
    unfold hTenantEvict
    rw [ok]
    dsimp only
    split
    · next u seen =>
      obtain rfl : t = u := Option.some.inj (found.symm.trans seen)
      rfl
    · next absent => exact nomatch absent.symm.trans found
  rw [evictBegun_val] at runs
  exact ⟨_, runs, ⟨_, List.mem_append_right _ (List.mem_singleton_self _), rfl, rfl⟩, mem_tasks_stageTask _ _ _ _ _ _ _ _⟩

/-- A mem.scrub that nothing refuses runs over its range as a task. -/
theorem hMemScrub_starts {c : Taken} {s : State} {q : QuireRec} (quire : s.val.quire c.pkt.quire = some q)
    (ok : memScrubRefusal c s q = none) : hMemScrub c s =
      multi c s (.scrub (scrubRange c q).1 (scrubRange c q).2 (scrubRange c q).2) := by
  simp only [hMemScrub, quire, ok]

/-- Settles O21, clause by clause, each from what its handler answers. -/
theorem tenantCommandsRun : Obligations.TenantCommandsRun := by
  unfold Obligations.TenantCommandsRun
  refine ⟨?open_, ?install, ?retire, ?add, ?remove, ?evict, ?scrub⟩
  case open_ =>
    intro s p n q taken ok free quire a cert
    obtain ⟨t, r, answer, unbuilt, objs, keys, view⟩ := hTenantOpen_stages ok free quire
    exact ⟨t, r, congrArg Host.Outcome.next (present_accepts taken answer), unbuilt, objs, keys, view⟩
  case install =>
    intro s p taken op ok
    exact congrArg Host.Outcome.next (present_accepts taken (hKeyInstall_installs (c := s.takenOf 0x0802 p) op ok))
  case retire =>
    intro s p taken op ok a n works
    exact congrArg Host.Outcome.next (present_stages taken works (hKeyInstall_retires (c := s.takenOf 0x0802 p) op ok))
  case add =>
    intro s p taken op ok
    exact congrArg Host.Outcome.next (present_stages taken (durableRefusal_of_trustRefusal ok)
      (hKeyInstall_adds (c := s.takenOf 0x0802 p) op ok))
  case remove =>
    intro s p taken op ok
    exact congrArg Host.Outcome.next (present_stages taken (durableRefusal_of_trustRefusal ok)
      (hKeyInstall_removes (c := s.takenOf 0x0802 p) op ok))
  case evict =>
    intro s p taken ok a
    obtain ⟨t, answer, staged, task⟩ := hTenantEvict_stages ok
    exact ⟨t, congrArg Host.Outcome.next (present_accepts taken answer), staged, task⟩
  case scrub =>
    intro s p q taken quire ok x
    exact congrArg Host.Outcome.next (present_accepts taken (hMemScrub_starts (c := s.takenOf 0x0804 p) quire ok))

/-! ### What the RoT core sends (R396, R506, R516) -/

/-- The house sessions, and what the RoT core has sent: carrying a message leaves both. -/
def State.talk (s : State) : List HouseSession × List (Coord × List Byte) := (s.rot.house, s.rot.sent)

theorem countSlots_talk (s : State) (q : QuireId) (place : RingPlace) (taken released : Nat) :
    (s.countSlots q place taken released).talk = s.talk := by
  unfold State.countSlots
  split <;> rfl

theorem sealBody_talk (s : State) (q : QuireId) (h : LinkHdr) (fmt : Nat) (body : List Byte) :
    (s.sealBody q h fmt body).2.2.2.talk = s.talk := by
  unfold State.sealBody
  extract_lets n k
  split
  · split <;> rfl
  · split
    · split <;> rfl
    · rfl

theorem originate_talk (s : State) (q : QuireId) (dst : Coord) (seq : Nat) (multi : Bool) (fmt : Nat) (body : List Byte) :
    (s.originate q dst seq multi fmt body).talk = s.talk := by
  unfold State.originate
  extract_lets key
  split
  · rfl
  · exact (countSlots_talk _ _ _ _ _).trans (sealBody_talk s q _ fmt body)

theorem flushFlow_talk (q : QuireId) (dst : Coord) (n : Nat) (s : State) : (s.flushFlow q dst n).talk = s.talk := by
  induction n generalizing s with
  | zero => rfl
  | succ n ih =>
    unfold State.flushFlow
    extract_lets f
    split
    · rfl
    · split
      · rfl
      · exact (ih _).trans (originate_talk _ _ _ _ _ _ _)

theorem sendBody_talk (s : State) (q : QuireId) (dst : Coord) (fmt : Nat) (body : List Byte) :
    (s.sendBody q dst fmt body).talk = s.talk := flushFlow_talk _ _ _ _

/-- A message of the RoT core is the last it has sent; the house sessions stay. -/
theorem rotSend_talk (s : State) (peer : Coord) (msg : List Byte) :
    (s.rotSend peer msg).talk = (s.rot.house, s.rot.sent ++ [(peer, msg)]) := by
  unfold State.rotSend
  dsimp only
  split
  · rfl
  · exact sendBody_talk _ _ _ _ _

/-! ### House sessions (R396, R397) -/

theorem execHouseSessionStart_starts {s : State} {c : Coord} (peer : s.sessionPeer c = true) (ready : s.entropyReady = true)
    (new : s.rot.house.any (·.peer = c) = false) : exec (.houseSessionStart c) s =
      .next (({ s with rot := { s.rot with house := s.rot.house ++
        [({ peer := c, up := false, tries := 0, since := s.now, key := 0 } : HouseSession)] } }).requestSession c) := by
  simp only [exec, execHouseSessionStart, peer, ready, new]
  rfl

/-- The house sessions after one that stands was changed. -/
theorem house_updHouse {s : State} {c : Coord} {h : HouseSession} {f : HouseSession → HouseSession}
    (kept : ∀ x, (f x).peer = x.peer) (stands : s.rot.house.find? (·.peer = c) = some h) :
    (s.updHouse c f).rot.house.find? (·.peer = c) = some (f h) := by
  rw [updHouse_rot, find?_modWhere (fun x there => by simpa [kept] using there), stands]
  rfl

/-- The state in which the session with a peer is up, under a key that is free (R397). -/
def sessionUp (s : State) (c : Coord) : State :=
  s.freeNat.2.updHouse c fun h => { h with up := true, tries := 0, key := s.freeNat.1 }

section
variable {s : State} {c : Coord} {h : HouseSession} (stands : s.rot.house.find? (·.peer = c) = some h)
include stands

section
variable (down : h.up = false) (late : 1024 ≤ s.since h.since)
include down late

theorem execHouseSessionRetry_first (tries : h.tries = 0) : exec (.houseSessionRetry c) s =
    .next ((s.updHouse c fun h => { h with tries := 1, since := s.now }).requestSession c) := by
  simp [exec, execHouseSessionRetry, stands, down, late.not_gt, tries]

theorem execHouseSessionRetry_second (tries : h.tries = 1) : exec (.houseSessionRetry c) s = .next (s.sessionLost c) := by
  simp [exec, execHouseSessionRetry, stands, down, late.not_gt, tries]
end

/-- A message that ends the establishment well brings the session up under a new key. -/
theorem execSpdmMessageRx_up (live : h.tries ≤ 1) (msg : List Byte) : ∃ t : State,
    exec (.spdmMessageRx c msg true true) s = .next t ∧
      t.rot.house.find? (·.peer = c) = some { h with up := true, tries := 0, key := Config.freeNat s.freeCtr } := by
  have two : ¬ 2 ≤ h.tries := by omega
  have runs : exec (.spdmMessageRx c msg true true) s =
      .next (if cGath c = 63 then (sessionUp s c).announceAll else sessionUp s c) := by
    simp only [exec, execSpdmMessageRx, stands, if_neg two]
    rfl
  have found : (sessionUp s c).rot.house.find? (·.peer = c) =
      some { h with up := true, tries := 0, key := Config.freeNat s.freeCtr } :=
    house_updHouse (s := s.freeNat.2) (fun _ => rfl) stands
  refine ⟨_, runs, ?_⟩
  split
  · obtain ⟨n, ps, told⟩ := announceAll_ctlOnly (sessionUp s c)
    rw [told]
    exact found
  · exact found

theorem execSpdmMessageRx_lost (tries : h.tries = 1) (msg : List Byte) :
    exec (.spdmMessageRx c msg true false) s = .next (s.sessionLost c) := by
  simp [exec, execSpdmMessageRx, stands, tries]

/-- A message that does not end the exchange is answered, and the sessions stay. -/
theorem execSpdmMessageRx_answered (live : h.tries ≤ 1) (msg : List Byte) (good : Bool) :
    ∃ (t : State) (m : List Byte), exec (.spdmMessageRx c msg false good) s = .next t ∧ t.rot.house = s.rot.house ∧
      t.rot.sent = s.rot.sent ++ [(c, m)] := by
  have two : ¬ 2 ≤ h.tries := by omega
  simp only [exec, execSpdmMessageRx, stands, if_neg two]
  exact ⟨_, _, rfl, Prod.mk.inj (rotSend_talk _ c _)⟩

end

/-! ### Key messages (R405, R517) -/

theorem execKeyMessageAnswerRx_answered {s : State} {c : Coord} {msg : List Byte} {m : KeyMsg} (waits : m ∈ s.rot.keyMsgs)
    (peer : m.peer = c) (op : m.op = field msg 0 1) (quire : m.quire = field msg 2 2) (epoch : m.epoch = field msg 4 2) :
    exec (.keyMessageAnswerRx c msg) s = .next (({ s with rot := { s.rot with keyMsgs := s.rot.keyMsgs.filter fun m =>
      !(m.peer = c && m.op = field msg 0 1 && m.quire = field msg 2 2 && m.epoch = field msg 4 2) } }).keysAnswered
        (field msg 2 2)) := by
  simp only [exec, execKeyMessageAnswerRx]
  exact if_pos (List.any_eq_true.mpr ⟨m, waits, by simp [peer, op, quire, epoch]⟩)

theorem execKeyMessageTimeout_late {s : State} {c : Coord} {q : QuireId} {m : KeyMsg} (waits : m ∈ s.rot.keyMsgs)
    (peer : m.peer = c) (quire : m.quire = q) (late : 1024 ≤ s.since m.sent) :
    exec (.keyMessageTimeout c q) s = .next ((({ s with rot := { s.rot with keyMsgs := s.rot.keyMsgs.filter fun m =>
      !(m.peer = c && m.quire = q && 1024 ≤ s.since m.sent) } }).fault 2 0x0C c).keysAnswered q) := by
  simp only [exec, execKeyMessageTimeout]
  exact if_pos (List.any_eq_true.mpr ⟨m, waits, by simp [peer, quire, late]⟩)

/-! ### Attestation (R524) -/

/-- The task of an ident.attest. -/
def isAttest (t : Task) : Bool := match t.kind with | .attest _ => true | _ => false

/-- The boundaries since the command of a task was accepted. -/
def ageOf (s : State) (t : Task) : Nat := t.ident.elim 0 fun i => s.since i.accTick

section
variable {s : State} {t : Task} (first : s.tasks.find? isAttest = some t)
include first

/-- The response is for the oldest ident.attest, in time or too late. -/
theorem execSpdmResponse_judges (rsp : Option (List Byte)) (failed up down : Bool) (cert : Option (List Byte)) :
    exec (.spdmResponse rsp failed up down cert) s =
      if 256 < ageOf s t then .next (s.failTask t .opTimeout [])
      else .next (match rsp, t.kind with
        | some r, .attest x => if failed then s.failTask t .attestFail [] else s.attested t x r up down cert
        | _, _ => if ageOf s t < 256 then s else s.failTask t .opTimeout []) := by
  simp only [exec]
  unfold execSpdmResponse
  split
  · next absent => exact nomatch absent.symm.trans first
  · next u found =>
    obtain rfl : u = t := Option.some.inj (found.symm.trans first)
    rfl

theorem execSpdmResponse_late (late : 256 < ageOf s t) (rsp : Option (List Byte)) (failed up down : Bool)
    (cert : Option (List Byte)) : exec (.spdmResponse rsp failed up down cert) s = .next (s.failTask t .opTimeout []) := by
  rw [execSpdmResponse_judges first, if_pos late]

theorem execSpdmResponse_none (past : 256 ≤ ageOf s t) (failed up down : Bool) (cert : Option (List Byte)) :
    exec (.spdmResponse none failed up down cert) s = .next (s.failTask t .opTimeout []) := by
  simp [execSpdmResponse_judges first, past.not_gt]

variable {x : List Byte} (kind : t.kind = .attest x) (inTime : ageOf s t ≤ 256)
include kind inTime

theorem execSpdmResponse_failed (r : List Byte) (up down : Bool) (cert : Option (List Byte)) :
    exec (.spdmResponse (some r) true up down cert) s = .next (s.failTask t .attestFail []) := by
  simp [execSpdmResponse_judges first, kind, inTime.not_gt]

theorem execSpdmResponse_attested (r : List Byte) (up down : Bool) (cert : Option (List Byte)) :
    exec (.spdmResponse (some r) false up down cert) s = .next (s.attested t x r up down cert) := by
  simp [execSpdmResponse_judges first, kind, inTime.not_gt]
end

/-- Settles O36, row by row. -/
theorem houseSessionsRun : Obligations.HouseSessionsRun := by
  unfold Obligations.HouseSessionsRun
  refine ⟨?start, ?again, ?lost, ?up, ?bad, ?answer, ?key, ?silent, ?attest⟩
  case start => exact fun s c peer ready new => execHouseSessionStart_starts peer ready new
  case again => exact fun s c h stands down late tries => execHouseSessionRetry_first stands down late tries
  case lost => exact fun s c h stands down late tries => execHouseSessionRetry_second stands down late tries
  case up => exact fun s c msg h stands live => execSpdmMessageRx_up stands live msg
  case bad => exact fun s c msg h stands tries => execSpdmMessageRx_lost stands tries msg
  case answer => exact fun s c msg good h stands live => execSpdmMessageRx_answered stands live msg good
  case key =>
    exact fun s c msg m waits peer op quire epoch => execKeyMessageAnswerRx_answered waits peer op quire epoch
  case silent => exact fun s c q m waits peer quire late => execKeyMessageTimeout_late waits peer quire late
  case attest =>
    intro s t x up down cert first kind age
    exact ⟨fun past => execSpdmResponse_none first past false up down cert,
      fun inTime r => execSpdmResponse_failed first kind inTime r up down cert,
      fun inTime r => execSpdmResponse_attested first kind inTime r up down cert,
      fun late r bad => execSpdmResponse_late first late (some r) bad up down cert⟩

end Sys2Proof.Machine
end
